-- ==== Sys2Proof/Word.lean ====
section
/-! DEFINITION. The number helpers of the model: wrapping, two's complement, rounding, clamping, and the
little-endian byte order that R322 fixes for every path. Values of the object dictionary are raw integers
(the Q formats of R322 are held as their raw integer), bytes are naturals below 256. -/

namespace Sys2Proof

/-- Reduce to `w` bits (a counter marked "wraps"). -/
def wrapBits (w n : Nat) : Nat := n % 2 ^ w

/-- Reduce an integer to `w` bits. -/
def wrapInt (w : Nat) (x : Int) : Nat := (x % (2 ^ w : Int)).toNat

/-- Read `w` bits as two's complement. -/
def sextBits (w n : Nat) : Int :=
  if n % 2 ^ w < 2 ^ (w - 1) then ((n % 2 ^ w : Nat) : Int) else ((n % 2 ^ w : Nat) : Int) - (2 ^ w : Int)

/-- Reduce an integer to the range of `w`-bit two's complement. -/
def wrapSigned (w : Nat) (x : Int) : Int := sextBits w (wrapInt w x)

/-- Limit to a closed range. -/
def clampInt (lo hi x : Int) : Int := if x < lo then lo else if hi < x then hi else x

/-- Limit a natural to an upper bound. -/
def satNat (hi n : Nat) : Nat := if hi < n then hi else n

/-- The field of `n` that starts at bit `lsb` and is `width` bits wide. -/
def field (n lsb width : Nat) : Nat := (n / 2 ^ lsb) % 2 ^ width

/-- Bit `i` of `n`. -/
def bitOf (n i : Nat) : Bool := (n / 2 ^ i) % 2 == 1

/-- `n` with the field at `lsb` of `width` bits replaced by `v`. -/
def setField (n lsb width v : Nat) : Nat :=
  n - field n lsb width * 2 ^ lsb + (v % 2 ^ width) * 2 ^ lsb

/-- One bit as a number. -/
def b2n (b : Bool) : Nat := if b then 1 else 0

/-- `n` with bit `i` set to `b`. -/
def setBit (n i : Nat) (b : Bool) : Nat := setField n i 1 (b2n b)

/-- Quotient rounded up. -/
def ceilDiv (n d : Nat) : Nat := (n + d - 1) / d

/-- Quotient of integers rounded toward minus infinity (`d` positive). -/
def floorDiv (n : Int) (d : Nat) : Int := n / (d : Int)

/-- Quotient of integers rounded to the nearest, halves upward (`d` positive). -/
def roundDiv (n : Int) (d : Nat) : Int := (2 * n + d) / (2 * d : Int)

/-- Quotient of integers rounded up (`d` positive). -/
def ceilDivInt (n : Int) (d : Nat) : Int := -((-n) / (d : Int))

/-- Arithmetic shift right: floor of `x / 2^k`. -/
def asr (x : Int) (k : Nat) : Int := x / (2 ^ k : Int)

/-- The `k` low bytes of `n`, least significant first (R322). -/
def leBytes : Nat → Nat → List Nat
  | 0, _ => []
  | k + 1, n => n % 256 :: leBytes k (n / 256)

/-- The number that little-endian bytes spell. -/
def ofLe : List Nat → Nat
  | [] => 0
  | b :: bs => b % 256 + 256 * ofLe bs

/-- Little-endian bytes of a signed value in two's complement. -/
def leBytesInt (k : Nat) (x : Int) : List Nat := leBytes k (wrapInt (8 * k) x)

/-- The bytes `[lo, lo + n)` of a list; bytes past the end read 0. -/
def slice (bs : List Nat) (lo n : Nat) : List Nat := (List.range n).map fun i => bs.getD (lo + i) 0

/-- The number in bytes `[lo, lo + n)`, little-endian. -/
def leAt (bs : List Nat) (lo n : Nat) : Nat := ofLe (slice bs lo n)

/-- Integer square root by binary search over `k` bits: the largest `r < 2^k` with `r * r ≤ n`. -/
def isqrtBits : Nat → Nat → Nat → Nat
  | 0, acc, _ => acc
  | k + 1, acc, n => if (acc + 2 ^ k) * (acc + 2 ^ k) ≤ n then isqrtBits k (acc + 2 ^ k) n else isqrtBits k acc n

/-- A bit mask read as a list of flags, bit 0 first. -/
def bitsList (w n : Nat) : List Bool := (List.range w).map (bitOf n)

/-- The mask whose bit `i` is flag `i`. -/
def ofBits : List Bool → Nat
  | [] => 0
  | b :: bs => b2n b + 2 * ofBits bs

/-- Replace entry `i` of a list. -/
def setAt {α : Type} (l : List α) (i : Nat) (v : α) : List α := l.set i v

/-- Update entry `i` of a list. -/
def updAt {α : Type} (l : List α) (i : Nat) (f : α → α) : List α := l.modify i f

/-- Keep the last `n` elements (a ring that keeps its newest `n` records). -/
def lastN {α : Type} (n : Nat) (l : List α) : List α := l.drop (l.length - n)

/-- An exact fraction in lowest terms, with a positive denominator: times in ns between two clocks, rates in
parts per billion, and the estimates of the colour hold loop. -/
structure Frac where
  num : Int
  den : Nat
  deriving DecidableEq, Repr

/-- `n / d` in lowest terms (`0` where `d` is 0). -/
def frac (n : Int) (d : Nat) : Frac :=
  if d = 0 then ⟨0, 1⟩
  else
    let g := Nat.gcd n.natAbs d
    ⟨n / (g : Int), d / g⟩

/-- A whole number as a fraction. -/
def fracI (n : Int) : Frac := ⟨n, 1⟩

def fracAdd (a b : Frac) : Frac := frac (a.num * b.den + b.num * a.den) (a.den * b.den)
def fracNeg (a : Frac) : Frac := ⟨-a.num, a.den⟩
def fracSub (a b : Frac) : Frac := fracAdd a (fracNeg b)
def fracMul (a b : Frac) : Frac := frac (a.num * b.num) (a.den * b.den)
/-- Quotient (`0` where the divisor is 0). -/
def fracDiv (a b : Frac) : Frac :=
  if b.num < 0 then frac (-(a.num * b.den)) (a.den * b.num.natAbs)
  else frac (a.num * b.den) (a.den * b.num.natAbs)
def fracLe (a b : Frac) : Bool := a.num * b.den ≤ b.num * a.den
def fracLt (a b : Frac) : Bool := a.num * b.den < b.num * a.den
def fracMax (a b : Frac) : Frac := if fracLe a b then b else a
def fracMin (a b : Frac) : Frac := if fracLe a b then a else b
def fracAbs (a : Frac) : Frac := ⟨a.num.natAbs, a.den⟩
def fracClamp (lo hi a : Frac) : Frac := if fracLt a lo then lo else if fracLt hi a then hi else a
/-- Largest whole number not above `a`. -/
def fracFloor (a : Frac) : Int := a.num / (a.den : Int)
/-- Nearest whole number, halves upward. -/
def fracRound (a : Frac) : Int := roundDiv a.num a.den
/-- Smallest whole number not below `a`. -/
def fracCeil (a : Frac) : Int := ceilDivInt a.num a.den
/-- Scale by a whole number. -/
def fracScale (a : Frac) (n : Int) : Frac := frac (a.num * n) a.den
/-- Sum of a list. -/
def fracSum (l : List Frac) : Frac := l.foldl fracAdd (fracI 0)

end Sys2Proof
end

