-- ==== Sys2Proof/Syntax.lean ====
section
/-! DEFINITION. The commands and events of the block, one constructor per row of spec/opcode_table.json, and the
operands they carry: addresses, write paths, authentication trailers and the messages of each interface. -/

namespace Sys2Proof

/-- A network address: interface, IP version and address, UDP port. -/
structure Addr where
  iface : Nat
  v6 : Bool
  ip : Nat
  udp : Nat
  deriving DecidableEq, Repr

/-- The path a write takes (R328 SOURCE): a KOA message with its REQ_ID, CAN FD, the host core itself, or Serge. -/
inductive Path where
  | koa (a : Addr) (reqId : Nat)
  | can
  | host
  | serge
  deriving DecidableEq, Repr

/-- An authentication trailer (R346): slot, bytes [3:1], counter, tag bytes. -/
structure Trailer where
  slot : Nat
  pad : Nat
  counter : Nat
  tag : List Nat
  deriving DecidableEq, Repr

/-- How a write arrives: its path and its trailer, where it carries one. -/
structure WriteEnv where
  path : Path
  auth : Option Trailer
  deriving DecidableEq, Repr

/-- A received PTP message: domain, sequence number, clockIdentity of the sender, whether it is two-step, the time
it carries in ns (originTimestamp, receiveTimestamp, requestReceiptTimestamp or responseOriginTimestamp), its
correctionField in 2^-16 ns, and logMessageInterval. -/
structure PtpMsg where
  domain : Nat
  seq : Nat
  sender : Nat
  twoStep : Bool
  ns : Int
  corr : Int
  logInt : Int
  deriving DecidableEq, Repr

/-- The fields of a received Announce that the best master clock algorithm compares: domain, priority1, clockClass,
clockAccuracy, offsetScaledLogVariance, priority2, grandmasterIdentity, stepsRemoved, sender. -/
structure Announce where
  domain : Nat
  prio1 : Nat
  cls : Nat
  accuracy : Nat
  variance : Nat
  prio2 : Nat
  gm : Nat
  steps : Nat
  sender : Nat
  deriving DecidableEq, Repr

/-- What SELFTEST finds failed (R447), as masks: Serge cores, voters (bits as in SUP_OUTPUTS), an SRAM, Muslin units,
Calico paths (0 to 9, 10 matrix, 11 curves, 12 preview), bar slices, fire schedulers, links (16 + c: camera port c),
inspection units, Voile sinks. `steps` gives the test step that failed, by the code of the unit's event and its
instance; `delays` gives the device's own transmit and receive delays of each link in ps (R265). -/
structure SelfTest where
  cores : Nat
  voters : Nat
  sram : Bool
  muslin : Nat
  calico : Nat
  slices : Nat
  fire : Nat
  links : Nat
  ins : Nat
  sinks : Nat
  steps : List (Nat × Nat × Nat)
  delays : List Nat
  deriving DecidableEq, Repr

/-- An ENUM response (R252, R261): driver or camera serial, vendor, type, protocol version, T_FWD, T_RET, T_TURN and
T_PROC in ns, and for each head its serial and profile code; a camera gives one entry, with its profile code. -/
structure Identity where
  serial : Nat
  vendor : Nat
  type : Nat
  version : Nat
  tFwd : Nat
  tRet : Nat
  tTurn : Nat
  tProc : Nat
  heads : List (Nat × Nat)
  deriving DecidableEq, Repr

/-- A block error (R235): the link, and whether the block lies inside a line frame that arrives. -/
structure BlockErr where
  link : Nat
  inFrame : Bool
  deriving DecidableEq, Repr

/-- What Voile finds in a slot: the samples of the 32 sinks in its pulses (R274, R276), and the sinks whose offset the blank
finds outside ±5 %, as a mask (R280). -/
structure SlotMeas where
  samples : List (Nat × Nat)
  offs : Nat
  deriving DecidableEq, Repr

/-- The commands and events of spec/opcode_table.json, one constructor per row, with the facts about the outside
world that the row needs: which instance it concerns, the levels or readings found, the message received. -/
inductive Instr where
  /-- VIN_VALID (R427). -/
  | vinValid (mv : Nat)
  /-- PWR_PF_LOW (R427). -/
  | pwrPfLow (mv : Nat)
  /-- FIRST_VOTED_CYCLE (R390). -/
  | firstVotedCycle (sums : List Int)
  /-- HOST_BOOT_DONE (R444). -/
  | hostBootDone (image : Nat) (why : Nat)
  /-- DRAM_INIT_DONE (R117). -/
  | dramInitDone
  /-- STORED_VALUES_LOADED (R443). -/
  | storedValuesLoaded (damaged : List Nat)
  /-- SELFTEST_DONE (R447). -/
  | selftestDone (t : SelfTest)
  /-- CALIBRATE_DONE (R445), with the samples of the first Voile scan and of the later ones, by row (R294). -/
  | calibrateDone (done : Bool) (sinks : Nat) (first : List (List (Nat × Nat))) (later : List (List (List (Nat × Nat))))
  /-- DISCOVER_DONE (R446). -/
  | discoverDone (dark : List (Nat × List Nat))
  /-- SYS_CMD_ARM (R442). -/
  | sysCmdArm (e : WriteEnv)
  /-- SYS_CMD_PAUSE (R440). -/
  | sysCmdPause (e : WriteEnv)
  /-- SYS_CMD_RESUME (R441). -/
  | sysCmdResume (e : WriteEnv)
  /-- SYS_CMD_STOP (R437). -/
  | sysCmdStop (e : WriteEnv)
  /-- SYS_CMD_RELEASE (R439). -/
  | sysCmdRelease (e : WriteEnv)
  /-- SYS_SERVICE_ENTER (R437). -/
  | sysServiceEnter (e : WriteEnv)
  /-- SYS_SERVICE_LEAVE (R437). -/
  | sysServiceLeave (e : WriteEnv)
  /-- SYS_DEBUG_EN_WRITE (R456). -/
  | sysDebugEnWrite (e : WriteEnv) (v : Int)
  /-- SYS_BGEN_PIN_WRITE (R13). -/
  | sysBgenPinWrite (e : WriteEnv) (v : Int)
  /-- OBJECT_WRITE (R325). -/
  | objectWrite (e : WriteEnv) (ix : Nat) (sub : Nat) (ty : Nat) (bytes : List Nat)
  /-- KOA_READ (R334). -/
  | koaRead (a : Addr) (reqId : Nat) (items : List (Nat × Nat × Bool))
  /-- KOA_MESSAGE_DISCARD (R332). -/
  | koaMessageDiscard (i : Nat)
  /-- HELLO_RX (R345). -/
  | helloRx (a : Addr) (serial : Nat) (vendor : Nat) (product : Nat) (revision : Nat) (role : Nat) (period : Nat) (leaving : Bool)
  /-- HELLO_SEND (R339). -/
  | helloSend (i : Nat)
  /-- PARTNER_TIMEOUT (R345). -/
  | partnerTimeout (n : Nat)
  /-- NOTIFY_SEND (R338). -/
  | notifySend (n : Nat)
  /-- BULK_OPEN_RX (R340). -/
  | bulkOpenRx (a : Addr) (target : Nat) (read : Bool) (stream : Nat) (off : Nat) (len : Nat) (window : Nat) (pre : List Nat)
  /-- BULK_DATA_RX (R341). -/
  | bulkDataRx (a : Addr) (stream : Nat) (k : Nat) (data : List Nat) (crc : Nat) (share : Bool)
  /-- BULK_ACK_RX (R342). -/
  | bulkAckRx (a : Addr) (stream : Nat) (status : Nat) (window : Nat) (next : Nat) (sack : Nat)
  /-- BULK_CLOSE_RX (R343). -/
  | bulkCloseRx (a : Addr) (stream : Nat) (reason : Nat) (len : Nat)
  /-- BULK_IDLE_TIMEOUT (R343). -/
  | bulkIdleTimeout (a : Addr) (stream : Nat)
  /-- BULK_RESEND_TIMEOUT (R342). -/
  | bulkResendTimeout (a : Addr) (stream : Nat)
  /-- BULK_SEND_ABANDON (R342). -/
  | bulkSendAbandon (a : Addr) (stream : Nat)
  /-- BULK_WINDOW_REOPEN (R342). -/
  | bulkWindowReopen
  /-- AUTH_LOCKOUT_END (R349). -/
  | authLockoutEnd
  /-- AUTH_FAILURE_EXPIRE (R349). -/
  | authFailureExpire
  /-- SEC_KEY_PROGRAM (R350). -/
  | secKeyProgram (e : WriteEnv) (bytes : List Nat)
  /-- SEC_KEY_REVOKE (R350). -/
  | secKeyRevoke (e : WriteEnv) (slot : Nat)
  /-- NMT_START (R354). -/
  | nmtStart (node : Nat)
  /-- NMT_STOP (R354). -/
  | nmtStop (node : Nat)
  /-- NMT_ENTER_PRE_OPERATIONAL (R354). -/
  | nmtEnterPreOperational (node : Nat)
  /-- NMT_RESET_NODE (R354). -/
  | nmtResetNode (node : Nat)
  /-- NMT_RESET_COMMUNICATION (R354). -/
  | nmtResetCommunication (node : Nat)
  /-- HEARTBEAT_PRODUCE (R355). -/
  | heartbeatProduce
  /-- HEARTBEAT_RX (R355). -/
  | heartbeatRx (node : Nat)
  /-- CAN_HB_LOST (R355). -/
  | canHbLost (i : Nat)
  /-- EMCY_SEND (R356). -/
  | emcySend
  /-- CAN_ERR_HIST_CLEAR (R356). -/
  | canErrHistClear (e : WriteEnv)
  /-- SDO_INITIATE_DOWNLOAD (R357). -/
  | sdoInitiateDownload (ix : Nat) (sub : Nat) (expedited : Bool) (size : Nat) (data : List Nat)
  /-- SDO_DOWNLOAD_SEGMENT (R357). -/
  | sdoDownloadSegment (toggle : Bool) (last : Bool) (data : List Nat)
  /-- SDO_INITIATE_UPLOAD (R357). -/
  | sdoInitiateUpload (ix : Nat) (sub : Nat)
  /-- SDO_UPLOAD_SEGMENT (R357). -/
  | sdoUploadSegment (toggle : Bool)
  /-- SDO_ABORT_RX (R357). -/
  | sdoAbortRx
  /-- SDO_SEGMENT_TIMEOUT (R357). -/
  | sdoSegmentTimeout
  /-- TPDO_SEND (R358). -/
  | tpdoSend (t : Nat)
  /-- CAN_BUS (R353). -/
  | canBus (st : Nat) (rec_ : Nat) (tec : Nat)
  /-- CAN_BUS_OFF_RECOVERY (R353). -/
  | canBusOffRecovery
  /-- NET_LINK (R361). -/
  | netLink (i : Nat) (up : Bool)
  /-- PTP_SYNC_RX (R374). -/
  | ptpSyncRx (m : PtpMsg)
  /-- PTP_FOLLOW_UP_RX (R374). -/
  | ptpFollowUpRx (m : PtpMsg)
  /-- PTP_DELAY_REQ_RX (R369). -/
  | ptpDelayReqRx (m : PtpMsg)
  /-- PTP_DELAY_RESP_RX (R374). -/
  | ptpDelayRespRx (m : PtpMsg)
  /-- PTP_PDELAY_REQ_RX (R369). -/
  | ptpPdelayReqRx (m : PtpMsg) (turn : Nat)
  /-- PTP_PDELAY_RESP_RX (R374). -/
  | ptpPdelayRespRx (m : PtpMsg)
  /-- PTP_PDELAY_RESP_FOLLOW_UP_RX (R364). -/
  | ptpPdelayRespFollowUpRx (m : PtpMsg)
  /-- PTP_ANNOUNCE_RX (R378). -/
  | ptpAnnounceRx (a : Announce)
  /-- PTP_IGNORED_RX (R364). -/
  | ptpIgnoredRx
  /-- PTP_SYNC_SEND (R369). -/
  | ptpSyncSend
  /-- PTP_ANNOUNCE_SEND (R365). -/
  | ptpAnnounceSend
  /-- PTP_DELAY_REQ_SEND (R374). -/
  | ptpDelayReqSend
  /-- PTP_PDELAY_REQ_SEND (R374). -/
  | ptpPdelayReqSend
  /-- ANNOUNCE_TIMEOUT (R378). -/
  | announceTimeout
  /-- RATE_STEP (R376). -/
  | rateStep
  /-- TIM_ANCHOR (R381). -/
  | timAnchor
  /-- TIM_FREQ_STORE (R377). -/
  | timFreqStore
  /-- TIM_STEP_SET (R375). -/
  | timStepSet (e : WriteEnv) (v : Int)
  /-- TIM_IFACE_WRITE (R366). -/
  | timIfaceWrite (e : WriteEnv) (v : Nat)
  /-- TIM_DOMAIN_WRITE (R366). -/
  | timDomainWrite (e : WriteEnv) (v : Nat)
  /-- TIM_CFG_WRITE (R366). -/
  | timCfgWrite (e : WriteEnv) (v : Nat)
  /-- TIM_NOW_SEC_READ (R371). -/
  | timNowSecRead
  /-- ENC_EDGE (R45). -/
  | encEdge (n : Nat) (aLeads : Bool)
  /-- ENC_ILLEGAL (R34). -/
  | encIllegal (n : Nat)
  /-- ENC_LOSS (R35). -/
  | encLoss (n : Nat) (sig : Nat)
  /-- ENC_SIGNAL_RETURN (R35). -/
  | encSignalReturn (n : Nat) (sig : Nat) (a : Bool) (b : Bool)
  /-- INDEX (R37). -/
  | index (n : Nat)
  /-- SLIP_WINDOW_END (R41). -/
  | slipWindowEnd
  /-- WEB_STANDSTILL (R47). -/
  | webStandstill
  /-- WEB_POS_SET (R31). -/
  | webPosSet (e : WriteEnv) (v : Int)
  /-- PROBE_EDGE (R52). -/
  | probeEdge (n : Nat) (rising : Bool)
  /-- PRB_WINDOW_CLOSE (R51). -/
  | prbWindowClose (n : Nat)
  /-- PRB_MISSED (R51). -/
  | prbMissed (n : Nat)
  /-- PRB_WINDOW_WRITE (R51). -/
  | prbWindowWrite (e : WriteEnv) (n : Nat) (part : Nat) (v : Int)
  /-- HSW_CHANGE (R55). -/
  | hswChange (n : Nat) (high : Bool) (pos : Int) (et : Nat)
  /-- SSI_TRANSFER_START (R59). -/
  | ssiTransferStart (n : Nat)
  /-- SSI_TRANSFER_DONE (R60). -/
  | ssiTransferDone (n : Nat) (raw : Nat) (idleHigh : Bool) (err : Bool)
  /-- LINE_COMMIT (R67). -/
  | lineCommit (r : Nat)
  /-- OVERSPEED_WARN (R76). -/
  | overspeedWarn
  /-- OVERSPEED_WARN_END (R76). -/
  | overspeedWarnEnd
  /-- OVERSPEED (R77). -/
  | overspeed
  /-- OVERSPEED_END (R76). -/
  | overspeedEnd
  /-- OVERSPEED_STOP (R79). -/
  | overspeedStop
  /-- OVERSPEED_STOP_RELEASE (R79). -/
  | overspeedStopRelease
  /-- HALFLINE_RETURN (R80). -/
  | halflineReturn
  /-- LCK_ALIGN_STORE (R73). -/
  | lckAlignStore (e : WriteEnv)
  /-- JOB_COMMIT (R162). -/
  | jobCommit (e : WriteEnv)
  /-- SETUP_INSTANT (R163). -/
  | setupInstant
  /-- FRAME_SRC_ABSENT_TICK (R89). -/
  | frameSrcAbsentTick
  /-- FRAME_START (R85). -/
  | frameStart
  /-- JOB_END (R92). -/
  | jobEnd
  /-- COMPOSE_LINE_START (R103). -/
  | composeLineStart
  /-- COMPOSE_LINE_DONE (R105). -/
  | composeLineDone
  /-- COMP_LATE (R105). -/
  | compLate
  /-- COMP_STARVED (R106). -/
  | compStarved
  /-- MEM_PLAN_APPLY (R98). -/
  | memPlanApply (e : WriteEnv)
  /-- MEM_LS_DELETE (R112). -/
  | memLsDelete (e : WriteEnv) (id : Nat)
  /-- MEM_LS_CLEAR (R112). -/
  | memLsClear (e : WriteEnv)
  /-- MEM_ECC_INJECT (R118). -/
  | memEccInject (e : WriteEnv) (v : Nat)
  /-- MEM_CE (R114). -/
  | memCe (area : Nat) (addr : Nat)
  /-- MEM_UE (R116). -/
  | memUe (area : Nat) (addr : Nat) (unit : Nat) (line : Int)
  /-- SCRUB_PASS_DONE (R115). -/
  | scrubPassDone
  /-- BAR_LINE_PREPARE (R178). -/
  | barLinePrepare (r : Nat)
  /-- TABLE_LOAD_DONE (R203). -/
  | tableLoadDone (r : Nat)
  /-- JQ_NOZ_STATE_WRITE (R197). -/
  | jqNozStateWrite (e : WriteEnv) (b : Nat) (v : Nat)
  /-- JQ_HEAD_STORE (R198). -/
  | jqHeadStore (e : WriteEnv)
  /-- JQ_SLICE_SWAP (R207). -/
  | jqSliceSwap (e : WriteEnv) (b : Nat)
  /-- LINE_TX_DONE (R226). -/
  | lineTxDone (p : Nat)
  /-- IDLE_EXIT (R257). -/
  | idleExit (p : Nat)
  /-- TRAINING_DONE (R255). -/
  | trainingDone (i : Nat) (margins : List (List Nat))
  /-- TRAINING_TIMEOUT (R254). -/
  | trainingTimeout (i : Nat)
  /-- ALIGN_SET_RX (R237). -/
  | alignSetRx (i : Nat) (lanes : List (Nat × Nat × Int))
  /-- BLOCK_ERROR (R235). -/
  | blockError (e : BlockErr)
  /-- LINK_LOCK_LOST (R258). -/
  | linkLockLost (i : Nat) (clock : Bool)
  /-- ENUM_STEP (R252). -/
  | enumStep (i : Nat)
  /-- DRIVER_ENUM (R252). -/
  | driverEnum (p : Nat) (addr : Nat) (id : Identity)
  /-- LATENCY_MEASURED (R253). -/
  | latencyMeasured (i : Nat) (addr : Nat) (sumPs : Nat)
  /-- CHAIN_END (R254). -/
  | chainEnd (p : Nat)
  /-- RSP_RX (R248). -/
  | rspRx (i : Nat) (tag : Nat) (result : Nat) (value : Nat)
  /-- LINE_FAIL_RX (R247). -/
  | lineFailRx (p : Nat) (row : Nat) (result : Nat) (line : Nat)
  /-- STATUS_RX (R250). -/
  | statusRx (p : Nat) (addr : Nat) (word : Nat)
  /-- DRIVER_SILENT (R250). -/
  | driverSilent (p : Nat) (addr : Nat)
  /-- CMD_RESP_TIMEOUT (R249). -/
  | cmdRespTimeout (i : Nat) (tag : Nat)
  /-- RECOVERY_DONE (R258). -/
  | recoveryDone (i : Nat)
  /-- RECOVERY_TIMEOUT (R259). -/
  | recoveryTimeout (i : Nat)
  /-- HOTPLUG_ARRIVAL (R260). -/
  | hotplugArrival (i : Nat) (serial : Nat)
  /-- YQL_DISCOVER (R260). -/
  | yqlDiscover (e : WriteEnv)
  /-- RETUNE_TRIAL (R256). -/
  | retuneTrial (i : Nat) (margin : Nat)
  /-- RETUNE_TRIAL_END (R256). -/
  | retuneTrialEnd (i : Nat) (margin : Nat)
  /-- CAMERA_ENUM (R261). -/
  | cameraEnum (c : Nat) (id : Identity)
  /-- CAMERA_LINE_RX (R263). -/
  | cameraLineRx (c : Nat) (line : Nat) (words : List Nat) (crc : Nat)
  /-- CAM_LINE_MISSING (R263). -/
  | camLineMissing (c : Nat)
  /-- YQL_RW_DATA_WRITE (R248). -/
  | yqlRwDataWrite (e : WriteEnv) (v : Nat)
  /-- YQL_RW_DATA_READ (R248). -/
  | yqlRwDataRead
  /-- SCAN_SLOT (R268). -/
  | scanSlot (m : SlotMeas)
  /-- HR_PERIOD_END (R274). -/
  | hrPeriodEnd
  /-- VOI_PWR_RECOVER_STEP (R275). -/
  | voiPwrRecoverStep
  /-- VOI_UNVERIFY (R277). -/
  | voiUnverify (k : Nat) (c : Nat)
  /-- VOI_UNVERIFIED (R278). -/
  | voiUnverified (k : Nat) (c : Nat)
  /-- INS_DARK (R283). -/
  | insDark
  /-- INS_WHITE_CAPTURE (R284). -/
  | insWhiteCapture (e : WriteEnv)
  /-- WHITE_CAPTURE_DONE (R284). -/
  | whiteCaptureDone
  /-- WHITE_CAPTURE_TIMEOUT (R284). -/
  | whiteCaptureTimeout
  /-- INS_WHITE_STORE (R284). -/
  | insWhiteStore (e : WriteEnv)
  /-- WINDOW_RECORD_DONE (R288). -/
  | windowRecordDone
  /-- INS_UPL_PERIOD (R291). -/
  | insUplPeriod
  /-- INS_UPL_NOW (R291). -/
  | insUplNow (e : WriteEnv) (mask : Nat)
  /-- UPLOAD_BLOCK_READY (R291). -/
  | uploadBlockReady
  /-- LOOP_UPDATE_DONE (R309). -/
  | loopUpdateDone (e : Nat)
  /-- CHL_LATE (R319). -/
  | chlLate
  /-- CHL_REQUAL (R313). -/
  | chlRequal (e : WriteEnv) (mask : Nat)
  /-- CHL_STORE (R314). -/
  | chlStore (e : WriteEnv)
  /-- CHL_REF_TAKE (R320). -/
  | chlRefTake (e : WriteEnv) (mask : Nat)
  /-- LOOP_FLUSH_START (R316). -/
  | loopFlushStart
  /-- LOOP_FLUSH_DONE (R316). -/
  | loopFlushDone
  /-- SERGE_CYCLE (R386). -/
  | sergeCycle (res : List (Option (Nat × Nat)))
  /-- CORE_RELOAD_DONE (R388). -/
  | coreReloadDone (c : Nat)
  /-- CORE_PROBATION_END (R388). -/
  | coreProbationEnd (c : Nat)
  /-- SERGE_RESTART_DONE (R387). -/
  | sergeRestartDone
  /-- STOP_IN_LOW (R391). -/
  | stopInLow
  /-- STOP_IN_HIGH (R391). -/
  | stopInHigh
  /-- SUP_RESET_HOST (R394). -/
  | supResetHost (e : WriteEnv)
  /-- SUP_RESET_DEVICE (R394). -/
  | supResetDevice (e : WriteEnv)
  /-- SUP_STOP_CMD_WRITE (R392). -/
  | supStopCmdWrite (e : WriteEnv) (v : Nat)
  /-- HOST_WD_SIGNAL (R395). -/
  | hostWdSignal
  /-- HOST_WD_TIMEOUT (R395). -/
  | hostWdTimeout
  /-- HOST_TRAP (R395). -/
  | hostTrap
  /-- HOST_RESTART_DONE (R395). -/
  | hostRestartDone
  /-- ENGINE_WD_TIMEOUT (R398). -/
  | engineWdTimeout (e : Nat)
  /-- ENGINE_RESTART_DONE (R398). -/
  | engineRestartDone (e : Nat)
  /-- SLICE_INTERNAL_FAULT (R399). -/
  | sliceInternalFault (b : Nat) (tables : Bool)
  /-- SLICE_STALL (R399). -/
  | sliceStall (b : Nat)
  /-- SWITCHOVER_DONE (R402). -/
  | switchoverDone (b : Nat)
  /-- SLICE_RETEST_DONE (R406). -/
  | sliceRetestDone (slice : Nat) (pass : Bool)
  /-- SPARE_TEST_START (R407). -/
  | spareTestStart
  /-- SPARE_TEST_DONE (R407). -/
  | spareTestDone (pass : Bool)
  /-- SUP_DEADLINE (R408). -/
  | supDeadline (n : Nat) (us : Nat)
  /-- THM_SENSOR_POLL (R412). -/
  | thmSensorPoll (raws : List Int) (diags : List Nat) (mv : List Nat)
  /-- GOV_EVAL (R419). -/
  | govEval (pin : Nat)
  /-- GOV_LIMIT_STEP (R418). -/
  | govLimitStep
  /-- GOV_LIMIT_RECOVER (R418). -/
  | govLimitRecover
  /-- GOV_UNSHED (R419). -/
  | govUnshed
  /-- THM_ACK (R422). -/
  | thmAck (e : WriteEnv)
  /-- THM_AUTO_RESUME_EXIT (R422). -/
  | thmAutoResumeExit
  /-- VMON_CROSSING (R423). -/
  | vmonCrossing (r : Nat) (level : Nat) (high : Bool) (mv : Nat)
  /-- AVS_STEP (R425). -/
  | avsStep (slack : List Int)
  /-- BG_RENEW (R426). -/
  | bgRenew
  /-- POWER_FAIL (R428). -/
  | powerFail (mv : Nat)
  /-- POWER_SAVE_DONE (R429). -/
  | powerSaveDone
  /-- VIN_OFF (R432). -/
  | vinOff
  /-- LIFE_COUNTER_RENEW (R430). -/
  | lifeCounterRenew
  /-- REFCLK_FAIL (R466). -/
  | refclkFail
  /-- EVT_STAGING_DRAIN (R454). -/
  | evtStagingDrain
  /-- EVT_OUT_PULSE_END (R453). -/
  | evtOutPulseEnd (n : Nat)
  /-- EVT_LOG_CLEAR (R455). -/
  | evtLogClear (e : WriteEnv)
  /-- FRAM_VALUE_STORE_DONE (R329). -/
  | framValueStoreDone
  /-- NOR_TABLE_STORE_DONE (R329). -/
  | norTableStoreDone
  /-- REFCLK_RETURN (R466). -/
  | refclkReturn
  /-- IDLE_ENTRY_DELAY_END (R226). -/
  | idleEntryDelayEnd (p : Nat)
  /-- BOUNDARY_SCAN_INSTRUCTION (R456). -/
  | boundaryScanInstruction
  deriving DecidableEq, Repr

end Sys2Proof
end

