-- ==== Sys2Proof/Machine/Muslin.lean ====
section
/-! DEFINITION. The Muslin line codec (chapter 5) as functions of data: predictors and residues (R123 to R125), bit
order and segments (R126 to R129), the device's encoder rules (R135, R136), web-buffer sections (R102, R130), streams
(R132 to R134) and the decoder with its guards (R138 to R140). -/

namespace Sys2Proof.Machine

/-! ### Bits -/

/-- The 8 bits of a byte, most significant first (R126). -/
def byteBits (b : Nat) : List Bool := (List.range 8).map fun i => bitOf b (7 - i)
/-- The bit string of a list of bytes. -/
def bytesBits (l : List Nat) : List Bool := l.flatMap byteBits
/-- The number that a bit string spells, most significant bit first. -/
def bitsNum (l : List Bool) : Nat := l.foldl (fun acc b => 2 * acc + b2n b) 0
/-- `w` bits of a number, most significant first. -/
def numBits (w n : Nat) : List Bool := (List.range w).map fun i => bitOf n (w - 1 - i)

/-- The bytes of a bit string whose length is a multiple of 8; `k` bytes are taken. -/
def packBytes : Nat → List Bool → List Nat
  | 0, _ => []
  | k + 1, l => bitsNum (l.take 8) :: packBytes k (l.drop 8)

/-- A bit string padded with zero bits to a multiple of `unit` bits, as bytes. -/
def packBits (unit : Nat) (l : List Bool) : List Nat :=
  let n := ceilDiv l.length unit * unit
  packBytes (n / 8) (l ++ List.replicate (n - l.length) false)

/-- The first `n` bits and the rest; none when there are fewer. -/
def takeBits (n : Nat) (l : List Bool) : Option (Nat × List Bool) :=
  if l.length < n then none else some (bitsNum (l.take n), l.drop n)

/-! ### Prediction and residues -/

/-- The predictor of R124 (a: left, b: above, c: above-left); a reserved code predicts as NONE. -/
def musPredict (pred a b c : Nat) : Nat :=
  match pred with
  | 1 => a
  | 2 => b
  | 3 => (a + b) / 2
  | 4 => if max a b ≤ c then min a b else if c ≤ min a b then max a b else a + b - c
  | _ => 0

/-- The zig-zag value of the residue of `x` under prediction `p` (R125). -/
def musZig (bits x p : Nat) : Nat :=
  let half : Int := 2 ^ (bits - 1)
  let r : Int := ((x : Int) - p + half) % (2 ^ bits : Int) - half
  if 0 ≤ r then (2 * r).toNat else (-2 * r - 1).toNat

/-- The residue that a zig-zag value stands for. -/
def musUnzig (u : Nat) : Int := if u % 2 = 0 then (u / 2 : Nat) else -((u / 2 : Nat) : Int) - 1

/-- The sample of a prediction and a residue (R125). -/
def musSample (bits p : Nat) (r : Int) : Nat := (((p : Int) + r) % (2 ^ bits : Int)).toNat

/-- The zig-zag values of a segment. `bs` are the samples above; `first` marks the first sample, where a and c take
the value of b (R123). -/
def musZigs (bits pred : Nat) : Bool → Nat → Nat → List Nat → List Nat → List Nat
  | _, _, _, [], _ => []
  | first, a, c, x :: xs, bs =>
    let b := bs.headD 0
    let p := if first then musPredict pred b b b else musPredict pred a b c
    musZig bits x p :: musZigs bits pred false x b xs bs.tail

/-- The samples of a segment from its residues. -/
def musRebuild (bits pred : Nat) : Bool → Nat → Nat → List Int → List Nat → List Nat
  | _, _, _, [], _ => []
  | first, a, c, r :: rs, bs =>
    let b := bs.headD 0
    let p := if first then musPredict pred b b b else musPredict pred a b c
    let x := musSample bits p r
    x :: musRebuild bits pred false x b rs bs.tail

/-! ### The encoder -/

/-- The bits of one group under parameter `k`, without its parameter (R129). -/
def groupBits (bits k : Nat) (us : List Nat) : List Bool :=
  if k = 15 then us.flatMap (numBits bits)
  else us.flatMap fun u => List.replicate (u / 2 ^ k) true ++ false :: numBits k (u % 2 ^ k)

/-- The number of bits of one group under a Rice parameter; none when a quotient would exceed 47. -/
def riceCost (k : Nat) (us : List Nat) : Option Nat :=
  if us.all fun u => u / 2 ^ k ≤ 47 then some (us.length * (1 + k) + (us.map (· / 2 ^ k)).foldl (· + ·) 0) else none

/-- The parameter of fewest bits, the lower on a tie, with 15 only when strictly shorter (R135). -/
def groupParam (bits : Nat) (us : List Nat) : Nat :=
  let rice := (List.range 14).foldl (fun acc k =>
    match riceCost k us with
    | none => acc
    | some c => match acc with
      | none => some (k, c)
      | some (k0, c0) => if c < c0 then some (k, c) else some (k0, c0)) (none : Option (Nat × Nat))
  match rice with
  | none => 15
  | some (k, c) => if us.length * bits < c then 15 else k

/-- The groups of a coded segment: 16 samples each, parameter 14 as soon as every remaining residue is 0. The number
of groups bounds the recursion. -/
def codeGroups (bits : Nat) : Nat → List Nat → List Bool
  | 0, _ => []
  | g + 1, us =>
    match us with
    | [] => []
    | _ =>
      if us.all (· == 0) then numBits 4 14
      else
        let grp := us.take 16
        let k := groupParam bits grp
        numBits 4 k ++ groupBits bits k grp ++ codeGroups bits g (us.drop 16)

/-- A segment header (R127) as its four bytes. -/
def musHeader (ty pred segLog : Nat) (noRef : Bool) (words : Nat) : List Nat :=
  let h := ty * 1073741824 + pred * 134217728 + segLog * 16777216 + b2n noRef * 8388608 + words % 8388608
  [h / 16777216 % 256, h / 65536 % 256, h / 256 % 256, h % 256]

/-- The coded payload of a segment under one predictor. -/
def codePayload (bits pred : Nat) (xs bs : List Nat) : List Nat :=
  packBits 32 (codeGroups bits (ceilDiv xs.length 16) (musZigs bits pred true 0 0 xs bs))

/-- The best predictor of a mask and its payload: the fewest words, the lower predictor on a tie. -/
def bestPred (bits preds : Nat) (xs bs : List Nat) : Option (Nat × List Nat) :=
  (List.range 5).foldl (fun acc p =>
    if bitOf preds p then
      let d := codePayload bits p xs bs
      match acc with
      | none => some (p, d)
      | some (q, e) => if d.length < e.length then some (p, d) else some (q, e)
    else acc) none

/-- One segment by the rules of R135, and whether it was written RAW. -/
def encodeSegment (bits segLog preds : Nat) (noRef : Bool) (xs bs : List Nat) : List Nat × Bool :=
  let x0 := xs.headD 0
  if xs.all (· == x0) then (musHeader 2 0 segLog noRef x0, false)
  else
    let rawWords := ceilDiv (xs.length * bits) 32
    let raw := (musHeader 1 0 segLog noRef rawWords ++ packBits 32 (xs.flatMap (numBits bits)), true)
    match bestPred bits preds xs bs with
    | none => raw
    | some (p, d) => if rawWords ≤ d.length / 4 then raw else (musHeader 0 p segLog noRef (d.length / 4) ++ d, false)

/-- A plane line: its bytes and how many of its segments are RAW. The number of segments bounds the recursion. -/
def encodeSegments (bits segLog preds : Nat) (noRef : Bool) : Nat → List Nat → List Nat → List Nat × Nat
  | 0, _, _ => ([], 0)
  | k + 1, xs, bs =>
    let n := 2 ^ (8 + segLog)
    let (d, r) := encodeSegment bits segLog preds noRef (xs.take n) (bs.take n)
    let (ds, rs) := encodeSegments bits segLog preds noRef k (xs.drop n) (bs.drop n)
    (d ++ ds, b2n r + rs)

/-- Encode a plane line against the line above; with `noRef` the line above counts as 0. -/
def encodeLine (bits segLog preds : Nat) (noRef : Bool) (xs ref : List Nat) : List Nat × Nat :=
  let bs := if noRef then [] else ref
  encodeSegments bits segLog preds noRef (ceilDiv xs.length (2 ^ (8 + segLog))) xs bs

/-- NO_GAIN (R136): the coded line is not smaller than the raw line. -/
def noGain (coded : List Nat) (width bits : Nat) : Bool := ceilDiv (width * bits) 8 ≤ coded.length

/-- A web-buffer section of line `n` (R102, R130, R160): its KIND, its data and how many segments are RAW. -/
def encodeSection (n key segLog preds : Nat) (xs ref : List Nat) : Nat × List Nat × Nat :=
  if xs.all (· == 0) then (1, [], 0)
  else
    let (d, r) := encodeLine 12 segLog preds (n % key == 0) xs ref
    if 73728 ≤ d.length then (3, packBits 64 (xs.flatMap (numBits 12)), 0)
    else (2, d ++ List.replicate (ceilDiv d.length 8 * 8 - d.length) 0, r)

/-- A plane line whose segments are all RAW: what a stream holds where the caller keeps the raw line (R136). The number of
segments bounds the recursion. -/
def rawSegments (bits segLog : Nat) (noRef : Bool) : Nat → List Nat → List Nat
  | 0, _ => []
  | k + 1, xs =>
    let n := 2 ^ (8 + segLog)
    let s := xs.take n
    musHeader 1 0 segLog noRef (ceilDiv (s.length * bits) 32) ++ packBits 32 (s.flatMap (numBits bits)) ++
      rawSegments bits segLog noRef k (xs.drop n)

/-- A plane line of a stream, and whether it returned NO_GAIN (R136): the raw line is then kept. DEDUCED (log 80): in a
stream it is kept as RAW segments, which R132 can hold. -/
def streamLine (bits segLog : Nat) (noRef : Bool) (xs ref : List Nat) : List Nat × Bool :=
  let d := (encodeLine bits segLog 31 noRef xs ref).1
  if noGain d xs.length bits then (rawSegments bits segLog noRef (ceilDiv xs.length (2 ^ (8 + segLog))) xs, true) else (d, false)

/-- The lines of a stream (R132), each a list of planes: the bytes of each line. -/
def encodeStreamLines (bits key segLog : Nat) : Nat → List (List Nat) → List (List (List Nat)) → List (List Nat)
  | _, _, [] => []
  | ln, prev, planes :: rest =>
    let noRef := ln % key == 0
    let ds := (planes.zip (prev ++ List.replicate planes.length [])).map fun (x, r) =>
      (streamLine bits segLog noRef x r).1
    ds.flatten :: encodeStreamLines bits key segLog (ln + 1) planes rest

/-- Offsets of the key lines: the running offset of each line whose number is a multiple of KEY. -/
def keyOffsets (key : Nat) : Nat → Nat → List (List Nat) → List Nat
  | _, _, [] => []
  | ln, off, d :: ds =>
    let r := keyOffsets key (ln + 1) (off + d.length) ds
    if ln % key = 0 then off :: r else r

/-- DEPTH of R132. -/
def depthCode (bits : Nat) : Nat := if bits = 8 then 0 else if bits = 12 then 1 else 2
def depthBits (code : Nat) : Nat := if code = 0 then 8 else if code = 1 then 12 else 16

/-- A Muslin stream (R132). -/
def encodeStream (bits key segLog : Nat) (lines : List (List (List Nat))) : List Nat :=
  let h := lines.length
  let ch := (lines.headD []).length
  let width := ((lines.headD []).headD []).length
  let dirn := ceilDiv h key
  let ds := encodeStreamLines bits key segLog 0 [] lines
  [1, (ch - 1) * 16 + depthCode bits * 4] ++ leBytes 2 key ++ leBytes 4 width ++ leBytes 4 h ++ leBytes 4 dirn ++
    (keyOffsets key 0 (16 + 8 * dirn) ds).flatMap (leBytes 8) ++ ds.flatten

/-! ### The decoder -/

/-- How the decoding of a segment stopped before its end: input beyond WORDS or beyond the job (R139), or a quotient
of 48 one-bits (R140). -/
inductive SegStop where
  | done | short | quotient
  deriving DecidableEq, Repr

/-- The leading one-bits of a quotient, at most 47, and what follows its zero-bit. -/
def readQuot : Nat → List Bool → Option (Nat × List Bool) × SegStop
  | _, [] => (none, .short)
  | _, false :: r => (some (0, r), .done)
  | 0, true :: _ => (none, .quotient)
  | k + 1, true :: r =>
    match readQuot k r with
    | (some (q, r'), e) => (some (q + 1, r'), e)
    | (none, e) => (none, e)

/-- One zig-zag value under parameter `k`. -/
def readValue (bits k : Nat) (l : List Bool) : Option (Nat × List Bool) × SegStop :=
  if k = 15 then
    match takeBits bits l with
    | some (u, r) => (some (u, r), .done)
    | none => (none, .short)
  else
    match readQuot 47 l with
    | (some (q, r), _) =>
      match takeBits k r with
      | some (v, r') => (some (q * 2 ^ k + v, r'), .done)
      | none => (none, .short)
    | (none, e) => (none, e)

/-- The residues of the `n` samples still to come, `g` of them in the group of parameter `k`, and how it stopped. -/
def readResidues (bits : Nat) : Nat → Nat → Nat → List Bool → List Int × SegStop
  | 0, _, _, _ => ([], .done)
  | n + 1, g, k, l =>
    let head : Option (Nat × Nat × List Bool) :=
      if g = 0 then (takeBits 4 l).map fun (k', r) => (16, k', r) else some (g, k, l)
    match head with
    | none => ([], .short)
    | some (g, k, l) =>
      if k = 14 then (List.replicate (n + 1) 0, .done)
      else
        match readValue bits k l with
        | (some (u, r), _) =>
          let (rs, e) := readResidues bits n (g - 1) k r
          (musUnzig u :: rs, e)
        | (none, e) => ([], e)

/-- A guard report: its kind (1 input, 2 destination limit, 11 to 14 a format error of kind 1 to 4, 20 refused), the
segment index, and the samples filled, discarded or declared. -/
structure GuardRep where
  kind : Nat
  seg : Nat
  samples : Nat
  deriving DecidableEq, Repr

/-- A decoded plane line: its samples, for each segment whether it has NOREF (with its length), the guard reports,
the offset of what follows (none when the position is lost), and whether the input is exhausted. -/
structure LineOut where
  xs : List Nat
  noRefs : List (Nat × Bool)
  guards : List GuardRep
  next : Option Nat
  exhausted : Bool
  deriving DecidableEq, Repr

/-- The payload bits of a segment at `pos`, within its WORDS and within the job's input. -/
def payloadBits (data : List Nat) (pos words stop : Nat) : List Bool :=
  bytesBits ((data.drop (pos + 4)).take (min (4 * words) (stop - (pos + 4))))

/-- The samples of a segment whose header is valid, and how many of them are filled by prediction. -/
def decodeBody (bits ty pred n words : Nat) (bs : List Nat) (l : List Bool) : List Nat × Nat × SegStop :=
  match ty with
  | 2 => (List.replicate n (words % 65536), 0, .done)
  | 1 =>
    let k := min n (l.length / bits)
    let xs := (List.range k).map fun i => bitsNum ((l.drop (i * bits)).take bits)
    let fill := musRebuild bits pred (k == 0) (xs.getLastD 0) (bs.getD (k - 1) 0) (List.replicate (n - k) 0) (bs.drop k)
    (xs ++ fill, n - k, if k = n then .done else .short)
  | _ =>
    let (rs, e) := readResidues bits n 0 0 l
    (musRebuild bits pred true 0 0 (rs ++ List.replicate (n - rs.length) 0) bs, n - rs.length, e)

/-- The kind of format error of a segment header: 0 none, 1 reserved values, 2 inconsistent (R140). -/
def headerError (bits ty pred segLog n words : Nat) (log0 : Option Nat) : Nat :=
  if ty = 3 ∨ 4 < segLog ∨ (ty = 0 ∧ 4 < pred) then 1
  else if (match log0 with | some l => l != segLog | none => false) then 2
  else if ty = 1 ∧ words ≠ ceilDiv (n * bits) 32 then 2
  else if ty = 2 ∧ (65536 ≤ words ∨ 2 ^ bits ≤ words % 65536) then 2
  else 0

/-- Fill the rest of a line by prediction, segment by segment (R139). -/
def fillRest (bits pred segLen : Nat) : Nat → Nat → List Nat → List Nat
  | 0, _, _ => []
  | k + 1, n, bs =>
    let m := min segLen n
    musRebuild bits pred true 0 0 (List.replicate m 0) (bs.take m) ++ fillRest bits pred segLen k (n - m) (bs.drop m)

/-- Decode the segments of a plane line from offset `pos`. DEDUCED (log 80): segments whose header lies beyond the input
are filled under the last header's PRED and segment length, or, where none was read, UP (NONE without a reference) over
the whole line. Here `left` samples remain, `bs` are the samples above them, and `fuel` bounds the number of segments.
`key` marks a key line; `log0` and `pred0` are of the segment before. `seg` counts the segments of the job. -/
def decodeSegs (bits : Nat) (key hasRef : Bool) (data : List Nat) (stop : Nat) :
    Nat → Nat → Nat → Nat → Option Nat → Nat → List Nat → LineOut
  | 0, _, _, pos, _, _, _ => { xs := [], noRefs := [], guards := [], next := some pos, exhausted := false }
  | fuel + 1, seg, left, pos, log0, pred0, bs =>
    if left = 0 then { xs := [], noRefs := [], guards := [], next := some pos, exhausted := false }
    else
      let segLen := match log0 with | some l => 2 ^ (8 + l) | none => left
      let zero : List Nat := if key then [] else bs
      if stop < pos + 4 then
        { xs := fillRest bits pred0 segLen (ceilDiv left segLen) left zero, noRefs := [(left, false)]
          guards := [⟨1, seg, left⟩], next := some stop, exhausted := true }
      else
        let h := bitsNum (bytesBits ((data.drop pos).take 4))
        let ty := field h 30 2
        let pred := field h 27 3
        let sl := field h 24 3
        let noRef := bitOf h 23
        let words := field h 0 23
        let n := min (2 ^ (8 + min sl 4)) left
        let err := headerError bits ty pred sl n words log0
        if err ≠ 0 then
          let fill := if hasRef && !key && !noRef then (bs ++ List.replicate left 0).take left else List.replicate left 0
          { xs := fill, noRefs := [(left, false)], guards := [⟨10 + err, seg, left⟩], next := none, exhausted := false }
        else
          let pv := if 4 < pred then 0 else pred
          let nxt := if ty = 2 then pos + 4 else pos + 4 + 4 * words
          if key && !noRef then
            let r := decodeSegs bits key hasRef data stop fuel (seg + 1) (left - n) nxt (some sl) pv (bs.drop n)
            { r with xs := musRebuild bits pv true 0 0 (List.replicate n 0) [] ++ r.xs
                     noRefs := (n, false) :: r.noRefs, guards := ⟨14, seg, n⟩ :: r.guards }
          else
            let above := if noRef then [] else bs.take n
            let (xs, filled, e) := decodeBody bits ty pv n words above (payloadBits data pos words stop)
            match e with
            | .short =>
              if stop < pos + 4 + 4 * words then
                let rest := fillRest bits pv (2 ^ (8 + sl)) (ceilDiv (left - n) (2 ^ (8 + sl))) (left - n)
                  (if noRef then [] else bs.drop n)
                { xs := xs ++ rest, noRefs := [(left, false)], guards := [⟨1, seg, filled + (left - n)⟩]
                  next := some stop, exhausted := true }
              else
                let r := decodeSegs bits key hasRef data stop fuel (seg + 1) (left - n) nxt (some sl) pv (bs.drop n)
                { r with xs := xs ++ r.xs, noRefs := (n, noRef) :: r.noRefs, guards := ⟨1, seg, filled⟩ :: r.guards }
            | .quotient =>
              let r := decodeSegs bits key hasRef data stop fuel (seg + 1) (left - n) nxt (some sl) pv (bs.drop n)
              { r with xs := xs ++ r.xs, noRefs := (n, noRef) :: r.noRefs, guards := ⟨13, seg, filled⟩ :: r.guards }
            | .done =>
              let r := decodeSegs bits key hasRef data stop fuel (seg + 1) (left - n) nxt (some sl) pv (bs.drop n)
              { r with xs := xs ++ r.xs, noRefs := (n, noRef) :: r.noRefs }

/-- The write port of a unit (R138): samples past the destination limit are discarded and reported with kind 2. -/
def portLimit (limit seg : Nat) (o : LineOut) : LineOut :=
  if o.xs.length ≤ limit then o
  else { o with xs := o.xs.take limit, guards := o.guards ++ [⟨2, seg, o.xs.length - limit⟩] }

/-- Decode a plane line of `width` samples at `pos`, its segments counted from `seg`; a declared width above the
destination limit is refused before any sample is written (R138). -/
def decodeLine (bits width limit seg : Nat) (key : Bool) (ref : Option (List Nat)) (data : List Nat) (pos stop : Nat) :
    LineOut :=
  if limit < width then
    { xs := [], noRefs := [], guards := [⟨20, seg, width⟩], next := some pos, exhausted := false }
  else
    let pred0 := if ref.isSome && !key then 2 else 0
    portLimit limit seg
      (decodeSegs bits key ref.isSome data stop (ceilDiv width 256 + 1) seg width pos none pred0 (ref.getD []))

/-- A stream's header fields (R132). -/
structure StreamHdr where
  version : Nat
  channels : Nat
  depth : Nat
  key : Nat
  width : Nat
  height : Nat
  dirn : Nat
  deriving DecidableEq, Repr

def streamHdr (d : List Nat) : StreamHdr :=
  { version := d.getD 0 0, channels := d.getD 1 0 / 16 + 1, depth := field (d.getD 1 0) 2 2, key := leAt d 2 2
    width := leAt d 4 4, height := leAt d 8 4, dirn := leAt d 12 4 }

/-- Directory entry `j` of a stream. -/
def streamDir (d : List Nat) (j : Nat) : Nat := leAt d (16 + 8 * j) 8

/-- Whether directory offsets rise strictly and lie within the length. -/
def dirOk (d : List Nat) (len : Nat) : Nat → Nat → Option Nat → Bool
  | 0, _, _ => true
  | k + 1, j, prev =>
    let o := streamDir d j
    decide (o < len) && (match prev with | some p => decide (p < o) | none => true) && dirOk d len k (j + 1) (some o)

/-- The stream header check at BULK_CLOSE (R133): 0, or the reason of MUS_STREAM_HDR. -/
def streamCheck (d : List Nat) (channels width height : Nat) (b16 : Bool) (len : Nat) : Nat :=
  let h := streamHdr d
  if d.length < 16 ∨ h.version ≠ 1 then 1
  else if h.channels ≠ channels ∨ h.width ≠ width ∨ h.height ≠ height ∨ h.depth ≠ (if b16 then 2 else 0) then 2
  else if h.key = 0 ∨ h.dirn ≠ ceilDiv h.height h.key ∨ d.length < 16 + 8 * h.dirn ∨ dirOk d len h.dirn 0 none = false
  then 3
  else 0

/-- The planes of one stream line, channel by channel, with the guards found. `pos` is the offset, none where it is lost,
with the number of the job's next segment. -/
def decodePlanes (bits width limit : Nat) (key : Bool) (data : List Nat) :
    Nat → Option Nat × Nat → List (List Nat) → List (List Nat) × List GuardRep × (Option Nat × Nat)
  | 0, pos, _ => ([], [], pos)
  | c + 1, (pos, seg), prev =>
    let ref := if key then none else prev.head?
    match pos with
    | none =>
      let (ps, gs, p) := decodePlanes bits width limit key data c (none, seg) prev.tail
      ((ref.getD (List.replicate width 0)) :: ps, gs, p)
    | some p0 =>
      let o := decodeLine bits width limit seg key ref data p0 data.length
      let (ps, gs, p) := decodePlanes bits width limit key data c (o.next, seg + o.noRefs.length) prev.tail
      (o.xs :: ps, o.guards ++ gs, p)

/-- Decode the lines of a stream from line `ln` on, `k` of them, into a buffer of `limit` samples a line; the answer is
the last line and the guards, each with its line. A position lost under R140 is found again at the next key line. -/
def decodeUpTo (data : List Nat) (h : StreamHdr) (limit : Nat) :
    Nat → Nat → Option Nat × Nat → List (List Nat) → List (List Nat) × List (Nat × GuardRep)
  | 0, _, _, prev => (prev, [])
  | k + 1, ln, pos, prev =>
    let key := ln % h.key == 0
    let pos := if key then (some (streamDir data (ln / h.key)), pos.2) else pos
    let (ps, gs, p) := decodePlanes (depthBits h.depth) h.width limit key data h.channels pos prev
    let (r, gs') := decodeUpTo data h limit k (ln + 1) p ps
    (r, gs.map (fun g => (ln, g)) ++ gs')

/-- Line `m` of a stream, decoded from its directory entry (R134), as a list of planes, with the guards found in it and in
the lines before it. -/
def decodeStreamLine (data : List Nat) (limit m : Nat) : List (List Nat) × List (Nat × GuardRep) :=
  let h := streamHdr data
  if h.version ≠ 1 ∨ h.key = 0 then ([], [])
  else decodeUpTo data h limit (m % h.key + 1) (m - m % h.key) (none, 0) []

end Sys2Proof.Machine
end

