-- ==== Sys2Proof/Machine/Map.lean ====
section
/-! DEFINITION. The one sparse store of the model: a list of key and value pairs in one canonical form, keys
strictly rising. Stores that read a default for an unlisted key never list a value equal to that default, so that
equal contents are equal data. -/

namespace Sys2Proof.Machine

/-- Keys and values, keys strictly rising. -/
abbrev KMap (α : Type) := List (Nat × α)

variable {α : Type}

/-- The value listed at `k`. -/
def mapGet : KMap α → Nat → Option α
  | [], _ => none
  | (k', v) :: r, k => if k' = k then some v else mapGet r k

/-- The store with `v` at `k`. -/
def mapPut : KMap α → Nat → α → KMap α
  | [], k, v => [(k, v)]
  | (k', v') :: r, k, v =>
    if k < k' then (k, v) :: (k', v') :: r
    else if k = k' then (k, v) :: r
    else (k', v') :: mapPut r k v

/-- The store with nothing at `k`. -/
def mapDel : KMap α → Nat → KMap α
  | [], _ => []
  | (k', v') :: r, k => if k' = k then mapDel r k else (k', v') :: mapDel r k

/-- Every key of the store is above `k`. -/
def keysAbove (k : Nat) : KMap α → Bool
  | [] => true
  | (k', _) :: r => k < k' && keysAbove k r

/-- The canonical form: keys strictly rising. -/
def mapWf : KMap α → Bool
  | [] => true
  | (k, _) :: r => keysAbove k r && mapWf r

/-- Read with a default for an unlisted key. -/
def mapGetD (m : KMap α) (k : Nat) (d : α) : α := (mapGet m k).getD d

/-- Write into a store whose unlisted keys read `d`: writing the default removes the entry. -/
def mapPutD [DecidableEq α] (m : KMap α) (k : Nat) (v d : α) : KMap α :=
  if v = d then mapDel m k else mapPut m k v

/-- No listed value is the default of its key. -/
def noDefault [DecidableEq α] (d : Nat → α) (m : KMap α) : Bool := m.all fun e => decide (e.2 ≠ d e.1)

/-- The canonical form of a store with defaults. -/
def mapWfD [DecidableEq α] (d : Nat → α) (m : KMap α) : Bool := mapWf m && noDefault d m

/-- Add to a count held in a store that reads 0 where nothing is listed. -/
def mapAdd (m : KMap Nat) (k n : Nat) : KMap Nat := mapPutD m k (mapGetD m k 0 + n) 0

/-- The entries whose key satisfies `p`. -/
def mapFilter (m : KMap α) (p : Nat → Bool) : KMap α := m.filter fun e => p e.1

/-- Write every entry of `n` into `m`. -/
def mapMerge (m n : KMap α) : KMap α := n.foldl (fun acc e => mapPut acc e.1 e.2) m

/-- Insert one entry into a union: `m` unites the entries behind it. -/
def unionGo (f : α → α → α) (k : Nat) (v : α) (m : KMap α → KMap α) : KMap α → KMap α
  | [] => (k, v) :: m []
  | (k', v') :: r =>
    if k < k' then (k, v) :: m ((k', v') :: r)
    else if k = k' then (k, f v v') :: m r
    else (k', v') :: unionGo f k v m r

/-- The union of two stores; `f` joins the two values of a key that both list. -/
def mapUnion (f : α → α → α) : KMap α → KMap α → KMap α
  | [], n => n
  | (k, v) :: r, n => unionGo f k v (mapUnion f r) n

/-- Replace the part of `m` whose keys satisfy `p` by the part of `n` whose keys satisfy it. -/
def mapReplace (m n : KMap α) (p : Nat → Bool) : KMap α :=
  mapMerge (mapFilter m fun k => !p k) (mapFilter n p)

end Sys2Proof.Machine
end

