-- ==== Sys2Proof/Machine/State.lean ====
section
/-! DEFINITION. The state of the block as plain data: everything spec/ gives the TV-2080 (INVENTORY.md, State), the
queue of waiting commands, and State.reset. -/

namespace Sys2Proof.Machine

/-- Faults. No command of this block ends in one: R4 gives every limit a defined response, and a command whose
condition does not hold has no effect (assumption 3). -/
inductive Fault where
  /-- Never raised; a step of this block always has a next state. Safe. -/
  | none
  deriving DecidableEq, Repr

/-- Refusals. -/
inductive Refusal where
  /-- Answered by Machine/Dispatch.lean for a row that has no meaning yet. Safe: nothing is claimed of it. -/
  | notModelled (mnemonic : String)
  deriving DecidableEq, Repr

/-- The values that an Announce of the device carries (R365): priority1, clockClass, clockAccuracy,
offsetScaledLogVariance, priority2, grandmasterIdentity, stepsRemoved, timeSource, ptpTimescale, currentUtcOffset and
currentUtcOffsetValid. -/
structure AnnounceBody where
  prio1 : Nat
  cls : Nat
  accuracy : Nat
  variance : Nat
  prio2 : Nat
  gm : Nat
  steps : Nat
  timeSource : Nat
  ptpTimescale : Bool
  utcOffset : Nat
  utcValid : Bool
  deriving DecidableEq, Repr

/-- A message or command that the device sends. `out` of the state lists those of the last command. -/
inductive OutMsg where
  /-- A KOA response: receiver, message type, STATUS, REQ_ID, body (R332 to R334). -/
  | koa (a : Addr) (ty status reqId : Nat) (body : List Nat)
  /-- A NOTIFY to a partner: its body (R338). -/
  | notify (a : Addr) (body : List Nat)
  /-- A HELLO on an interface: its sequence number and its body (R339). -/
  | hello (iface seq : Nat) (body : List Nat)
  /-- A BULK_ACK: receiver, STREAM, STATUS, DETAIL, WINDOW, NEXT, SACK, VALUE (R342). -/
  | bulkAck (a : Addr) (stream status detail window next sack value : Nat)
  /-- A BULK_OPEN by the device: receiver, STREAM, TARGET, LENGTH and PREFIX (R340). -/
  | bulkOpen (a : Addr) (stream target length : Nat) (pre : List Nat)
  /-- A BULK_DATA block (R341). -/
  | bulkData (a : Addr) (stream block : Nat) (data : List Nat)
  /-- A BULK_CLOSE (R343). -/
  | bulkClose (a : Addr) (stream reason length : Nat)
  /-- A CAN frame: identifier, data, FD form (R353 to R358). -/
  | can (id : Nat) (data : List Nat) (fd : Bool)
  /-- A PTP message: interface, transport, domain, messageType, sequenceId, logMessageInterval, the time it carries in
  whole ns, its correctionField in 2^-16 ns, and the requesting clock it answers (R364, R369). -/
  | ptp (iface transport domain kind seq : Nat) (logInt : Int) (stampNs : Int) (corr : Int) (target : Nat)
  /-- An Announce with the values of R365. -/
  | announce (iface transport domain seq : Nat) (body : AnnounceBody)
  /-- A line frame on a head port: its words, and the ticks of its fire time (R241 to R245). -/
  | line (port row : Nat) (start : Nat) (words : List Nat)
  /-- A SYNC block on a link with its LINK_TIME (R239). -/
  | sync (port time : Nat)
  /-- A Yuquenel command: port (16 + c for camera c), endpoint address, code, TAG, argument and the LEN data words
  (R248). -/
  | yql (port addr code tag arg : Nat) (data : List Nat)
  deriving DecidableEq, Repr

/-! ### Device state and security (chapters 12 and 16) -/

/-- The device states of R436, with their codes 0 to 11. -/
inductive DevState where
  | off | boot | selftest | calibrate | discover | idle | armed | printing | paused | safe | thermalHold | service
  deriving DecidableEq, Repr

/-- A key slot (R350): empty, holding a programmed key of 16 bytes, or revoked for good. -/
inductive KeySlot where
  | empty
  | programmed (key : List Nat)
  | revoked
  deriving DecidableEq, Repr

/-- The authentication block: four key slots, the last counter accepted of each (SEC_CTR), the clocks of the
failures that may still count under R349, and the clock at which a block ends. -/
structure Sec where
  slots : List KeySlot
  ctr : List Nat
  fails : List Nat
  blockEnd : Option Nat
  deriving DecidableEq, Repr

/-- The part of the state that only the state machine and the authenticated writes change: the device state, the
state before it (SYS_PREV_STATE) and the authentication block. -/
structure Ctl where
  mode : DevState
  prev : DevState
  sec : Sec
  deriving DecidableEq, Repr

/-! ### Events (chapter 16) -/

/-- An event record (R450) without its COUNT and CRC, which are formed when it is read. `pos` is the raw Q48.16
web position. -/
structure EvRec where
  code : Nat
  serge : Bool
  inst : Nat
  et : Nat
  pos : Int
  data : Nat
  seq : Nat
  deriving DecidableEq, Repr

/-- The event system (R450 to R455). `raised` holds the events of the command in progress until they take their
SEQ in order of ET and code. -/
structure Evt where
  raised : List EvRec
  seq : Nat
  staging : List EvRec
  log : KMap EvRec
  head : Nat
  dropRun : Nat
  recent : List EvRec
  last : KMap EvRec
  counts : KMap Nat
  lastData : KMap Nat
  outLevel : List Bool
  outEnd : List (Option Nat)
  clampsRaised : Nat
  inCommit : Bool
  deriving DecidableEq, Repr

/-- An adjustment record (R328). -/
structure AdjRec where
  index : Nat
  sub : Nat
  reason : Nat
  source : Nat
  request : Int
  applied : Int
  et : Nat
  seq : Nat
  deriving DecidableEq, Repr

/-- The object dictionary's store (R322 to R329): values in force and shadow values, each listed only where it
differs from the object's default; table entries (in force and shadow) keyed by index × 2^32 + entry; the values
and tables kept in NVM; what still waits to be written there with the clock of its write; and the strings. -/
structure Dict where
  obj : KMap Int
  shadow : KMap Int
  tbl : KMap Int
  tblShadow : KMap Int
  fram : KMap Int
  framWait : List (Nat × Int × Nat)
  nor : KMap Int
  norWait : List (Nat × Nat)
  hostName : List Nat
  hostNameNv : List Nat
  adj : List AdjRec
  deriving DecidableEq, Repr

/-! ### Time (chapter 13) -/

/-- A master heard: its sender, the values of its last Announce in the order of comparison, its grandmaster, and the
clock of that Announce (R378). -/
structure Foreign where
  sender : Nat
  prio : List Nat
  gm : Nat
  clk : Nat
  deriving DecidableEq, Repr

/-- The timer and the clock servo (R370 to R383). `halfTicks` is link time in half ticks of 0.64 ns; a CLK_TS
clock is 5 of them. -/
structure Tim where
  sec : Nat
  ns : Nat
  fracNs : Nat
  halfTicks : Nat
  rate : Frac
  y : Frac
  p : Frac
  pUntil : Option Nat
  tc : Frac
  tcFrozen : Bool
  yHist : List (Nat × Frac)
  lastSyncClk : Option Nat
  syncs : Nat
  lockRun : Nat
  unlockRun : Nat
  everLocked : Bool
  path : Frac
  pathValid : Bool
  twoStep : Option (Nat × Frac × Frac × Int)
  pdTwoStep : Option (Nat × Frac × Frac)
  pendingDelay : Option (Nat × Frac)
  t2t1 : Option Frac
  deferred : Option Int
  deferRaised : Bool
  rolled : Bool
  stepSinceAnchor : Bool
  annClk : Option Nat
  annSeen : Bool
  gmPrio : List Nat
  parent : Nat
  masters : List Foreign
  delaySeq : Nat
  syncSeq : Nat
  annSeq : Nat
  freqClk : Nat
  tempSamples : List Int
  deriving DecidableEq, Repr

/-! ### Web position (chapter 2) -/

/-- The high-water tracker's states (R45). -/
inductive Trk where
  | forward | behind | reversed
  deriving DecidableEq, Repr

/-- One encoder channel. `phase` is the quadrature phase of the filtered levels (0: both low, 1: A high, 2: both
high, 3: B high); it stands still while a line is lost. -/
structure EncCh where
  count : Int
  phase : Nat
  refCount : Int
  refValid : Bool
  refPos : Option Int
  mismRun : Nat
  fault : Bool
  back : Bool
  lossA : Bool
  lossB : Bool
  lossZ : Bool
  tally : Nat
  illegalAt : List Nat
  lastClk : Option Nat
  illStamp : Option Nat
  overStamp : Option Nat
  deriving DecidableEq, Repr

/-- A closed window that waits for T_d (R51): its range, the clock of its close, whether it has accepted a latch and
whether PRB_EXTRA was raised against it. -/
structure ClosedWin where
  start : Int
  stop : Int
  clk : Nat
  accepted : Bool
  extra : Bool
  deriving DecidableEq, Repr

/-- One probe's window and latch state (R51, R52, R477). Window values are the objects'; `held` marks the held
writes of START, END and PERIOD. `closed` lists the windows that wait for T_d, oldest first. -/
structure Probe where
  armed : Bool
  accepted : Bool
  extraRaised : Bool
  held : List (Option Int)
  closed : List ClosedWin
  lastPos : Option Int
  extraStamp : Option Nat
  deriving DecidableEq, Repr

/-- One SSI master (R59, R60): the ET and position latched by the transfer in progress, and whether a good value
has been read. -/
structure SsiM where
  busy : Option (Nat × Int)
  good : Bool
  lastStart : Option Nat
  deriving DecidableEq, Repr

/-- The web timeline. `pos` and `hwm` carry 32 fraction bits (R29). `etHist` holds the compensated ETs of the last edges
with their clocks. The measured speed is `vNum / vDen` in 2^-32
line per ns. -/
structure Web where
  enc : List EncCh
  active : Nat
  net : Int
  hwmNet : Int
  pos : Int
  hwm : Int
  trk : Trk
  run : Nat
  vNum : Nat
  vDen : Nat
  valid : Bool
  back : Bool
  etHist : List (Nat × Nat)
  etLast : Nat
  edgeClk : Nat
  standstill : Bool
  slip : Option (Int × Int)
  prb : List Probe
  hswInhibit : List Bool
  ssi : List SsiM
  wI : Option Int
  lossInhibit : Bool
  switched : Bool
  deriving DecidableEq, Repr

/-! ### Network and field bus (chapter 12) -/

/-- A partner-table entry of a network peer (R344, R345), with its pending NOTIFY records (R338): the records, the
clock at which the first became pending, and the last NOTIFY_SEQ. -/
structure Partner where
  present : Bool
  departed : Bool
  role : Nat
  addr : Addr
  product : Nat
  serial : Nat
  revision : Nat
  vendor : Nat
  arriveS : Nat
  lastS : Nat
  lastClk : Nat
  notifyQ : List EvRec
  notifySince : Nat
  notifySeq : Nat
  deriving DecidableEq, Repr

/-- A WRITE kept for R336: sender, REQ_ID, the bytes that make it the same request, the answer, and its clock. -/
structure KoaStored where
  addr : Addr
  reqId : Nat
  bytes : List Nat
  rsp : List Nat
  status : Nat
  clk : Nat
  deriving DecidableEq, Repr

/-- A bulk stream into the device (R340 to R343). `blocks` lists the blocks received, by number; `item` is the key of the
layer-store item it fills; `closing` a close (REASON and LENGTH) that waits for the host core (R396). -/
structure BulkIn where
  addr : Addr
  stream : Nat
  target : Nat
  offset : Nat
  length : Nat
  pre : List Nat
  blocks : KMap (List Nat)
  item : Nat
  lastClk : Nat
  closing : Option (Nat × Nat)
  deriving DecidableEq, Repr

/-- A bulk stream out of the device. `purpose` is 0 for a DOMAIN read by a peer, 2 preview, 3 inspection upload; `times`
holds the clocks of the first and the last sending of each block sent and not acknowledged, `openClk` the clock at which
the stream opened or closed. -/
structure BulkOut where
  addr : Addr
  stream : Nat
  target : Nat
  purpose : Nat
  offset : Nat
  pre : List Nat
  data : List Nat
  window : Nat
  next : Nat
  acked : List Nat
  times : KMap (Nat × Nat)
  openClk : Nat
  opened : Bool
  closed : Bool
  deriving DecidableEq, Repr

/-- The network access part of the object engine. -/
structure Net where
  linkUp : List Bool
  partners : KMap Partner
  replay : List KoaStored
  bulkIn : List BulkIn
  bulkOut : List BulkOut
  helloSeq : List Nat
  helloClk : List Nat
  nextStream : Nat
  dhcp : KMap Nat
  ingestShare : Nat
  deriving DecidableEq, Repr

/-- The SDO server's transfer in progress (R357): a download or an upload, its object, the bytes so far, the toggle
bit and the clock of the last segment. -/
structure SdoXfer where
  upload : Bool
  index : Nat
  sub : Nat
  size : Nat
  bytes : List Nat
  toggle : Bool
  clk : Nat
  deriving DecidableEq, Repr

/-- Bit timing of a phase of CAN FD (R353): the prescaler P of CLK_CAN, the N quanta of a bit, the quanta up to the sample
point, those of phase segment 2, and the synchronisation jump width. -/
structure BitTiming where
  p : Nat
  n : Nat
  sample : Nat
  seg2 : Nat
  sjw : Nat
  deriving DecidableEq, Repr

/-- The CAN FD port (R352 to R360). `arb` and `fast` are the bit timing of the arbitration and of the data phase, `tdc`
the transmitter delay compensation. `nmt` is 0 INITIALISATION, 1 PRE-OPERATIONAL, 2 OPERATIONAL, 3 STOPPED; `bus` is 0
error active, 1 error passive, 2 bus-off. `hb` holds the watched nodes: clock last heard, and whether lost. -/
structure Can where
  nmt : Nat
  bus : Nat
  cfg : Int
  node : Nat
  emcyQ : List EvRec
  emcyClk : Option Nat
  errReg : Nat
  hbClk : Nat
  hb : KMap (Nat × Bool)
  sdo : Option SdoXfer
  tpdoClk : List Nat
  tpdoLast : List Int
  arb : BitTiming
  fast : BitTiming
  tdc : Bool
  deriving DecidableEq, Repr

/-! ### Line clock, jobs, memory and Calico (chapters 3, 4 and 6) -/

/-- A row of the line clock (R64 to R82): the next unfired line, the fire time of the last committed line (ns of the
timer), the saturation lag in 1/65,536 line and whether the row is saturated, the lines of the skip run in progress, the
frame that has raised LCK_LATE_FIRE, the run of fired lines above the stop threshold (R79), the inhibits in force (0
none, 1 encoder fault, 2 switch, 3 both), the tag and boundary of the set the row last fired with, its resolution, the
null lines of a row shift (R82), and the lines committed last with their fire times, oldest first. -/
structure RowClk where
  next : Int
  lastFire : Option Frac
  lag : Int
  sat : Bool
  skipRun : Nat
  lateFrame : Option Nat
  stopRun : Nat
  inhibited : Nat
  setTag : Nat
  setB : Int
  res600 : Bool
  shiftNulls : Nat
  shiftRaised : Bool
  nulls : Nat
  periodTicks : Nat
  recent : List (Int × Frac)
  deriving DecidableEq, Repr

/-- A record of the alignment table (R71): head serial, the phases of rows A and B, whether it is valid and was entered by
hand, and its date. -/
structure AlignRec where
  serial : Nat
  phA : Int
  phB : Int
  valid : Bool
  entered : Bool
  date : Nat
  deriving DecidableEq, Repr

/-- The line clock: rows, the anchor of R65 (position and residue with 32 fraction bits, ET in ns of the timer), the
episodes of R76 to R80, the half-line switch (R77): what is wanted and has found no boundary yet, the last boundary at
which a bar's queue had no free entry for it, the resolution of the last switch, its boundary while it is on its way;
the look-ahead L in force (R107); and the alignment table (R71). -/
structure Lck where
  rows : List RowClk
  sE : Int
  tE : Int
  rho : Int
  rhoPrev : Int
  warnRow : Option Nat
  overRow : Option Nat
  stopReq : Bool
  belowSince : Option Nat
  returnSince : Option Nat
  hlWant : Option Bool
  hlAfter : Option Int
  hl600 : Bool
  hlLast : Option Int
  look : Nat
  align : KMap AlignRec
  deriving DecidableEq, Repr

/-- The bar-side parameter set (R81, R163, R200): its frame tag and boundary, the resolution it prints at, and the
values and tables of its bar. -/
structure BarSet where
  tag : Nat
  wB : Int
  switch : Bool
  full : Bool
  res600 : Bool
  obj : KMap Int
  tbl : KMap Int
  phases : KMap Int
  deriving DecidableEq, Repr

/-- What a layer is composed from in a frame: its settings, its item, and the vertical origin of its tiling. -/
structure LayerUse where
  cfg : Nat
  chMap : Nat
  opacity : Nat
  posX : Int
  posY : Int
  rx : Nat
  ry : Nat
  fill : List Nat
  ko : Nat
  item : Nat
  tileW : Option Int
  coef : KMap Int
  deriving DecidableEq, Repr

/-- A boundary placed by the sequencer, or the virtual boundary of R89: where it lies, whether its set-up instant is
past, whether it starts a frame and then the number and the end of that frame, whether it is the last that
JOB_REPEAT counts, whether its mark was late (R90) and its probe, whether the condition of R89 begins at it, the
sequence number of its records, and the defect causes of the whole frame that its set-up found. -/
structure Boundary where
  w : Int
  wEnd : Int
  no : Nat
  isSetUp : Bool
  starts : Bool
  last : Bool
  virt : Bool
  late : Bool
  noSrc : Bool
  probe : Nat
  seq : Nat
  causes : List Nat
  deriving DecidableEq, Repr

/-- A frame begun since the entry to ARMED (R85, R95): its number and range, whether it was cut short, whether it
carries a defect record, whether its end is the end of the job that has not been raised yet (R92), the sequence
number of its variable-data records and whether they are freed, whether it has been reported, and the ET at which it
began. -/
structure FrameRec where
  no : Nat
  wB : Int
  wEnd : Int
  cut : Bool
  defect : Bool
  last : Bool
  seq : Nat
  winLen : Int
  vdFreed : Bool
  done : Bool
  et : Nat
  deriving DecidableEq, Repr

/-- A defect record (R93). -/
structure DefectRec where
  frame : Nat
  start : Int
  stop : Int
  row : Nat
  cause : Nat
  et : Nat
  lines : Nat
  isOpen : Bool
  deriving DecidableEq, Repr

/-- A commit handed out at its set-up instant whose boundary the web has not reached (R163): its boundary, tag,
whether it was forced, and the C objects that take effect there. -/
structure CommitFin where
  wB : Int
  tag : Nat
  forced : Bool
  held : KMap Int
  deriving DecidableEq, Repr

/-- What Calico composes from from a boundary on (R163 to R168): the settings and the layers chosen at the set-up. -/
structure CalSet where
  wB : Int
  obj : KMap Int
  tbl : KMap Int
  layers : List (Option LayerUse)
  deriving DecidableEq, Repr

/-- The frame sequencer, the commit and the defect ring: boundaries placed and frames begun, in order; the last number
given at a set-up; what R92 has left (none: no limit); the origin found at the entry to ARMED and the last boundary of
the count grid; the condition of R89 and the clock of its last mark; whether a pause has begun to hold frames back
(R440); whether JOB_VD_SEQ_START was written since the last commit; whether a commit is pending and how many boundaries
have stalled it, and whether a full set queue defers it; commits handed out and not yet complete; Calico's sets; the
defect ring; the parts of MARK ranges that lie ahead of the frames begun; and the layers that request web stop. -/
structure Job where
  bounds : List Boundary
  frames : List FrameRec
  lastNo : Nat
  count : Option Nat
  origin : Int
  grid : Int
  noSrc : Bool
  noSrcClk : Nat
  pauseEff : Bool
  vdWritten : Bool
  commit : Bool
  stalls : Nat
  deferred : Bool
  fins : List CommitFin
  calSets : List CalSet
  defects : List DefectRec
  marks : List (Int × Int)
  stopLayers : List Nat
  deriving DecidableEq, Repr

/-- An item of the layer store (R108 to R111): an image or a variable-data record, with its header fields, state
(1 receiving, 2 complete, 3 incomplete, 4 damaged), the blocks of 64 KiB it holds, its data bytes as received, the
source lines that an error has spoilt (R116, R142), and of an IMAGE_PACK item whether it is stored coded, the lines coded
so far and the bytes they take in the store (R110). -/
structure Item where
  id : Nat
  ty : Nat
  format : Nat
  dpiX : Nat
  dpiY : Nat
  width : Nat
  height : Nat
  seq : Nat
  length : Nat
  crc : Nat
  state : Nat
  blocks : Nat
  packed : Bool
  coded : Nat
  stored : Nat
  data : List Nat
  bad : List Nat
  deriving DecidableEq, Repr

/-- A plane section of a web-buffer slot (R101): its descriptor fields, its data bytes, and whether an
uncorrectable error has spoilt it (R116). -/
structure Section where
  line : Nat
  kind : Nat
  frame : Nat
  length : Nat
  data : List Nat
  ue : Bool
  deriving DecidableEq, Repr

/-- A word that was written with inverted data bits (R118) and has not been read since: its area, whether two bits are
inverted, its address, and where it lies (the unit and line of R116). -/
structure Struck where
  area : Nat
  double : Bool
  addr : Nat
  unit : Nat
  line : Int
  deriving DecidableEq, Repr

/-- A web-buffer line as a bar's decode unit delivers it: its samples with unreliable columns at 0, whether it was not
ready (R104, R141) or spoilt (R116), whether it holds unreliable columns, its guards; and for the next line the
reference samples and the columns that are unreliable. -/
structure WbLine where
  xs : List Nat
  notReady : Bool
  spoilt : Bool
  unsure : Bool
  miss : Bool
  guards : List GuardRep
  ref : List Nat
  unrel : List Bool
  deriving DecidableEq, Repr

/-- The memory system: whether the DRAM is initialised, the plan in force, items (keyed by their slot in the store),
web-buffer sections (keyed by slot × 8 + plane) with the front below which unwritten slots read BLANK, the composition
front, the look-ahead conditions (R105, R106), the tallies (slot × 1,572,864 + position) and the windows in flight with
their slots (R100, oldest first; none: not tallied), corrected errors of the hour, injections waiting and words written
with inverted bits (R118), the clock at which the scrub pass in progress began (R115); the codec units that pass their
tests, the stored sizes of the last 1,024 web-buffer lines, and the clocks of the codec events that are limited to one
per second and unit. -/
structure Mem where
  ready : Bool
  tallyWin : Nat
  insMib : Nat
  items : KMap Item
  nextItem : Nat
  wb : KMap Section
  blankBelow : Option Int
  front : Int
  lineOpen : Bool
  refLine : KMap (List Nat)
  lateRaised : Bool
  starveFrom : Option Int
  starved : Bool
  tally : KMap Nat
  tallyWins : List (Int × Option Nat)
  ceStamp : Option Nat
  ceHour : Nat
  ceHourClk : Nat
  ceWarned : Bool
  inject : List (Nat × Bool)
  struck : List Struck
  scrubClk : Nat
  unitOk : List Bool
  wbSizes : List (Nat × Nat)
  musStamp : KMap Nat
  deriving DecidableEq, Repr

/-- The preview block that is being built (R170, R171): frame, start, SCALE, INKS and LAYERS of its header, block
number, ET of its first line, and the lines so far, each the ink planes included. -/
structure PrvBlock where
  frame : Nat
  start : Int
  scale : Nat
  inks : Nat
  layers : Nat
  block : Nat
  et : Nat
  lines : List (List (List Nat))
  deriving DecidableEq, Repr

/-- Calico beyond its objects: for each layer what was last composed (for HOLD), the boundary its vertical count runs
from, and its history: the key of its item and the source lines that stand decoded (R161, R174); the path self-test; the
preview block being built and the coded blocks that wait, each with its header; whether the preview's partner has left,
and the frames that have raised PRV_DROPPED. `rule6Done` and `rule6Sh` are the layers for which rule 6 of R169 is
reported: of the commit in force, and of the one pending. -/
structure Cal where
  last : List (Option LayerUse)
  tileFrom : List (Option Int)
  hist : List (Nat × List Nat)
  pathOk : Bool
  rule6Done : List Nat
  rule6Sh : List Nat
  prv : Option PrvBlock
  prvQueue : List (List Nat)
  prvPartnerLost : Bool
  prvDropFrames : List Nat
  deriving DecidableEq, Repr
/-! ### Bar slices (chapter 7) -/

/-- A row pass (R177, R202): its front (the next data line it prepares) and the line it started from, the boundary and
tag of the set at the front, the clock at which a table load began, the first web-buffer line its decode unit has not
decoded yet with the decoded lines that the taps still use, the last of them the reference of the next (R122), and the
run of fire lines affected by a phase change (R179); and by port side the fire line below which entries were complete
before a switchover (R225). -/
structure Pass where
  front : Int
  start : Int
  setB : Int
  tag : Nat
  load : Option Nat
  decNext : Int
  lines : List (Int × WbLine)
  phaseRun : Nat
  done : List Int
  deriving DecidableEq, Repr

/-- A committed checkpoint (R400): its sequence number, the slice that wrote it, the fronts, tags and frames of rows A
and B, its ET, FLAGS, the tags and boundaries of the queued sets, and the LIVE queue. -/
structure Ckpt where
  seq : Nat
  slice : Nat
  fronts : List Int
  tags : List Nat
  frames : List Nat
  et : Nat
  flags : Nat
  sets : List BarSet
  live : List (Int × Int × Int)
  deriving DecidableEq, Repr

/-- The bar pipeline of one bar: its queue of sets, oldest first (R201), its two passes, the LIVE stretch queue (R185:
boundary, horizontal and vertical value), the outcomes of the last 1,024 fire lines (R224, newest first; true is a
miss), the frequency last measured (R190), the frames in print that have raised JQ_STRETCH_LIMIT, JQ_COL_UNCOVERED and
WB_SLOT_MISS, the first web-buffer line whose guards have not been reported and whether a run of unreliable lines is in
progress (R141), the runs of lines sent null during a switchover, by row (R225); its two checkpoint slots and the
sequence number of the newest checkpoint (R400); whether its slice has failed and the spare has not delivered yet, or no
slice serves it (R402, R403); the clock of the last line each pass completed (R399); and the trims that wait for the
spare's first line, by row, column and value (R405). -/
structure BarJq where
  sets : List BarSet
  passes : List Pass
  live : List (Int × Int × Int)
  miss : List Bool
  freq : Nat
  limFrames : List Nat
  uncovFrames : List Nat
  missFrames : List Nat
  decTold : Int
  refLost : Bool
  blankRun : List Nat
  ckpts : List (Option Ckpt)
  ckptSeq : Nat
  halt : Bool
  noSlice : Bool
  lineClk : List Nat
  heldTrims : List (Nat × Nat × Int)
  deriving DecidableEq, Repr

/-- A head record of JQ_HEAD_STATE (R198): the states that are not OK are listed, keyed by 4,096 × row + nozzle. -/
structure HeadRecord where
  serial : Nat
  nozzles : Nat
  valid : Bool
  date : Nat
  states : KMap Nat
  deriving DecidableEq, Repr

/-- The bar slices: the bars, the head phases that the next bar-side set carries (R73, R179), keyed by
port × 4096 + driver × 256 + head × 2 + row; the working nozzle states that are not OK and the trims that the colour
hold loop has set in place, keyed by position; and the head records by their place in the table. -/
structure Jq where
  bars : List BarJq
  phases : KMap Int
  noz : KMap Nat
  trims : KMap Nat
  recs : KMap HeadRecord
  deriving DecidableEq, Repr

/-! ### Yuquenel links (chapter 9) -/

/-- The states of a link (YQL_PORT_STATUS). -/
inductive LinkSt where
  | disabled | training | enumerating | up | recovering | down | failed
  deriving DecidableEq, Repr

/-- A head of a driver: serial, profile code, the head profile that serves it, whether it is attached (R254), whether
the alignment table had a valid entry for it (R72), and whether a head record was loaded (R199). -/
structure Head where
  serial : Nat
  code : Nat
  slot : Option Nat
  attached : Bool
  aligned : Bool
  known : Bool
  deriving DecidableEq, Repr

/-- An addressed endpoint as its identity gives it (R252, R261), with the round trip and D_k in 1/8 ns (R253; none
until it is measured), the chain index of its first nozzle, and the last status word with its clock (R250). -/
structure Driver where
  serial : Nat
  vendor : Nat
  type : Nat
  version : Nat
  tFwd : Nat
  tRet : Nat
  tTurn : Nat
  tProc : Nat
  rtt : Option Nat
  lat : Int
  base : Nat
  status : Nat
  statusClk : Nat
  heads : List Head
  deriving DecidableEq, Repr

/-- A command that waits for its response (R249): tag, endpoint, operation, argument, data words, the sendings so far, the
clock of the last one, and whether it still waits for a gap between line frames. -/
structure YCmd where
  tag : Nat
  addr : Nat
  op : Nat
  arg : Nat
  data : List Nat
  tries : Nat
  clk : Nat
  waiting : Bool
  deriving DecidableEq, Repr

/-- A block on a lane: a 2-bit header and 64 payload bits (R232). A valid header is 0b01 (data) or 0b10 (control). -/
structure Block where
  header : Nat
  payload : Nat
  deriving DecidableEq, Repr

/-- The sending side of a link (R233, R236), in unit intervals of 0.16 ns: the instant and the SEQ of the last ALIGN set
from which the blocks are counted, the place behind the last block sent, the scrambler register of each lane behind it,
and the blocks of the last transmission by lane as they went out, scrambled. -/
structure Wire where
  alignUi : Nat
  seq : Nat
  next : Nat
  regs : List Nat
  lanes : List (List Block)
  deriving DecidableEq, Repr

/-- A retuning trial (R256): lane, preset before it, margin before it, clock of its start. -/
structure Trial where
  lane : Nat
  preset : Nat
  margin : Nat
  clk : Nat
  deriving DecidableEq, Repr

/-- An open TRIG of a camera port (R262, R263): the TRIG count, the exposure start in link time, the clock at which
its line counts as missing, and the scan and slot it belongs to (R268). -/
structure Trig where
  scan : Nat
  slot : Nat
  count : Nat
  time : Nat
  due : Nat
  deriving DecidableEq, Repr

/-- A link: head ports 0 to 15, camera port c as link 16 + c. `wire` is its sending side, `syncSeq` the SEQ of the ALIGN
set after which the last SYNC went out (R239), `ownPs` the device's own delays of the loopback in ps (R265), and
`badFrame` says that a block error struck the line frame that is arriving (R235). -/
structure Link where
  st : LinkSt
  testOk : Bool
  startClk : Nat
  enumAddr : Nat
  enumClk : Nat
  answerClk : Nat
  drivers : List Driver
  excess : Bool
  verBad : Bool
  noProf : Bool
  tooMany : Bool
  arrival : Option Nat
  tag : Nat
  cmds : List YCmd
  presets : List Nat
  trialClk : Nat
  trialLane : Nat
  trial : Option Trial
  reported : List Nat
  discarded : Nat
  portDown : Bool
  fenOff : Bool
  syncDue : Bool
  errAt : List Nat
  errStamp : Option Nat
  failStamp : Option Nat
  crcAt : List Nat
  crcStamp : Option Nat
  missStamp : Option Nat
  trigs : List Trig
  trigCount : Nat
  marginLow : List (Nat × Nat)
  fails : List (Nat × Nat)
  wire : Wire
  syncSeq : Nat
  ownPs : Nat
  badFrame : Bool
  deriving DecidableEq, Repr

/-! ### Fire scheduling (chapter 8) -/

/-- A head's section of a FIFO line (R219): the data line it comes from, its codes in chain order, the energies of the
even and odd positions of each group (R213), the logical column of each nozzle that prints, and the volume multipliers
of the line (R190). -/
structure HeadSec where
  w : Int
  codes : List Nat
  halves : List (Nat × Nat)
  cols : List (Option Nat)
  mult : List Nat
  deriving DecidableEq, Repr

/-- A FIFO entry (R219): the fire line, its frame tag, the sections by driver × 8 + head, whether a phase change discarded
a section of it (R179), and whether an SRAM error spoils it (R116). -/
structure FifoLine where
  x : Int
  frame : Nat
  secs : KMap HeadSec
  clash : Bool
  bad : Bool
  deriving DecidableEq, Repr

/-- A transmission that has not ended: row, line, whether it carries codes, and its end in ns of the timer. -/
structure TxRec where
  row : Nat
  x : Int
  stop : Frac
  deriving DecidableEq, Repr

/-- The fire scheduler of a head port (R209 to R227): the FIFOs of its two rows, the row-line counters n_r, the
downgrade pointers, the occupancy end of each head row in ns, the end of the last transmission, the transmissions in
progress, the FIRST flags, the downgrade steps by frame, the frame in which each row last raised FIR_FIFO_LOW, the lines
of each row sent null in a run of a switchover (R225), electrical idle, and the records of the last second for
FIR_GRP_PEAK, FIR_LINK_LOAD and FIR_IDLE_PCT. -/
structure FirePort where
  fifo : List (List FifoLine)
  rowN : List Nat
  ptr : KMap Nat
  occ : KMap Frac
  busy : Frac
  tx : List TxRec
  first : List Bool
  dg : KMap Nat
  lowFrame : List Nat
  blank : List Nat
  unitOk : Bool
  idle : Bool
  idleClk : Nat
  endClk : Nat
  peaks : List (Nat × Nat)
  loads : List (Nat × Nat)
  idles : List (Nat × Nat)
  deriving DecidableEq, Repr

/-! ### Serge (chapter 14) -/

/-- The states of a Serge core (R385 to R388). -/
inductive CoreSt where
  | voting | reloading | probation | out
  deriving DecidableEq, Repr

/-- A Serge core: its state, the cycles in agreement in probation, and the clocks of its outvotes of the last hour. -/
structure Core where
  st : CoreSt
  agree : Nat
  outAt : List Nat
  deriving DecidableEq, Repr

/-- An analysis engine (R398): whether it serves, whether it stays out, the clocks of its failures of the last 600 s,
and the clock of its last watchdog signal or of its restart. -/
structure Engine where
  serving : Bool
  out : Bool
  fails : List Nat
  clk : Nat
  deriving DecidableEq, Repr

/-- The supervisor: the three cores, the latch of R387, the filtered STOP_IN_N, whether the force of R391 waits for the
device to leave SAFE, the voters whose read-back passed, the host core's failures of the last 600 s and the clock of its
last watchdog signal or of its restart, the analysis engines, how often each slice was replaced, the slices under
retest with the clock of their failure (R406), the spare's background test (R407), the clock at which each bar's
switchover began, the clock of the last SUP_DEADLINE of each deadline; the levels that the voters decided last (bits as in
SUP_OUTPUTS), whether all cores restart (R387), and whether a cause of SAFE waits for the end of DISCOVER (R438). -/
structure Sup where
  cores : List Core
  latch : Bool
  stopLow : Bool
  force : Bool
  voters : List Bool
  hostFails : List Nat
  hostClk : Nat
  engines : List Engine
  sliceFails : List Nat
  retest : List (Nat × Nat)
  spareTest : Option Nat
  spareClk : Nat
  swClk : List Nat
  dlStamp : KMap Nat
  outs : Nat
  restart : Bool
  safePending : Bool
  deriving DecidableEq, Repr


/-! ### Voile and inspection (chapter 10) -/

/-- A pair (row k, column c) of Voile (R276 to R278): its status (0 OK, 1 OPEN, 2 SHORT, 3 UNVERIFIED), the runs of
open-like, short-like and clean measurements, the clocks of its last measurement, of its becoming UNVERIFIED and of its
last VOI_UNVERIFIED. -/
structure Pair where
  st : Nat
  opens : Nat
  shorts : Nat
  cleans : Nat
  measClk : Nat
  unverClk : Nat
  toldClk : Nat
  deriving DecidableEq, Repr

/-- What the lands of Voile do in the slot in progress (R271): the row whose VROW_N is active after the blank, the blank
in clocks, the pre-charge of the columns below V_A in mV (none: the columns are not driven), and the pulse of each sink
in clocks (0: it stays off). -/
structure VoiOut where
  row : Option Nat
  blank : Nat
  drop : Option Nat
  pulses : List Nat
  deriving DecidableEq, Repr

/-- Voile: the pairs (by 32k + c), the sinks that passed; its lands, and the high clocks of VHR_CTL in a period of 1,024
(R274); the headroom loop (scans of the period, lowest sample of the period, a low sample in the scan and in the period,
scans in a row with the duty at its top and a low sample, whether an episode and its saturation are reported, a rise due
at the next scan); the power of the scan in progress and of the last 64 scans as energy, clocks and the VOI_I_GLB_EFF of
the scan; and the limiter's scans since a rise, and the clock since which the mean is below 90 %. -/
structure Voi where
  pairs : List Pair
  sinkOk : List Bool
  out : VoiOut
  vhr : Nat
  hrScans : Nat
  vMin : Option Nat
  low : Bool
  lowPeriod : Bool
  lowRun : Nat
  episode : Bool
  sat : Bool
  bump : Bool
  energy : Nat
  powers : List (Nat × Nat × Nat)
  sinceRise : Nat
  belowClk : Option Nat
  unitOk : Bool
  deriving DecidableEq, Repr

/-- A scan whose camera lines are arriving (R268, R269, R285): its number, web coordinate (raw Q48.16), ET, the reason
that excludes the whole line (0: none), whether slot 4 has latched them, the cameras in use, whether a dark slot
follows, the samples received by 16 × camera + slot and the places lost, the span exclusions (band, column, reason), and
VOI_I_GLB_EFF and VOI_I_GLB of the scan. -/
structure SpecLine where
  scan : Nat
  pos : Int
  et : Nat
  whole : Nat
  latched : Bool
  cams : Nat
  dark : Bool
  got : KMap (List Nat)
  lost : List Nat
  excl : List (Nat × Nat × Nat)
  eff : Nat
  glb : Nat
  deriving DecidableEq, Repr

/-- The open window (R286): number, range where no boundary cuts it, frame at its start and the end of that frame,
spectral lines, VOI_I_GLB_EFF of its first line and whether a later line had another one, whether the rate was halved,
and by pixel the count and the sums of the eight band densities. -/
structure WinAcc where
  idx : Nat
  start : Int
  stop : Int
  frame : Nat
  wEnd : Int
  spec : Nat
  eff : Option Nat
  cur : Bool
  half : Bool
  px : KMap (Nat × List Int)
  deriving DecidableEq, Repr

/-- A window record (R287): its header fields, by pixel the count and the eight absorbances, and the clock of the
close. -/
structure WinRec where
  idx : Nat
  start : Int
  stop : Int
  frame : Nat
  et : Nat
  spec : Nat
  flags : Nat
  darkVer : Nat
  whiteVer : Nat
  voiVer : Nat
  cams : Nat
  px : KMap (Nat × List Int)
  closeClk : Nat
  deriving DecidableEq, Repr

/-- A white capture in progress (R284): its start, the spectral lines averaged, and by pixel how many gave all eight
bands and the sums of their levels above dark. -/
structure Capture where
  clk : Nat
  lines : Nat
  px : KMap (Nat × List Int)
  deriving DecidableEq, Repr

/-- An upload block of a camera (R291, R292): its first scan (none: waits for the next), frame, coordinate and ET there,
its block number, the scans wanted, its lines by 8 × scan + slot, and the ring line at which it begins. -/
structure UplBlock where
  cam : Nat
  first : Option Nat
  frame : Nat
  start : Int
  et : Nat
  block : Nat
  scans : Nat
  lines : KMap (List Nat)
  ringAt : Nat
  ready : Option Nat
  deriving DecidableEq, Repr

/-- Inspection: the scan in progress, the slot that begins next, the ring lines written; whether the rate is halved;
whether changes take effect at the next scan; the settings and pulse widths in force, the cameras in use, and whether
they have been taken over since the scan began to run, with the TRIG of its first slot; the last boundary at the
inspection line; scans whose lines are arriving; the last 1,024 dark lines of each camera (camera and samples, newest
first), the dark slots taken since the last table and the scan of the last one; staged tables and whether they are a
refresh; pixels reported bad; the capture; the open window, the last number, records being completed, the last one; the
columns with drops of the window before; exclusions of the last second; uploads. -/
structure Ins where
  scan : Nat
  slot : Nat
  ringLine : Nat
  half : Bool
  apply : Bool
  set : KMap Int
  cams : Nat
  taken : Bool
  boundary : Option Int
  lines : List SpecLine
  darks : List (Nat × List Nat)
  darkLines : Nat
  darkScan : Option Nat
  stagedDark : Option (KMap Int)
  stagedWhite : Option (KMap Int)
  refresh : Nat
  limited : Nat
  bad : List Nat
  cap : Option Capture
  win : Option WinAcc
  winIdx : Nat
  closing : List WinRec
  last : Option WinRec
  prevDrops : Option (List Nat)
  excl : List (Nat × Nat × Nat)
  exclStamp : Option Nat
  upl : List UplBlock
  uplClk : Nat
  uplNo : List Nat
  uplBytes : List (Nat × Nat)
  uplStamp : Option Nat
  unitOk : Bool
  deriving DecidableEq, Repr

/-! ### Colour hold loop (chapter 11) -/

/-- The state record of a group (R303) without THETA and U: S and B as binary32 words, BAND and RUN by position,
LOOPSET and ACTIVE as masks, UPDATES. -/
structure Group where
  s : List Nat
  b : List Nat
  band : List Nat
  run : List Nat
  active : Nat
  updates : Nat
  deriving DecidableEq, Repr

/-- A head loop record of CHL_HEAD_LOOP (R314): θ and LOOPSET by 4,096 × row + nozzle; θ is listed where it is not
1.0. -/
structure LoopRec where
  serial : Nat
  nozzles : Nat
  valid : Bool
  date : Nat
  theta : KMap Nat
  loopset : KMap Nat
  deriving DecidableEq, Repr

/-- The FRAM image of a bar (R316): whether it is valid, the CRC of the JQ_TRIMS it is based on, g_b, and the u_n that
differ from that table. -/
structure LoopImage where
  valid : Bool
  crc : Nat
  g : Int
  u : KMap Nat
  deriving DecidableEq, Repr

/-- A taken window whose update is being made (R300, R301, R319): its start, range, stripe, record, tallies of the
stripe (by slot word), excluded bars, the clock of the record's completion, and which engines have yet to finish. -/
structure LoopJob where
  start : Int
  len : Nat
  stripe : Nat
  px : KMap (Nat × List Int)
  tally : KMap Nat
  excl : List Nat
  clk : Nat
  todo : List Bool
  deriving DecidableEq, Repr

/-- The colour hold loop: groups by 49,152 b + x; θ_n, u_n and LOOPSET by position (262,144 b + 131,072 row + column),
u_n listed where it is not the trim of the set; positions that a requalification activates; k̄_b at the start of the
cycle; bars whose trims wait for a new version to reach row B; bars whose S and B restart; taken windows and the close
of the last; the updates in progress; groups updated and conditioned in the cycle, and its once-per-cycle reports; the
clock of the last CHL_TRIM_LIMIT; head records, and by serial the record as it was loaded at the head's attachment (R317);
the FRAM images, the flush in progress (start and image) and whether
one waits; the clock of the last store. -/
structure Loop where
  groups : KMap Group
  theta : KMap Nat
  u : KMap Nat
  loopset : KMap Nat
  requal : KMap Nat
  kStart : List Nat
  hold : List Bool
  fresh : List Nat
  taken : Nat
  lastClose : Option Nat
  jobs : List LoopJob
  condN : List (Nat × Nat)
  told : List (Nat × Nat)
  limStamp : List (Option Nat)
  recs : KMap LoopRec
  loaded : KMap LoopRec
  img : List LoopImage
  flush : Option (Nat × List LoopImage)
  flushWait : Bool
  storeClk : Option Nat
  deriving DecidableEq, Repr

/-! ### Thermal, power and monitors (chapter 15) -/

/-- A temperature sensor (R411 to R416): its raw reading and its readings of the last second (newest first, 1 ms apart),
why it is broken (0: it is not), the clock since which kinds 1 to 3 have not held, the reading at which it stuck (kind 4),
whether it is at WARN, and the kind of throttle condition it holds. -/
structure Sensor where
  raw : Int
  hist : List Int
  broken : Nat
  goodClk : Option Nat
  stuckAt : Int
  sameClk : Nat
  warn : Bool
  thr : Nat
  deriving DecidableEq, Repr

/-- A journal record (R430). `valid` is COMMIT_SEQ equal to SEQ, `tail` TAIL_SEQ. -/
structure JrnRec where
  seq : Nat
  kind : Nat
  state : Nat
  sensor : Nat
  flags : Nat
  ptpSec : Nat
  ptpNs : Nat
  et : Nat
  pos : Int
  temps : List Int
  vin : Nat
  pin : Nat
  lastFired : List Int
  rowFrame : List Nat
  rowEnd : List Int
  oldest : Nat
  newest : Nat
  lifeLines : Nat
  lifeHours : Nat
  lifePf : Nat
  lifeShut : Nat
  defects : Nat
  reason : Nat
  valid : Bool
  tail : Bool
  tailEvt : Nat
  deriving DecidableEq, Repr

/-- Thermal management, governor, rails, AVS and the journal: the sensors; the readings of the last 60 s, one set per
second, and the polls since; zones lost; whether a throttle condition holds and the steps that broken sensors alone have
taken in the episode; the clocks of the last step and of the last recovery step or of cooling; VIN in mV; the clocks at
which the shedding level was taken, since which the power has stayed within the margin and above the limit, of the last
lowering and raising of the ceiling, and since which LCK_FROW_HZ is at or below it; rails by state (0 OK, 1 low, 2 high,
3 fault); the clock of the last PROC_SLOW and VCORE change, and AVS_EN as last seen; whether the band-gap correction is
frozen; the journal, newest first, the last SEQ written and the SEQ at the last boot; a save in progress, and save mode;
the powered time not yet counted and the lines fired. -/
structure Thm where
  sensors : List Sensor
  minute : List (List Int)
  polls : Nat
  zoneLost : List Nat
  throttle : Bool
  brokenSteps : Nat
  stepClk : Nat
  riseClk : Nat
  coolClk : Option Nat
  vin : Nat
  levelClk : Nat
  marginClk : Option Nat
  overClk : Option Nat
  lowerClk : Nat
  raiseClk : Nat
  underClk : Option Nat
  undoClk : Nat
  rails : List Nat
  slowClk : Option Nat
  vcoreClk : Nat
  avsOn : Bool
  bgFrozen : Bool
  journal : List JrnRec
  jrnSeq : Nat
  jrnBoot : Nat
  saving : Bool
  saveMode : Bool
  pfLow : Bool
  armed : Bool
  hourClk : Nat
  lines : Nat
  deriving DecidableEq, Repr


/-- The platform (chapter 16): the clocks of VIN-valid and of the entry to the present state, the progress of
start-up, the pending pause, the hold flag, standby, the head profiles whose corrections have not been recorded since
they were written (R210), whether the standby is that of R424, whether no
firmware image was accepted (R444), and SYS_BGEN_PIN as the boot found it (R13). -/
structure Sys where
  vinClk : Nat
  enterClk : Nat
  voted : Bool
  hostUp : Bool
  dramDone : Bool
  loaded : Bool
  pausePending : Bool
  holdFlag : Bool
  standby : Bool
  darkDone : Bool
  refclk : Bool
  calFrom : Bool
  profNew : List Bool
  railHold : Bool
  bootFail : Bool
  bgenPin : Nat
  deriving DecidableEq, Repr

/-- The stored tables whose entries are records (R71, R198, R314), as the NVM holds them. -/
structure Nvm where
  align : KMap AlignRec
  heads : KMap HeadRecord
  loops : KMap LoopRec
  deriving DecidableEq, Repr

/-- Everything but the device state, the authentication block and the queue. `clk` counts CLK_TS clocks, `free`
the free values taken, `out` lists what the last command sent. -/
structure World where
  clk : Nat
  free : Nat
  out : List OutMsg
  sys : Sys
  evt : Evt
  dict : Dict
  tim : Tim
  web : Web
  lck : Lck
  job : Job
  mem : Mem
  cal : Cal
  jq : Jq
  links : List Link
  fire : List FirePort
  sup : Sup
  voi : Voi
  ins : Ins
  loop : Loop
  thm : Thm
  net : Net
  can : Can
  nvm : Nvm
  deriving DecidableEq, Repr

/-- The state of the block: control, world, and the commands that wait, first in, first out. -/
structure State where
  ctl : Ctl
  w : World
  pending : List Instr
  deriving DecidableEq, Repr

/-! ### Reset: the block as VIN-valid finds it (R436, R443), every value at its default -/

def EncCh.reset : EncCh :=
  { count := 0, phase := 0, refCount := 0, refValid := false, refPos := none, mismRun := 0, fault := false, back := false
    lossA := false, lossB := false, lossZ := false, tally := 0, illegalAt := [], lastClk := none
    illStamp := none, overStamp := none }

def Probe.reset : Probe :=
  { armed := true, accepted := false, extraRaised := false, held := [none, none, none], closed := []
    lastPos := none, extraStamp := none }

def SsiM.reset : SsiM := { busy := none, good := false, lastStart := none }

def Web.reset : Web :=
  { enc := List.replicate 4 EncCh.reset, active := 0, net := 0, hwmNet := 0, pos := 0, hwm := 0, trk := .forward
    run := 0, vNum := 0, vDen := 0, valid := false, back := false, etHist := [], etLast := 0, edgeClk := 0
    standstill := true, slip := none, prb := List.replicate 8 Probe.reset
    hswInhibit := [false, false, false, false], ssi := [SsiM.reset, SsiM.reset], wI := none, lossInhibit := false,
    switched := false }

def RowClk.reset : RowClk :=
  { next := 0, lastFire := none, lag := 0, sat := false, skipRun := 0, lateFrame := none, stopRun := 0
    inhibited := 0, setTag := 0, setB := 0, res600 := false, shiftNulls := 0, shiftRaised := false, nulls := 0
    periodTicks := 0, recent := [] }

def Lck.reset : Lck :=
  { rows := List.replicate 16 RowClk.reset, sE := 0, tE := 0, rho := 0, rhoPrev := 0, warnRow := none, overRow := none
    stopReq := false, belowSince := none, returnSince := none, hlWant := none, hlAfter := none, hl600 := false,
    hlLast := none
    look := 2048, align := [] }

def Job.reset : Job :=
  { bounds := [], frames := [], lastNo := 0, count := none, origin := 0, grid := 0, noSrc := false, noSrcClk := 0
    pauseEff := false, vdWritten := false, commit := false, stalls := 0, deferred := false, fins := [], calSets := [],
    defects := []
    marks := [], stopLayers := [] }

def Mem.reset : Mem :=
  { ready := false, tallyWin := 1024, insMib := 2048, items := [], nextItem := 1, wb := [], blankBelow := none
    front := 0, lineOpen := false, refLine := [], lateRaised := false, starveFrom := none, starved := false
    tally := [], tallyWins := [], ceStamp := none, ceHour := 0, ceHourClk := 0, ceWarned := false, inject := [],
    struck := [], scrubClk := 0
    unitOk := List.replicate 18 true, wbSizes := [], musStamp := [] }

def Cal.reset : Cal :=
  { last := List.replicate 10 none, tileFrom := List.replicate 10 none, hist := List.replicate 10 (0, []),
    pathOk := true, rule6Done := [], rule6Sh := [], prv := none
    prvQueue := [], prvPartnerLost := false, prvDropFrames := [] }

def Pass.reset : Pass :=
  { front := 0, start := 0, setB := 0, tag := 0, load := none, decNext := 0, lines := [], phaseRun := 0
    done := [0, 0] }

def BarJq.reset : BarJq :=
  { sets := [], passes := [Pass.reset, Pass.reset], live := [], miss := [], freq := 0, limFrames := [], uncovFrames := []
    missFrames := [], decTold := 0, refLost := false, blankRun := [0, 0], ckpts := [none, none], ckptSeq := 0,
    halt := false, noSlice := false
    lineClk := [0, 0], heldTrims := [] }

def Jq.reset : Jq := { bars := List.replicate 8 BarJq.reset, phases := [], noz := [], trims := [], recs := [] }

def Wire.reset : Wire := { alignUi := 0, seq := 0, next := 0, regs := [], lanes := [] }

def Link.reset : Link :=
  { st := .disabled, testOk := false, startClk := 0, enumAddr := 0, enumClk := 0, answerClk := 0, drivers := []
    excess := false, verBad := false, noProf := false, tooMany := false, arrival := none, tag := 0, cmds := []
    presets := List.replicate 6 0, trialClk := 0, trialLane := 0, trial := none, reported := [], discarded := 0
    portDown := false, fenOff := false, syncDue := false, errAt := [], errStamp := none, failStamp := none, crcAt := []
    crcStamp := none, missStamp := none, trigs := [], trigCount := 0, marginLow := []
    fails := [], wire := Wire.reset, syncSeq := 0, ownPs := 0, badFrame := false }

def Core.reset : Core := { st := .voting, agree := 0, outAt := [] }

def Engine.reset : Engine := { serving := true, out := false, fails := [], clk := 0 }

def Sup.reset : Sup :=
  { cores := List.replicate 3 Core.reset, latch := false, stopLow := false, force := false
    voters := List.replicate 25 true, hostFails := [], hostClk := 0, engines := [Engine.reset, Engine.reset]
    sliceFails := List.replicate 9 0, retest := [], spareTest := none, spareClk := 0, swClk := List.replicate 8 0
    dlStamp := [], outs := 0, restart := false, safePending := false }

def FirePort.reset : FirePort :=
  { fifo := [[], []], rowN := [0, 0], ptr := [], occ := [], busy := fracI 0, tx := [], first := [true, true], dg := []
    lowFrame := [0, 0], blank := [0, 0], unitOk := false, idle := false, idleClk := 0, endClk := 0, peaks := [],
    loads := [], idles := [] }

def Pair.reset : Pair := { st := 3, opens := 0, shorts := 0, cleans := 0, measClk := 0, unverClk := 0, toldClk := 0 }

/-- Every row inactive and every sink off (R295). -/
def VoiOut.off : VoiOut := { row := none, blank := 0, drop := none, pulses := List.replicate 32 0 }

def Voi.reset : Voi :=
  { pairs := List.replicate 256 Pair.reset, sinkOk := List.replicate 32 true, out := VoiOut.off, vhr := 512, hrScans := 0
    vMin := none, low := false, lowPeriod := false, lowRun := 0, episode := false, sat := false, bump := false,
    energy := 0
    powers := [], sinceRise := 64, belowClk := none, unitOk := false }

def Ins.reset : Ins :=
  { scan := 0, slot := 0, ringLine := 0, half := false, apply := false, set := [], cams := 0, taken := false
    boundary := none, lines := [], darks := [], darkLines := 0, darkScan := none, stagedDark := none
    stagedWhite := none, refresh := 0, limited := 0, bad := [], cap := none, win := none, winIdx := 0, closing := []
    last := none, prevDrops := none, excl := [], exclStamp := none, upl := [], uplClk := 0
    uplNo := List.replicate 8 0, uplBytes := [], uplStamp := none, unitOk := false }

def LoopImage.reset : LoopImage := { valid := false, crc := 0, g := 16777216, u := [] }

def Group.reset : Group :=
  { s := List.replicate 10 0, b := List.replicate 4 0, band := [0, 0, 0, 0], run := [0, 0, 0, 0], active := 0,
    updates := 0 }

def Loop.reset : Loop :=
  { groups := [], theta := [], u := [], loopset := [], requal := [], kStart := List.replicate 8 16384
    hold := List.replicate 8 false, fresh := [], taken := 0, lastClose := none, jobs := []
    condN := List.replicate 8 (0, 0), told := [], limStamp := List.replicate 8 none, recs := [], loaded := []
    img := List.replicate 8 LoopImage.reset, flush := none, flushWait := false, storeClk := none }

def Sensor.reset : Sensor :=
  { raw := 0, hist := [], broken := 0, goodClk := none, stuckAt := 0, sameClk := 0, warn := false, thr := 0 }

def Thm.reset : Thm :=
  { sensors := List.replicate 26 Sensor.reset, minute := [], polls := 0, zoneLost := [], throttle := false
    brokenSteps := 0, stepClk := 0, riseClk := 0, coolClk := none, vin := 0, levelClk := 0, marginClk := none,
    overClk := none
    lowerClk := 0, raiseClk := 0, underClk := none, undoClk := 0, rails := List.replicate 14 0, slowClk := none
    vcoreClk := 0, avsOn := false, bgFrozen := false, journal := [], jrnSeq := 0, jrnBoot := 0, saving := false,
    saveMode := false, pfLow := false, armed := false
    hourClk := 0, lines := 0 }

def Evt.reset : Evt :=
  { raised := [], seq := 0, staging := [], log := [], head := 0, dropRun := 0, recent := [], last := [], counts := []
    lastData := [], outLevel := [false, false, false, false], outEnd := [none, none, none, none]
    clampsRaised := 0, inCommit := false }

def Dict.reset : Dict :=
  { obj := [], shadow := [], tbl := [], tblShadow := [], fram := [], framWait := [], nor := [], norWait := []
    hostName := [0x54, 0x56, 0x2D, 0x32, 0x30, 0x38, 0x30], hostNameNv := [0x54, 0x56, 0x2D, 0x32, 0x30, 0x38, 0x30]
    adj := [] }

def Tim.reset : Tim :=
  { sec := 0, ns := 0, fracNs := 0, halfTicks := 0, rate := fracI 0, y := fracI 0, p := fracI 0, pUntil := none
    tc := fracI 0, tcFrozen := false, yHist := [], lastSyncClk := none, syncs := 0, lockRun := 0, unlockRun := 0
    everLocked := false, path := fracI 0, pathValid := false, twoStep := none, pdTwoStep := none, pendingDelay := none,
    t2t1 := none
    deferred := none, deferRaised := false, rolled := false, stepSinceAnchor := false, annClk := none
    annSeen := false, gmPrio := [], parent := 0, masters := [], delaySeq := 0, syncSeq := 0, annSeq := 0, freqClk := 0,
    tempSamples := [] }

def Net.reset : Net :=
  { linkUp := List.replicate 10 false, partners := [], replay := [], bulkIn := [], bulkOut := []
    helloSeq := List.replicate 9 0, helloClk := List.replicate 9 0, nextStream := 1, dhcp := [], ingestShare := 1 }

def Can.reset : Can :=
  { nmt := 0, bus := 0, cfg := 9, node := 32, emcyQ := [], emcyClk := none, errReg := 0, hbClk := 0, hb := []
    sdo := none, tpdoClk := [0, 0, 0, 0], tpdoLast := [0, 0, 0, 0]
    arb := { p := 4, n := 125, sample := 100, seg2 := 25, sjw := 25 }
    fast := { p := 1, n := 125, sample := 94, seg2 := 31, sjw := 31 }, tdc := false }

def Sys.reset : Sys :=
  { vinClk := 0, enterClk := 0, voted := false, hostUp := false, dramDone := false, loaded := false
    pausePending := false, holdFlag := false, standby := false, darkDone := false, refclk := true, calFrom := false,
    profNew := List.replicate 16 true
    railHold := false, bootFail := false, bgenPin := 0 }

def Sec.reset : Sec := { slots := [.empty, .empty, .empty, .empty], ctr := [0, 0, 0, 0], fails := [], blockEnd := none }

def World.reset : World :=
  { clk := 0, free := 0, out := [], sys := Sys.reset, evt := Evt.reset, dict := Dict.reset, tim := Tim.reset
    web := Web.reset, lck := Lck.reset, job := Job.reset, mem := Mem.reset, cal := Cal.reset, jq := Jq.reset,
    links := List.replicate 24 Link.reset, fire := List.replicate 16 FirePort.reset, sup := Sup.reset, voi := Voi.reset,
    ins := Ins.reset, loop := Loop.reset, thm := Thm.reset, net := Net.reset
    can := Can.reset, nvm := { align := [], heads := [], loops := [] } }

/-- The block before power: OFF, every value at its default, nothing waiting. -/
def State.reset : State :=
  { ctl := { mode := .off, prev := .off, sec := Sec.reset }, w := World.reset, pending := [] }

end Sys2Proof.Machine
end

