-- ==== Sys2Proof/Machine/Blocks.lean ====
section
/-! DEFINITION. The bits of the links (chapter 9): CRC-32C (R244), blocks and their types (R232, R234), the scrambler
(R233), striping (R236), and the words of a line frame (R241 to R243, R263). -/

namespace Sys2Proof.Machine

/-! ### CRC-32C -/

/-- One step of the reflected division by the Castagnoli polynomial. -/
def crcShift : Nat → Nat → Nat
  | 0, c => c
  | k + 1, c => crcShift k (if c % 2 = 1 then (c / 2) ^^^ 0x82F63B78 else c / 2)

/-- One byte of the register. -/
def crcByte (c b : Nat) : Nat := crcShift 8 (c ^^^ (b % 256))

/-- CRC-32C of a byte string (R244): initial value and final XOR 0xFFFF_FFFF. -/
def crc32c (l : List Nat) : Nat := (l.foldl crcByte 0xFFFFFFFF) ^^^ 0xFFFFFFFF

/-! ### Blocks -/

/-- The block types of R234, with their codes. -/
inductive BlockTy where
  | idle | sync | lineStart | lineEnd | cmd | rsp | align
  deriving DecidableEq, Repr

def blockCode : BlockTy → Nat
  | .idle => 0x0F | .sync => 0x33 | .lineStart => 0x55 | .lineEnd => 0x66 | .cmd => 0x78 | .rsp => 0x99 | .align => 0xAA

/-- A control block's payload: the type in bits [63:56], its fields below. -/
def ctrlBlock (t : BlockTy) (fields : Nat) : Nat := blockCode t * 2 ^ 56 + fields % 2 ^ 56

/-- The type of a control block; none where the block is invalid. -/
def blockType (payload : Nat) : Option BlockTy :=
  [BlockTy.idle, .sync, .lineStart, .lineEnd, .cmd, .rsp, .align].find? fun t => blockCode t == field payload 56 8

/-- Whether a receiver counts the block as an error (R235). -/
def blockValid (b : Block) : Bool :=
  b.header == 1 || (b.header == 2 && (blockType b.payload).isSome)

def syncBlock (time : Nat) : Nat := ctrlBlock .sync (time % 2 ^ 48 * 256)
def lineStartBlock (time line : Nat) : Nat := ctrlBlock .lineStart (time % 2 ^ 32 * 2 ^ 24 + line % 2 ^ 24)
def lineEndBlock (crc line : Nat) : Nat := ctrlBlock .lineEnd (crc % 2 ^ 32 * 2 ^ 24 + line % 2 ^ 24)
def cmdBlock (addr op tag len arg : Nat) : Nat :=
  ctrlBlock .cmd (addr % 16 * 2 ^ 52 + op % 16 * 2 ^ 48 + tag % 256 * 2 ^ 40 + len % 256 * 2 ^ 32 + arg % 2 ^ 32)
/-- A response: its RESULT and VALUE (R234). -/
def rspBlock (addr op tag len result value : Nat) : Nat :=
  cmdBlock addr op tag len (result % 256 * 2 ^ 24 + value % 2 ^ 24) - 0x78 * 2 ^ 56 + 0x99 * 2 ^ 56
def alignBlock (lane seq : Nat) : Nat := ctrlBlock .align (lane % 16 * 2 ^ 52 + seq % 2 ^ 28 * 2 ^ 24 + 0xC35A3C)

/-! ### Scrambling and striping -/

/-- One bit through the self-synchronising scrambler 1 + x^39 + x^58: the register holds the last 58 bits sent, the
newest in bit 0 (R233). Answers the bit sent and the register. -/
def scrambleBit (reg : Nat) (b : Bool) : Bool × Nat :=
  let o := b != (bitOf reg 38 != bitOf reg 57)
  (o, (2 * reg + b2n o) % 2 ^ 58)

/-- The payload bits of a block in transmission order (bit 0 first), scrambled. -/
def scrambleBits : Nat → List Bool → List Bool × Nat
  | reg, [] => ([], reg)
  | reg, b :: bs =>
    let (o, reg) := scrambleBit reg b
    let (os, reg) := scrambleBits reg bs
    (o :: os, reg)

/-- One bit through the descrambler: its register holds the last 58 bits received. -/
def descrambleBits : Nat → List Bool → List Bool × Nat
  | reg, [] => ([], reg)
  | reg, b :: bs =>
    let (os, reg') := descrambleBits ((2 * reg + b2n b) % 2 ^ 58) bs
    ((b != (bitOf reg 38 != bitOf reg 57)) :: os, reg')

/-- A block on its lane: ALIGN passes by the scrambler and leaves it as it is (R233). -/
def scrambleBlock (reg : Nat) (b : Block) : Nat × Nat :=
  if b.header = 2 ∧ blockType b.payload = some .align then (b.payload, reg)
  else
    let (bs, reg) := scrambleBits reg (bitsList 64 b.payload)
    (ofBits bs, reg)

/-- The bits of a block in wire order (R232): the more significant header bit first, then payload bit 0 up. -/
def blockBits (b : Block) : List Bool := bitOf b.header 1 :: bitOf b.header 0 :: bitsList 64 b.payload

def dataBlock (x : Nat) : Block := { header := 1, payload := x }
def controlBlock (x : Nat) : Block := { header := 2, payload := x }
def idleBlock : Block := controlBlock (ctrlBlock .idle 0)

/-- Blocks of one lane through its scrambler, in order: as sent, and the register behind them. -/
def scrambleLane : Nat → List Block → List Block × Nat
  | reg, [] => ([], reg)
  | reg, b :: bs =>
    let (x, reg) := scrambleBlock reg b
    let (l, reg) := scrambleLane reg bs
    ({ b with payload := x } :: l, reg)

/-- Lane of block `i` of an `n`-lane direction, counted from the last ALIGN set (R236). -/
def laneOf (n i : Nat) : Nat := i % n
/-- Lanes of the wide direction of a link: 6 of a head port, 2 of camera data. -/
def wideLanes (link : Nat) : Nat := if link < 16 then 6 else 2
/-- Lanes on which the device sends. -/
def sendLanes (link : Nat) : Nat := if link < 16 then 6 else 1

/-- An ALIGN set at place `g` of an `n`-lane direction. -/
def alignSet (n seq g : Nat) : List (Nat × Block) :=
  (List.range n).map fun k => (g + k, controlBlock (alignBlock k seq))

/-- Deal blocks to the places from `g` on (R236): place `g` is lane g mod n of lane-block position g / n, counted from
an ALIGN set with number `seq`; every 16,384th position is an ALIGN set, which takes no place in the round robin. A
single lane carries none. -/
def placeBlocks (n seq : Nat) : Nat → List Block → List (Nat × Block)
  | _, [] => []
  | g, b :: bs =>
    if n ≠ 1 ∧ g / n % 16384 = 0 then
      let up := (g / n + 1) * n
      (if g % n = 0 then alignSet n (seq + g / n / 16384) g else []) ++ (up, b) :: placeBlocks n seq (up + 1) bs
    else (g, b) :: placeBlocks n seq (g + 1) bs

/-- The blocks of a command (R234, R248): CMD and LEN data blocks. -/
def cmdBlocks (addr op tag arg : Nat) (data : List Nat) : List Block :=
  controlBlock (cmdBlock addr op tag data.length arg) :: data.map dataBlock

/-- The blocks of a training burst on a lane (R257): 32 IDLE, ALIGN with SEQ 0, 30 IDLE, and SYNC on lane 0. -/
def burstLane (time k : Nat) : List Block :=
  List.replicate 32 idleBlock ++ controlBlock (alignBlock k 0) :: List.replicate 30 idleBlock ++
    [if k = 0 then controlBlock (syncBlock time) else idleBlock]

/-! ### Line frames -/

/-- The line header word (R242). -/
def lineHeader (row rot split : Nat) (null first : Bool) (period nozzles : Nat) : Nat :=
  row % 2 * 2 ^ 63 + rot % 16 * 2 ^ 59 + split % 2 ^ 16 * 2 ^ 43 + b2n null * 2 ^ 42 + b2n first * 2 ^ 41 +
    min period 16777215 * 2 ^ 17 + nozzles % 2 ^ 17

/-- Split a bit string into 64-bit words, first bit at bit 63, the last word padded with zeros (R243). -/
def wordsOfBits : Nat → List Bool → List Nat
  | 0, _ => []
  | k + 1, l => bitsNum ((l ++ List.replicate (64 - min 64 l.length) false).take 64) :: wordsOfBits k (l.drop 64)

/-- The samples or codes of `bits` bits each as data words (R243, R263). -/
def packWords (bits : Nat) (l : List Nat) : List Nat :=
  wordsOfBits (ceilDiv (bits * l.length) 64) (l.flatMap (numBits bits))

/-- A word as 8 bytes from bits [63:56] down (R244). -/
def wordBytes (w : Nat) : List Nat := (leBytes 8 w).reverse

/-- The CRC of a frame over its header and data words. -/
def frameCrc (words : List Nat) : Nat := crc32c (words.flatMap wordBytes)

/-- The blocks of a line frame in order (R241). -/
def lineFrame (time line header : Nat) (codes : List Nat) : List Nat :=
  let words := header :: packWords 3 codes
  lineStartBlock time line :: words ++ [lineEndBlock (frameCrc words) line]

/-- The words of a line frame as blocks: the first and the last are control blocks (R241). -/
def frameBlocks (words : List Nat) : List Block :=
  match words with
  | [] => []
  | a :: rest => controlBlock a :: (rest.take (rest.length - 1)).map dataBlock ++
      (rest.drop (rest.length - 1)).map controlBlock

/-- Transmission time of a line of `n` nozzles in whole ns (R245). -/
def txNs (n : Nat) : Nat := max (3 * n / 36) ((ceilDiv (3 * n) 64 + 9) * 176 / 100)

end Sys2Proof.Machine
end

