-- ==== Sys2Proof/Config.lean ====
section
/-! DEFINITION. What a module fixes and what the manual leaves open: factory values (identity, MAC base, factory
latencies, firmware release) and the free values. Each is a constant without a body: nothing in Lean can see what it
is, so every claim holds whatever it is. -/

namespace Sys2Proof

/-- Serial number of the module (R6). -/
opaque Config.serialRaw : BitVec 32
/-- Stepping code of R7: 0x0100 × letter position + number. -/
opaque Config.stepping : BitVec 16
/-- Firmware release of an image (0 the newest, 1 the previous): major, minor and patch numbers (R6, R7). -/
opaque Config.fwMajor : Nat → BitVec 8
opaque Config.fwMinor : Nat → BitVec 8
opaque Config.fwPatch : Nat → BitVec 8
/-- The native behaviour generation of an image, less 1 (SYS_BGEN_NATIVE is at least 1). -/
opaque Config.bgenNativeLess1 : Nat → BitVec 15
/-- OTP base of the MAC addresses (R362). -/
opaque Config.macBase : BitVec 48
/-- Factory defaults of TIM_TX_LAT_PS and TIM_RX_LAT_PS (R368). -/
opaque Config.txLatPs : BitVec 16
opaque Config.rxLatPs : BitVec 16
/-- Band-gap voltages in OTP, in µV: at −20 °C, 40 °C and 110 °C (R426). -/
opaque Config.bgCold : BitVec 32
opaque Config.bgMid : BitVec 32
opaque Config.bgHot : BitVec 32
/-- Key interval and segment length (2^(8 + value mod 5) samples) of the IMAGE_PACK lines that the general units code
(R110): the spec states them for the other streams only. -/
opaque Config.packKey : BitVec 16
opaque Config.packSegLog : BitVec 3
/-- A fresh free value: the n-th value that the manual leaves open (INVENTORY.md, What the manual leaves open). -/
opaque Config.freeValue : Nat → BitVec 64
/-- The register of a lane's scrambler before a block that follows IDLE blocks the model does not count: by link, lane,
clock of the ALIGN origin and block place (R233, log 84). -/
opaque Config.laneReg : Nat → Nat → Nat → Nat → BitVec 58

/-- SYS_SERIAL: 1 to 0xFFFF_FFFF (R6). -/
def Config.serial : Nat := if Config.serialRaw.toNat = 0 then 1 else Config.serialRaw.toNat
/-- SYS_BGEN_NATIVE of an image (R10). -/
def Config.bgenNative (image : Nat) : Nat := (Config.bgenNativeLess1 image).toNat + 1
/-- SYS_REVISION of an image (R7). -/
def Config.revision (image : Nat) : Nat :=
  Config.stepping.toNat * 65536 + (Config.fwMajor image).toNat * 256 + (Config.fwMinor image).toNat

end Sys2Proof
end

