-- ==== Sys2Proof/Machine/ObjTypes.lean ====
section
/-! DEFINITION. The vocabulary of the object dictionary: the types of R322, the access kinds and attributes of
R323, and how a row states its default and the value check of R326. -/

namespace Sys2Proof.Machine

/-- The object types of R322. A Q type carries its size in bytes and whether it is signed. -/
inductive ObjTy where
  | bool | u8 | u16 | u32 | u64 | i16 | i32 | i64 | enum8 | bits32
  | q (bytes : Nat) (signed : Bool)
  | str | dom
  deriving DecidableEq, Repr

/-- Access of R323. -/
inductive Access where
  | ro | rw | wo
  deriving DecidableEq, Repr

/-- The default of a row: `a + b · instance + c · (sub-index − first sub-index)`, or a value that a rule of its
chapter states (`special`). -/
inductive DefVal where
  | lin (a b c : Int)
  | special
  deriving DecidableEq, Repr

/-- A field of a BITS32 map whose values `lo` to `hi` fall back to `val`. -/
structure FieldFall where
  lsb : Nat
  width : Nat
  lo : Nat
  hi : Nat
  val : Nat
  deriving DecidableEq, Repr

/-- What R326 checks of a value: nothing beyond its type, a range given in parts (rising, with holes between
them), the writable bits of a field map with its fallbacks, or a check of the owning chapter. -/
inductive ValCheck where
  | full
  | parts (l : List (Int × Int))
  | bits (mask : Nat) (falls : List FieldFall)
  | special
  deriving DecidableEq, Repr

/-- One row of an object table: the key of its first instance and first sub-index, how many instances it has and
their key stride, how many consecutive sub-indices, type, access, the attributes S, C and A, default, check,
step, and whether it is an action object (R475). -/
structure ObjDesc where
  key : Nat
  count : Nat
  stride : Nat
  subs : Nat
  ty : ObjTy
  acc : Access
  s : Bool
  c : Bool
  a : Bool
  dflt : DefVal
  chk : ValCheck
  step : Nat
  action : Bool
  deriving DecidableEq, Repr

end Sys2Proof.Machine
end

