-- ==== Sys2Proof/Machine/ObjTable.lean ====
section
/-! DEFINITION. The object dictionary: one name and one row per object of the object tables of spec/ (R6, R322,
R323 and the table "Objects" of each chapter). A key is index x 256 + sub-index of the first instance; rows of
several instances or consecutive sub-indices say so by a count and a stride. -/

namespace Sys2Proof.Machine

/-! ### Keys, by mnemonic -/

namespace Obj

abbrev SYS_DEVICE_TYPE : Nat := 0x100000
abbrev SYS_NAME : Nat := 0x100800
abbrev SYS_STEPPING : Nat := 0x100900
abbrev SYS_FW_RELEASE : Nat := 0x100A00
abbrev SYS_VENDOR_ID : Nat := 0x101801
abbrev SYS_PRODUCT_CODE : Nat := 0x101802
abbrev SYS_REVISION : Nat := 0x101803
abbrev SYS_SERIAL : Nat := 0x101804
abbrev SYS_BGEN_PIN : Nat := 0x200201
abbrev SYS_BGEN_ACTIVE : Nat := 0x200202
abbrev SYS_BGEN_NATIVE : Nat := 0x200203
abbrev SYS_BGEN_OLDEST : Nat := 0x200204
abbrev WEB_ENC_CFG (n : Nat) : Nat := 0x210001 + 0x1000 * n
abbrev WEB_ENC_LPC (n : Nat) : Nat := 0x210002 + 0x1000 * n
abbrev WEB_ENC_CPR (n : Nat) : Nat := 0x210003 + 0x1000 * n
abbrev WEB_ENC_IDX_TOL (n : Nat) : Nat := 0x210004 + 0x1000 * n
abbrev WEB_ENC_COUNT (n : Nat) : Nat := 0x210005 + 0x1000 * n
abbrev WEB_ENC_IDX_COUNT (n : Nat) : Nat := 0x210006 + 0x1000 * n
abbrev WEB_ENC_IDX_DEV (n : Nat) : Nat := 0x210007 + 0x1000 * n
abbrev WEB_ENC_STATUS (n : Nat) : Nat := 0x210008 + 0x1000 * n
abbrev WEB_ENC_ILLEGAL (n : Nat) : Nat := 0x210009 + 0x1000 * n
abbrev WEB_ENC_OVERRATE (n : Nat) : Nat := 0x21000A + 0x1000 * n
abbrev WEB_ENC_IDX_ADJ (n : Nat) : Nat := 0x21000B + 0x1000 * n
abbrev WEB_ENC_IDX_MISM (n : Nat) : Nat := 0x21000C + 0x1000 * n
abbrev WEB_POS : Nat := 0x216001
abbrev WEB_POS_SET : Nat := 0x216002
abbrev WEB_HWM : Nat := 0x216003
abbrev WEB_TRK_STATE : Nat := 0x216004
abbrev WEB_JITTER_LIMIT : Nat := 0x216005
abbrev WEB_JITTER_EXC : Nat := 0x216006
abbrev WEB_REVERSALS : Nat := 0x216007
abbrev WEB_SRC : Nat := 0x216008
abbrev WEB_ACTIVE_ENC : Nat := 0x216009
abbrev WEB_SLIP_WIN : Nat := 0x21600A
abbrev WEB_SLIP_LIMIT : Nat := 0x21600B
abbrev WEB_SLIP_LAST : Nat := 0x21600C
abbrev WEB_STANDSTILL_MS : Nat := 0x21600D
abbrev WEB_SPEED_LPS : Nat := 0x216101
abbrev WEB_SPEED_MMIN : Nat := 0x216102
abbrev WEB_SPD_VALID : Nat := 0x216103
abbrev WEB_SPD_AVG : Nat := 0x216104
abbrev WEB_EDGE_ET : Nat := 0x216105
abbrev WEB_PRB_CFG (n : Nat) : Nat := 0x214001 + 0x100 * n
abbrev WEB_PRB_OFFSET (n : Nat) : Nat := 0x214002 + 0x100 * n
abbrev WEB_PRB_WIN_START (n : Nat) : Nat := 0x214003 + 0x100 * n
abbrev WEB_PRB_WIN_END (n : Nat) : Nat := 0x214004 + 0x100 * n
abbrev WEB_PRB_WIN_PERIOD (n : Nat) : Nat := 0x214005 + 0x100 * n
abbrev WEB_PRB_LOCKOUT (n : Nat) : Nat := 0x214006 + 0x100 * n
abbrev WEB_PRB_SENS_DLY (n : Nat) : Nat := 0x214007 + 0x100 * n
abbrev WEB_PRB_POS (n : Nat) : Nat := 0x214008 + 0x100 * n
abbrev WEB_PRB_MARK (n : Nat) : Nat := 0x214009 + 0x100 * n
abbrev WEB_PRB_ET (n : Nat) : Nat := 0x21400A + 0x100 * n
abbrev WEB_PRB_PITCH (n : Nat) : Nat := 0x21400B + 0x100 * n
abbrev WEB_PRB_ACCEPTED (n : Nat) : Nat := 0x21400C + 0x100 * n
abbrev WEB_PRB_EXTRA (n : Nat) : Nat := 0x21400D + 0x100 * n
abbrev WEB_PRB_MISSED (n : Nat) : Nat := 0x21400E + 0x100 * n
abbrev WEB_HSW_CFG (i : Nat) : Nat := 0x215801 + i
abbrev WEB_HSW_OFFSET (i : Nat) : Nat := 0x215805 + i
abbrev WEB_HSW_MARK_LEN (i : Nat) : Nat := 0x215809 + i
abbrev WEB_HSW_STATE : Nat := 0x21580D
abbrev WEB_SSI_CFG (n : Nat) : Nat := 0x215001 + 0x100 * n
abbrev WEB_SSI_CLK_HZ (n : Nat) : Nat := 0x215002 + 0x100 * n
abbrev WEB_SSI_CLK_ACT (n : Nat) : Nat := 0x215003 + 0x100 * n
abbrev WEB_SSI_MONOFLOP (n : Nat) : Nat := 0x215004 + 0x100 * n
abbrev WEB_SSI_PERIOD (n : Nat) : Nat := 0x215005 + 0x100 * n
abbrev WEB_SSI_VALUE (n : Nat) : Nat := 0x215006 + 0x100 * n
abbrev WEB_SSI_ET (n : Nat) : Nat := 0x215007 + 0x100 * n
abbrev WEB_SSI_MAX_DELTA (n : Nat) : Nat := 0x215008 + 0x100 * n
abbrev WEB_SSI_ERRORS (n : Nat) : Nat := 0x215009 + 0x100 * n
abbrev LCK_ROW_MODE : Nat := 0x220001
abbrev LCK_RES_MODE : Nat := 0x220002
abbrev LCK_STATUS : Nat := 0x220003
abbrev LCK_LEAD_MARGIN_NS : Nat := 0x220004
abbrev LCK_LATE_TOL : Nat := 0x220005
abbrev LCK_SAT_LAG_MAX : Nat := 0x220006
abbrev LCK_OVS_WARN_PCT : Nat := 0x220007
abbrev LCK_OVS_STOP_PCT : Nat := 0x220008
abbrev LCK_OVS_STOP_LINES : Nat := 0x220009
abbrev LCK_HL_RETURN_PCT : Nat := 0x22000A
abbrev LCK_HL_HOLD_MS : Nat := 0x22000B
abbrev LCK_FMAX_HZ : Nat := 0x22000C
abbrev LCK_FROW_HZ : Nat := 0x22000D
abbrev LCK_VMAX_MMIN : Nat := 0x22000E
abbrev LCK_CEIL_HZ : Nat := 0x22000F
abbrev LCK_LATE : Nat := 0x220010
abbrev LCK_SAT_LINES : Nat := 0x220011
abbrev LCK_SKIPPED : Nat := 0x220012
abbrev LCK_ROW_POS (n : Nat) : Nat := 0x221001 + 0x100 * n
abbrev LCK_ROW_ALIGN (n : Nat) : Nat := 0x221002 + 0x100 * n
abbrev LCK_ROW_ADV (n : Nat) : Nat := 0x221003 + 0x100 * n
abbrev LCK_ROW_D (n : Nat) : Nat := 0x221004 + 0x100 * n
abbrev LCK_ROW_LAST (n : Nat) : Nat := 0x221005 + 0x100 * n
abbrev LCK_ROW_LAG (n : Nat) : Nat := 0x221006 + 0x100 * n
abbrev LCK_ROW_FMAX (n : Nat) : Nat := 0x221007 + 0x100 * n
abbrev LCK_ROW_LEAD (n : Nat) : Nat := 0x221008 + 0x100 * n
abbrev LCK_ALIGN_OVERRIDE : Nat := 0x222001
abbrev LCK_ALIGN_INVALID : Nat := 0x222002
abbrev LCK_ALIGN_ENTRIES : Nat := 0x222003
abbrev LCK_ALIGN_SERIAL : Nat := 0x222004
abbrev LCK_ALIGN_PH_A : Nat := 0x222005
abbrev LCK_ALIGN_PH_B : Nat := 0x222006
abbrev LCK_ALIGN_SRC : Nat := 0x222007
abbrev LCK_ALIGN_STORE : Nat := 0x222008
abbrev LCK_ALIGN_TABLE : Nat := 0x322000
abbrev MEM_USABLE_MIB : Nat := 0x201001
abbrev MEM_SYS_MIB : Nat := 0x201002
abbrev MEM_WB_MIB : Nat := 0x201003
abbrev MEM_TALLY_WIN : Nat := 0x201004
abbrev MEM_INS_MIB : Nat := 0x201005
abbrev MEM_LS_MIB : Nat := 0x201006
abbrev MEM_PLAN_APPLY : Nat := 0x201007
abbrev MEM_PLAN_PENDING : Nat := 0x201008
abbrev MEM_LOOKAHEAD : Nat := 0x201009
abbrev MEM_LA_ACTUAL : Nat := 0x20100A
abbrev MEM_LA_MIN : Nat := 0x20100B
abbrev MEM_LA_STOP : Nat := 0x20100C
abbrev MEM_LA_LATE : Nat := 0x20100D
abbrev MEM_TALLY_SKIP : Nat := 0x20100E
abbrev JOB_FRAME_SRC : Nat := 0x202001
abbrev JOB_FRAME_LEN : Nat := 0x202002
abbrev JOB_FRAME_GAP : Nat := 0x202003
abbrev JOB_FRAME_ORIGIN : Nat := 0x202004
abbrev JOB_ORIGIN_SRC : Nat := 0x202005
abbrev JOB_MARK_OFS : Nat := 0x202006
abbrev JOB_REPEAT : Nat := 0x202007
abbrev JOB_VD_SEQ_START : Nat := 0x202008
abbrev JOB_FRAME_NO : Nat := 0x202009
abbrev JOB_FRAMES_LEFT : Nat := 0x20200A
abbrev JOB_NEXT_BOUNDARY : Nat := 0x20200B
abbrev JOB_VD_SEQ_NEXT : Nat := 0x20200C
abbrev JOB_DONE_FRAME : Nat := 0x20200D
abbrev JOB_DONE_STATUS : Nat := 0x20200E
abbrev JOB_DEFECT_COUNT : Nat := 0x20200F
abbrev JOB_MARKS_LATE : Nat := 0x202010
abbrev MEM_ECC_CE : Nat := 0x241001
abbrev MEM_ECC_UE : Nat := 0x241002
abbrev MEM_ECC_LAST_ADDR : Nat := 0x241003
abbrev MEM_ECC_LAST_AREA : Nat := 0x241004
abbrev MEM_SCRUB_HOURS : Nat := 0x241005
abbrev MEM_SCRUB_PASSES : Nat := 0x241006
abbrev MEM_SRAM_CE : Nat := 0x241007
abbrev MEM_SRAM_UE : Nat := 0x241008
abbrev MEM_ECC_INJECT : Nat := 0x241009
abbrev MEM_CE_WARN : Nat := 0x24100A
abbrev MEM_LS_FREE_MIB : Nat := 0x242001
abbrev MEM_LS_ITEMS : Nat := 0x242002
abbrev MEM_LS_DELETE : Nat := 0x242003
abbrev MEM_LS_VD_DEPTH : Nat := 0x242004
abbrev MEM_LS_CLEAR : Nat := 0x242005
abbrev MEM_ING_BYTES : Nat := 0x242006
abbrev MEM_ING_REFUSED : Nat := 0x242007
abbrev JOB_DEFECTS : Nat := 0x340000
abbrev MEM_LS_DIR : Nat := 0x341000
abbrev MUS_WB_SEG_LOG : Nat := 0x240001
abbrev MUS_WB_KEY : Nat := 0x240002
abbrev MUS_WB_PRED : Nat := 0x240003
abbrev MUS_UNIT_OK : Nat := 0x240004
abbrev MUS_GEN_STATE : Nat := 0x240005
abbrev MUS_OVERRUNS : Nat := 0x240006
abbrev MUS_FORMAT_ERRS : Nat := 0x240007
abbrev MUS_REFUSALS : Nat := 0x240008
abbrev MUS_NO_GAIN : Nat := 0x240009
abbrev MUS_WB_RAW_SEGS : Nat := 0x24000A
abbrev MUS_WB_RAW_SECTS : Nat := 0x24000B
abbrev MUS_WB_RATIO : Nat := 0x24000C
abbrev MUS_REF_LOST_LINES : Nat := 0x24000D
abbrev MUS_UNIT_LOAD (i : Nat) : Nat := 0x240101 + i
abbrev LAY_CFG (n : Nat) : Nat := 0x231001 + 0x100 * n
abbrev LAY_IMAGE_ID (n : Nat) : Nat := 0x231002 + 0x100 * n
abbrev LAY_CH_MAP (n : Nat) : Nat := 0x231003 + 0x100 * n
abbrev LAY_OPACITY (n : Nat) : Nat := 0x231004 + 0x100 * n
abbrev LAY_POS_X (n : Nat) : Nat := 0x231005 + 0x100 * n
abbrev LAY_POS_Y (n : Nat) : Nat := 0x231006 + 0x100 * n
abbrev LAY_RATIO_X (n : Nat) : Nat := 0x231007 + 0x100 * n
abbrev LAY_RATIO_Y (n : Nat) : Nat := 0x231008 + 0x100 * n
abbrev LAY_FILL_LO (n : Nat) : Nat := 0x231009 + 0x100 * n
abbrev LAY_FILL_HI (n : Nat) : Nat := 0x23100A + 0x100 * n
abbrev LAY_KO_MASK (n : Nat) : Nat := 0x23100B + 0x100 * n
abbrev LAY_STATE (n : Nat) : Nat := 0x23100C + 0x100 * n
abbrev LAY_BUF_KIB (n : Nat) : Nat := 0x23100D + 0x100 * n
abbrev LAY_NOT_READY_CNT (n : Nat) : Nat := 0x23100E + 0x100 * n
abbrev LAY_COEF_CLAMPED (n : Nat) : Nat := 0x23100F + 0x100 * n
abbrev LAY_COEF (n : Nat) : Nat := 0x331000 + 0x100 * n
abbrev JOB_INK_MASK : Nat := 0x230001
abbrev JOB_STALL_MAX : Nat := 0x230002
abbrev JOB_BUF_KIB : Nat := 0x230003
abbrev JOB_HELD_FRAMES : Nat := 0x230004
abbrev JOB_CLR_MTX (i : Nat) : Nat := 0x233001 + i
abbrev JOB_CLR_OFS (i : Nat) : Nat := 0x233041 + i
abbrev JOB_CRV_EN : Nat := 0x234001
abbrev JOB_CRV_CLAMPED : Nat := 0x234002
abbrev JOB_CLR_CURVES : Nat := 0x334000
abbrev JOB_PRV_CFG : Nat := 0x236001
abbrev JOB_PRV_PARTNER : Nat := 0x236002
abbrev JOB_PRV_BLOCKS : Nat := 0x236003
abbrev JOB_PRV_DROPPED : Nat := 0x236004
abbrev JOB_COMMIT : Nat := 0x23F001
abbrev JOB_COMMIT_STATE : Nat := 0x23F002
abbrev JOB_COMMIT_BOUNDARY : Nat := 0x23F003
abbrev JOB_COMMIT_TAG : Nat := 0x23F004
abbrev JOB_COMMIT_SEQ : Nat := 0x23F005
abbrev JOB_COMMIT_CLAMPS : Nat := 0x23F006
abbrev JQ_CFG (n : Nat) : Nat := 0x250001 + 0x1000 * n
abbrev JQ_RD_W1 (n : Nat) : Nat := 0x250002 + 0x1000 * n
abbrev JQ_RD_W2 (n : Nat) : Nat := 0x250003 + 0x1000 * n
abbrev JQ_WEAK_SHARE (n : Nat) : Nat := 0x250004 + 0x1000 * n
abbrev JQ_HL_GAIN (n : Nat) : Nat := 0x250005 + 0x1000 * n
abbrev JQ_STRETCH_X (n : Nat) : Nat := 0x250006 + 0x1000 * n
abbrev JQ_STRETCH_Y (n : Nat) : Nat := 0x250007 + 0x1000 * n
abbrev JQ_SX_ANCHOR (n : Nat) : Nat := 0x250008 + 0x1000 * n
abbrev JQ_STR_PROF_LEN (n : Nat) : Nat := 0x250009 + 0x1000 * n
abbrev JQ_STRETCH_LIVE_X (n : Nat) : Nat := 0x25000A + 0x1000 * n
abbrev JQ_STRETCH_LIVE_Y (n : Nat) : Nat := 0x25000B + 0x1000 * n
abbrev JQ_STATUS (n : Nat) : Nat := 0x250101 + 0x1000 * n
abbrev JQ_TAG_A (n : Nat) : Nat := 0x250102 + 0x1000 * n
abbrev JQ_TAG_B (n : Nat) : Nat := 0x250103 + 0x1000 * n
abbrev JQ_QUEUE (n : Nat) : Nat := 0x250104 + 0x1000 * n
abbrev JQ_COLS_OUT_A (n : Nat) : Nat := 0x250105 + 0x1000 * n
abbrev JQ_COLS_OUT_B (n : Nat) : Nat := 0x250106 + 0x1000 * n
abbrev JQ_COLS_WEAK (n : Nat) : Nat := 0x250107 + 0x1000 * n
abbrev JQ_UNCOVERED (n : Nat) : Nat := 0x250108 + 0x1000 * n
abbrev JQ_CLIP_PX (n : Nat) : Nat := 0x250109 + 0x1000 * n
abbrev JQ_MAP_CLAMPED (n : Nat) : Nat := 0x25010A + 0x1000 * n
abbrev JQ_VOL_CLAMPED (n : Nat) : Nat := 0x25010B + 0x1000 * n
abbrev JQ_STR_CLAMPED (n : Nat) : Nat := 0x25010C + 0x1000 * n
abbrev JQ_LOAD_US (n : Nat) : Nat := 0x25010D + 0x1000 * n
abbrev JQ_PHASE_LINES (n : Nat) : Nat := 0x25010E + 0x1000 * n
abbrev JQ_LIVE_DEFERRED (n : Nat) : Nat := 0x25010F + 0x1000 * n
abbrev JQ_FREQ_HZ (n : Nat) : Nat := 0x250110 + 0x1000 * n
abbrev JQ_NOZ_SEL (n : Nat) : Nat := 0x250201 + 0x1000 * n
abbrev JQ_NOZ_STATE (n : Nat) : Nat := 0x250202 + 0x1000 * n
abbrev JQ_NOZ_ENTRY (n : Nat) : Nat := 0x250203 + 0x1000 * n
abbrev JQ_THRESH (n : Nat) : Nat := 0x350000 + 0x100 * n
abbrev JQ_NOZZLE_MAP (n : Nat) : Nat := 0x351000 + 0x100 * n
abbrev JQ_TRIMS (n : Nat) : Nat := 0x352000 + 0x100 * n
abbrev JQ_VOL (n : Nat) : Nat := 0x353000 + 0x100 * n
abbrev JQ_STRETCH_COEF (n : Nat) : Nat := 0x354000 + 0x100 * n
abbrev JQ_STR_PROF (n : Nat) : Nat := 0x355000 + 0x100 * n
abbrev JQ_HEAD_ENTRIES : Nat := 0x258001
abbrev JQ_HEAD_UNKNOWN : Nat := 0x258002
abbrev JQ_HEAD_STORE : Nat := 0x258003
abbrev JQ_HEAD_STATE : Nat := 0x358000
abbrev JQ_BAR_SLICE (i : Nat) : Nat := 0x259001 + i
abbrev JQ_SPARE : Nat := 0x259009
abbrev JQ_SLICE_OK : Nat := 0x25900A
abbrev JQ_SLICE_SWAP : Nat := 0x25900B
abbrev FIR_CFG (n : Nat) : Nat := 0x260001 + 0x800 * n
abbrev FIR_SPLIT_MARGIN (n : Nat) : Nat := 0x260002 + 0x800 * n
abbrev FIR_FIFO_LOW_WM (n : Nat) : Nat := 0x260003 + 0x800 * n
abbrev FIR_IDLE_US (n : Nat) : Nat := 0x260004 + 0x800 * n
abbrev FIR_STATUS (n : Nat) : Nat := 0x260101 + 0x800 * n
abbrev FIR_SPLITS (n : Nat) : Nat := 0x260102 + 0x800 * n
abbrev FIR_DOWNGRADES (n : Nat) : Nat := 0x260103 + 0x800 * n
abbrev FIR_DG_LINES (n : Nat) : Nat := 0x260104 + 0x800 * n
abbrev FIR_GRP_PEAK (n : Nat) : Nat := 0x260105 + 0x800 * n
abbrev FIR_LATE (n : Nat) : Nat := 0x260106 + 0x800 * n
abbrev FIR_BAR_MISS (n : Nat) : Nat := 0x260107 + 0x800 * n
abbrev FIR_SWITCH_BLANK_CNT (n : Nat) : Nat := 0x260108 + 0x800 * n
abbrev FIR_PULLS (n : Nat) : Nat := 0x260109 + 0x800 * n
abbrev FIR_OVERLAPS (n : Nat) : Nat := 0x26010A + 0x800 * n
abbrev FIR_TX_CONFLICTS (n : Nat) : Nat := 0x26010B + 0x800 * n
abbrev FIR_LINK_LOAD (n : Nat) : Nat := 0x26010C + 0x800 * n
abbrev FIR_IDLE_ENTRIES (n : Nat) : Nat := 0x26010D + 0x800 * n
abbrev FIR_IDLE_PCT (n : Nat) : Nat := 0x26010E + 0x800 * n
abbrev FIR_FIFO_FILL_A (n : Nat) : Nat := 0x260201 + 0x800 * n
abbrev FIR_FIFO_FILL_B (n : Nat) : Nat := 0x260202 + 0x800 * n
abbrev FIR_FIFO_MIN_A (n : Nat) : Nat := 0x260203 + 0x800 * n
abbrev FIR_FIFO_MIN_B (n : Nat) : Nat := 0x260204 + 0x800 * n
abbrev FIR_ROT_A (n : Nat) : Nat := 0x260205 + 0x800 * n
abbrev FIR_ROT_B (n : Nat) : Nat := 0x260206 + 0x800 * n
abbrev YQL_HPF_CODE (n : Nat) : Nat := 0x268001 + 0x100 * n
abbrev YQL_HPF_NOZZLES (n : Nat) : Nat := 0x268002 + 0x100 * n
abbrev YQL_HPF_GROUPS (n : Nat) : Nat := 0x268003 + 0x100 * n
abbrev YQL_HPF_LAYOUT (n : Nat) : Nat := 0x268004 + 0x100 * n
abbrev YQL_HPF_SLOT_NS (n : Nat) : Nat := 0x268005 + 0x100 * n
abbrev YQL_HPF_GUARD_NS (n : Nat) : Nat := 0x268006 + 0x100 * n
abbrev YQL_HPF_E_WAVE (n i : Nat) : Nat := 0x268007 + 0x100 * n + i
abbrev YQL_HPF_E_LIMIT (n : Nat) : Nat := 0x26800E + 0x100 * n
abbrev YQL_HPF_FIRE_MAX_HZ (n : Nat) : Nat := 0x26800F + 0x100 * n
abbrev YQL_HPF_FIRE_EFF (n : Nat) : Nat := 0x268010 + 0x100 * n
abbrev YQL_HPF_HEADS (n : Nat) : Nat := 0x268011 + 0x100 * n
abbrev YQL_PORT_CFG (n : Nat) : Nat := 0x269001 + 0x100 * n
abbrev YQL_PORT_STATUS (n : Nat) : Nat := 0x269002 + 0x100 * n
abbrev YQL_CHAIN_LEN (n : Nat) : Nat := 0x269003 + 0x100 * n
abbrev YQL_PORT_NOZZLES (n : Nat) : Nat := 0x269004 + 0x100 * n
abbrev YQL_CHAIN_LAT_NS (n : Nat) : Nat := 0x269005 + 0x100 * n
abbrev YQL_LINE_FAILS (n : Nat) : Nat := 0x269006 + 0x100 * n
abbrev YQL_RET_ERRORS (n : Nat) : Nat := 0x269007 + 0x100 * n
abbrev YQL_RETRAINS (n : Nat) : Nat := 0x269008 + 0x100 * n
abbrev YQL_CMD_TIMEOUTS (n : Nat) : Nat := 0x269009 + 0x100 * n
abbrev YQL_MARGIN_MIN (n : Nat) : Nat := 0x26900A + 0x100 * n
abbrev YQL_PORT_PRESET (n : Nat) : Nat := 0x26900B + 0x100 * n
abbrev YQL_EQ_STEPS (n : Nat) : Nat := 0x26900C + 0x100 * n
abbrev YQL_CHAIN (n : Nat) : Nat := 0x369000 + 0x100 * n
abbrev YQL_CAM_CFG (n : Nat) : Nat := 0x26A001 + 0x100 * n
abbrev YQL_CAM_STATUS (n : Nat) : Nat := 0x26A002 + 0x100 * n
abbrev YQL_CAM_SERIAL (n : Nat) : Nat := 0x26A003 + 0x100 * n
abbrev YQL_CAM_LINES (n : Nat) : Nat := 0x26A004 + 0x100 * n
abbrev YQL_CAM_CRC_ERR (n : Nat) : Nat := 0x26A005 + 0x100 * n
abbrev YQL_CAM_LAT_NS (n : Nat) : Nat := 0x26A006 + 0x100 * n
abbrev YQL_CAM_MISSING (n : Nat) : Nat := 0x26A007 + 0x100 * n
abbrev YQL_CPF_CODE : Nat := 0x26B001
abbrev YQL_CPF_PIXELS : Nat := 0x26B002
abbrev YQL_CPF_BITS : Nat := 0x26B003
abbrev YQL_CPF_LINE_MAX_HZ : Nat := 0x26B004
abbrev YQL_LINK_TIME : Nat := 0x26C001
abbrev YQL_DISCOVER : Nat := 0x26C002
abbrev YQL_HOTPLUG_EN : Nat := 0x26C003
abbrev YQL_RECOVER_MS : Nat := 0x26C004
abbrev YQL_STATUS_TO_US : Nat := 0x26C005
abbrev YQL_RESP_TO_US : Nat := 0x26C006
abbrev YQL_RW_PORT : Nat := 0x26C007
abbrev YQL_RW_ADDR : Nat := 0x26C008
abbrev YQL_RW_DATA : Nat := 0x26C009
abbrev YQL_RW_RESULT : Nat := 0x26C00A
abbrev INS_CFG : Nat := 0x270001
abbrev INS_LINE_HZ : Nat := 0x270002
abbrev INS_LINE_HZ_ACT : Nat := 0x270003
abbrev INS_POS : Nat := 0x270004
abbrev INS_WIN_LINES : Nat := 0x270005
abbrev INS_DARK_EVERY : Nat := 0x270006
abbrev INS_DARK_N : Nat := 0x270007
abbrev INS_DARK_MAX : Nat := 0x270008
abbrev INS_WHITE_MIN : Nat := 0x270009
abbrev INS_WHITE_STEP : Nat := 0x27000A
abbrev INS_WHITE_MARGIN : Nat := 0x27000B
abbrev INS_WHITE_FLOOR : Nat := 0x27000C
abbrev INS_WHITE_CAPTURE : Nat := 0x27000D
abbrev INS_WHITE_STORE : Nat := 0x27000E
abbrev INS_SPILL : Nat := 0x27000F
abbrev INS_STATUS : Nat := 0x270010
abbrev INS_WIN_INDEX : Nat := 0x270011
abbrev INS_SPEC_LINES : Nat := 0x270012
abbrev INS_EXCL_LINES : Nat := 0x270013
abbrev INS_WIN_LATE_CNT : Nat := 0x270014
abbrev INS_PIX_BAD : Nat := 0x270015
abbrev INS_DARK_VER : Nat := 0x270016
abbrev INS_WHITE_VER : Nat := 0x270017
abbrev INS_RING_LINES : Nat := 0x270018
abbrev INS_CAM_OFS (i : Nat) : Nat := 0x270101 + i
abbrev INS_CAM_REV : Nat := 0x270109
abbrev INS_MTX (i : Nat) : Nat := 0x271001 + i
abbrev INS_OFS (i : Nat) : Nat := 0x271041 + i
abbrev INS_UPL_CFG : Nat := 0x272001
abbrev INS_UPL_PARTNER : Nat := 0x272002
abbrev INS_UPL_PERIOD_MS : Nat := 0x272003
abbrev INS_UPL_SCANS : Nat := 0x272004
abbrev INS_UPL_NOW : Nat := 0x272005
abbrev INS_UPL_BLOCKS : Nat := 0x272006
abbrev INS_UPL_DROPPED : Nat := 0x272007
abbrev INS_WHITE : Nat := 0x370000
abbrev INS_DARK : Nat := 0x370100
abbrev INS_WIN_LAST : Nat := 0x371000
abbrev VOI_CFG : Nat := 0x274001
abbrev VOI_I_GLB : Nat := 0x274002
abbrev VOI_I_GLB_EFF : Nat := 0x274003
abbrev VOI_BLANK_NS : Nat := 0x274004
abbrev VOI_HR_TARGET_MV : Nat := 0x274005
abbrev VOI_HR_DUTY : Nat := 0x274006
abbrev VOI_HR_INIT : Nat := 0x274007
abbrev VOI_HR_MAX : Nat := 0x274008
abbrev VOI_HR_PERIOD : Nat := 0x274009
abbrev VOI_VMIN_MV : Nat := 0x27400A
abbrev VOI_PWR_MW : Nat := 0x27400B
abbrev VOI_PWR_LIMIT_MW : Nat := 0x27400C
abbrev VOI_PWR_LIM_EFF : Nat := 0x27400D
abbrev VOI_VERIFY_MS : Nat := 0x27400E
abbrev VOI_UNVER_MS : Nat := 0x27400F
abbrev VOI_OPEN_MV : Nat := 0x274010
abbrev VOI_SHORT_DV_MV : Nat := 0x274011
abbrev VOI_STATUS : Nat := 0x274012
abbrev VOI_CNT_OPEN : Nat := 0x274013
abbrev VOI_CNT_SHORT : Nat := 0x274014
abbrev VOI_CNT_UNVER : Nat := 0x274015
abbrev VOI_VER : Nat := 0x274016
abbrev VOI_I_CH (i : Nat) : Nat := 0x274101 + i
abbrev VOI_VPC_MV (i : Nat) : Nat := 0x274201 + i
abbrev VOI_DIAG : Nat := 0x374000
abbrev VOI_PW : Nat := 0x374100
abbrev VOI_MEAS : Nat := 0x374200
abbrev CHL_CFG : Nat := 0x280001
abbrev CHL_STATE : Nat := 0x280002
abbrev CHL_LAMBDA : Nat := 0x280003
abbrev CHL_COND_MIN : Nat := 0x280004
abbrev CHL_INFO_MIN : Nat := 0x280005
abbrev CHL_PHI_MIN : Nat := 0x280006
abbrev CHL_COUNT_MIN : Nat := 0x280007
abbrev CHL_TRIM_STEP : Nat := 0x280008
abbrev CHL_GAIN_STEP : Nat := 0x280009
abbrev CHL_GAIN_DEAD : Nat := 0x28000A
abbrev CHL_TRIM_MIN : Nat := 0x28000B
abbrev CHL_TRIM_MAX : Nat := 0x28000C
abbrev CHL_GAIN_MIN : Nat := 0x28000D
abbrev CHL_GAIN_MAX : Nat := 0x28000E
abbrev CHL_WEAK_K : Nat := 0x28000F
abbrev CHL_OUT_K : Nat := 0x280010
abbrev CHL_OK_HYST : Nat := 0x280011
abbrev CHL_DETECT_N : Nat := 0x280012
abbrev CHL_GROUP_LOW_K : Nat := 0x280013
abbrev CHL_K_HIGH : Nat := 0x280014
abbrev CHL_REQUAL : Nat := 0x280015
abbrev CHL_STORE : Nat := 0x280016
abbrev CHL_STORE_MIN_H : Nat := 0x280017
abbrev CHL_REF_TAKE : Nat := 0x280018
abbrev CHL_SEL : Nat := 0x280019
abbrev CHL_SEL_THETA : Nat := 0x28001A
abbrev CHL_SEL_U : Nat := 0x28001B
abbrev CHL_SEL_R : Nat := 0x28001C
abbrev CHL_SEL_FLAGS : Nat := 0x28001D
abbrev CHL_WIN_TAKEN : Nat := 0x280201
abbrev CHL_WIN_SKIPPED : Nat := 0x280202
abbrev CHL_LATE_CNT : Nat := 0x280203
abbrev CHL_STRIPE : Nat := 0x280204
abbrev CHL_FLUSH_MS : Nat := 0x280205
abbrev CHL_HEAD_ENTRIES : Nat := 0x280206
abbrev CHL_VNOM (n i : Nat) : Nat := 0x281001 + 0x100 * n + i
abbrev CHL_KREF (n : Nat) : Nat := 0x281008 + 0x100 * n
abbrev CHL_KMEAN (n : Nat) : Nat := 0x281009 + 0x100 * n
abbrev CHL_GAIN (n : Nat) : Nat := 0x28100A + 0x100 * n
abbrev CHL_COND_PCT (n : Nat) : Nat := 0x28100B + 0x100 * n
abbrev CHL_TRIM_AT_LIM (n : Nat) : Nat := 0x28100C + 0x100 * n
abbrev CHL_DET_WEAK (n : Nat) : Nat := 0x28100D + 0x100 * n
abbrev CHL_DET_OUT (n : Nat) : Nat := 0x28100E + 0x100 * n
abbrev CHL_EXCLUDED (n : Nat) : Nat := 0x28100F + 0x100 * n
abbrev CHL_RESP (n : Nat) : Nat := 0x380000 + 0x100 * n
abbrev CHL_HEAD_LOOP : Nat := 0x381000
abbrev NET_CAN_ERR_REG : Nat := 0x100100
abbrev NET_CAN_ERR_HIST (i : Nat) : Nat := 0x100300 + i
abbrev NET_CAN_EMCY_COB : Nat := 0x101400
abbrev NET_CAN_EMCY_INH : Nat := 0x101500
abbrev NET_CAN_HB_CONS (i : Nat) : Nat := 0x101601 + i
abbrev NET_CAN_HB_PROD : Nat := 0x101700
abbrev NET_CAN_SDO_COB (i : Nat) : Nat := 0x120001 + i
abbrev NET_CAN_TPDO_COMM (n i : Nat) : Nat := 0x180001 + 0x100 * n + i
abbrev NET_CAN_TPDO_MAP (n i : Nat) : Nat := 0x1A0000 + 0x100 * n + i
abbrev CFG_ADJ_COUNT : Nat := 0x2C4001
abbrev CFG_ADJ_OBJECT : Nat := 0x2C4002
abbrev CFG_ADJ_REQUEST : Nat := 0x2C4003
abbrev CFG_ADJ_APPLIED : Nat := 0x2C4004
abbrev CFG_ADJ_SOURCE : Nat := 0x2C4005
abbrev CFG_ADJ_ET : Nat := 0x2C4006
abbrev CFG_ADJ_WEBPOS : Nat := 0x2C4007
abbrev CFG_ADJ_LOG : Nat := 0x3C4000
abbrev SEC_CFG : Nat := 0x2D0001
abbrev SEC_SLOT_STATE : Nat := 0x2D0002
abbrev SEC_CTR (i : Nat) : Nat := 0x2D0003 + i
abbrev SEC_FAILS : Nat := 0x2D0007
abbrev SEC_LOCKOUT_S : Nat := 0x2D0008
abbrev SEC_KEY_REVOKE : Nat := 0x2D0009
abbrev SEC_LAST_FAIL : Nat := 0x2D000A
abbrev SEC_KEY_PROGRAM : Nat := 0x3D0000
abbrev NET_PORT_CFG (n : Nat) : Nat := 0x2E0001 + 0x100 * n
abbrev NET_PORT_STATE (n : Nat) : Nat := 0x2E0002 + 0x100 * n
abbrev NET_PORT_FEC_CORR (n : Nat) : Nat := 0x2E0003 + 0x100 * n
abbrev NET_PORT_FEC_UNCORR (n : Nat) : Nat := 0x2E0004 + 0x100 * n
abbrev NET_IF_CFG (n : Nat) : Nat := 0x2E1001 + 0x100 * n
abbrev NET_IF_IPV4 (n : Nat) : Nat := 0x2E1002 + 0x100 * n
abbrev NET_IF_PREFIX (n : Nat) : Nat := 0x2E1003 + 0x100 * n
abbrev NET_IF_GW (n : Nat) : Nat := 0x2E1004 + 0x100 * n
abbrev NET_IF_VLAN (n : Nat) : Nat := 0x2E1005 + 0x100 * n
abbrev NET_IF_PCP (n : Nat) : Nat := 0x2E1006 + 0x100 * n
abbrev NET_IF_MAC (n : Nat) : Nat := 0x2E1007 + 0x100 * n
abbrev NET_IF_IPV6_HI (n : Nat) : Nat := 0x2E1008 + 0x100 * n
abbrev NET_IF_IPV6_LO (n : Nat) : Nat := 0x2E1009 + 0x100 * n
abbrev NET_IF_IPV4_ACT (n : Nat) : Nat := 0x2E100A + 0x100 * n
abbrev NET_CAN_CFG : Nat := 0x2E2001
abbrev NET_CAN_NODE : Nat := 0x2E2002
abbrev NET_CAN_SP_ARB : Nat := 0x2E2003
abbrev NET_CAN_SP_DATA : Nat := 0x2E2004
abbrev NET_CAN_TPDO_FD : Nat := 0x2E2005
abbrev NET_CAN_STATE : Nat := 0x2E2006
abbrev NET_CAN_ERRCNT : Nat := 0x2E2007
abbrev NET_CAN_EMCY_LOST : Nat := 0x2E2008
abbrev NET_HOST_NAME : Nat := 0x2E3001
abbrev NET_HELLO_MS : Nat := 0x2E3002
abbrev NET_PARTNER_TO_MS : Nat := 0x2E3003
abbrev NET_BULK_WINDOW : Nat := 0x2E3004
abbrev NET_BULK_IDLE_MS : Nat := 0x2E3005
abbrev NET_KOA_BAD : Nat := 0x2E3006
abbrev NET_BULK_CRC : Nat := 0x2E3007
abbrev NET_PARTNER_FULL : Nat := 0x2E3008
abbrev NET_PARTNER_MOVES : Nat := 0x2E3009
abbrev NET_PARTNER_CONFLICTS : Nat := 0x2E300A
abbrev NET_PEER_CFG (n : Nat) : Nat := 0x2E4001 + 0x100 * n
abbrev NET_PEER_SERIAL (n : Nat) : Nat := 0x2E4002 + 0x100 * n
abbrev NET_PEER_IPV4 (n : Nat) : Nat := 0x2E4003 + 0x100 * n
abbrev NET_PEER_IPV6_HI (n : Nat) : Nat := 0x2E4004 + 0x100 * n
abbrev NET_PEER_IPV6_LO (n : Nat) : Nat := 0x2E4005 + 0x100 * n
abbrev NET_PEER_UDP (n : Nat) : Nat := 0x2E4006 + 0x100 * n
abbrev NET_PEER_IFACE (n : Nat) : Nat := 0x2E4007 + 0x100 * n
abbrev NET_PARTNERS : Nat := 0x3E0000
abbrev TIM_CFG : Nat := 0x290001
abbrev TIM_IFACE : Nat := 0x290002
abbrev TIM_DOMAIN : Nat := 0x290003
abbrev TIM_PRIO1 : Nat := 0x290004
abbrev TIM_PRIO2 : Nat := 0x290005
abbrev TIM_LOG_SYNC : Nat := 0x290006
abbrev TIM_LOG_ANNOUNCE : Nat := 0x290007
abbrev TIM_ANN_TIMEOUT : Nat := 0x290008
abbrev TIM_LOG_DELAY : Nat := 0x290009
abbrev TIM_DELAY_AVG : Nat := 0x29000A
abbrev TIM_ASYM_PS : Nat := 0x29000B
abbrev TIM_TX_LAT_PS : Nat := 0x29000C
abbrev TIM_RX_LAT_PS : Nat := 0x29000D
abbrev TIM_KP : Nat := 0x29000E
abbrev TIM_KI : Nat := 0x29000F
abbrev TIM_SLEW_PPM : Nat := 0x290010
abbrev TIM_STEP_NS : Nat := 0x290011
abbrev TIM_DRIFT_PPB : Nat := 0x290012
abbrev TIM_LOCK_NS : Nat := 0x290013
abbrev TIM_HOLD_AVG_S : Nat := 0x290014
abbrev TIM_ANCHOR_S : Nat := 0x290015
abbrev TIM_ADDEND_SET : Nat := 0x290016
abbrev TIM_STEP_SET : Nat := 0x290017
abbrev TIM_PORT_STATE : Nat := 0x290101
abbrev TIM_SERVO : Nat := 0x290102
abbrev TIM_OFFSET_NS : Nat := 0x290103
abbrev TIM_PATH_PS : Nat := 0x290104
abbrev TIM_RATE_PPB : Nat := 0x290105
abbrev TIM_FREQ_PPB : Nat := 0x290106
abbrev TIM_FREQ_AVG_PPB : Nat := 0x290107
abbrev TIM_ADDEND : Nat := 0x290108
abbrev TIM_DEFERRED_NS : Nat := 0x290109
abbrev TIM_LAST_STEP : Nat := 0x29010A
abbrev TIM_STEPS : Nat := 0x29010B
abbrev TIM_CLOCK_ID : Nat := 0x29010C
abbrev TIM_GM_ID : Nat := 0x29010D
abbrev TIM_SYNC_RX : Nat := 0x29010E
abbrev TIM_PTP_IGNORED : Nat := 0x29010F
abbrev TIM_NOW_SEC : Nat := 0x290110
abbrev TIM_NOW_NS : Nat := 0x290111
abbrev TIM_NOW_ET : Nat := 0x290112
abbrev TIM_ANCHOR_SEC : Nat := 0x290113
abbrev TIM_ANCHOR_NS : Nat := 0x290114
abbrev TIM_ANCHOR_ET : Nat := 0x290115
abbrev TIM_ANCHOR_LINK : Nat := 0x290116
abbrev TIM_ANCHOR_POS : Nat := 0x290117
abbrev TIM_FREQ_STORED : Nat := 0x290118
abbrev TIM_TC_SENSOR : Nat := 0x290201
abbrev TIM_TC_T0 : Nat := 0x290202
abbrev TIM_TC_C1 : Nat := 0x290203
abbrev TIM_TC_C2 : Nat := 0x290204
abbrev TIM_TC_C3 : Nat := 0x290205
abbrev TIM_TC_TEMP : Nat := 0x290206
abbrev TIM_TC_PPB : Nat := 0x290207
abbrev SUP_STATUS : Nat := 0x2A0001
abbrev SUP_OUTPUTS : Nat := 0x2A0002
abbrev SUP_STOP_SRC : Nat := 0x2A0003
abbrev SUP_DEV_STATE : Nat := 0x2A0004
abbrev SUP_TEMP_MAX : Nat := 0x2A0005
abbrev SUP_TEMP_SENSOR : Nat := 0x2A0006
abbrev SUP_VIN_MV : Nat := 0x2A0007
abbrev SUP_HOST_STATE : Nat := 0x2A0008
abbrev SUP_LAST_FIRED : Nat := 0x2A0009
abbrev SUP_UPTIME_S : Nat := 0x2A000A
abbrev SUP_LAST_CAUSE : Nat := 0x2A000B
abbrev SUP_RESET : Nat := 0x2A0F01
abbrev SUP_CFG : Nat := 0x2A1001
abbrev SUP_HOST_WD_MS : Nat := 0x2A1002
abbrev SUP_HOST_RESTART_MAX : Nat := 0x2A1003
abbrev SUP_SLICE_STALL_US : Nat := 0x2A1004
abbrev SUP_SLICE_FAIL_MAX : Nat := 0x2A1005
abbrev SUP_SPARE_TEST_MIN : Nat := 0x2A1006
abbrev SUP_STOPIN_FILT_US : Nat := 0x2A1007
abbrev SUP_OUTVOTE_MAX : Nat := 0x2A1008
abbrev SUP_SVC_HV : Nat := 0x2A1009
abbrev SUP_STOP_CMD : Nat := 0x2A100A
abbrev SUP_OUTVOTES : Nat := 0x2A2001
abbrev SUP_HOST_RESTARTS : Nat := 0x2A2002
abbrev SUP_ENG_RESTARTS : Nat := 0x2A2003
abbrev SUP_SWITCHES : Nat := 0x2A2004
abbrev SUP_CKPT_LATE : Nat := 0x2A2005
abbrev SUP_SWITCH_US : Nat := 0x2A2006
abbrev SUP_DL_MISS (i : Nat) : Nat := 0x2A2101 + i
abbrev SUP_CKPT_SEQ (n : Nat) : Nat := 0x2A3001 + 0x100 * n
abbrev SUP_CKPT_DIST (n : Nat) : Nat := 0x2A3002 + 0x100 * n
abbrev SUP_CKPT (n : Nat) : Nat := 0x3A3000 + 0x100 * n
abbrev THM_CFG : Nat := 0x2B0001
abbrev THM_STATUS : Nat := 0x2B0002
abbrev THM_PLIM_W : Nat := 0x2B0003
abbrev THM_PLIM_EFF : Nat := 0x2B0004
abbrev THM_P_IN : Nat := 0x2B0005
abbrev THM_SHED_LEVEL : Nat := 0x2B0006
abbrev THM_STEP_W : Nat := 0x2B0007
abbrev THM_STEP_S : Nat := 0x2B0008
abbrev THM_RECOVER_S : Nat := 0x2B0009
abbrev THM_HYST : Nat := 0x2B000A
abbrev THM_RATE_BAND : Nat := 0x2B000B
abbrev THM_BROKEN_STEPS : Nat := 0x2B000C
abbrev THM_VOI_SHED_MW : Nat := 0x2B000D
abbrev THM_CEIL_STEP_PCT : Nat := 0x2B000E
abbrev THM_CEIL_MIN_HZ : Nat := 0x2B000F
abbrev THM_CEIL_WAIT_S : Nat := 0x2B0010
abbrev THM_ACK : Nat := 0x2B0011
abbrev THM_AUTO_RESUME : Nat := 0x2B0012
abbrev THM_BROKEN : Nat := 0x2B0013
abbrev THM_LAST_SHUT : Nat := 0x2B0014
abbrev THM_TEMP (i : Nat) : Nat := 0x2B1001 + i
abbrev THM_WARN (i : Nat) : Nat := 0x2B1101 + i
abbrev THM_THROTTLE (i : Nat) : Nat := 0x2B1201 + i
abbrev THM_SHUTDOWN (i : Nat) : Nat := 0x2B1301 + i
abbrev THM_RATE (i : Nat) : Nat := 0x2B1401 + i
abbrev THM_XOFS (i : Nat) : Nat := 0x2B1501 + i
abbrev VMON_MV (i : Nat) : Nat := 0x2B2001 + i
abbrev VMON_STATUS : Nat := 0x2B2101
abbrev VMON_VIN_UVW : Nat := 0x2B2102
abbrev VMON_VIN_OVW : Nat := 0x2B2103
abbrev VMON_FAULTS : Nat := 0x2B2104
abbrev THM_VCORE_MV : Nat := 0x2B3001
abbrev THM_AVS_MARGIN : Nat := 0x2B3002
abbrev THM_AVS_STEPS : Nat := 0x2B3003
abbrev THM_RO_SLACK (i : Nat) : Nat := 0x2B3101 + i
abbrev THM_BG_CORR : Nat := 0x2B3801
abbrev THM_PF_MV : Nat := 0x2B4001
abbrev THM_PF_ACT : Nat := 0x2B4002
abbrev THM_JRN_SEQ : Nat := 0x2B4003
abbrev THM_JRN_VALID : Nat := 0x2B4004
abbrev THM_LIFE_HOURS : Nat := 0x2B4101
abbrev THM_LIFE_LINES : Nat := 0x2B4102
abbrev THM_LIFE_PF : Nat := 0x2B4103
abbrev THM_LIFE_SHUT : Nat := 0x2B4104
abbrev THM_JOURNAL : Nat := 0x3B4000
abbrev SYS_STATE : Nat := 0x200001
abbrev SYS_CMD : Nat := 0x200002
abbrev SYS_SERVICE : Nat := 0x200003
abbrev SYS_ARM_BLOCK : Nat := 0x200004
abbrev SYS_PREV_STATE : Nat := 0x200005
abbrev SYS_STATUS : Nat := 0x200006
abbrev SYS_RESET_CAUSE : Nat := 0x200101
abbrev SYS_STARTUP_MS : Nat := 0x200102
abbrev SYS_SELFTEST_FAIL : Nat := 0x200103
abbrev SYS_BOOT_IMAGE : Nat := 0x200104
abbrev SYS_CAL_MS : Nat := 0x200105
abbrev SYS_DEBUG_EN : Nat := 0x200106
abbrev EVT_SEQ : Nat := 0x2C0001
abbrev EVT_LOG_HEAD : Nat := 0x2C0002
abbrev EVT_LOG_RECORDS : Nat := 0x2C0003
abbrev EVT_LOG_DROPPED : Nat := 0x2C0004
abbrev EVT_LOG_CLEAR : Nat := 0x2C0005
abbrev EVT_ROUTE_SEL : Nat := 0x2C0006
abbrev EVT_ROUTE : Nat := 0x2C0007
abbrev EVT_REC_SEL : Nat := 0x2C0008
abbrev EVT_OUT_CFG (i : Nat) : Nat := 0x2C0101 + i
abbrev EVT_LOG : Nat := 0x3C0000
abbrev EVT_ROUTE_TABLE : Nat := 0x3C0100
abbrev EVT_REC : Nat := 0x3C0200
abbrev EVT_LAST : Nat := 0x3C0300

end Obj

/-- Objects at index 0x100x. -/
def objPage100 : List ObjDesc := [
  ⟨0x100000, 1, 0x100, 1, .u32, .ro, false, false, false, .lin 0 0 0, .full, 1, false⟩,
  ⟨0x100800, 1, 0x100, 1, .str, .ro, false, false, false, .lin 0 0 0, .full, 1, false⟩,
  ⟨0x100900, 1, 0x100, 1, .str, .ro, false, false, false, .special, .full, 1, false⟩,
  ⟨0x100A00, 1, 0x100, 1, .str, .ro, false, false, false, .special, .full, 1, false⟩,
  ⟨0x100100, 1, 0x100, 1, .u8, .ro, false, false, false, .lin 0 0 0, .full, 1, false⟩,
  ⟨0x100300, 1, 0x100, 9, .u32, .rw, false, false, false, .lin 0 0 0, .special, 1, false⟩]

/-- Objects at index 0x101x. -/
def objPage101 : List ObjDesc := [
  ⟨0x101801, 1, 0x100, 1, .u32, .ro, false, false, false, .lin 19798 0 0, .full, 1, false⟩,
  ⟨0x101802, 1, 0x100, 1, .u32, .ro, false, false, false, .lin 8320 0 0, .full, 1, false⟩,
  ⟨0x101803, 1, 0x100, 1, .u32, .ro, false, false, false, .special, .full, 1, false⟩,
  ⟨0x101804, 1, 0x100, 1, .u32, .ro, false, false, false, .special, .full, 1, false⟩,
  ⟨0x101400, 1, 0x100, 1, .u32, .rw, true, false, false, .special, .full, 1, false⟩,
  ⟨0x101500, 1, 0x100, 1, .u16, .rw, true, false, false, .lin 0 0 0, .parts [(0, 65535)], 1, false⟩,
  ⟨0x101601, 1, 0x100, 4, .u32, .rw, true, false, false, .lin 0 0 0, .full, 1, false⟩,
  ⟨0x101700, 1, 0x100, 1, .u16, .rw, true, false, false, .lin 1000 0 0, .parts [(0, 0), (10, 65535)], 1, false⟩]

/-- Objects at index 0x120x. -/
def objPage120 : List ObjDesc := [
  ⟨0x120001, 1, 0x100, 2, .u32, .ro, false, false, false, .special, .full, 1, false⟩]

/-- Objects at index 0x180x. -/
def objPage180 : List ObjDesc := [
  ⟨0x180001, 4, 0x100, 5, .u32, .rw, true, false, false, .special, .special, 1, false⟩]

/-- Objects at index 0x1A0x. -/
def objPage1A0 : List ObjDesc := [
  ⟨0x1A0000, 4, 0x100, 17, .u32, .rw, true, false, false, .special, .special, 1, false⟩]

/-- Objects at index 0x200x. -/
def objPage200 : List ObjDesc := [
  ⟨0x200201, 1, 0x100, 1, .u16, .rw, true, false, true, .lin 0 0 0, .special, 1, false⟩,
  ⟨0x200202, 1, 0x100, 1, .u16, .ro, false, false, false, .special, .full, 1, false⟩,
  ⟨0x200203, 1, 0x100, 1, .u16, .ro, false, false, false, .special, .full, 1, false⟩,
  ⟨0x200204, 1, 0x100, 1, .u16, .ro, false, false, false, .lin 1 0 0, .full, 1, false⟩,
  ⟨0x200001, 1, 0x100, 1, .enum8, .ro, false, false, false, .lin 0 0 0, .full, 1, false⟩,
  ⟨0x200002, 1, 0x100, 1, .u8, .wo, false, false, false, .lin 0 0 0, .parts [(1, 5)], 1, true⟩,
  ⟨0x200003, 1, 0x100, 1, .u8, .wo, false, false, true, .lin 0 0 0, .parts [(0, 0), (1, 1)], 1, true⟩,
  ⟨0x200004, 1, 0x100, 1, .bits32, .ro, false, false, false, .lin 0 0 0, .full, 1, false⟩,
  ⟨0x200005, 1, 0x100, 1, .enum8, .ro, false, false, false, .lin 0 0 0, .full, 1, false⟩,
  ⟨0x200006, 1, 0x100, 1, .bits32, .ro, false, false, false, .lin 0 0 0, .full, 1, false⟩,
  ⟨0x200101, 1, 0x100, 1, .enum8, .ro, false, false, false, .lin 0 0 0, .full, 1, false⟩,
  ⟨0x200102, 1, 0x100, 1, .u32, .ro, false, false, false, .lin 0 0 0, .full, 1, false⟩,
  ⟨0x200103, 1, 0x100, 1, .bits32, .ro, false, false, false, .lin 0 0 0, .full, 1, false⟩,
  ⟨0x200104, 1, 0x100, 1, .enum8, .ro, false, false, false, .lin 0 0 0, .full, 1, false⟩,
  ⟨0x200105, 1, 0x100, 1, .u32, .ro, false, false, false, .lin 0 0 0, .full, 1, false⟩,
  ⟨0x200106, 1, 0x100, 1, .bool, .rw, false, false, true, .lin 0 0 0, .parts [(0, 0), (1, 1)], 1, false⟩]

/-- Objects at index 0x201x. -/
def objPage201 : List ObjDesc := [
  ⟨0x201001, 1, 0x100, 1, .u32, .ro, false, false, false, .lin 52428 0 0, .full, 1, false⟩,
  ⟨0x201002, 1, 0x100, 1, .u32, .ro, false, false, false, .lin 1024 0 0, .full, 1, false⟩,
  ⟨0x201003, 1, 0x100, 1, .u32, .ro, false, false, false, .lin 32256 0 0, .full, 1, false⟩,
  ⟨0x201004, 1, 0x100, 1, .u16, .rw, true, false, false, .lin 1024 0 0, .parts [(64, 2048)], 1, false⟩,
  ⟨0x201005, 1, 0x100, 1, .u32, .rw, true, false, false, .lin 2048 0 0, .parts [(512, 8192)], 4, false⟩,
  ⟨0x201006, 1, 0x100, 1, .u32, .ro, false, false, false, .lin 10956 0 0, .full, 1, false⟩,
  ⟨0x201007, 1, 0x100, 1, .u8, .wo, false, false, false, .lin 0 0 0, .parts [(1, 1)], 1, true⟩,
  ⟨0x201008, 1, 0x100, 1, .bool, .ro, false, false, false, .lin 0 0 0, .full, 1, false⟩,
  ⟨0x201009, 1, 0x100, 1, .u32, .rw, true, false, false, .lin 2048 0 0, .parts [(2048, 57280)], 1, false⟩,
  ⟨0x20100A, 1, 0x100, 1, .i32, .ro, false, false, false, .lin 0 0 0, .full, 1, false⟩,
  ⟨0x20100B, 1, 0x100, 1, .i32, .ro, false, false, false, .lin 0 0 0, .full, 1, false⟩,
  ⟨0x20100C, 1, 0x100, 1, .bool, .rw, true, false, false, .lin 1 0 0, .parts [(0, 0), (1, 1)], 1, false⟩,
  ⟨0x20100D, 1, 0x100, 1, .u32, .ro, false, false, false, .lin 0 0 0, .full, 1, false⟩,
  ⟨0x20100E, 1, 0x100, 1, .u32, .ro, false, false, false, .lin 0 0 0, .full, 1, false⟩]

/-- Objects at index 0x202x. -/
def objPage202 : List ObjDesc := [
  ⟨0x202001, 1, 0x100, 1, .enum8, .rw, true, true, false, .lin 0 0 0, .parts [(0, 1)], 1, false⟩,
  ⟨0x202002, 1, 0x100, 1, .u64, .rw, true, true, false, .lin 6000 0 0, .parts [(1, 4294967296)], 1, false⟩,
  ⟨0x202003, 1, 0x100, 1, .u32, .rw, true, true, false, .lin 0 0 0, .parts [(0, 4294967295)], 1, false⟩,
  ⟨0x202004, 1, 0x100, 1, .i64, .rw, true, false, false, .lin 0 0 0, .parts [((-70368744177664), 70368744177664)], 2, false⟩,
  ⟨0x202005, 1, 0x100, 1, .enum8, .rw, true, false, false, .lin 0 0 0, .parts [(0, 1)], 1, false⟩,
  ⟨0x202006, 1, 0x100, 1, .i64, .rw, true, true, false, .lin 240 0 0, .parts [((-70368744177664), 70368744177664)], 1, false⟩,
  ⟨0x202007, 1, 0x100, 1, .u32, .rw, true, true, false, .lin 0 0 0, .parts [(0, 4294967295)], 1, false⟩,
  ⟨0x202008, 1, 0x100, 1, .u32, .rw, false, true, false, .lin 0 0 0, .full, 1, false⟩,
  ⟨0x202009, 1, 0x100, 1, .u32, .ro, false, false, false, .lin 0 0 0, .full, 1, false⟩,
  ⟨0x20200A, 1, 0x100, 1, .u32, .ro, false, false, false, .lin 0 0 0, .full, 1, false⟩,
  ⟨0x20200B, 1, 0x100, 1, (.q 8 true), .ro, false, false, false, .lin 0 0 0, .full, 1, false⟩,
  ⟨0x20200C, 1, 0x100, 1, .u32, .ro, false, false, false, .lin 0 0 0, .full, 1, false⟩,
  ⟨0x20200D, 1, 0x100, 1, .u32, .ro, false, false, false, .lin 0 0 0, .full, 1, false⟩,
  ⟨0x20200E, 1, 0x100, 1, .enum8, .ro, false, false, false, .lin 0 0 0, .full, 1, false⟩,
  ⟨0x20200F, 1, 0x100, 1, .u32, .ro, false, false, false, .lin 0 0 0, .full, 1, false⟩,
  ⟨0x202010, 1, 0x100, 1, .u32, .ro, false, false, false, .lin 0 0 0, .full, 1, false⟩]

/-- Objects at index 0x210x. -/
def objPage210 : List ObjDesc := [
  ⟨0x210001, 4, 0x1000, 1, .bits32, .rw, true, false, false, .lin 2057 0 0, .bits 0x0000FFF9 [], 1, false⟩,
  ⟨0x210002, 4, 0x1000, 1, (.q 8 true), .rw, true, true, false, .lin 4294967296 0 0, .parts [(1, 281474976710655)], 1, false⟩,
  ⟨0x210003, 4, 0x1000, 1, .u32, .rw, true, false, false, .lin 0 0 0, .parts [(0, 0), (4, 2147483648)], 1, false⟩,
  ⟨0x210004, 4, 0x1000, 1, .u8, .rw, true, false, false, .lin 2 0 0, .parts [(0, 64)], 1, false⟩,
  ⟨0x210005, 4, 0x1000, 1, .i64, .ro, false, false, false, .lin 0 0 0, .full, 1, false⟩,
  ⟨0x210006, 4, 0x1000, 1, .i64, .ro, false, false, false, .lin 0 0 0, .full, 1, false⟩,
  ⟨0x210007, 4, 0x1000, 1, .i16, .ro, false, false, false, .lin 0 0 0, .full, 1, false⟩,
  ⟨0x210008, 4, 0x1000, 1, .bits32, .ro, false, false, false, .lin 0 0 0, .full, 1, false⟩,
  ⟨0x210009, 4, 0x1000, 1, .u32, .ro, false, false, false, .lin 0 0 0, .full, 1, false⟩,
  ⟨0x21000A, 4, 0x1000, 1, .u32, .ro, false, false, false, .lin 0 0 0, .full, 1, false⟩,
  ⟨0x21000B, 4, 0x1000, 1, .u32, .ro, false, false, false, .lin 0 0 0, .full, 1, false⟩,
  ⟨0x21000C, 4, 0x1000, 1, .u32, .ro, false, false, false, .lin 0 0 0, .full, 1, false⟩]

/-- Objects at index 0x214x. -/
def objPage214 : List ObjDesc := [
  ⟨0x214001, 8, 0x100, 1, .bits32, .rw, true, true, false, .lin 7946 0 0, .bits 0x0000FF7F [⟨1, 2, 0, 0, 1⟩], 1, false⟩,
  ⟨0x214002, 8, 0x100, 1, (.q 8 true), .rw, true, false, false, .lin 0 0 0, .parts [((-4611686018427387904), 4611686018427387904)], 1, false⟩,
  ⟨0x214003, 8, 0x100, 1, (.q 8 true), .rw, true, false, false, .lin 0 0 0, .full, 1, false⟩,
  ⟨0x214004, 8, 0x100, 1, (.q 8 true), .rw, true, false, false, .lin 0 0 0, .full, 1, false⟩,
  ⟨0x214005, 8, 0x100, 1, (.q 8 false), .rw, true, false, false, .lin 0 0 0, .parts [(0, 4611686018427387904)], 1, false⟩,
  ⟨0x214006, 8, 0x100, 1, (.q 8 false), .rw, true, false, false, .lin 0 0 0, .parts [(0, 4611686018427387904)], 1, false⟩,
  ⟨0x214007, 8, 0x100, 1, .u16, .rw, true, false, false, .lin 0 0 0, .parts [(0, 65535)], 1, false⟩,
  ⟨0x214008, 8, 0x100, 1, (.q 8 true), .ro, false, false, false, .lin 0 0 0, .full, 1, false⟩,
  ⟨0x214009, 8, 0x100, 1, (.q 8 true), .ro, false, false, false, .lin 0 0 0, .full, 1, false⟩,
  ⟨0x21400A, 8, 0x100, 1, .u32, .ro, false, false, false, .lin 0 0 0, .full, 1, false⟩,
  ⟨0x21400B, 8, 0x100, 1, (.q 8 true), .ro, false, false, false, .lin 0 0 0, .full, 1, false⟩,
  ⟨0x21400C, 8, 0x100, 1, .u32, .ro, false, false, false, .lin 0 0 0, .full, 1, false⟩,
  ⟨0x21400D, 8, 0x100, 1, .u32, .ro, false, false, false, .lin 0 0 0, .full, 1, false⟩,
  ⟨0x21400E, 8, 0x100, 1, .u32, .ro, false, false, false, .lin 0 0 0, .full, 1, false⟩]

/-- Objects at index 0x215x. -/
def objPage215 : List ObjDesc := [
  ⟨0x215801, 1, 0x100, 4, .bits32, .rw, true, false, false, .lin 2560 0 0, .bits 0x0000FF0F [⟨2, 2, 3, 3, 0⟩], 1, false⟩,
  ⟨0x215805, 1, 0x100, 4, (.q 8 true), .rw, true, false, false, .lin 0 0 0, .parts [((-4611686018427387904), 4611686018427387904)], 1, false⟩,
  ⟨0x215809, 1, 0x100, 4, .u32, .rw, true, false, false, .lin 1200 0 0, .parts [(0, 16777216)], 1, false⟩,
  ⟨0x21580D, 1, 0x100, 1, .bits32, .ro, false, false, false, .lin 0 0 0, .full, 1, false⟩,
  ⟨0x215001, 2, 0x100, 1, .bits32, .rw, true, false, false, .lin 6402 0 0, .special, 1, false⟩,
  ⟨0x215002, 2, 0x100, 1, .u32, .rw, true, false, false, .lin 1000000 0 0, .parts [(100000, 10000000)], 1, false⟩,
  ⟨0x215003, 2, 0x100, 1, .u32, .ro, false, false, false, .lin 995223 0 0, .full, 1, false⟩,
  ⟨0x215004, 2, 0x100, 1, .u16, .rw, true, false, false, .lin 20 0 0, .parts [(1, 1000)], 1, false⟩,
  ⟨0x215005, 2, 0x100, 1, .u32, .rw, true, false, false, .lin 1000 0 0, .parts [(10, 1000000)], 1, false⟩,
  ⟨0x215006, 2, 0x100, 1, .u64, .ro, false, false, false, .lin 0 0 0, .full, 1, false⟩,
  ⟨0x215007, 2, 0x100, 1, .u32, .ro, false, false, false, .lin 0 0 0, .full, 1, false⟩,
  ⟨0x215008, 2, 0x100, 1, .u64, .rw, true, false, false, .lin 0 0 0, .parts [(0, 281474976710655)], 1, false⟩,
  ⟨0x215009, 2, 0x100, 1, .u32, .ro, false, false, false, .lin 0 0 0, .full, 1, false⟩]

/-- Objects at index 0x216x. -/
def objPage216 : List ObjDesc := [
  ⟨0x216001, 1, 0x100, 1, (.q 8 true), .ro, false, false, false, .lin 0 0 0, .full, 1, false⟩,
  ⟨0x216002, 1, 0x100, 1, (.q 8 true), .wo, false, false, false, .lin 0 0 0, .full, 1, false⟩,
  ⟨0x216003, 1, 0x100, 1, (.q 8 true), .ro, false, false, false, .lin 0 0 0, .full, 1, false⟩,
  ⟨0x216004, 1, 0x100, 1, .enum8, .ro, false, false, false, .lin 0 0 0, .full, 1, false⟩,
  ⟨0x216005, 1, 0x100, 1, .u16, .rw, true, false, false, .lin 64 0 0, .parts [(1, 4096)], 1, false⟩,
  ⟨0x216006, 1, 0x100, 1, .u32, .ro, false, false, false, .lin 0 0 0, .full, 1, false⟩,
  ⟨0x216007, 1, 0x100, 1, .u32, .ro, false, false, false, .lin 0 0 0, .full, 1, false⟩,
  ⟨0x216008, 1, 0x100, 1, .bits32, .rw, true, false, false, .lin 16 0 0, .bits 0x00000333 [⟨8, 2, 3, 3, 0⟩], 1, false⟩,
  ⟨0x216009, 1, 0x100, 1, .u8, .ro, false, false, false, .lin 0 0 0, .full, 1, false⟩,
  ⟨0x21600A, 1, 0x100, 1, .u32, .rw, true, false, false, .lin 16384 0 0, .parts [(1024, 16777216)], 1, false⟩,
  ⟨0x21600B, 1, 0x100, 1, (.q 4 false), .rw, true, false, false, .lin 524288 0 0, .parts [(4096, 2147418112)], 1, false⟩,
  ⟨0x21600C, 1, 0x100, 1, (.q 4 true), .ro, false, false, false, .lin 0 0 0, .full, 1, false⟩,
  ⟨0x21600D, 1, 0x100, 1, .u16, .rw, true, false, false, .lin 100 0 0, .parts [(1, 10000)], 1, false⟩,
  ⟨0x216101, 1, 0x100, 1, (.q 8 true), .ro, false, false, false, .lin 0 0 0, .full, 1, false⟩,
  ⟨0x216102, 1, 0x100, 1, (.q 4 true), .ro, false, false, false, .lin 0 0 0, .full, 1, false⟩,
  ⟨0x216103, 1, 0x100, 1, .bool, .ro, false, false, false, .lin 0 0 0, .full, 1, false⟩,
  ⟨0x216104, 1, 0x100, 1, .u8, .rw, true, false, false, .lin 16 0 0, .parts [(1, 64)], 1, false⟩,
  ⟨0x216105, 1, 0x100, 1, .u32, .ro, false, false, false, .lin 0 0 0, .full, 1, false⟩]

/-- Objects at index 0x220x. -/
def objPage220 : List ObjDesc := [
  ⟨0x220001, 1, 0x100, 1, .enum8, .rw, true, true, false, .lin 0 0 0, .parts [(0, 1)], 1, false⟩,
  ⟨0x220002, 1, 0x100, 1, .enum8, .rw, true, true, false, .lin 0 0 0, .parts [(0, 2)], 1, false⟩,
  ⟨0x220003, 1, 0x100, 1, .bits32, .ro, false, false, false, .lin 0 0 0, .full, 1, false⟩,
  ⟨0x220004, 1, 0x100, 1, .u16, .rw, true, false, false, .lin 2000 0 0, .parts [(500, 20000)], 1, false⟩,
  ⟨0x220005, 1, 0x100, 1, .u8, .rw, true, false, false, .lin 16 0 0, .parts [(0, 64)], 1, false⟩,
  ⟨0x220006, 1, 0x100, 1, .u8, .rw, true, false, false, .lin 64 0 0, .parts [(2, 64)], 1, false⟩,
  ⟨0x220007, 1, 0x100, 1, .u8, .rw, true, false, false, .lin 95 0 0, .parts [(50, 99)], 1, false⟩,
  ⟨0x220008, 1, 0x100, 1, .u8, .rw, true, false, false, .lin 105 0 0, .parts [(101, 150)], 1, false⟩,
  ⟨0x220009, 1, 0x100, 1, .u16, .rw, true, false, false, .lin 256 0 0, .parts [(1, 65535)], 1, false⟩,
  ⟨0x22000A, 1, 0x100, 1, .u8, .rw, true, false, false, .lin 90 0 0, .parts [(49, 98)], 1, false⟩,
  ⟨0x22000B, 1, 0x100, 1, .u16, .rw, true, false, false, .lin 500 0 0, .parts [(10, 60000)], 1, false⟩,
  ⟨0x22000C, 1, 0x100, 1, .u32, .ro, false, false, false, .lin 80000 0 0, .full, 1, false⟩,
  ⟨0x22000D, 1, 0x100, 1, .u32, .ro, false, false, false, .lin 0 0 0, .full, 1, false⟩,
  ⟨0x22000E, 1, 0x100, 1, (.q 4 false), .ro, false, false, false, .lin 13316915 0 0, .full, 1, false⟩,
  ⟨0x22000F, 1, 0x100, 1, .u32, .ro, false, false, false, .lin 80000 0 0, .full, 1, false⟩,
  ⟨0x220010, 1, 0x100, 1, .u32, .ro, false, false, false, .lin 0 0 0, .full, 1, false⟩,
  ⟨0x220011, 1, 0x100, 1, .u32, .ro, false, false, false, .lin 0 0 0, .full, 1, false⟩,
  ⟨0x220012, 1, 0x100, 1, .u32, .ro, false, false, false, .lin 0 0 0, .full, 1, false⟩]

/-- Objects at index 0x221x. -/
def objPage221 : List ObjDesc := [
  ⟨0x221001, 16, 0x100, 1, (.q 8 false), .rw, true, true, false, .lin 0 134217728 0, .special, 1, false⟩,
  ⟨0x221002, 16, 0x100, 1, .i16, .rw, true, true, false, .lin 0 0 0, .parts [((-32768), 32767)], 1, false⟩,
  ⟨0x221003, 16, 0x100, 1, .u32, .rw, true, true, false, .lin 0 0 0, .parts [(0, 1000000)], 1, false⟩,
  ⟨0x221004, 16, 0x100, 1, (.q 8 true), .ro, false, false, false, .lin 268435456 134217728 0, .full, 1, false⟩,
  ⟨0x221005, 16, 0x100, 1, (.q 8 true), .ro, false, false, false, .lin 0 0 0, .full, 1, false⟩,
  ⟨0x221006, 16, 0x100, 1, (.q 4 false), .ro, false, false, false, .lin 0 0 0, .full, 1, false⟩,
  ⟨0x221007, 16, 0x100, 1, .u32, .ro, false, false, false, .lin 80000 0 0, .full, 1, false⟩,
  ⟨0x221008, 16, 0x100, 1, .u32, .ro, false, false, false, .lin 0 0 0, .full, 1, false⟩]

/-- Objects at index 0x222x. -/
def objPage222 : List ObjDesc := [
  ⟨0x222001, 1, 0x100, 1, .bool, .rw, false, false, true, .lin 0 0 0, .parts [(0, 0), (1, 1)], 1, false⟩,
  ⟨0x222002, 1, 0x100, 1, .u16, .ro, false, false, false, .lin 0 0 0, .full, 1, false⟩,
  ⟨0x222003, 1, 0x100, 1, .u16, .ro, false, false, false, .lin 0 0 0, .full, 1, false⟩,
  ⟨0x222004, 1, 0x100, 1, .u64, .rw, false, false, false, .lin 0 0 0, .parts [(1, 18446744073709551615)], 1, false⟩,
  ⟨0x222005, 1, 0x100, 1, .i16, .rw, false, false, false, .lin 0 0 0, .full, 1, false⟩,
  ⟨0x222006, 1, 0x100, 1, .i16, .rw, false, false, false, .lin 0 0 0, .full, 1, false⟩,
  ⟨0x222007, 1, 0x100, 1, .enum8, .rw, false, false, false, .lin 0 0 0, .parts [(0, 1)], 1, false⟩,
  ⟨0x222008, 1, 0x100, 1, .u8, .wo, false, false, false, .lin 0 0 0, .parts [(0, 0), (1, 1)], 1, true⟩]

/-- Objects at index 0x230x. -/
def objPage230 : List ObjDesc := [
  ⟨0x230001, 1, 0x100, 1, .u8, .rw, true, true, false, .lin 255 0 0, .special, 1, false⟩,
  ⟨0x230002, 1, 0x100, 1, .u16, .rw, true, false, false, .lin 0 0 0, .parts [(0, 65535)], 1, false⟩,
  ⟨0x230003, 1, 0x100, 1, .u32, .ro, false, false, false, .lin 0 0 0, .full, 1, false⟩,
  ⟨0x230004, 1, 0x100, 1, .u32, .ro, false, false, false, .lin 0 0 0, .full, 1, false⟩]

/-- Objects at index 0x231x. -/
def objPage231 : List ObjDesc := [
  ⟨0x231001, 10, 0x100, 1, .bits32, .rw, true, true, false, .lin 9437184 0 0, .bits 0x0FFFFF00 [⟨24, 4, 9, 15, 0⟩, ⟨20, 2, 3, 3, 1⟩, ⟨16, 3, 4, 7, 0⟩, ⟨12, 4, 6, 15, 0⟩], 1, false⟩,
  ⟨0x231002, 10, 0x100, 1, .u16, .rw, true, true, false, .lin 0 0 0, .parts [(0, 4095)], 1, false⟩,
  ⟨0x231003, 10, 0x100, 1, .u32, .rw, true, true, false, .lin 4275878552 0 0, .special, 1, false⟩,
  ⟨0x231004, 10, 0x100, 1, .u16, .rw, true, true, false, .lin 65535 0 0, .parts [(0, 65535)], 1, false⟩,
  ⟨0x231005, 10, 0x100, 1, .i32, .rw, true, true, false, .lin 0 0 0, .parts [((-98304), 98304)], 1, false⟩,
  ⟨0x231006, 10, 0x100, 1, .i64, .rw, true, true, false, .lin 0 0 0, .parts [((-70368744177664), 70368744177664)], 1, false⟩,
  ⟨0x231007, 10, 0x100, 1, (.q 8 false), .rw, true, true, false, .lin 0 0 0, .parts [(0, 0), (268435456, 8589934592)], 1, false⟩,
  ⟨0x231008, 10, 0x100, 1, (.q 8 false), .rw, true, true, false, .lin 0 0 0, .parts [(0, 0), (268435456, 8589934592)], 1, false⟩,
  ⟨0x231009, 10, 0x100, 1, .u64, .rw, true, true, false, .lin 0 0 0, .full, 1, false⟩,
  ⟨0x23100A, 10, 0x100, 1, .u64, .rw, true, true, false, .lin 0 0 0, .full, 1, false⟩,
  ⟨0x23100B, 10, 0x100, 1, .u8, .rw, true, true, false, .lin 0 0 0, .full, 1, false⟩,
  ⟨0x23100C, 10, 0x100, 1, .enum8, .ro, false, false, false, .lin 0 0 0, .full, 1, false⟩,
  ⟨0x23100D, 10, 0x100, 1, .u32, .ro, false, false, false, .lin 0 0 0, .full, 1, false⟩,
  ⟨0x23100E, 10, 0x100, 1, .u32, .ro, false, false, false, .lin 0 0 0, .full, 1, false⟩,
  ⟨0x23100F, 10, 0x100, 1, .u16, .ro, false, false, false, .lin 0 0 0, .full, 1, false⟩]

/-- Objects at index 0x233x. -/
def objPage233 : List ObjDesc := [
  ⟨0x233001, 1, 0x100, 64, .i16, .rw, true, true, false, .special, .full, 1, false⟩,
  ⟨0x233041, 1, 0x100, 8, .i16, .rw, true, true, false, .lin 0 0 0, .full, 1, false⟩]

/-- Objects at index 0x234x. -/
def objPage234 : List ObjDesc := [
  ⟨0x234001, 1, 0x100, 1, .u8, .rw, true, true, false, .lin 0 0 0, .full, 1, false⟩,
  ⟨0x234002, 1, 0x100, 1, .u32, .ro, false, false, false, .lin 0 0 0, .full, 1, false⟩]

/-- Objects at index 0x236x. -/
def objPage236 : List ObjDesc := [
  ⟨0x236001, 1, 0x100, 1, .bits32, .rw, true, false, false, .lin 65280 0 0, .bits 0x0000FF0F [], 1, false⟩,
  ⟨0x236002, 1, 0x100, 1, .u8, .rw, true, false, false, .lin 0 0 0, .parts [(0, 255)], 1, false⟩,
  ⟨0x236003, 1, 0x100, 1, .u32, .ro, false, false, false, .lin 0 0 0, .full, 1, false⟩,
  ⟨0x236004, 1, 0x100, 1, .u32, .ro, false, false, false, .lin 0 0 0, .full, 1, false⟩]

/-- Objects at index 0x23Fx. -/
def objPage23F : List ObjDesc := [
  ⟨0x23F001, 1, 0x100, 1, .u8, .wo, false, false, false, .lin 0 0 0, .parts [(0, 0), (1, 1)], 1, true⟩,
  ⟨0x23F002, 1, 0x100, 1, .enum8, .ro, false, false, false, .lin 0 0 0, .full, 1, false⟩,
  ⟨0x23F003, 1, 0x100, 1, (.q 8 true), .ro, false, false, false, .lin 0 0 0, .full, 1, false⟩,
  ⟨0x23F004, 1, 0x100, 1, .u32, .ro, false, false, false, .lin 0 0 0, .full, 1, false⟩,
  ⟨0x23F005, 1, 0x100, 1, .u32, .ro, false, false, false, .lin 0 0 0, .full, 1, false⟩,
  ⟨0x23F006, 1, 0x100, 1, .u16, .ro, false, false, false, .lin 0 0 0, .full, 1, false⟩]

/-- Objects at index 0x240x. -/
def objPage240 : List ObjDesc := [
  ⟨0x240001, 1, 0x100, 1, .u8, .rw, true, true, false, .lin 2 0 0, .parts [(0, 4)], 1, false⟩,
  ⟨0x240002, 1, 0x100, 1, .u8, .rw, true, true, false, .lin 64 0 0, .parts [(1, 64)], 1, false⟩,
  ⟨0x240003, 1, 0x100, 1, .bits32, .rw, true, true, false, .lin 31 0 0, .bits 0x0000001F [], 1, false⟩,
  ⟨0x240004, 1, 0x100, 1, .bits32, .ro, false, false, false, .lin 262143 0 0, .full, 1, false⟩,
  ⟨0x240005, 1, 0x100, 1, .enum8, .ro, false, false, false, .lin 0 0 0, .full, 1, false⟩,
  ⟨0x240006, 1, 0x100, 1, .u32, .ro, false, false, false, .lin 0 0 0, .full, 1, false⟩,
  ⟨0x240007, 1, 0x100, 1, .u32, .ro, false, false, false, .lin 0 0 0, .full, 1, false⟩,
  ⟨0x240008, 1, 0x100, 1, .u32, .ro, false, false, false, .lin 0 0 0, .full, 1, false⟩,
  ⟨0x240009, 1, 0x100, 1, .u32, .ro, false, false, false, .lin 0 0 0, .full, 1, false⟩,
  ⟨0x24000A, 1, 0x100, 1, .u32, .ro, false, false, false, .lin 0 0 0, .full, 1, false⟩,
  ⟨0x24000B, 1, 0x100, 1, .u32, .ro, false, false, false, .lin 0 0 0, .full, 1, false⟩,
  ⟨0x24000C, 1, 0x100, 1, (.q 4 false), .ro, false, false, false, .lin 65536 0 0, .full, 1, false⟩,
  ⟨0x24000D, 1, 0x100, 1, .u32, .ro, false, false, false, .lin 0 0 0, .full, 1, false⟩,
  ⟨0x240101, 1, 0x100, 18, .u8, .ro, false, false, false, .lin 0 0 0, .full, 1, false⟩]

/-- Objects at index 0x241x. -/
def objPage241 : List ObjDesc := [
  ⟨0x241001, 1, 0x100, 1, .u32, .ro, false, false, false, .lin 0 0 0, .full, 1, false⟩,
  ⟨0x241002, 1, 0x100, 1, .u32, .ro, false, false, false, .lin 0 0 0, .full, 1, false⟩,
  ⟨0x241003, 1, 0x100, 1, .u64, .ro, false, false, false, .lin 0 0 0, .full, 1, false⟩,
  ⟨0x241004, 1, 0x100, 1, .enum8, .ro, false, false, false, .lin 0 0 0, .full, 1, false⟩,
  ⟨0x241005, 1, 0x100, 1, .u16, .rw, true, false, false, .lin 24 0 0, .parts [(1, 720)], 1, false⟩,
  ⟨0x241006, 1, 0x100, 1, .u32, .ro, false, false, false, .lin 0 0 0, .full, 1, false⟩,
  ⟨0x241007, 1, 0x100, 1, .u32, .ro, false, false, false, .lin 0 0 0, .full, 1, false⟩,
  ⟨0x241008, 1, 0x100, 1, .u32, .ro, false, false, false, .lin 0 0 0, .full, 1, false⟩,
  ⟨0x241009, 1, 0x100, 1, .bits32, .wo, false, false, false, .lin 0 0 0, .bits 0x000000E1 [], 1, false⟩,
  ⟨0x24100A, 1, 0x100, 1, .u32, .rw, true, false, false, .lin 1000 0 0, .parts [(1, 4294967295)], 1, false⟩]

/-- Objects at index 0x242x. -/
def objPage242 : List ObjDesc := [
  ⟨0x242001, 1, 0x100, 1, .u32, .ro, false, false, false, .lin 10956 0 0, .full, 1, false⟩,
  ⟨0x242002, 1, 0x100, 1, .u16, .ro, false, false, false, .lin 0 0 0, .full, 1, false⟩,
  ⟨0x242003, 1, 0x100, 1, .u16, .wo, false, false, false, .lin 0 0 0, .parts [(1, 4095)], 1, true⟩,
  ⟨0x242004, 1, 0x100, 1, .u16, .rw, true, false, false, .lin 16 0 0, .parts [(2, 1024)], 1, false⟩,
  ⟨0x242005, 1, 0x100, 1, .u8, .wo, false, false, false, .lin 0 0 0, .parts [(1, 1)], 1, true⟩,
  ⟨0x242006, 1, 0x100, 1, .u64, .ro, false, false, false, .lin 0 0 0, .full, 1, false⟩,
  ⟨0x242007, 1, 0x100, 1, .u32, .ro, false, false, false, .lin 0 0 0, .full, 1, false⟩]

/-- Objects at index 0x250x. -/
def objPage250 : List ObjDesc := [
  ⟨0x250001, 8, 0x1000, 1, .bits32, .rw, true, true, false, .lin 28672 0 0, .bits 0x000F7100 [⟨18, 2, 3, 3, 0⟩], 1, false⟩,
  ⟨0x250002, 8, 0x1000, 1, .u16, .rw, true, true, false, .lin 8192 0 0, .parts [(0, 16384)], 1, false⟩,
  ⟨0x250003, 8, 0x1000, 1, .u16, .rw, true, true, false, .lin 0 0 0, .parts [(0, 16384)], 1, false⟩,
  ⟨0x250004, 8, 0x1000, 1, .u16, .rw, true, true, false, .lin 4096 0 0, .parts [(0, 16384)], 1, false⟩,
  ⟨0x250005, 8, 0x1000, 1, .u16, .rw, true, true, false, .lin 32768 0 0, .parts [(16384, 65535)], 1, false⟩,
  ⟨0x250006, 8, 0x1000, 1, .i32, .rw, true, true, false, .lin 0 0 0, .parts [((-503316), 503316)], 1, false⟩,
  ⟨0x250007, 8, 0x1000, 1, .i32, .rw, true, true, false, .lin 0 0 0, .parts [((-503316), 503316)], 1, false⟩,
  ⟨0x250008, 8, 0x1000, 1, .u32, .rw, true, true, false, .lin 49152 0 0, .parts [(0, 98303)], 1, false⟩,
  ⟨0x250009, 8, 0x1000, 1, .u16, .rw, true, true, false, .lin 1 0 0, .parts [(1, 256)], 1, false⟩,
  ⟨0x25000A, 8, 0x1000, 1, .i32, .rw, false, false, false, .lin 0 0 0, .parts [((-503316), 503316)], 1, false⟩,
  ⟨0x25000B, 8, 0x1000, 1, .i32, .rw, false, false, false, .lin 0 0 0, .parts [((-503316), 503316)], 1, false⟩,
  ⟨0x250101, 8, 0x1000, 1, .bits32, .ro, false, false, false, .lin 0 0 0, .full, 1, false⟩,
  ⟨0x250102, 8, 0x1000, 1, .u32, .ro, false, false, false, .lin 0 0 0, .full, 1, false⟩,
  ⟨0x250103, 8, 0x1000, 1, .u32, .ro, false, false, false, .lin 0 0 0, .full, 1, false⟩,
  ⟨0x250104, 8, 0x1000, 1, .u8, .ro, false, false, false, .lin 0 0 0, .full, 1, false⟩,
  ⟨0x250105, 8, 0x1000, 1, .u32, .ro, false, false, false, .lin 0 0 0, .full, 1, false⟩,
  ⟨0x250106, 8, 0x1000, 1, .u32, .ro, false, false, false, .lin 0 0 0, .full, 1, false⟩,
  ⟨0x250107, 8, 0x1000, 1, .u32, .ro, false, false, false, .lin 0 0 0, .full, 1, false⟩,
  ⟨0x250108, 8, 0x1000, 1, .u32, .ro, false, false, false, .lin 0 0 0, .full, 1, false⟩,
  ⟨0x250109, 8, 0x1000, 1, .u64, .ro, false, false, false, .lin 0 0 0, .full, 1, false⟩,
  ⟨0x25010A, 8, 0x1000, 1, .u32, .ro, false, false, false, .lin 0 0 0, .full, 1, false⟩,
  ⟨0x25010B, 8, 0x1000, 1, .u16, .ro, false, false, false, .lin 0 0 0, .full, 1, false⟩,
  ⟨0x25010C, 8, 0x1000, 1, .u16, .ro, false, false, false, .lin 0 0 0, .full, 1, false⟩,
  ⟨0x25010D, 8, 0x1000, 1, .u16, .ro, false, false, false, .lin 0 0 0, .full, 1, false⟩,
  ⟨0x25010E, 8, 0x1000, 1, .u32, .ro, false, false, false, .lin 0 0 0, .full, 1, false⟩,
  ⟨0x25010F, 8, 0x1000, 1, .u32, .ro, false, false, false, .lin 0 0 0, .full, 1, false⟩,
  ⟨0x250110, 8, 0x1000, 1, .u32, .ro, false, false, false, .lin 0 0 0, .full, 1, false⟩,
  ⟨0x250201, 8, 0x1000, 1, .bits32, .rw, false, false, false, .lin 0 0 0, .bits 0x0003FFFF [], 1, false⟩,
  ⟨0x250202, 8, 0x1000, 1, .enum8, .rw, false, false, false, .lin 0 0 0, .parts [(0, 2)], 1, false⟩,
  ⟨0x250203, 8, 0x1000, 1, .u32, .ro, false, false, false, .lin 0 0 0, .full, 1, false⟩]

/-- Objects at index 0x258x. -/
def objPage258 : List ObjDesc := [
  ⟨0x258001, 1, 0x100, 1, .u16, .ro, false, false, false, .lin 0 0 0, .full, 1, false⟩,
  ⟨0x258002, 1, 0x100, 1, .u16, .ro, false, false, false, .lin 0 0 0, .full, 1, false⟩,
  ⟨0x258003, 1, 0x100, 1, .u8, .wo, false, false, false, .lin 0 0 0, .parts [(0, 0), (1, 1)], 1, true⟩]

/-- Objects at index 0x259x. -/
def objPage259 : List ObjDesc := [
  ⟨0x259001, 1, 0x100, 8, .u8, .ro, false, false, false, .lin 0 0 1, .full, 1, false⟩,
  ⟨0x259009, 1, 0x100, 1, .u8, .ro, false, false, false, .lin 8 0 0, .full, 1, false⟩,
  ⟨0x25900A, 1, 0x100, 1, .bits32, .ro, false, false, false, .lin 511 0 0, .full, 1, false⟩,
  ⟨0x25900B, 1, 0x100, 1, .u8, .wo, false, false, true, .lin 0 0 0, .parts [(0, 7)], 1, true⟩]

/-- Objects at index 0x260x. -/
def objPage260 : List ObjDesc := [
  ⟨0x260001, 16, 0x800, 1, .bits32, .rw, true, false, false, .lin 3 0 0, .bits 0x00000003 [], 1, false⟩,
  ⟨0x260002, 16, 0x800, 1, .u8, .rw, true, false, false, .lin 5 0 0, .parts [(0, 50)], 1, false⟩,
  ⟨0x260003, 16, 0x800, 1, .u8, .rw, true, false, false, .lin 16 0 0, .parts [(0, 127)], 1, false⟩,
  ⟨0x260004, 16, 0x800, 1, .u16, .rw, true, false, false, .lin 20 0 0, .parts [(20, 1000)], 1, false⟩,
  ⟨0x260101, 16, 0x800, 1, .bits32, .ro, false, false, false, .lin 0 0 0, .full, 1, false⟩,
  ⟨0x260102, 16, 0x800, 1, .u32, .ro, false, false, false, .lin 0 0 0, .full, 1, false⟩,
  ⟨0x260103, 16, 0x800, 1, .u64, .ro, false, false, false, .lin 0 0 0, .full, 1, false⟩,
  ⟨0x260104, 16, 0x800, 1, .u32, .ro, false, false, false, .lin 0 0 0, .full, 1, false⟩,
  ⟨0x260105, 16, 0x800, 1, .u16, .ro, false, false, false, .lin 0 0 0, .full, 1, false⟩,
  ⟨0x260106, 16, 0x800, 1, .u32, .ro, false, false, false, .lin 0 0 0, .full, 1, false⟩,
  ⟨0x260107, 16, 0x800, 1, .u16, .ro, false, false, false, .lin 0 0 0, .full, 1, false⟩,
  ⟨0x260108, 16, 0x800, 1, .u32, .ro, false, false, false, .lin 0 0 0, .full, 1, false⟩,
  ⟨0x260109, 16, 0x800, 1, .u32, .ro, false, false, false, .lin 0 0 0, .full, 1, false⟩,
  ⟨0x26010A, 16, 0x800, 1, .u32, .ro, false, false, false, .lin 0 0 0, .full, 1, false⟩,
  ⟨0x26010B, 16, 0x800, 1, .u32, .ro, false, false, false, .lin 0 0 0, .full, 1, false⟩,
  ⟨0x26010C, 16, 0x800, 1, .u8, .ro, false, false, false, .lin 0 0 0, .full, 1, false⟩,
  ⟨0x26010D, 16, 0x800, 1, .u32, .ro, false, false, false, .lin 0 0 0, .full, 1, false⟩,
  ⟨0x26010E, 16, 0x800, 1, .u8, .ro, false, false, false, .lin 0 0 0, .full, 1, false⟩,
  ⟨0x260201, 16, 0x800, 1, .u8, .ro, false, false, false, .lin 0 0 0, .full, 1, false⟩,
  ⟨0x260202, 16, 0x800, 1, .u8, .ro, false, false, false, .lin 0 0 0, .full, 1, false⟩,
  ⟨0x260203, 16, 0x800, 1, .u8, .ro, false, false, false, .lin 0 0 0, .full, 1, false⟩,
  ⟨0x260204, 16, 0x800, 1, .u8, .ro, false, false, false, .lin 0 0 0, .full, 1, false⟩,
  ⟨0x260205, 16, 0x800, 1, .u8, .ro, false, false, false, .lin 0 0 0, .full, 1, false⟩,
  ⟨0x260206, 16, 0x800, 1, .u8, .ro, false, false, false, .lin 0 0 0, .full, 1, false⟩]

/-- Objects at index 0x268x. -/
def objPage268 : List ObjDesc := [
  ⟨0x268001, 16, 0x100, 1, .u16, .rw, true, false, false, .lin 0 0 0, .parts [(0, 65535)], 1, false⟩,
  ⟨0x268002, 16, 0x100, 1, .u16, .rw, true, false, false, .lin 1024 0 0, .parts [(1, 4096)], 1, false⟩,
  ⟨0x268003, 16, 0x100, 1, .u8, .rw, true, false, false, .lin 1 0 0, .parts [(1, 16)], 1, false⟩,
  ⟨0x268004, 16, 0x100, 1, .enum8, .rw, true, false, false, .lin 0 0 0, .parts [(0, 1)], 1, false⟩,
  ⟨0x268005, 16, 0x100, 1, .u16, .rw, true, false, false, .lin 1000 0 0, .parts [(100, 65535)], 1, false⟩,
  ⟨0x268006, 16, 0x100, 1, .u16, .rw, true, false, false, .lin 500 0 0, .parts [(0, 65535)], 1, false⟩,
  ⟨0x268007, 16, 0x100, 7, .u16, .rw, true, false, false, .lin 0 0 0, .parts [(0, 65535)], 1, false⟩,
  ⟨0x26800E, 16, 0x100, 1, .u32, .rw, true, false, false, .lin 4294967295 0 0, .parts [(1, 4294967295)], 1, false⟩,
  ⟨0x26800F, 16, 0x100, 1, .u32, .rw, true, false, false, .lin 64000 0 0, .parts [(1, 80000)], 1, false⟩,
  ⟨0x268010, 16, 0x100, 1, .u32, .ro, false, false, false, .lin 64000 0 0, .full, 1, false⟩,
  ⟨0x268011, 16, 0x100, 1, .u16, .ro, false, false, false, .lin 0 0 0, .full, 1, false⟩]

/-- Objects at index 0x269x. -/
def objPage269 : List ObjDesc := [
  ⟨0x269001, 16, 0x100, 1, .bits32, .rw, true, false, false, .lin 7 0 0, .bits 0x000000F7 [], 1, false⟩,
  ⟨0x269002, 16, 0x100, 1, .bits32, .ro, false, false, false, .lin 0 0 0, .full, 1, false⟩,
  ⟨0x269003, 16, 0x100, 1, .u8, .ro, false, false, false, .lin 0 0 0, .full, 1, false⟩,
  ⟨0x269004, 16, 0x100, 1, .u32, .ro, false, false, false, .lin 0 0 0, .full, 1, false⟩,
  ⟨0x269005, 16, 0x100, 1, .u32, .ro, false, false, false, .lin 0 0 0, .full, 1, false⟩,
  ⟨0x269006, 16, 0x100, 1, .u32, .ro, false, false, false, .lin 0 0 0, .full, 1, false⟩,
  ⟨0x269007, 16, 0x100, 1, .u32, .ro, false, false, false, .lin 0 0 0, .full, 1, false⟩,
  ⟨0x269008, 16, 0x100, 1, .u32, .ro, false, false, false, .lin 0 0 0, .full, 1, false⟩,
  ⟨0x269009, 16, 0x100, 1, .u32, .ro, false, false, false, .lin 0 0 0, .full, 1, false⟩,
  ⟨0x26900A, 16, 0x100, 1, .u8, .ro, false, false, false, .lin 0 0 0, .full, 1, false⟩,
  ⟨0x26900B, 16, 0x100, 1, .u32, .ro, false, false, false, .lin 0 0 0, .full, 1, false⟩,
  ⟨0x26900C, 16, 0x100, 1, .u32, .ro, false, false, false, .lin 0 0 0, .full, 1, false⟩]

/-- Objects at index 0x26Ax. -/
def objPage26A : List ObjDesc := [
  ⟨0x26A001, 8, 0x100, 1, .bits32, .rw, true, false, false, .lin 7 0 0, .bits 0x000000F7 [], 1, false⟩,
  ⟨0x26A002, 8, 0x100, 1, .bits32, .ro, false, false, false, .lin 0 0 0, .full, 1, false⟩,
  ⟨0x26A003, 8, 0x100, 1, .u64, .ro, false, false, false, .lin 0 0 0, .full, 1, false⟩,
  ⟨0x26A004, 8, 0x100, 1, .u64, .ro, false, false, false, .lin 0 0 0, .full, 1, false⟩,
  ⟨0x26A005, 8, 0x100, 1, .u32, .ro, false, false, false, .lin 0 0 0, .full, 1, false⟩,
  ⟨0x26A006, 8, 0x100, 1, .u32, .ro, false, false, false, .lin 0 0 0, .full, 1, false⟩,
  ⟨0x26A007, 8, 0x100, 1, .u32, .ro, false, false, false, .lin 0 0 0, .full, 1, false⟩]

/-- Objects at index 0x26Bx. -/
def objPage26B : List ObjDesc := [
  ⟨0x26B001, 1, 0x100, 1, .u16, .rw, true, false, false, .lin 0 0 0, .parts [(0, 65535)], 1, false⟩,
  ⟨0x26B002, 1, 0x100, 1, .u16, .rw, true, false, false, .lin 6144 0 0, .parts [(64, 8192)], 1, false⟩,
  ⟨0x26B003, 1, 0x100, 1, .u8, .rw, true, false, false, .lin 12 0 0, .parts [(8, 16)], 1, false⟩,
  ⟨0x26B004, 1, 0x100, 1, .u32, .rw, true, false, false, .lin 64000 0 0, .parts [(1000, 80000)], 1, false⟩]

/-- Objects at index 0x26Cx. -/
def objPage26C : List ObjDesc := [
  ⟨0x26C001, 1, 0x100, 1, .u64, .ro, false, false, false, .lin 0 0 0, .full, 1, false⟩,
  ⟨0x26C002, 1, 0x100, 1, .u8, .wo, false, false, false, .lin 0 0 0, .parts [(1, 1)], 1, true⟩,
  ⟨0x26C003, 1, 0x100, 1, .bool, .rw, true, false, false, .lin 1 0 0, .parts [(0, 0), (1, 1)], 1, false⟩,
  ⟨0x26C004, 1, 0x100, 1, .u16, .rw, true, false, false, .lin 10 0 0, .parts [(1, 1000)], 1, false⟩,
  ⟨0x26C005, 1, 0x100, 1, .u16, .rw, true, false, false, .lin 1000 0 0, .parts [(300, 60000)], 1, false⟩,
  ⟨0x26C006, 1, 0x100, 1, .u16, .rw, true, false, false, .lin 50 0 0, .parts [(10, 10000)], 1, false⟩,
  ⟨0x26C007, 1, 0x100, 1, .u8, .rw, false, false, false, .lin 0 0 0, .parts [(0, 23)], 1, false⟩,
  ⟨0x26C008, 1, 0x100, 1, .u32, .rw, false, false, false, .lin 0 0 0, .full, 1, false⟩,
  ⟨0x26C009, 1, 0x100, 1, .u32, .rw, false, false, false, .lin 0 0 0, .full, 1, false⟩,
  ⟨0x26C00A, 1, 0x100, 1, .u8, .ro, false, false, false, .lin 0 0 0, .full, 1, false⟩]

/-- Objects at index 0x270x. -/
def objPage270 : List ObjDesc := [
  ⟨0x270001, 1, 0x100, 1, .bits32, .rw, true, false, false, .lin 7 0 0, .bits 0x00000007 [], 1, false⟩,
  ⟨0x270002, 1, 0x100, 1, .u32, .rw, true, false, false, .lin 64000 0 0, .parts [(8000, 64000)], 1, false⟩,
  ⟨0x270003, 1, 0x100, 1, .u32, .ro, false, false, false, .lin 63998 0 0, .full, 1, false⟩,
  ⟨0x270004, 1, 0x100, 1, (.q 8 false), .rw, true, true, false, .lin 2147483648 0 0, .parts [(65536, 4611686018427387904)], 1, false⟩,
  ⟨0x270005, 1, 0x100, 1, .u32, .rw, true, true, false, .lin 945 0 0, .parts [(64, 1048576)], 1, false⟩,
  ⟨0x270006, 1, 0x100, 1, .u16, .rw, true, false, false, .lin 256 0 0, .parts [(0, 0), (16, 4096)], 1, false⟩,
  ⟨0x270007, 1, 0x100, 1, .u16, .rw, true, false, false, .lin 64 0 0, .parts [(8, 1024)], 1, false⟩,
  ⟨0x270008, 1, 0x100, 1, .u16, .rw, true, false, false, .lin 6400 0 0, .full, 1, false⟩,
  ⟨0x270009, 1, 0x100, 1, .u16, .rw, true, false, false, .lin 32 0 0, .parts [(1, 65535)], 1, false⟩,
  ⟨0x27000A, 1, 0x100, 1, .u16, .rw, true, false, false, .lin 50 0 0, .parts [(1, 500)], 1, false⟩,
  ⟨0x27000B, 1, 0x100, 1, .u16, .rw, true, false, false, .lin 8 0 0, .parts [(0, 1024)], 1, false⟩,
  ⟨0x27000C, 1, 0x100, 1, .u16, .rw, true, false, false, .lin 4096 0 0, .full, 1, false⟩,
  ⟨0x27000D, 1, 0x100, 1, .u8, .wo, false, false, false, .lin 0 0 0, .parts [(1, 1)], 1, true⟩,
  ⟨0x27000E, 1, 0x100, 1, .u8, .wo, false, false, false, .lin 0 0 0, .parts [(1, 1)], 1, true⟩,
  ⟨0x27000F, 1, 0x100, 1, .u16, .rw, true, false, false, .lin 768 0 0, .parts [(0, 6144)], 1, false⟩,
  ⟨0x270010, 1, 0x100, 1, .bits32, .ro, false, false, false, .lin 0 0 0, .full, 1, false⟩,
  ⟨0x270011, 1, 0x100, 1, .u32, .ro, false, false, false, .lin 0 0 0, .full, 1, false⟩,
  ⟨0x270012, 1, 0x100, 1, .u64, .ro, false, false, false, .lin 0 0 0, .full, 1, false⟩,
  ⟨0x270013, 1, 0x100, 1, .u64, .ro, false, false, false, .lin 0 0 0, .full, 1, false⟩,
  ⟨0x270014, 1, 0x100, 1, .u32, .ro, false, false, false, .lin 0 0 0, .full, 1, false⟩,
  ⟨0x270015, 1, 0x100, 1, .u16, .ro, false, false, false, .lin 0 0 0, .full, 1, false⟩,
  ⟨0x270016, 1, 0x100, 1, .u32, .ro, false, false, false, .lin 0 0 0, .full, 1, false⟩,
  ⟨0x270017, 1, 0x100, 1, .u32, .ro, false, false, false, .lin 0 0 0, .full, 1, false⟩,
  ⟨0x270018, 1, 0x100, 1, .u32, .ro, false, false, false, .lin 24576 0 0, .full, 1, false⟩,
  ⟨0x270101, 1, 0x100, 8, .i32, .rw, true, false, false, .lin 0 0 6144, .parts [((-8192), 57343)], 1, false⟩,
  ⟨0x270109, 1, 0x100, 1, .u8, .rw, true, false, false, .lin 0 0 0, .full, 1, false⟩]

/-- Objects at index 0x271x. -/
def objPage271 : List ObjDesc := [
  ⟨0x271001, 1, 0x100, 64, .i16, .rw, true, false, false, .special, .full, 1, false⟩,
  ⟨0x271041, 1, 0x100, 8, .i16, .rw, true, false, false, .lin 0 0 0, .full, 1, false⟩]

/-- Objects at index 0x272x. -/
def objPage272 : List ObjDesc := [
  ⟨0x272001, 1, 0x100, 1, .bits32, .rw, true, false, false, .lin 65280 0 0, .bits 0x0000FF03 [⟨0, 2, 3, 3, 0⟩], 1, false⟩,
  ⟨0x272002, 1, 0x100, 1, .u8, .rw, true, false, false, .lin 0 0 0, .parts [(0, 255)], 1, false⟩,
  ⟨0x272003, 1, 0x100, 1, .u32, .rw, true, false, false, .lin 10000 0 0, .parts [(100, 3600000)], 1, false⟩,
  ⟨0x272004, 1, 0x100, 1, .u16, .rw, true, false, false, .lin 64 0 0, .parts [(16, 2048)], 1, false⟩,
  ⟨0x272005, 1, 0x100, 1, .u8, .wo, false, false, false, .lin 0 0 0, .full, 1, true⟩,
  ⟨0x272006, 1, 0x100, 1, .u32, .ro, false, false, false, .lin 0 0 0, .full, 1, false⟩,
  ⟨0x272007, 1, 0x100, 1, .u32, .ro, false, false, false, .lin 0 0 0, .full, 1, false⟩]

/-- Objects at index 0x274x. -/
def objPage274 : List ObjDesc := [
  ⟨0x274001, 1, 0x100, 1, .bits32, .rw, true, false, false, .lin 4103 0 0, .bits 0x0000FF0F [⟨8, 8, 0, 7, 16⟩, ⟨8, 8, 17, 255, 16⟩], 1, false⟩,
  ⟨0x274002, 1, 0x100, 1, .u8, .rw, true, false, false, .lin 128 0 0, .parts [(0, 255)], 1, false⟩,
  ⟨0x274003, 1, 0x100, 1, .u8, .ro, false, false, false, .lin 128 0 0, .full, 1, false⟩,
  ⟨0x274004, 1, 0x100, 1, .u16, .rw, true, false, false, .lin 200 0 0, .parts [(100, 2000)], 1, false⟩,
  ⟨0x274005, 1, 0x100, 1, .u16, .rw, true, false, false, .lin 700 0 0, .parts [(500, 3000)], 1, false⟩,
  ⟨0x274006, 1, 0x100, 1, .u16, .ro, false, false, false, .lin 512 0 0, .full, 1, false⟩,
  ⟨0x274007, 1, 0x100, 1, .u16, .rw, true, false, false, .lin 512 0 0, .parts [(0, 1023)], 1, false⟩,
  ⟨0x274008, 1, 0x100, 1, .u16, .rw, true, false, false, .lin 1023 0 0, .parts [(0, 1023)], 1, false⟩,
  ⟨0x274009, 1, 0x100, 1, .u8, .rw, true, false, false, .lin 16 0 0, .parts [(1, 255)], 1, false⟩,
  ⟨0x27400A, 1, 0x100, 1, .u16, .ro, false, false, false, .lin 0 0 0, .full, 1, false⟩,
  ⟨0x27400B, 1, 0x100, 1, .u16, .ro, false, false, false, .lin 0 0 0, .full, 1, false⟩,
  ⟨0x27400C, 1, 0x100, 1, .u16, .rw, true, false, false, .lin 4000 0 0, .parts [(0, 4000)], 1, false⟩,
  ⟨0x27400D, 1, 0x100, 1, .u16, .ro, false, false, false, .lin 4000 0 0, .full, 1, false⟩,
  ⟨0x27400E, 1, 0x100, 1, .u16, .rw, true, false, false, .lin 1000 0 0, .parts [(10, 60000)], 1, false⟩,
  ⟨0x27400F, 1, 0x100, 1, .u16, .rw, true, false, false, .lin 5000 0 0, .parts [(10, 60000)], 1, false⟩,
  ⟨0x274010, 1, 0x100, 1, .u16, .rw, true, false, false, .lin 200 0 0, .parts [(50, 2000)], 1, false⟩,
  ⟨0x274011, 1, 0x100, 1, .u16, .rw, true, false, false, .lin 1500 0 0, .parts [(500, 20000)], 1, false⟩,
  ⟨0x274012, 1, 0x100, 1, .bits32, .ro, false, false, false, .lin 0 0 0, .full, 1, false⟩,
  ⟨0x274013, 1, 0x100, 1, .u16, .ro, false, false, false, .lin 0 0 0, .full, 1, false⟩,
  ⟨0x274014, 1, 0x100, 1, .u16, .ro, false, false, false, .lin 0 0 0, .full, 1, false⟩,
  ⟨0x274015, 1, 0x100, 1, .u16, .ro, false, false, false, .lin 0 0 0, .full, 1, false⟩,
  ⟨0x274016, 1, 0x100, 1, .u32, .ro, false, false, false, .lin 0 0 0, .full, 1, false⟩,
  ⟨0x274101, 1, 0x100, 32, .u16, .rw, true, false, false, .lin 512 0 0, .parts [(0, 1023)], 1, false⟩,
  ⟨0x274201, 1, 0x100, 8, .u16, .rw, true, false, false, .lin 1200 0 0, .parts [(0, 5000)], 1, false⟩]

/-- Objects at index 0x280x. -/
def objPage280 : List ObjDesc := [
  ⟨0x280001, 1, 0x100, 1, .bits32, .rw, true, false, false, .lin 31 0 0, .bits 0x0000001F [], 1, false⟩,
  ⟨0x280002, 1, 0x100, 1, .enum8, .ro, false, false, false, .lin 0 0 0, .full, 1, false⟩,
  ⟨0x280003, 1, 0x100, 1, .u16, .rw, true, false, false, .lin 64225 0 0, .parts [(58982, 65535)], 1, false⟩,
  ⟨0x280004, 1, 0x100, 1, .u16, .rw, true, false, false, .lin 6554 0 0, .parts [(1, 65535)], 1, false⟩,
  ⟨0x280005, 1, 0x100, 1, (.q 4 false), .rw, true, false, false, .lin 262144 0 0, .parts [(4096, 2147418112)], 1, false⟩,
  ⟨0x280006, 1, 0x100, 1, (.q 4 false), .rw, true, false, false, .lin 32768 0 0, .parts [(0, 16711680)], 1, false⟩,
  ⟨0x280007, 1, 0x100, 1, .u16, .rw, true, false, false, .lin 32 0 0, .parts [(1, 65535)], 1, false⟩,
  ⟨0x280008, 1, 0x100, 1, .u8, .rw, true, false, false, .lin 20 0 0, .parts [(1, 20)], 1, false⟩,
  ⟨0x280009, 1, 0x100, 1, .u8, .rw, true, false, false, .lin 10 0 0, .parts [(1, 10)], 1, false⟩,
  ⟨0x28000A, 1, 0x100, 1, .u8, .rw, true, false, false, .lin 20 0 0, .parts [(0, 200)], 1, false⟩,
  ⟨0x28000B, 1, 0x100, 1, .u16, .rw, true, false, false, .lin 11469 0 0, .parts [(8192, 16384)], 1, false⟩,
  ⟨0x28000C, 1, 0x100, 1, .u16, .rw, true, false, false, .lin 21299 0 0, .parts [(16384, 32768)], 1, false⟩,
  ⟨0x28000D, 1, 0x100, 1, (.q 4 false), .rw, true, false, false, .lin 13421773 0 0, .parts [(8388608, 16777216)], 1, false⟩,
  ⟨0x28000E, 1, 0x100, 1, (.q 4 false), .rw, true, false, false, .lin 20971520 0 0, .parts [(16777216, 33554432)], 1, false⟩,
  ⟨0x28000F, 1, 0x100, 1, .u16, .rw, true, false, false, .lin 12288 0 0, .parts [(4096, 16384)], 1, false⟩,
  ⟨0x280010, 1, 0x100, 1, .u16, .rw, true, false, false, .lin 4915 0 0, .parts [(4096, 16383)], 1, false⟩,
  ⟨0x280011, 1, 0x100, 1, .u16, .rw, true, false, false, .lin 819 0 0, .parts [(0, 4096)], 1, false⟩,
  ⟨0x280012, 1, 0x100, 1, .u8, .rw, true, false, false, .lin 2 0 0, .parts [(1, 15)], 1, false⟩,
  ⟨0x280013, 1, 0x100, 1, .u16, .rw, true, false, false, .lin 13926 0 0, .parts [(4096, 16384)], 1, false⟩,
  ⟨0x280014, 1, 0x100, 1, .u16, .rw, true, false, false, .lin 24576 0 0, .parts [(16384, 32768)], 1, false⟩,
  ⟨0x280015, 1, 0x100, 1, .u8, .wo, false, false, false, .lin 0 0 0, .parts [(1, 255)], 1, true⟩,
  ⟨0x280016, 1, 0x100, 1, .u8, .wo, false, false, false, .lin 0 0 0, .parts [(1, 1)], 1, true⟩,
  ⟨0x280017, 1, 0x100, 1, .u16, .rw, true, false, false, .lin 1 0 0, .parts [(0, 8760)], 1, false⟩,
  ⟨0x280018, 1, 0x100, 1, .u8, .wo, false, false, false, .lin 0 0 0, .parts [(1, 255)], 1, true⟩,
  ⟨0x280019, 1, 0x100, 1, .bits32, .rw, false, false, false, .lin 0 0 0, .bits 0x0007FFFF [⟨0, 16, 49152, 65535, 0⟩], 1, false⟩,
  ⟨0x28001A, 1, 0x100, 1, .u64, .ro, false, false, false, .lin 0 0 0, .full, 1, false⟩,
  ⟨0x28001B, 1, 0x100, 1, .u64, .ro, false, false, false, .lin 0 0 0, .full, 1, false⟩,
  ⟨0x28001C, 1, 0x100, 1, .u16, .ro, false, false, false, .lin 0 0 0, .full, 1, false⟩,
  ⟨0x28001D, 1, 0x100, 1, .u32, .ro, false, false, false, .lin 0 0 0, .full, 1, false⟩,
  ⟨0x280201, 1, 0x100, 1, .u32, .ro, false, false, false, .lin 0 0 0, .full, 1, false⟩,
  ⟨0x280202, 1, 0x100, 1, .u32, .ro, false, false, false, .lin 0 0 0, .full, 1, false⟩,
  ⟨0x280203, 1, 0x100, 1, .u32, .ro, false, false, false, .lin 0 0 0, .full, 1, false⟩,
  ⟨0x280204, 1, 0x100, 1, .u8, .ro, false, false, false, .lin 0 0 0, .full, 1, false⟩,
  ⟨0x280205, 1, 0x100, 1, .u16, .ro, false, false, false, .lin 0 0 0, .full, 1, false⟩,
  ⟨0x280206, 1, 0x100, 1, .u16, .ro, false, false, false, .lin 0 0 0, .full, 1, false⟩]

/-- Objects at index 0x281x. -/
def objPage281 : List ObjDesc := [
  ⟨0x281001, 8, 0x100, 7, .u8, .rw, true, false, false, .lin 16 0 16, .parts [(0, 127)], 1, false⟩,
  ⟨0x281008, 8, 0x100, 1, .u16, .rw, true, false, false, .lin 16384 0 0, .parts [(4096, 32768)], 1, false⟩,
  ⟨0x281009, 8, 0x100, 1, .u16, .ro, false, false, false, .lin 16384 0 0, .full, 1, false⟩,
  ⟨0x28100A, 8, 0x100, 1, (.q 4 false), .ro, false, false, false, .lin 16777216 0 0, .full, 1, false⟩,
  ⟨0x28100B, 8, 0x100, 1, .u8, .ro, false, false, false, .lin 0 0 0, .full, 1, false⟩,
  ⟨0x28100C, 8, 0x100, 1, .u32, .ro, false, false, false, .lin 0 0 0, .full, 1, false⟩,
  ⟨0x28100D, 8, 0x100, 1, .u32, .ro, false, false, false, .lin 0 0 0, .full, 1, false⟩,
  ⟨0x28100E, 8, 0x100, 1, .u32, .ro, false, false, false, .lin 0 0 0, .full, 1, false⟩,
  ⟨0x28100F, 8, 0x100, 1, .u32, .ro, false, false, false, .lin 0 0 0, .full, 1, false⟩]

/-- Objects at index 0x290x. -/
def objPage290 : List ObjDesc := [
  ⟨0x290001, 1, 0x100, 1, .bits32, .rw, true, false, false, .lin 65 0 0, .bits 0x0000007F [⟨4, 2, 3, 3, 0⟩, ⟨0, 2, 3, 3, 1⟩], 1, false⟩,
  ⟨0x290002, 1, 0x100, 1, .u8, .rw, true, false, false, .lin 0 0 0, .parts [(0, 8)], 1, false⟩,
  ⟨0x290003, 1, 0x100, 1, .u8, .rw, true, false, false, .lin 0 0 0, .parts [(0, 127)], 1, false⟩,
  ⟨0x290004, 1, 0x100, 1, .u8, .rw, true, false, false, .lin 128 0 0, .parts [(0, 255)], 1, false⟩,
  ⟨0x290005, 1, 0x100, 1, .u8, .rw, true, false, false, .lin 128 0 0, .parts [(0, 255)], 1, false⟩,
  ⟨0x290006, 1, 0x100, 1, .i16, .rw, true, false, false, .lin 0 0 0, .parts [((-4), 1)], 1, false⟩,
  ⟨0x290007, 1, 0x100, 1, .i16, .rw, true, false, false, .lin 1 0 0, .parts [(0, 4)], 1, false⟩,
  ⟨0x290008, 1, 0x100, 1, .u8, .rw, true, false, false, .lin 3 0 0, .parts [(2, 10)], 1, false⟩,
  ⟨0x290009, 1, 0x100, 1, .i16, .rw, true, false, false, .lin 0 0 0, .parts [((-4), 5)], 1, false⟩,
  ⟨0x29000A, 1, 0x100, 1, .u8, .rw, true, false, false, .lin 4 0 0, .parts [(0, 8)], 1, false⟩,
  ⟨0x29000B, 1, 0x100, 1, .i32, .rw, true, false, false, .lin 0 0 0, .parts [((-1000000), 1000000)], 1, false⟩,
  ⟨0x29000C, 1, 0x100, 1, .i32, .rw, true, false, false, .special, .parts [((-1000000), 1000000)], 1, false⟩,
  ⟨0x29000D, 1, 0x100, 1, .i32, .rw, true, false, false, .special, .parts [((-1000000), 1000000)], 1, false⟩,
  ⟨0x29000E, 1, 0x100, 1, .u16, .rw, true, false, false, .lin 32768 0 0, .parts [(0, 65535)], 1, false⟩,
  ⟨0x29000F, 1, 0x100, 1, .u16, .rw, true, false, false, .lin 3277 0 0, .parts [(0, 65535)], 1, false⟩,
  ⟨0x290010, 1, 0x100, 1, .u16, .rw, true, false, false, .lin 100 0 0, .parts [(1, 500)], 1, false⟩,
  ⟨0x290011, 1, 0x100, 1, .u32, .rw, true, false, false, .lin 1000000 0 0, .parts [(1000, 1000000000)], 1, false⟩,
  ⟨0x290012, 1, 0x100, 1, .u32, .rw, true, false, false, .lin 10000 0 0, .parts [(100, 500000)], 1, false⟩,
  ⟨0x290013, 1, 0x100, 1, .u32, .rw, true, false, false, .lin 1000 0 0, .parts [(10, 1000000)], 1, false⟩,
  ⟨0x290014, 1, 0x100, 1, .u16, .rw, true, false, false, .lin 64 0 0, .parts [(8, 3600)], 1, false⟩,
  ⟨0x290015, 1, 0x100, 1, .u8, .rw, true, false, false, .lin 1 0 0, .parts [(1, 2)], 1, false⟩,
  ⟨0x290016, 1, 0x100, 1, .u32, .rw, false, false, false, .lin 858993459 0 0, .parts [(858134466, 859852452)], 1, false⟩,
  ⟨0x290017, 1, 0x100, 1, .i64, .wo, false, false, false, .lin 0 0 0, .full, 1, false⟩,
  ⟨0x290101, 1, 0x100, 1, .enum8, .ro, false, false, false, .lin 1 0 0, .full, 1, false⟩,
  ⟨0x290102, 1, 0x100, 1, .enum8, .ro, false, false, false, .lin 0 0 0, .full, 1, false⟩,
  ⟨0x290103, 1, 0x100, 1, .i64, .ro, false, false, false, .lin 0 0 0, .full, 1, false⟩,
  ⟨0x290104, 1, 0x100, 1, .u32, .ro, false, false, false, .lin 0 0 0, .full, 1, false⟩,
  ⟨0x290105, 1, 0x100, 1, .i32, .ro, false, false, false, .lin 0 0 0, .full, 1, false⟩,
  ⟨0x290106, 1, 0x100, 1, .i32, .ro, false, false, false, .lin 0 0 0, .full, 1, false⟩,
  ⟨0x290107, 1, 0x100, 1, .i32, .ro, false, false, false, .lin 0 0 0, .full, 1, false⟩,
  ⟨0x290108, 1, 0x100, 1, .u32, .ro, false, false, false, .lin 858993459 0 0, .full, 1, false⟩,
  ⟨0x290109, 1, 0x100, 1, .i64, .ro, false, false, false, .lin 0 0 0, .full, 1, false⟩,
  ⟨0x29010A, 1, 0x100, 1, .i64, .ro, false, false, false, .lin 0 0 0, .full, 1, false⟩,
  ⟨0x29010B, 1, 0x100, 1, .u32, .ro, false, false, false, .lin 0 0 0, .full, 1, false⟩,
  ⟨0x29010C, 1, 0x100, 1, .u64, .ro, false, false, false, .special, .full, 1, false⟩,
  ⟨0x29010D, 1, 0x100, 1, .u64, .ro, false, false, false, .lin 0 0 0, .full, 1, false⟩,
  ⟨0x29010E, 1, 0x100, 1, .u32, .ro, false, false, false, .lin 0 0 0, .full, 1, false⟩,
  ⟨0x29010F, 1, 0x100, 1, .u32, .ro, false, false, false, .lin 0 0 0, .full, 1, false⟩,
  ⟨0x290110, 1, 0x100, 1, .u64, .ro, false, false, false, .lin 0 0 0, .full, 1, false⟩,
  ⟨0x290111, 1, 0x100, 1, .u32, .ro, false, false, false, .lin 0 0 0, .full, 1, false⟩,
  ⟨0x290112, 1, 0x100, 1, .u32, .ro, false, false, false, .lin 0 0 0, .full, 1, false⟩,
  ⟨0x290113, 1, 0x100, 1, .u64, .ro, false, false, false, .lin 0 0 0, .full, 1, false⟩,
  ⟨0x290114, 1, 0x100, 1, .u32, .ro, false, false, false, .lin 0 0 0, .full, 1, false⟩,
  ⟨0x290115, 1, 0x100, 1, .u32, .ro, false, false, false, .lin 0 0 0, .full, 1, false⟩,
  ⟨0x290116, 1, 0x100, 1, .u64, .ro, false, false, false, .lin 0 0 0, .full, 1, false⟩,
  ⟨0x290117, 1, 0x100, 1, (.q 8 true), .ro, false, false, false, .lin 0 0 0, .full, 1, false⟩,
  ⟨0x290118, 1, 0x100, 1, .i32, .ro, false, false, false, .lin 0 0 0, .full, 1, false⟩,
  ⟨0x290201, 1, 0x100, 1, .u8, .rw, true, false, false, .lin 0 0 0, .parts [(0, 25)], 1, false⟩,
  ⟨0x290202, 1, 0x100, 1, .i16, .rw, true, false, false, .lin 400 0 0, .parts [((-640), 2000)], 1, false⟩,
  ⟨0x290203, 1, 0x100, 1, .i32, .rw, true, false, false, .lin 0 0 0, .full, 1, false⟩,
  ⟨0x290204, 1, 0x100, 1, .i32, .rw, true, false, false, .lin 0 0 0, .full, 1, false⟩,
  ⟨0x290205, 1, 0x100, 1, .i32, .rw, true, false, false, .lin 0 0 0, .full, 1, false⟩,
  ⟨0x290206, 1, 0x100, 1, .i16, .ro, false, false, false, .lin 0 0 0, .full, 1, false⟩,
  ⟨0x290207, 1, 0x100, 1, .i32, .ro, false, false, false, .lin 0 0 0, .full, 1, false⟩]

/-- Objects at index 0x2A0x. -/
def objPage2A0 : List ObjDesc := [
  ⟨0x2A0001, 1, 0x100, 1, .bits32, .ro, false, false, false, .lin 33543 0 0, .full, 1, false⟩,
  ⟨0x2A0002, 1, 0x100, 1, .bits32, .ro, false, false, false, .lin 0 0 0, .full, 1, false⟩,
  ⟨0x2A0003, 1, 0x100, 1, .bits32, .ro, false, false, false, .lin 1024 0 0, .full, 1, false⟩,
  ⟨0x2A0004, 1, 0x100, 1, .enum8, .ro, false, false, false, .lin 0 0 0, .full, 1, false⟩,
  ⟨0x2A0005, 1, 0x100, 1, .i16, .ro, false, false, false, .lin 0 0 0, .full, 1, false⟩,
  ⟨0x2A0006, 1, 0x100, 1, .u8, .ro, false, false, false, .lin 0 0 0, .full, 1, false⟩,
  ⟨0x2A0007, 1, 0x100, 1, .u16, .ro, false, false, false, .lin 0 0 0, .full, 1, false⟩,
  ⟨0x2A0008, 1, 0x100, 1, .enum8, .ro, false, false, false, .lin 0 0 0, .full, 1, false⟩,
  ⟨0x2A0009, 1, 0x100, 1, (.q 8 true), .ro, false, false, false, .lin 0 0 0, .full, 1, false⟩,
  ⟨0x2A000A, 1, 0x100, 1, .u32, .ro, false, false, false, .lin 0 0 0, .full, 1, false⟩,
  ⟨0x2A000B, 1, 0x100, 1, .u32, .ro, false, false, false, .lin 0 0 0, .full, 1, false⟩,
  ⟨0x2A0F01, 1, 0x100, 1, .u8, .wo, false, false, true, .lin 0 0 0, .parts [(1, 2)], 1, true⟩]

/-- Objects at index 0x2A1x. -/
def objPage2A1 : List ObjDesc := [
  ⟨0x2A1001, 1, 0x100, 1, .bits32, .rw, true, false, false, .lin 0 0 0, .bits 0x00000003 [], 1, false⟩,
  ⟨0x2A1002, 1, 0x100, 1, .u16, .rw, true, false, false, .lin 100 0 0, .parts [(20, 1000)], 1, false⟩,
  ⟨0x2A1003, 1, 0x100, 1, .u8, .rw, true, false, false, .lin 3 0 0, .parts [(1, 16)], 1, false⟩,
  ⟨0x2A1004, 1, 0x100, 1, .u16, .rw, true, false, false, .lin 800 0 0, .parts [(200, 800)], 1, false⟩,
  ⟨0x2A1005, 1, 0x100, 1, .u8, .rw, true, false, false, .lin 2 0 0, .parts [(1, 16)], 1, false⟩,
  ⟨0x2A1006, 1, 0x100, 1, .u16, .rw, true, false, false, .lin 10 0 0, .parts [(0, 1440)], 1, false⟩,
  ⟨0x2A1007, 1, 0x100, 1, .u16, .rw, true, false, false, .lin 10 0 0, .parts [(1, 1000)], 1, false⟩,
  ⟨0x2A1008, 1, 0x100, 1, .u8, .rw, true, false, false, .lin 16 0 0, .parts [(1, 255)], 1, false⟩,
  ⟨0x2A1009, 1, 0x100, 1, .u8, .rw, false, false, true, .lin 0 0 0, .full, 1, false⟩,
  ⟨0x2A100A, 1, 0x100, 1, .bool, .rw, false, false, false, .lin 0 0 0, .parts [(0, 0), (1, 1)], 1, false⟩]

/-- Objects at index 0x2A2x. -/
def objPage2A2 : List ObjDesc := [
  ⟨0x2A2001, 1, 0x100, 1, .u32, .ro, false, false, false, .lin 0 0 0, .full, 1, false⟩,
  ⟨0x2A2002, 1, 0x100, 1, .u32, .ro, false, false, false, .lin 0 0 0, .full, 1, false⟩,
  ⟨0x2A2003, 1, 0x100, 1, .u32, .ro, false, false, false, .lin 0 0 0, .full, 1, false⟩,
  ⟨0x2A2004, 1, 0x100, 1, .u32, .ro, false, false, false, .lin 0 0 0, .full, 1, false⟩,
  ⟨0x2A2005, 1, 0x100, 1, .u32, .ro, false, false, false, .lin 0 0 0, .full, 1, false⟩,
  ⟨0x2A2006, 1, 0x100, 1, .u16, .ro, false, false, false, .lin 0 0 0, .full, 1, false⟩,
  ⟨0x2A2101, 1, 0x100, 9, .u32, .ro, false, false, false, .lin 0 0 0, .full, 1, false⟩]

/-- Objects at index 0x2A3x. -/
def objPage2A3 : List ObjDesc := [
  ⟨0x2A3001, 8, 0x100, 1, .u32, .ro, false, false, false, .lin 0 0 0, .full, 1, false⟩,
  ⟨0x2A3002, 8, 0x100, 1, .u8, .ro, false, false, false, .lin 0 0 0, .full, 1, false⟩]

/-- Objects at index 0x2B0x. -/
def objPage2B0 : List ObjDesc := [
  ⟨0x2B0001, 1, 0x100, 1, .bits32, .rw, true, false, false, .lin 7 0 0, .bits 0x00000007 [], 1, false⟩,
  ⟨0x2B0002, 1, 0x100, 1, .bits32, .ro, false, false, false, .lin 0 0 0, .full, 1, false⟩,
  ⟨0x2B0003, 1, 0x100, 1, .u16, .rw, true, false, false, .lin 900 0 0, .parts [(300, 900)], 1, false⟩,
  ⟨0x2B0004, 1, 0x100, 1, .u16, .ro, false, false, false, .lin 900 0 0, .full, 1, false⟩,
  ⟨0x2B0005, 1, 0x100, 1, .u16, .ro, false, false, false, .lin 0 0 0, .full, 1, false⟩,
  ⟨0x2B0006, 1, 0x100, 1, .enum8, .ro, false, false, false, .lin 0 0 0, .full, 1, false⟩,
  ⟨0x2B0007, 1, 0x100, 1, .u8, .rw, true, false, false, .lin 6 0 0, .parts [(1, 30)], 1, false⟩,
  ⟨0x2B0008, 1, 0x100, 1, .u8, .rw, true, false, false, .lin 2 0 0, .parts [(1, 60)], 1, false⟩,
  ⟨0x2B0009, 1, 0x100, 1, .u16, .rw, true, false, false, .lin 30 0 0, .parts [(5, 3600)], 1, false⟩,
  ⟨0x2B000A, 1, 0x100, 1, .u16, .rw, true, false, false, .lin 80 0 0, .parts [(16, 320)], 1, false⟩,
  ⟨0x2B000B, 1, 0x100, 1, .u16, .rw, true, false, false, .lin 160 0 0, .parts [(0, 640)], 1, false⟩,
  ⟨0x2B000C, 1, 0x100, 1, .u8, .rw, true, false, false, .lin 2 0 0, .parts [(0, 10)], 1, false⟩,
  ⟨0x2B000D, 1, 0x100, 1, .u16, .rw, true, false, false, .lin 2000 0 0, .parts [(0, 4000)], 1, false⟩,
  ⟨0x2B000E, 1, 0x100, 1, .u8, .rw, true, false, false, .lin 3 0 0, .parts [(1, 20)], 1, false⟩,
  ⟨0x2B000F, 1, 0x100, 1, .u32, .rw, true, false, false, .lin 16000 0 0, .parts [(8000, 80000)], 1, false⟩,
  ⟨0x2B0010, 1, 0x100, 1, .u8, .rw, true, false, false, .lin 5 0 0, .parts [(1, 60)], 1, false⟩,
  ⟨0x2B0011, 1, 0x100, 1, .u8, .wo, false, false, true, .lin 0 0 0, .parts [(1, 1)], 1, true⟩,
  ⟨0x2B0012, 1, 0x100, 1, .bool, .rw, true, false, true, .lin 0 0 0, .parts [(0, 0), (1, 1)], 1, false⟩,
  ⟨0x2B0013, 1, 0x100, 1, .bits32, .ro, false, false, false, .lin 0 0 0, .full, 1, false⟩,
  ⟨0x2B0014, 1, 0x100, 1, .u32, .ro, true, false, false, .lin 0 0 0, .full, 1, false⟩]

/-- Objects at index 0x2B1x. -/
def objPage2B1 : List ObjDesc := [
  ⟨0x2B1001, 1, 0x100, 26, .i16, .ro, false, false, false, .lin 0 0 0, .full, 1, false⟩,
  ⟨0x2B1101, 1, 0x100, 26, .i16, .rw, true, false, false, .special, .special, 1, false⟩,
  ⟨0x2B1201, 1, 0x100, 26, .i16, .rw, true, false, false, .special, .special, 1, false⟩,
  ⟨0x2B1301, 1, 0x100, 26, .i16, .ro, false, false, false, .special, .full, 1, false⟩,
  ⟨0x2B1401, 1, 0x100, 26, .u16, .rw, true, false, false, .special, .parts [(8, 160)], 1, false⟩,
  ⟨0x2B1501, 1, 0x100, 26, .i16, .ro, true, false, false, .lin 0 0 0, .full, 1, false⟩]

/-- Objects at index 0x2B2x. -/
def objPage2B2 : List ObjDesc := [
  ⟨0x2B2001, 1, 0x100, 14, .u16, .ro, false, false, false, .lin 0 0 0, .full, 1, false⟩,
  ⟨0x2B2101, 1, 0x100, 1, .bits32, .ro, false, false, false, .lin 0 0 0, .full, 1, false⟩,
  ⟨0x2B2102, 1, 0x100, 1, .u16, .rw, true, false, false, .lin 6300 0 0, .parts [(6000, 38000)], 1, false⟩,
  ⟨0x2B2103, 1, 0x100, 1, .u16, .rw, true, false, false, .lin 40500 0 0, .parts [(6500, 41500)], 1, false⟩,
  ⟨0x2B2104, 1, 0x100, 1, .u32, .ro, false, false, false, .lin 0 0 0, .full, 1, false⟩]

/-- Objects at index 0x2B3x. -/
def objPage2B3 : List ObjDesc := [
  ⟨0x2B3001, 1, 0x100, 1, .u16, .ro, false, false, false, .lin 800 0 0, .full, 1, false⟩,
  ⟨0x2B3002, 1, 0x100, 1, .u8, .rw, true, false, false, .lin 20 0 0, .parts [(10, 100)], 1, false⟩,
  ⟨0x2B3003, 1, 0x100, 1, .u32, .ro, false, false, false, .lin 0 0 0, .full, 1, false⟩,
  ⟨0x2B3101, 1, 0x100, 16, .i16, .ro, false, false, false, .lin 0 0 0, .full, 1, false⟩,
  ⟨0x2B3801, 1, 0x100, 1, .i32, .ro, false, false, false, .lin 0 0 0, .full, 1, false⟩]

/-- Objects at index 0x2B4x. -/
def objPage2B4 : List ObjDesc := [
  ⟨0x2B4001, 1, 0x100, 1, .u16, .rw, true, false, false, .lin 6500 0 0, .parts [(6500, 38000)], 1, false⟩,
  ⟨0x2B4002, 1, 0x100, 1, .u16, .ro, false, false, false, .lin 6500 0 0, .full, 1, false⟩,
  ⟨0x2B4003, 1, 0x100, 1, .u32, .ro, false, false, false, .lin 0 0 0, .full, 1, false⟩,
  ⟨0x2B4004, 1, 0x100, 1, .u8, .ro, false, false, false, .lin 0 0 0, .full, 1, false⟩,
  ⟨0x2B4101, 1, 0x100, 1, .u32, .ro, true, false, false, .lin 0 0 0, .full, 1, false⟩,
  ⟨0x2B4102, 1, 0x100, 1, .u64, .ro, true, false, false, .lin 0 0 0, .full, 1, false⟩,
  ⟨0x2B4103, 1, 0x100, 1, .u32, .ro, true, false, false, .lin 0 0 0, .full, 1, false⟩,
  ⟨0x2B4104, 1, 0x100, 1, .u32, .ro, true, false, false, .lin 0 0 0, .full, 1, false⟩]

/-- Objects at index 0x2C0x. -/
def objPage2C0 : List ObjDesc := [
  ⟨0x2C0001, 1, 0x100, 1, .u32, .ro, false, false, false, .lin 0 0 0, .full, 1, false⟩,
  ⟨0x2C0002, 1, 0x100, 1, .u32, .ro, false, false, false, .lin 0 0 0, .full, 1, false⟩,
  ⟨0x2C0003, 1, 0x100, 1, .u32, .ro, false, false, false, .lin 0 0 0, .full, 1, false⟩,
  ⟨0x2C0004, 1, 0x100, 1, .u32, .ro, false, false, false, .lin 0 0 0, .full, 1, false⟩,
  ⟨0x2C0005, 1, 0x100, 1, .u8, .wo, false, false, true, .lin 0 0 0, .parts [(1, 1)], 1, true⟩,
  ⟨0x2C0006, 1, 0x100, 1, .u8, .rw, false, false, false, .lin 0 0 0, .full, 1, false⟩,
  ⟨0x2C0007, 1, 0x100, 1, .bits32, .rw, true, false, false, .special, .special, 1, false⟩,
  ⟨0x2C0008, 1, 0x100, 1, .u32, .rw, false, false, false, .lin 0 0 0, .parts [(0, 144895)], 1, false⟩,
  ⟨0x2C0101, 1, 0x100, 4, .bits32, .rw, true, false, false, .lin 655360 0 0, .bits 0xFFFF0007 [⟨16, 16, 0, 0, 10⟩, ⟨0, 2, 3, 3, 0⟩], 1, false⟩]

/-- Objects at index 0x2C4x. -/
def objPage2C4 : List ObjDesc := [
  ⟨0x2C4001, 1, 0x100, 1, .u32, .ro, false, false, false, .lin 0 0 0, .full, 1, false⟩,
  ⟨0x2C4002, 1, 0x100, 1, .u32, .ro, false, false, false, .lin 0 0 0, .full, 1, false⟩,
  ⟨0x2C4003, 1, 0x100, 1, .u64, .ro, false, false, false, .lin 0 0 0, .full, 1, false⟩,
  ⟨0x2C4004, 1, 0x100, 1, .u64, .ro, false, false, false, .lin 0 0 0, .full, 1, false⟩,
  ⟨0x2C4005, 1, 0x100, 1, .u8, .ro, false, false, false, .lin 0 0 0, .full, 1, false⟩,
  ⟨0x2C4006, 1, 0x100, 1, .u32, .ro, false, false, false, .lin 0 0 0, .full, 1, false⟩,
  ⟨0x2C4007, 1, 0x100, 1, (.q 8 true), .ro, false, false, false, .lin 0 0 0, .full, 1, false⟩]

/-- Objects at index 0x2D0x. -/
def objPage2D0 : List ObjDesc := [
  ⟨0x2D0001, 1, 0x100, 1, .bits32, .rw, true, false, true, .lin 0 0 0, .bits 0x00000001 [], 1, false⟩,
  ⟨0x2D0002, 1, 0x100, 1, .bits32, .ro, false, false, false, .lin 0 0 0, .full, 1, false⟩,
  ⟨0x2D0003, 1, 0x100, 4, .u32, .ro, false, false, false, .lin 0 0 0, .full, 1, false⟩,
  ⟨0x2D0007, 1, 0x100, 1, .u32, .ro, false, false, false, .lin 0 0 0, .full, 1, false⟩,
  ⟨0x2D0008, 1, 0x100, 1, .u8, .ro, false, false, false, .lin 0 0 0, .full, 1, false⟩,
  ⟨0x2D0009, 1, 0x100, 1, .u8, .wo, false, false, true, .lin 0 0 0, .parts [(0, 3)], 1, true⟩,
  ⟨0x2D000A, 1, 0x100, 1, .bits32, .ro, false, false, false, .lin 0 0 0, .full, 1, false⟩]

/-- Objects at index 0x2E0x. -/
def objPage2E0 : List ObjDesc := [
  ⟨0x2E0001, 3, 0x100, 1, .bits32, .rw, true, false, false, .lin 33 0 0, .special, 1, false⟩,
  ⟨0x2E0002, 3, 0x100, 1, .enum8, .ro, false, false, false, .lin 0 0 0, .full, 1, false⟩,
  ⟨0x2E0003, 3, 0x100, 1, .u64, .ro, false, false, false, .lin 0 0 0, .full, 1, false⟩,
  ⟨0x2E0004, 3, 0x100, 1, .u32, .ro, false, false, false, .lin 0 0 0, .full, 1, false⟩]

/-- Objects at index 0x2E1x. -/
def objPage2E1 : List ObjDesc := [
  ⟨0x2E1001, 9, 0x100, 1, .bits32, .rw, true, false, false, .lin 31 0 0, .bits 0x0000003F [], 1, false⟩,
  ⟨0x2E1002, 9, 0x100, 1, .u32, .rw, true, false, false, .lin 3232235522 1 0, .full, 1, false⟩,
  ⟨0x2E1003, 9, 0x100, 1, .u8, .rw, true, false, false, .lin 24 0 0, .parts [(1, 32)], 1, false⟩,
  ⟨0x2E1004, 9, 0x100, 1, .u32, .rw, true, false, false, .lin 0 0 0, .full, 1, false⟩,
  ⟨0x2E1005, 9, 0x100, 1, .u16, .rw, true, false, false, .lin 0 0 0, .parts [(0, 4094)], 1, false⟩,
  ⟨0x2E1006, 9, 0x100, 1, .u8, .rw, true, false, false, .lin 5 0 0, .parts [(0, 7)], 1, false⟩,
  ⟨0x2E1007, 9, 0x100, 1, .u64, .ro, false, false, false, .special, .full, 1, false⟩,
  ⟨0x2E1008, 9, 0x100, 1, .u64, .rw, true, false, false, .lin 0 0 0, .full, 1, false⟩,
  ⟨0x2E1009, 9, 0x100, 1, .u64, .rw, true, false, false, .lin 0 0 0, .full, 1, false⟩,
  ⟨0x2E100A, 9, 0x100, 1, .u32, .ro, false, false, false, .lin 0 0 0, .full, 1, false⟩]

/-- Objects at index 0x2E2x. -/
def objPage2E2 : List ObjDesc := [
  ⟨0x2E2001, 1, 0x100, 1, .bits32, .rw, true, false, false, .lin 9 0 0, .bits 0x000000F9 [⟨5, 2, 3, 3, 0⟩], 1, false⟩,
  ⟨0x2E2002, 1, 0x100, 1, .u8, .rw, true, false, false, .lin 32 0 0, .parts [(1, 127)], 1, false⟩,
  ⟨0x2E2003, 1, 0x100, 1, .u8, .rw, true, false, false, .lin 80 0 0, .parts [(50, 90)], 1, false⟩,
  ⟨0x2E2004, 1, 0x100, 1, .u8, .rw, true, false, false, .lin 75 0 0, .parts [(50, 90)], 1, false⟩,
  ⟨0x2E2005, 1, 0x100, 1, .u8, .rw, true, false, false, .lin 0 0 0, .parts [(0, 15)], 1, false⟩,
  ⟨0x2E2006, 1, 0x100, 1, .enum8, .ro, false, false, false, .lin 0 0 0, .full, 1, false⟩,
  ⟨0x2E2007, 1, 0x100, 1, .u32, .ro, false, false, false, .lin 0 0 0, .full, 1, false⟩,
  ⟨0x2E2008, 1, 0x100, 1, .u32, .ro, false, false, false, .lin 0 0 0, .full, 1, false⟩]

/-- Objects at index 0x2E3x. -/
def objPage2E3 : List ObjDesc := [
  ⟨0x2E3001, 1, 0x100, 1, .str, .rw, true, false, false, .lin 0 0 0, .full, 1, false⟩,
  ⟨0x2E3002, 1, 0x100, 1, .u16, .rw, true, false, false, .lin 1000 0 0, .parts [(100, 10000)], 1, false⟩,
  ⟨0x2E3003, 1, 0x100, 1, .u16, .rw, true, false, false, .lin 3500 0 0, .parts [(300, 60000)], 1, false⟩,
  ⟨0x2E3004, 1, 0x100, 1, .u16, .rw, true, false, false, .lin 1024 0 0, .parts [(16, 4096)], 1, false⟩,
  ⟨0x2E3005, 1, 0x100, 1, .u16, .rw, true, false, false, .lin 2000 0 0, .parts [(100, 60000)], 1, false⟩,
  ⟨0x2E3006, 1, 0x100, 1, .u32, .ro, false, false, false, .lin 0 0 0, .full, 1, false⟩,
  ⟨0x2E3007, 1, 0x100, 1, .u32, .ro, false, false, false, .lin 0 0 0, .full, 1, false⟩,
  ⟨0x2E3008, 1, 0x100, 1, .u32, .ro, false, false, false, .lin 0 0 0, .full, 1, false⟩,
  ⟨0x2E3009, 1, 0x100, 1, .u32, .ro, false, false, false, .lin 0 0 0, .full, 1, false⟩,
  ⟨0x2E300A, 1, 0x100, 1, .u32, .ro, false, false, false, .lin 0 0 0, .full, 1, false⟩]

/-- Objects at index 0x2E4x. -/
def objPage2E4 : List ObjDesc := [
  ⟨0x2E4001, 64, 0x100, 1, .bits32, .rw, true, false, false, .lin 0 0 0, .special, 1, false⟩,
  ⟨0x2E4002, 64, 0x100, 1, .u32, .rw, true, false, false, .lin 0 0 0, .full, 1, false⟩,
  ⟨0x2E4003, 64, 0x100, 1, .u32, .rw, true, false, false, .lin 0 0 0, .full, 1, false⟩,
  ⟨0x2E4004, 64, 0x100, 1, .u64, .rw, true, false, false, .lin 0 0 0, .full, 1, false⟩,
  ⟨0x2E4005, 64, 0x100, 1, .u64, .rw, true, false, false, .lin 0 0 0, .full, 1, false⟩,
  ⟨0x2E4006, 64, 0x100, 1, .u16, .rw, true, false, false, .lin 48620 0 0, .parts [(1, 65535)], 1, false⟩,
  ⟨0x2E4007, 64, 0x100, 1, .u8, .rw, true, false, false, .lin 255 0 0, .parts [(0, 8), (255, 255)], 1, false⟩]

/-- Objects at index 0x322x. -/
def objPage322 : List ObjDesc := [
  ⟨0x322000, 1, 0x100, 1, .dom, .rw, true, false, false, .lin 0 0 0, .full, 1, false⟩]

/-- Objects at index 0x331x. -/
def objPage331 : List ObjDesc := [
  ⟨0x331000, 10, 0x100, 1, .dom, .rw, true, true, false, .lin 0 0 0, .full, 1, false⟩]

/-- Objects at index 0x334x. -/
def objPage334 : List ObjDesc := [
  ⟨0x334000, 1, 0x100, 1, .dom, .rw, true, true, false, .special, .full, 1, false⟩]

/-- Objects at index 0x340x. -/
def objPage340 : List ObjDesc := [
  ⟨0x340000, 1, 0x100, 1, .dom, .ro, false, false, false, .lin 0 0 0, .full, 1, false⟩]

/-- Objects at index 0x341x. -/
def objPage341 : List ObjDesc := [
  ⟨0x341000, 1, 0x100, 1, .dom, .ro, false, false, false, .lin 0 0 0, .full, 1, false⟩]

/-- Objects at index 0x350x. -/
def objPage350 : List ObjDesc := [
  ⟨0x350000, 8, 0x100, 1, .dom, .rw, true, true, false, .lin 0 0 0, .full, 1, false⟩]

/-- Objects at index 0x351x. -/
def objPage351 : List ObjDesc := [
  ⟨0x351000, 8, 0x100, 1, .dom, .rw, true, true, false, .lin 0 0 0, .full, 1, false⟩]

/-- Objects at index 0x352x. -/
def objPage352 : List ObjDesc := [
  ⟨0x352000, 8, 0x100, 1, .dom, .rw, true, true, false, .lin 0 0 0, .full, 1, false⟩]

/-- Objects at index 0x353x. -/
def objPage353 : List ObjDesc := [
  ⟨0x353000, 8, 0x100, 1, .dom, .rw, true, true, false, .lin 0 0 0, .full, 1, false⟩]

/-- Objects at index 0x354x. -/
def objPage354 : List ObjDesc := [
  ⟨0x354000, 8, 0x100, 1, .dom, .rw, true, true, false, .lin 0 0 0, .full, 1, false⟩]

/-- Objects at index 0x355x. -/
def objPage355 : List ObjDesc := [
  ⟨0x355000, 8, 0x100, 1, .dom, .rw, true, true, false, .lin 0 0 0, .full, 1, false⟩]

/-- Objects at index 0x358x. -/
def objPage358 : List ObjDesc := [
  ⟨0x358000, 1, 0x100, 1, .dom, .rw, true, false, false, .lin 0 0 0, .full, 1, false⟩]

/-- Objects at index 0x369x. -/
def objPage369 : List ObjDesc := [
  ⟨0x369000, 16, 0x100, 1, .dom, .ro, false, false, false, .lin 0 0 0, .full, 1, false⟩]

/-- Objects at index 0x370x. -/
def objPage370 : List ObjDesc := [
  ⟨0x370000, 1, 0x100, 1, .dom, .rw, true, false, false, .lin 0 0 0, .full, 1, false⟩,
  ⟨0x370100, 1, 0x100, 1, .dom, .ro, false, false, false, .lin 0 0 0, .full, 1, false⟩]

/-- Objects at index 0x371x. -/
def objPage371 : List ObjDesc := [
  ⟨0x371000, 1, 0x100, 1, .dom, .ro, false, false, false, .lin 0 0 0, .full, 1, false⟩]

/-- Objects at index 0x374x. -/
def objPage374 : List ObjDesc := [
  ⟨0x374000, 1, 0x100, 1, .dom, .ro, false, false, false, .lin 0 0 0, .full, 1, false⟩,
  ⟨0x374100, 1, 0x100, 1, .dom, .rw, true, false, false, .lin 0 0 0, .full, 1, false⟩,
  ⟨0x374200, 1, 0x100, 1, .dom, .ro, false, false, false, .lin 0 0 0, .full, 1, false⟩]

/-- Objects at index 0x380x. -/
def objPage380 : List ObjDesc := [
  ⟨0x380000, 8, 0x100, 1, .dom, .rw, true, false, false, .lin 0 0 0, .full, 1, false⟩]

/-- Objects at index 0x381x. -/
def objPage381 : List ObjDesc := [
  ⟨0x381000, 1, 0x100, 1, .dom, .rw, true, false, false, .lin 0 0 0, .full, 1, false⟩]

/-- Objects at index 0x3A3x. -/
def objPage3A3 : List ObjDesc := [
  ⟨0x3A3000, 8, 0x100, 1, .dom, .ro, false, false, false, .lin 0 0 0, .full, 1, false⟩]

/-- Objects at index 0x3B4x. -/
def objPage3B4 : List ObjDesc := [
  ⟨0x3B4000, 1, 0x100, 1, .dom, .ro, false, false, false, .lin 0 0 0, .full, 1, false⟩]

/-- Objects at index 0x3C0x. -/
def objPage3C0 : List ObjDesc := [
  ⟨0x3C0000, 1, 0x100, 1, .dom, .ro, false, false, false, .lin 0 0 0, .full, 1, false⟩,
  ⟨0x3C0100, 1, 0x100, 1, .dom, .rw, true, false, false, .special, .full, 1, false⟩,
  ⟨0x3C0200, 1, 0x100, 1, .dom, .ro, false, false, false, .lin 0 0 0, .full, 1, false⟩,
  ⟨0x3C0300, 1, 0x100, 1, .dom, .ro, false, false, false, .lin 0 0 0, .full, 1, false⟩]

/-- Objects at index 0x3C4x. -/
def objPage3C4 : List ObjDesc := [
  ⟨0x3C4000, 1, 0x100, 1, .dom, .ro, false, false, false, .lin 0 0 0, .full, 1, false⟩]

/-- Objects at index 0x3D0x. -/
def objPage3D0 : List ObjDesc := [
  ⟨0x3D0000, 1, 0x100, 1, .dom, .wo, false, false, true, .lin 0 0 0, .full, 1, false⟩]

/-- Objects at index 0x3E0x. -/
def objPage3E0 : List ObjDesc := [
  ⟨0x3E0000, 1, 0x100, 1, .dom, .ro, false, false, false, .lin 0 0 0, .full, 1, false⟩]

/-- The page of rows whose first instance has an index that shares all but the low 4 bits with `p`. -/
def objPages : List (Nat × List ObjDesc) := [
  (0x100, objPage100),
  (0x101, objPage101),
  (0x120, objPage120),
  (0x180, objPage180),
  (0x1A0, objPage1A0),
  (0x200, objPage200),
  (0x201, objPage201),
  (0x202, objPage202),
  (0x210, objPage210),
  (0x214, objPage214),
  (0x215, objPage215),
  (0x216, objPage216),
  (0x220, objPage220),
  (0x221, objPage221),
  (0x222, objPage222),
  (0x230, objPage230),
  (0x231, objPage231),
  (0x233, objPage233),
  (0x234, objPage234),
  (0x236, objPage236),
  (0x23F, objPage23F),
  (0x240, objPage240),
  (0x241, objPage241),
  (0x242, objPage242),
  (0x250, objPage250),
  (0x258, objPage258),
  (0x259, objPage259),
  (0x260, objPage260),
  (0x268, objPage268),
  (0x269, objPage269),
  (0x26A, objPage26A),
  (0x26B, objPage26B),
  (0x26C, objPage26C),
  (0x270, objPage270),
  (0x271, objPage271),
  (0x272, objPage272),
  (0x274, objPage274),
  (0x280, objPage280),
  (0x281, objPage281),
  (0x290, objPage290),
  (0x2A0, objPage2A0),
  (0x2A1, objPage2A1),
  (0x2A2, objPage2A2),
  (0x2A3, objPage2A3),
  (0x2B0, objPage2B0),
  (0x2B1, objPage2B1),
  (0x2B2, objPage2B2),
  (0x2B3, objPage2B3),
  (0x2B4, objPage2B4),
  (0x2C0, objPage2C0),
  (0x2C4, objPage2C4),
  (0x2D0, objPage2D0),
  (0x2E0, objPage2E0),
  (0x2E1, objPage2E1),
  (0x2E2, objPage2E2),
  (0x2E3, objPage2E3),
  (0x2E4, objPage2E4),
  (0x322, objPage322),
  (0x331, objPage331),
  (0x334, objPage334),
  (0x340, objPage340),
  (0x341, objPage341),
  (0x350, objPage350),
  (0x351, objPage351),
  (0x352, objPage352),
  (0x353, objPage353),
  (0x354, objPage354),
  (0x355, objPage355),
  (0x358, objPage358),
  (0x369, objPage369),
  (0x370, objPage370),
  (0x371, objPage371),
  (0x374, objPage374),
  (0x380, objPage380),
  (0x381, objPage381),
  (0x3A3, objPage3A3),
  (0x3B4, objPage3B4),
  (0x3C0, objPage3C0),
  (0x3C4, objPage3C4),
  (0x3D0, objPage3D0),
  (0x3E0, objPage3E0)]

/-- The rows that can hold index `ix`: those of its own page, or, for the indices that further instances of a
row reach, those of the page the row stands in. -/
def objPageOf (ix : Nat) : Nat :=
  let p := ix / 16
  if p = 0x211 ∨ p = 0x212 ∨ p = 0x213 then 0x210
  else if 0x251 ≤ p ∧ p ≤ 0x257 then 0x250
  else if 0x261 ≤ p ∧ p ≤ 0x267 then 0x260
  else if 0x2E5 ≤ p ∧ p ≤ 0x2E7 then 0x2E4
  else p

/-- The rows of the page of index `ix`. -/
def objRows (ix : Nat) : List ObjDesc := ((objPages.find? fun q => q.1 == objPageOf ix).map (·.2)).getD []

end Sys2Proof.Machine
end

