-- ==== Sys2Proof/Machine/Dict.lean ====
section
/-! DEFINITION. Looking objects up: the row of an index and sub-index, the instance it names, its type's size and
range (R322), and its default (R323), with the defaults that a rule of the owning chapter states. -/

namespace Sys2Proof.Machine

/-- The instance and sub-index offset of key `k` under row `r`, when the row covers it. -/
def rowHit (r : ObjDesc) (k : Nat) : Option (Nat × Nat) :=
  if k < r.key then none
  else
    let d := k - r.key
    let n := if r.count ≤ 1 then 0 else d / r.stride
    let o := d - n * r.stride
    if (r.count ≤ 1 ∨ n < r.count) ∧ o < r.subs then some (n, o) else none

/-- The first row of a list that covers `k`. -/
def rowFind : List ObjDesc → Nat → Option (ObjDesc × Nat × Nat)
  | [], _ => none
  | r :: rs, k =>
    match rowHit r k with
    | some (n, o) => some (r, n, o)
    | none => rowFind rs k

/-- The row, instance and sub-index offset of key `k`. -/
def objRow (k : Nat) : Option (ObjDesc × Nat × Nat) := rowFind (objRows (k / 256)) k

/-- Whether any object has index `ix` (R325 step 1). -/
def indexExists (ix : Nat) : Bool :=
  (List.range 96).any fun sub => (objRow (ix * 256 + sub)).isSome

/-- The highest sub-index in use at `ix`: the value of sub-index 0 of an index with several (chapter 12). -/
def highestSub (ix : Nat) : Nat :=
  (List.range 96).foldl (fun acc sub => if (objRow (ix * 256 + sub)).isSome then sub else acc) 0

/-- Whether `k` is the sub-index 0 that holds the highest sub-index in use. -/
def isCountSub (k : Nat) : Bool := k % 256 == 0 && (objRow k).isNone && indexExists (k / 256)

/-- Size in bytes of a type (R322); 0 for STRING and DOMAIN. -/
def tyBytes : ObjTy → Nat
  | .bool => 1 | .u8 => 1 | .enum8 => 1
  | .u16 => 2 | .i16 => 2
  | .u32 => 4 | .i32 => 4 | .bits32 => 4
  | .u64 => 8 | .i64 => 8
  | .q b _ => b
  | .str => 0 | .dom => 0

/-- The type code of R322. -/
def tyCode : ObjTy → Nat
  | .bool => 0x01 | .u8 => 0x05 | .u16 => 0x06 | .u32 => 0x07 | .u64 => 0x1B
  | .i16 => 0x03 | .i32 => 0x04 | .i64 => 0x15 | .enum8 => 0xA0 | .bits32 => 0xA1
  | .q b _ => if b ≤ 2 then 0xA2 else if b ≤ 4 then 0xA3 else 0xA4
  | .str => 0x09 | .dom => 0x0F

/-- Whether a type is read as two's complement. -/
def tySigned : ObjTy → Bool
  | .i16 => true | .i32 => true | .i64 => true
  | .q _ s => s
  | _ => false

/-- The raw value that the data bytes of a write spell (R322). BOOL reads any non-zero byte as 1. -/
def tyDecode (t : ObjTy) (bytes : List Nat) : Int :=
  let n := ofLe bytes
  match t with
  | .bool => if n = 0 then 0 else 1
  | _ => if tySigned t then sextBits (8 * tyBytes t) n else (n : Int)

/-- The data bytes of a raw value (R322). -/
def tyEncode (t : ObjTy) (v : Int) : List Nat := leBytesInt (tyBytes t) v

/-- WARN, THROTTLE, SHUTDOWN (1/16 °C) and THM_RATE (1/16 °C/s) of sensor `n` (R411). -/
def thmDefaults (n : Nat) : Nat × Nat × Nat × Nat :=
  if n < 16 then (1520, 1600, 1728, 32)
  else if n < 24 then (1360, 1440, 1600, 16)
  else (1680, 1840, 2000, 48)

/-- The zone of sensor `n` (R411). -/
def thmZone (n : Nat) : Nat :=
  if n < 4 then 0 else if n < 8 then 1 else if n < 12 then 2 else if n < 16 then 3 else if n < 24 then 4 else 5

/-- The codes whose EMCY bit is set by default (R452). -/
def emcyCodes : List Nat :=
  [0x00, 0x10, 0x25, 0x36, 0x4A, 0x66, 0x91, 0xA3, 0xE2, 0xE3, 0xE5, 0xE6, 0xF2, 0xF9, 0xFE]

/-- TPDO defaults (R358): communication parameter `i` (0 COB-ID, 1 type, 2 inhibit, 4 event timer) of TPDO `t`.
The COB-IDs are those of node 32, the default of NET_CAN_NODE; TPDO2 to TPDO4 are disabled by bit 31. -/
def tpdoCommDefault (t i : Nat) : Int :=
  match i with
  | 0 => if t = 0 then 0x1A0 else (0x80000180 + 0x100 * t + 0x20 : Nat)
  | 1 => 0xFF
  | 2 => if t = 0 then 100 else 0
  | 4 => if t = 0 then 100 else 0
  | _ => 0

/-- TPDO mapping defaults (R358): TPDO1 maps LCK_VMAX_MMIN and WEB_SPEED_MMIN. -/
def tpdoMapDefault (t i : Nat) : Int :=
  if t = 0 then
    match i with
    | 0 => 2
    | 1 => 0x22000E20
    | 2 => 0x21610220
    | _ => 0
  else 0

/-- The defaults that the tables give by reference to a rule. -/
def specialDefault (k n o : Nat) : Int :=
  if k = Obj.SYS_REVISION then (Config.revision 0 : Int)
  else if k = Obj.SYS_SERIAL then (Config.serial : Int)
  else if k = Obj.SYS_BGEN_ACTIVE then (Config.bgenNative 0 : Int)
  else if k = Obj.SYS_BGEN_NATIVE then (Config.bgenNative 0 : Int)
  else if k / 256 = 0x2330 ∨ k / 256 = 0x2710 then if o / 8 = o % 8 then 4096 else 0
  else if k / 256 = 0x1014 then 0xA0
  else if k / 256 = 0x1200 then if o = 0 then 0x620 else 0x5A0
  else if 0x1800 ≤ k / 256 ∧ k / 256 ≤ 0x1803 then tpdoCommDefault n o
  else if 0x1A00 ≤ k / 256 ∧ k / 256 ≤ 0x1A03 then tpdoMapDefault n o
  else if k / 256 = 0x2B11 then ((thmDefaults o).1 : Int)
  else if k / 256 = 0x2B12 then ((thmDefaults o).2.1 : Int)
  else if k / 256 = 0x2B13 then ((thmDefaults o).2.2.1 : Int)
  else if k / 256 = 0x2B14 then ((thmDefaults o).2.2.2 : Int)
  else if k = Obj.TIM_TX_LAT_PS then (Config.txLatPs.toNat : Int)
  else if k = Obj.TIM_RX_LAT_PS then (Config.rxLatPs.toNat : Int)
  else 0

/-- The default of key `k` (R323); 0 for a key no object has. -/
def objDefault (k : Nat) : Int :=
  match objRow k with
  | none => 0
  | some (r, n, o) =>
    match r.dflt with
    | .lin a b c => a + b * n + c * o
    | .special => specialDefault k n o

/-- Key of entry `e` of the DOMAIN table at index `ix`. -/
def tblKey (ix e : Nat) : Nat := ix * 4294967296 + e

/-- Codes that their owners mark reserved and never raise (R451 and the event tables). -/
def reservedCode (c : Nat) : Bool :=
  (0x0C ≤ c && c ≤ 0x0F) || (0x19 ≤ c && c ≤ 0x1F) || (0x3C ≤ c && c ≤ 0x3F) || (0x57 ≤ c && c ≤ 0x5F) ||
  (0x6D ≤ c && c ≤ 0x7F) || (0x8E ≤ c && c ≤ 0x8F) || (0x99 ≤ c && c ≤ 0x9F) || (0xB6 ≤ c && c ≤ 0xBF) ||
  c == 0xCF || (0xDD ≤ c && c ≤ 0xDF) || 256 ≤ c

/-- The default route word of event code `c` (R452): LOG, HOST, SERGE and NOTIFY on, EMCY for the codes listed, and
no route for a reserved code. -/
def routeDefault (c : Nat) : Nat :=
  if reservedCode c then 0 else 0x0F + (if emcyCodes.contains c then 0x10 else 0)

end Sys2Proof.Machine
end

