-- ==== Sys2Proof/Machine/EventCodes.lean ====
section
/-! DEFINITION. The event codes of the manual (R451 and the event table of each chapter). -/

namespace Sys2Proof.Machine.Ev

abbrev SYS_STATE : Nat := 0x00
abbrev SYS_BOOT : Nat := 0x01
abbrev SYS_FW_FALLBACK : Nat := 0x02
abbrev SYS_BOOT_FAIL : Nat := 0x03
abbrev SYS_SELFTEST : Nat := 0x04
abbrev SYS_ARM_REFUSED : Nat := 0x05
abbrev SYS_CAL_DONE : Nat := 0x06
abbrev SYS_DISCOVERED : Nat := 0x07
abbrev SYS_NVM_DEFAULT : Nat := 0x08
abbrev EVT_OVERFLOW : Nat := 0x09
abbrev EVT_LOG_CLEARED : Nat := 0x0A
abbrev DBG_ACCESS : Nat := 0x0B
abbrev PWR_FAIL : Nat := 0x10
abbrev PWR_JOURNAL : Nat := 0x11
abbrev PWR_TORN : Nat := 0x12
abbrev PWR_PF_LOW : Nat := 0x13
abbrev VMON_WARN : Nat := 0x14
abbrev VMON_FAULT : Nat := 0x15
abbrev PROC_SLOW : Nat := 0x16
abbrev BG_FREEZE : Nat := 0x17
abbrev PWR_STANDBY : Nat := 0x18
abbrev ENC_ILLEGAL : Nat := 0x20
abbrev ENC_LOSS : Nat := 0x21
abbrev INDEX_REF : Nat := 0x22
abbrev INDEX_ADJ : Nat := 0x23
abbrev INDEX_MISMATCH : Nat := 0x24
abbrev ENC_FAULT : Nat := 0x25
abbrev ENC_SWITCH : Nat := 0x26
abbrev ENC_SLIP : Nat := 0x27
abbrev ENC_OVERRATE : Nat := 0x28
abbrev WEB_REVERSAL : Nat := 0x29
abbrev WEB_MOTION : Nat := 0x2A
abbrev PRB_LATCH : Nat := 0x2B
abbrev PRB_MISSED : Nat := 0x2C
abbrev PRB_EXTRA : Nat := 0x2D
abbrev HSW_CHANGE : Nat := 0x2E
abbrev SSI_FAULT : Nat := 0x2F
abbrev LCK_LATE_FIRE : Nat := 0x30
abbrev OVERSPEED_WARN : Nat := 0x31
abbrev OVERSPEED : Nat := 0x32
abbrev LCK_HALFLINE : Nat := 0x33
abbrev LCK_SATURATED : Nat := 0x34
abbrev LCK_LINES_SKIPPED : Nat := 0x35
abbrev OVERSPEED_STOP : Nat := 0x36
abbrev LCK_INHIBIT : Nat := 0x37
abbrev ALIGN_MISSING : Nat := 0x38
abbrev ALIGN_STORED : Nat := 0x39
abbrev LCK_OFS_SHIFT : Nat := 0x3A
abbrev LCK_CEILING : Nat := 0x3B
abbrev MEM_CE : Nat := 0x40
abbrev MEM_UE : Nat := 0x41
abbrev JOB_END : Nat := 0x42
abbrev LS_FULL : Nat := 0x43
abbrev IMG_REFUSED : Nat := 0x44
abbrev IMG_COMPLETE : Nat := 0x45
abbrev IMG_INCOMPLETE : Nat := 0x46
abbrev VD_STALE : Nat := 0x47
abbrev VD_MISSING : Nat := 0x48
abbrev COMP_LATE : Nat := 0x49
abbrev COMP_STARVED : Nat := 0x4A
abbrev WB_SLOT_MISS : Nat := 0x4B
abbrev FRAME_START : Nat := 0x4C
abbrev FRAME_DONE : Nat := 0x4D
abbrev FRAME_MARK : Nat := 0x4E
abbrev MEM_PLAN_APPLIED : Nat := 0x4F
abbrev MUS_OVERRUN : Nat := 0x50
abbrev MUS_FORMAT : Nat := 0x51
abbrev MUS_REFUSED : Nat := 0x52
abbrev MUS_REF_LOST : Nat := 0x53
abbrev MUS_UNIT_FAULT : Nat := 0x54
abbrev MUS_GEN_SHED : Nat := 0x55
abbrev MUS_STREAM_HDR : Nat := 0x56
abbrev COMMIT_ACCEPTED : Nat := 0x60
abbrev COMMIT_APPLIED : Nat := 0x61
abbrev COMMIT_STALLED : Nat := 0x62
abbrev COMMIT_FORCED : Nat := 0x63
abbrev LAY_NOT_READY : Nat := 0x64
abbrev LAY_HOLD_FAIL : Nat := 0x65
abbrev LAY_STOP : Nat := 0x66
abbrev LAY_NOT_FIT : Nat := 0x67
abbrev COEF_CLAMPED : Nat := 0x68
abbrev CRV_CLAMPED : Nat := 0x69
abbrev PRV_DROPPED : Nat := 0x6A
abbrev PRV_PARTNER : Nat := 0x6B
abbrev CAL_PATH_FAULT : Nat := 0x6C
abbrev JQ_SET_APPLIED : Nat := 0x80
abbrev JQ_SET_DEFER : Nat := 0x81
abbrev JQ_TABLE_SLOW : Nat := 0x82
abbrev JQ_MAP_CLAMPED : Nat := 0x83
abbrev JQ_TABLE_CLAMPED : Nat := 0x84
abbrev JQ_STRETCH_LIMIT : Nat := 0x85
abbrev JQ_NOZ_STATE : Nat := 0x86
abbrev JQ_COL_UNCOVERED : Nat := 0x87
abbrev JQ_PHASE_CLAMPED : Nat := 0x88
abbrev JQ_PHASE_LINES : Nat := 0x89
abbrev JQ_HEAD_NEW : Nat := 0x8A
abbrev JQ_STATE_STORED : Nat := 0x8B
abbrev JQ_SLICE_FAULT : Nat := 0x8C
abbrev JQ_SLICE_MAP : Nat := 0x8D
abbrev FIR_LATE_LINE : Nat := 0x90
abbrev FIR_SLICE_MISS : Nat := 0x91
abbrev FIR_DOWNGRADE : Nat := 0x92
abbrev FIR_FIFO_LOW : Nat := 0x93
abbrev FIR_SLOT_OVERLAP : Nat := 0x94
abbrev FIR_PROFILE_CLAMP : Nat := 0x95
abbrev FIR_SWITCH_BLANK : Nat := 0x96
abbrev FIR_TX_CONFLICT : Nat := 0x97
abbrev FIR_UNIT_FAULT : Nat := 0x98
abbrev YQL_LINK_UP : Nat := 0xA0
abbrev YQL_LINK_DOWN : Nat := 0xA1
abbrev YQL_RETRAIN : Nat := 0xA2
abbrev YQL_PORT_DOWN : Nat := 0xA3
abbrev YQL_DESKEW : Nat := 0xA4
abbrev YQL_BLOCK_ERR : Nat := 0xA5
abbrev YQL_LINE_FAIL : Nat := 0xA6
abbrev YQL_CMD_TIMEOUT : Nat := 0xA7
abbrev YQL_DRV_ARRIVE : Nat := 0xA8
abbrev YQL_DRV_DEPART : Nat := 0xA9
abbrev YQL_CHAIN_LONG : Nat := 0xAA
abbrev YQL_NOZZLES_OVER : Nat := 0xAB
abbrev YQL_PROFILE_MISSING : Nat := 0xAC
abbrev YQL_VERSION : Nat := 0xAD
abbrev YQL_SYNC_ERR : Nat := 0xAE
abbrev YQL_HEAD_FAULT : Nat := 0xAF
abbrev YQL_HOTPLUG_REFUSED : Nat := 0xB0
abbrev YQL_CAM_ARRIVE : Nat := 0xB1
abbrev YQL_CAM_DEPART : Nat := 0xB2
abbrev YQL_CAM_CRC : Nat := 0xB3
abbrev YQL_CAM_LINE_MISSING : Nat := 0xB4
abbrev YQL_CAM_PROFILE : Nat := 0xB5
abbrev INS_DARK : Nat := 0xC0
abbrev INS_WHITE : Nat := 0xC1
abbrev INS_WHITE_LIMITED : Nat := 0xC2
abbrev INS_PIXEL_BAD : Nat := 0xC3
abbrev INS_WIN_LATE : Nat := 0xC4
abbrev INS_EXCLUDED : Nat := 0xC5
abbrev INS_CAM_COVER : Nat := 0xC6
abbrev INS_UPL_DROPPED : Nat := 0xC7
abbrev VOI_OPEN : Nat := 0xC8
abbrev VOI_SHORT : Nat := 0xC9
abbrev VOI_UNVERIFIED : Nat := 0xCA
abbrev VOI_HEADROOM : Nat := 0xCB
abbrev VOI_POWER_LIMIT : Nat := 0xCC
abbrev INS_RATE : Nat := 0xCD
abbrev INS_UNIT_FAULT : Nat := 0xCE
abbrev CHL_STATE : Nat := 0xD0
abbrev CHL_NOZ_DETECT : Nat := 0xD1
abbrev CHL_STITCH_LOW : Nat := 0xD2
abbrev CHL_GROUP_LOW : Nat := 0xD3
abbrev CHL_NOZ_HIGH : Nat := 0xD4
abbrev CHL_TRIM_LIMIT : Nat := 0xD5
abbrev CHL_GAIN_LIMIT : Nat := 0xD6
abbrev CHL_LATE : Nat := 0xD7
abbrev CHL_REQUAL : Nat := 0xD8
abbrev CHL_STORED : Nat := 0xD9
abbrev CHL_RESTORED : Nat := 0xDA
abbrev CHL_REF_TAKEN : Nat := 0xDB
abbrev CHL_RESP_CLAMPED : Nat := 0xDC
abbrev SUP_OUTVOTE : Nat := 0xE0
abbrev SUP_CORE_RETURN : Nat := 0xE1
abbrev SUP_WEB_STOP : Nat := 0xE2
abbrev SUP_SAFE : Nat := 0xE3
abbrev SUP_RESTART : Nat := 0xE4
abbrev SUP_SWITCH : Nat := 0xE5
abbrev SUP_SPARE : Nat := 0xE6
abbrev SUP_DEADLINE : Nat := 0xE7
abbrev TIM_STEP : Nat := 0xE8
abbrev TIM_STEP_DEFERRED : Nat := 0xE9
abbrev TIM_LOCK : Nat := 0xEA
abbrev TIM_HOLDOVER : Nat := 0xEB
abbrev TIM_PORT_STATE : Nat := 0xEC
abbrev TIM_MASTER_CHANGE : Nat := 0xED
abbrev TIM_ANCHOR : Nat := 0xEE
abbrev TIM_TC_FAULT : Nat := 0xEF
abbrev CFG_CLAMPED : Nat := 0xF0
abbrev AUTH_FAIL : Nat := 0xF1
abbrev AUTH_LOCKOUT : Nat := 0xF2
abbrev PARTNER_ARRIVE : Nat := 0xF3
abbrev PARTNER_DEPART : Nat := 0xF4
abbrev NET_LINK : Nat := 0xF5
abbrev CAN_BUS : Nat := 0xF6
abbrev CAN_HB_LOST : Nat := 0xF7
abbrev THM_WARN : Nat := 0xF8
abbrev THM_THROTTLE : Nat := 0xF9
abbrev THM_SENSOR_BROKEN : Nat := 0xFA
abbrev THM_ZONE_LOST : Nat := 0xFB
abbrev GOV_LIMIT : Nat := 0xFC
abbrev GOV_SHED : Nat := 0xFD
abbrev THM_SHUTDOWN : Nat := 0xFE
abbrev THM_ACK : Nat := 0xFF

end Sys2Proof.Machine.Ev
end

