-- ==== Sys2Proof/Machine/Ops.lean ====
section
/-! DEFINITION. The shared operations over the state: clocks and time scales, the web position, object values,
counters, raising events and delivering them (R450 to R454), adjustments (R328), and defect records (R93, R94). -/

namespace Sys2Proof.Machine

/-! ### Device states -/

/-- The code of a device state (R436). -/
def modeCode : DevState → Nat
  | .off => 0 | .boot => 1 | .selftest => 2 | .calibrate => 3 | .discover => 4 | .idle => 5
  | .armed => 6 | .printing => 7 | .paused => 8 | .safe => 9 | .thermalHold => 10 | .service => 11

/-- ARMED, PRINTING and PAUSED: the print states that many rules name together. -/
def inPrint : DevState → Bool
  | .armed => true | .printing => true | .paused => true
  | _ => false

/-- The states in which the device runs at all. -/
def powered : DevState → Bool
  | .off => false
  | _ => true

/-! ### Clocks and time scales -/

/-- CLK_TS clocks in `n` ms (3.2 ns each). -/
def msClk (n : Nat) : Nat := n * 312500
/-- CLK_TS clocks in `n` µs, rounded up. -/
def usClk (n : Nat) : Nat := ceilDiv (n * 625) 2
/-- CLK_TS clocks in `n` ns, rounded up. -/
def nsClk (n : Nat) : Nat := ceilDiv (n * 5) 16
/-- CLK_TS clocks in `n` s. -/
def secClk (n : Nat) : Nat := n * 312500000
/-- Milliseconds in `c` clocks, rounded down. -/
def clkMs (c : Nat) : Nat := c / 312500
/-- Microseconds in `c` clocks, rounded down. -/
def clkUs (c : Nat) : Nat := c * 2 / 625

/-- The timer in whole ns since its epoch. -/
def timerNs (w : World) : Int := w.tim.sec * 1000000000 + w.tim.ns
/-- The timer with its 28 fraction bits, in ns. -/
def timerFrac (w : World) : Frac := frac (timerNs w * 268435456 + w.tim.fracNs) 268435456
/-- Event time (R372). -/
def nowEt (w : World) : Nat := (w.tim.sec * 1000000000 + w.tim.ns) % 4294967296
/-- Link time in ticks of 1.28 ns (R238), 48 bits. -/
def linkTime (w : World) : Nat := (w.tim.halfTicks / 2) % 281474976710656
/-- Difference of two ETs, later minus earlier, modulo 2^32. -/
def etDiff (later earlier : Nat) : Nat := (later + 4294967296 - earlier % 4294967296) % 4294967296

/-! ### Object values -/

/-- The value in force of an object. -/
def getO (w : World) (k : Nat) : Int := mapGetD w.dict.obj k (objDefault k)
/-- The value in force as a natural. -/
def getN (w : World) (k : Nat) : Nat := (getO w k).toNat
/-- Whether a value in force is not 0. -/
def getB (w : World) (k : Nat) : Bool := getO w k != 0
/-- A field of a BITS32 value in force. -/
def getF (w : World) (k lsb width : Nat) : Nat := field (getN w k) lsb width
/-- The shadow value of a C object (R324). -/
def getSh (w : World) (k : Nat) : Int := mapGetD w.dict.shadow k (objDefault k)

def setO (w : World) (k : Nat) (v : Int) : World :=
  { w with dict := { w.dict with obj := mapPutD w.dict.obj k v (objDefault k) } }
def setSh (w : World) (k : Nat) (v : Int) : World :=
  { w with dict := { w.dict with shadow := mapPutD w.dict.shadow k v (objDefault k) } }
/-- Set a field of a BITS32 value in force. -/
def setF (w : World) (k lsb width v : Nat) : World := setO w k (setField (getN w k) lsb width v : Nat)
/-- Count in a counter of `bits` bits that wraps. -/
def addO (w : World) (k bits n : Nat) : World := setO w k (wrapBits bits (getN w k + n) : Nat)
/-- Count one in a 32-bit counter. -/
def bump (w : World) (k : Nat) : World := addO w k 32 1
/-- Count one in a 64-bit counter. -/
def bump64 (w : World) (k : Nat) : World := addO w k 64 1

/-- Send a message. -/
def send (w : World) (m : OutMsg) : World := { w with out := w.out ++ [m] }

/-- Take a fresh free value. -/
def takeFree (w : World) : Nat × World := ((Config.freeValue w.free).toNat, { w with free := w.free + 1 })

/-- A write to a place of an area (R118): a waiting injection for the area inverts bits of a word of it, and a word of the
place that was struck before is written anew. Which word is struck, the spec does not say: its address is a free value. -/
def noteWrite (area unit : Nat) (line : Int) (w : World) : World :=
  let old := w.mem.struck.filter fun e => !(e.area == area && e.unit == unit && e.line == line)
  match w.mem.inject.find? fun e => e.1 == area with
  | none => if old.length = w.mem.struck.length then w else { w with mem := { w.mem with struck := old } }
  | some e =>
    let (v, w) := takeFree w
    { w with mem := { w.mem with inject := w.mem.inject.erase e
                                 struck := old ++ [{ area := area, double := e.2, addr := v, unit := unit, line := line }] } }

/-- The firmware image that runs: 0 the newest, 1 the previous (SYS_BOOT_IMAGE). -/
def runImage (w : World) : Nat := getN w Obj.SYS_BOOT_IMAGE

/-! ### The web position -/

/-- The lines-per-count ratio of encoder `n` in 2^-32 line. -/
def lpcOf (w : World) (n : Nat) : Nat := getN w (Obj.WEB_ENC_LPC n)

/-- The time from one ET to a later one when `clks` clocks lie between them: the difference of the ETs, which are
known modulo 2^32 ns, that is nearest to the clocks counted. -/
def etSpan (later earlier clks : Nat) : Nat :=
  let d : Int := etDiff later earlier
  (d + 4294967296 * roundDiv ((clks * 16 / 5 : Nat) - d) 4294967296).toNat

/-- The ET elapsed since the last counted edge. -/
def edgeElapsed (w : World) : Nat := etSpan (nowEt w) w.web.etLast (w.clk - w.web.edgeClk)

/-- The magnitude of the reported speed (R47) as a fraction: 2^-32 line per ns. -/
def speedMag (w : World) : Nat × Nat :=
  let lpc := lpcOf w w.web.active
  let e := edgeElapsed w
  if !w.web.valid || w.web.vDen = 0 then (0, 1)
  else if e = 0 ∨ w.web.vNum * e ≤ lpc * w.web.vDen then (w.web.vNum, w.web.vDen)
  else (lpc, e)

/-- The distance from the last counted edge to the interpolated position (R46), 2^-32 line. -/
def interpRaw (w : World) : Int :=
  if !w.web.valid || w.web.trk != .forward || w.web.lossInhibit then 0
  else
    let (n, d) := speedMag w
    let x := n * edgeElapsed w / d
    let lim := lpcOf w w.web.active - 1
    let m := satNat lim x
    if w.web.back then -(m : Int) else (m : Int)

/-- The interpolated position with 32 fraction bits. -/
def pos32 (w : World) : Int := w.web.pos + interpRaw w
/-- A position with 32 fraction bits as it is reported: rounded toward minus infinity to 1/65,536 line, 64 bits. -/
def posReport (p : Int) : Int := wrapSigned 64 (asr p 16)
/-- The interpolated web position, raw Q48.16 (R46, R476). -/
def webPos (w : World) : Int := posReport (pos32 w)
/-- The difference of two raw Q48.16 positions (R30). -/
def posDiff (a b : Int) : Int := wrapSigned 64 (a - b)
/-- A whole coordinate as a raw Q48.16 position. -/
def linePos (l : Int) : Int := l * 65536
/-- Whether the web position has reached a raw Q48.16 value (R476). -/
def posReached (w : World) (v : Int) : Bool := 0 ≤ posDiff (webPos w) v
/-- The reported speed in lines per second as a fraction, without its sign. -/
def speedLps (w : World) : Frac := let (n, d) := speedMag w; frac (n * 1000000000) (d * 4294967296)

/-! ### Events -/

/-- Raise an event for a past instant, whose ET and position the record carries (R450). -/
def raiseAt (w : World) (code inst data et : Nat) (pos : Int) : World :=
  { w with evt := { w.evt with raised := w.evt.raised ++
      [{ code := code, serge := false, inst := inst % 65536, et := et, pos := pos
         data := data % 4294967296, seq := 0 }] } }

/-- Raise an event now. -/
def raise (w : World) (code inst data : Nat) : World := raiseAt w code inst data (nowEt w) (webPos w)

/-- Raise an event whose data is signed. -/
def raiseInt (w : World) (code inst : Nat) (data : Int) : World := raise w code inst (wrapInt 32 data)

/-- Raise an event at most once in `period` clocks, by the stamp of the last one. -/
def stampOk (w : World) (stamp : Option Nat) (period : Nat) : Bool :=
  match stamp with
  | none => true
  | some c => c + period ≤ w.clk

/-- The route word of a code (R452). -/
def routeOf (w : World) (c : Nat) : Nat := (mapGetD w.dict.tbl (tblKey 0x3C01 c) (routeDefault c : Nat)).toNat

/-- Whether the host core serves. -/
def hostServing (w : World) : Bool := w.sys.hostUp && !w.sys.standby && getO w Obj.SUP_HOST_STATE == 0

/-- Whether event `a` comes before `b` in the order of SEQ: by ET, then by code (R450). -/
def evBefore (now : Nat) (a b : EvRec) : Bool :=
  let da := sextBits 32 (etDiff a.et now)
  let db := sextBits 32 (etDiff b.et now)
  if da = db then a.code < b.code else da < db

/-- Insert an event behind every event that does not come after it. -/
def evInsert (now : Nat) (r : EvRec) : List EvRec → List EvRec
  | [] => [r]
  | x :: xs => if evBefore now r x then r :: x :: xs else x :: evInsert now r xs

/-- The events of a command in the order of SEQ. -/
def evSort (now : Nat) (l : List EvRec) : List EvRec := l.foldl (fun acc r => evInsert now r acc) []

/-- LOG: into the staging buffer of 768 records, or dropped and counted (R454). -/
def deliverLog (w : World) (r : EvRec) : World :=
  if w.evt.staging.length < 768 then { w with evt := { w.evt with staging := w.evt.staging ++ [r] } }
  else bump { w with evt := { w.evt with dropRun := w.evt.dropRun + 1 } } Obj.EVT_LOG_DROPPED

/-- HOST: into EVT_RECENT, the last 1,024 records. -/
def deliverHost (w : World) (r : EvRec) : World :=
  { w with evt := { w.evt with recent := lastN 1024 (w.evt.recent ++ [r]) } }

/-- SERGE: count the code and keep its last record. -/
def deliverSerge (w : World) (r : EvRec) : World :=
  { w with evt := { w.evt with last := mapPut w.evt.last r.code r
                               counts := mapAdd w.evt.counts r.code 1 } }

/-- Whether entry `n` of the partner table takes NOTIFY (R338): present, a network entry, NOTIFY set. -/
def notifiable (w : World) (n : Nat) (p : Partner) : Bool :=
  p.present && n < 64 && getF w (Obj.NET_PEER_CFG n) 1 1 == 1

/-- A record pending at a partner. -/
def pendRecord (clk : Nat) (r : EvRec) (p : Partner) : Partner :=
  let since := if p.notifyQ.isEmpty then clk else p.notifySince
  { p with notifySince := since, notifyQ := p.notifyQ ++ [r] }

/-- NOTIFY: pending at every partner that takes it; while the host core is down it waits there (R393). -/
def deliverNotify (w : World) (r : EvRec) : World :=
  let f := fun (e : Nat × Partner) => if notifiable w e.1 e.2 then (e.1, pendRecord w.clk r e.2) else e
  { w with net := { w.net with partners := w.net.partners.map f } }

/-- EMCY: into the queue of 16, the oldest dropped and counted when it is full (R356). -/
def deliverEmcy (w : World) (r : EvRec) : World :=
  if w.can.emcyQ.length < 16 then { w with can := { w.can with emcyQ := w.can.emcyQ ++ [r] } }
  else bump { w with can := { w.can with emcyQ := w.can.emcyQ.drop 1 ++ [r] } } Obj.NET_CAN_EMCY_LOST

/-- Whether EVT_OUT[n] in LEVEL mode is active: some code routed to it last carried non-zero DATA (R453). -/
def levelActive (w : World) (n : Nat) : Bool :=
  w.evt.lastData.any fun e => e.2 != 0 && bitOf (routeOf w e.1) (8 + n)

/-- OUT: one event at EVT_OUT[n] (R453). -/
def deliverOut (w : World) (n : Nat) : World :=
  let cfg := getN w (Obj.EVT_OUT_CFG n)
  match field cfg 0 2 with
  | 0 => { w with evt := { w.evt with outLevel := w.evt.outLevel.set n true
                                      outEnd := w.evt.outEnd.set n (some (w.clk + usClk (field cfg 16 16))) } }
  | 1 => { w with evt := { w.evt with outLevel := w.evt.outLevel.modify n (!·) } }
  | _ => { w with evt := { w.evt with outLevel := w.evt.outLevel.set n (levelActive w n) } }

/-- Give one event its SEQ and deliver it on its routes (R450, R452). Serge delivers LOG, SERGE, EMCY and OUT; the
host core delivers HOST and NOTIFY while it serves. -/
def deliver (w : World) (r0 : EvRec) : World :=
  let seq := (w.evt.seq + 1) % 4294967296
  let r := { r0 with seq := seq, serge := w.sys.voted && !hostServing w }
  let rt := routeOf w r.code
  let w := { w with evt := { w.evt with seq := seq, lastData := mapPutD w.evt.lastData r.code r.data 0 } }
  let w := if bitOf rt 0 then deliverLog w r else w
  let w := if bitOf rt 1 && hostServing w then deliverHost w r else w
  let w := if bitOf rt 2 then deliverSerge w r else w
  let w := if bitOf rt 3 then deliverNotify w r else w
  let w := if bitOf rt 4 then deliverEmcy w r else w
  if w.sys.voted then
    (List.range 4).foldl (fun w n => if bitOf rt (8 + n) then deliverOut w n else w) w
  else w

/-- Deliver the events of a command. -/
def settle (w : World) : World :=
  let l := evSort (nowEt w) w.evt.raised
  l.foldl deliver { w with evt := { w.evt with raised := [] } }

/-! ### Adjustments -/

/-- REQUEST and APPLIED as R328 records them: the data bytes of the value, zero-extended. For reason 8 they are counts;
the origin that R87 rounds is recorded as raw Q48.16 positions. -/
def adjValue (key reason : Nat) (v : Int) : Int :=
  match objRow key with
  | some (r, _, _) => if reason = 8 ∨ (key = Obj.JOB_ORIGIN_SRC ∧ reason = 5) ∨ tyBytes r.ty = 0 then v else (wrapInt (8 * tyBytes r.ty) v : Nat)
  | none => v

/-- Record an adjustment and raise CFG_CLAMPED; a commit raises at most 16 (R328). -/
def adjust (w : World) (key reason source : Nat) (request applied : Int) : World :=
  let n := (getN w Obj.CFG_ADJ_COUNT + 1) % 4294967296
  let ix := key / 256
  let sub := key % 256
  let word := ix * 65536 + sub * 256 + reason
  let request := adjValue key reason request
  let applied := adjValue key reason applied
  let r : AdjRec := { index := ix, sub := sub, reason := reason, source := source, request := request
                      applied := applied, et := nowEt w, seq := n }
  let w := { w with dict := { w.dict with adj := lastN 256 (w.dict.adj ++ [r]) } }
  let w := setO w Obj.CFG_ADJ_COUNT n
  let w := setO w Obj.CFG_ADJ_OBJECT word
  let w := setO w Obj.CFG_ADJ_REQUEST (wrapInt 64 request : Nat)
  let w := setO w Obj.CFG_ADJ_APPLIED (wrapInt 64 applied : Nat)
  let w := setO w Obj.CFG_ADJ_SOURCE source
  let w := setO w Obj.CFG_ADJ_ET (nowEt w)
  let w := setO w Obj.CFG_ADJ_WEBPOS (webPos w)
  if w.evt.inCommit && 16 ≤ w.evt.clampsRaised then w
  else
    raise { w with evt := { w.evt with clampsRaised := w.evt.clampsRaised + 1 } } Ev.CFG_CLAMPED source word

/-- The SOURCE code of a path (R328). -/
def pathSource : Path → Nat
  | .koa a _ => 1 + a.iface
  | .can => 10
  | .host => 11
  | .serge => 12

/-- Open a commit: its adjustments are counted for the limit of 16 events (R328). -/
def beginCommit (w : World) : World := { w with evt := { w.evt with inCommit := true, clampsRaised := 0 } }
def endCommit (w : World) : World := { w with evt := { w.evt with inCommit := false } }

/-! ### Tables -/

/-- A table entry in force, with the table's default. -/
def getT (w : World) (ix e : Nat) (d : Int) : Int := mapGetD w.dict.tbl (tblKey ix e) d
/-- Write a table entry in force. -/
def setT (w : World) (ix e : Nat) (v d : Int) : World :=
  { w with dict := { w.dict with tbl := mapPutD w.dict.tbl (tblKey ix e) v d } }
/-- The keys of the table at index `ix`. -/
def inTable (ix k : Nat) : Bool := k / 4294967296 == ix

/-- An applied value of an S object waits for its FRAM write (R329). -/
def storeLater (w : World) (k : Nat) (v : Int) : World :=
  { w with dict := { w.dict with framWait := w.dict.framWait.filter (fun e => e.1 != k) ++ [(k, v, w.clk)] } }
/-- A DOMAIN table with S waits for its NOR write (R329). -/
def storeTableLater (w : World) (ix : Nat) : World :=
  { w with dict := { w.dict with norWait := w.dict.norWait.filter (fun e => e.1 != ix) ++ [(ix, w.clk)] } }

/-! ### Rows, frames and defects -/

/-- The spacing of a row's lines (R63). -/
def rowSpacing (full res600 : Bool) : Int :=
  match full, res600 with
  | false, false => 2
  | false, true => 4
  | true, false => 1
  | true, true => 2

/-- Whether row `r` fires coordinate `x` (R63). -/
def rowFires (r : Nat) (full res600 : Bool) (x : Int) : Bool :=
  match full, res600 with
  | false, false => x % 2 == (r % 2 : Nat)
  | false, true => x % 4 == 2 * (r % 2 : Nat)
  | true, false => true
  | true, true => x % 2 == 0

/-- The first coordinate at or after `x` that row `r` fires. -/
def rowFirst (r : Nat) (full res600 : Bool) (x : Int) : Int :=
  match (List.range 4).find? fun (i : Nat) => rowFires r full res600 (x + i) with
  | some i => x + i
  | none => x

/-- The frame that holds coordinate `x`, among the frames begun. -/
def frameAt (w : World) (x : Int) : Option FrameRec := w.job.frames.find? fun f => f.wB ≤ x && x < f.wEnd

/-- The first boundary beyond `x`: a frame begun later or a boundary placed. -/
def nextBoundAfter (w : World) (x : Int) : Option Int :=
  let l := (w.job.frames.map (·.wB)) ++ ((w.job.bounds.filter (!·.virt)).map (·.w))
  (l.filter (fun b => x < b)).foldl (fun acc b => match acc with | none => some b | some a => some (min a b)) none

/-- Mark the frame of number `n` as carrying a defect record. -/
def markFrame (w : World) (n : Nat) : World :=
  { w with job := { w.job with frames := w.job.frames.map fun f => if f.no = n then { f with defect := true } else f } }

/-- Write a new defect record into the ring of 65,536 (R93), newest first. -/
def newDefect (w : World) (d : DefectRec) : World :=
  let w := noteWrite 0 0 0 w
  let w := bump { w with job := { w.job with defects := (d :: w.job.defects).take 65536 } } Obj.JOB_DEFECT_COUNT
  markFrame w d.frame

/-- Extend the newest record of the same frame, row and cause when it ends at `x`; none when there is no such. -/
def extendDefect (frame row cause : Nat) (x stop : Int) : List DefectRec → Option (List DefectRec)
  | [] => none
  | d :: ds =>
    if d.isOpen ∧ d.frame = frame ∧ d.row = row ∧ d.cause = cause then
      if d.stop = x then some ({ d with stop := stop, lines := d.lines + 1 } :: ds) else none
    else (extendDefect frame row cause x stop ds).map (d :: ·)

/-- The records of row `r` that begin at line `x` carry the ET at which that line fires (R93). -/
def stampDefects (w : World) (r : Nat) (x : Int) (et : Nat) : World :=
  { w with job := { w.job with defects := w.job.defects.map fun d =>
    if d.isOpen && d.row == r && d.start == x then { d with et := et } else d } }

/-- One defective line of a row (R94): `s` is the row spacing in force at it. The record takes the ET of this instant
until the line fires. -/
def defectLine (w : World) (row cause : Nat) (x s : Int) : World :=
  let f := frameAt w x
  let no := match f with | some f => f.no | none => 0
  let lim := match f with | some f => some f.wEnd | none => nextBoundAfter w x
  let stop := match lim with | some l => min (x + s) l | none => x + s
  match extendDefect no row cause x stop w.job.defects with
  | some ds => { w with job := { w.job with defects := ds } }
  | none => newDefect w { frame := no, start := x, stop := stop, row := row, cause := cause, et := nowEt w, lines := 1, isOpen := true }

/-- A defect record of a whole frame or a part of it, for all rows. Its first line counts as affected when it is at the
composition point (DEDUCED, log 79): a record from a frame's start on has the ET at which the frame began. -/
def defectFrame (w : World) (no cause : Nat) (start stop : Int) : World :=
  let et := match w.job.frames.find? fun f => f.no == no && f.wB == start with | some f => f.et | none => nowEt w
  newDefect w { frame := no, start := start, stop := stop, row := 255, cause := cause, et := et, lines := 0, isOpen := true }

/-- Record the range from `cur` to `stop` over the frames of a list in order: one record per frame it touches and
one of FRAME 0 per gap between (R94). Answers where the frames of the list end. -/
def rangeFrames (cause : Nat) (stop : Int) : List FrameRec → Int → World → Int × World
  | [], cur, w => (cur, w)
  | f :: fs, cur, w =>
    if f.wEnd ≤ cur ∨ stop ≤ f.wB then rangeFrames cause stop fs cur w
    else
      let w := if cur < f.wB then defectFrame w 0 cause cur f.wB else w
      let w := defectFrame w f.no cause (max cur f.wB) (min stop f.wEnd)
      rangeFrames cause stop fs (min stop f.wEnd) w

/-- A MARK range (R56): the part up to the composition point is recorded at once, by frames; the part ahead of it
waits for the frames that begin there. Outside the print states no frame will begin. -/
def defectRange (w : World) (printing : Bool) (cause : Nat) (start stop : Int) : World :=
  let known := if printing then min stop (max start (asr (webPos w) 16)) else stop
  let (cur, w) := rangeFrames cause known w.job.frames start w
  let w := if cur < known then defectFrame w 0 cause cur known else w
  if known < stop then { w with job := { w.job with marks := w.job.marks ++ [(known, stop)] } } else w

/-! ### Web-stop sources -/

/-- Set or clear bit `b` of SUP_STOP_SRC; every change of the value raises SUP_WEB_STOP with the new value (R392). -/
def stopSrc (w : World) (b : Nat) (on : Bool) : World :=
  let old := getN w Obj.SUP_STOP_SRC
  let new := setBit old b on
  if old = new then w else raise (setO w Obj.SUP_STOP_SRC new) Ev.SUP_WEB_STOP 0 new

/-! ### Lifting -/

/-- A meaning that changes the world only: run it and deliver the events it raised. -/
def onWorld (f : Ctl → World → World) (s : State) : Host.Outcome State Fault Refusal :=
  .next { s with w := settle (f s.ctl { s.w with out := [] }) }

/-- A meaning that may also change the device state or the authentication block. -/
def onState (f : State → State) (s : State) : Host.Outcome State Fault Refusal :=
  let t := f { s with w := { s.w with out := [] } }
  .next { ctl := t.ctl, w := settle t.w, pending := s.pending }

/-- A command whose condition does not hold has no effect. -/
def whenDo (c : Bool) (f : World → World) (w : World) : World := if c then f w else w

end Sys2Proof.Machine
end

