-- ==== Sys2Proof/Machine/Ecc.lean ====
section
/-! DEFINITION. The SECDED code of DRAM and SRAM words (R113), the counting of the errors it finds (R114, R116), and the
reading of words that an injection has struck (R118). -/

namespace Sys2Proof.Machine

/-! ### The code -/

/-- The places 1 to 38 of a Hamming code that hold data bits: those that are no power of two. -/
def eccPlaces : List Nat :=
  (List.range 39).filter fun i => i ≠ 0 && i ≠ 1 && i ≠ 2 && i ≠ 4 && i ≠ 8 && i ≠ 16 && i ≠ 32

/-- The exclusive-or of the places of the data bits that are 1: check bits [5:0]. -/
def eccHamming (d : Nat) : Nat :=
  (eccPlaces.zip (List.range 32)).foldl (fun acc e => if bitOf d e.2 then acc ^^^ e.1 else acc) 0

/-- Whether a number of `n` bits has an odd number of ones. -/
def oddOnes (n d : Nat) : Bool := (List.range n).foldl (fun acc i => acc != bitOf d i) false

/-- The check byte of a 32-bit word (R113): seven check bits, bit [7] written 0. PRESUMED (log 79): R113 names a SECDED
code of 7 bits on 32 and not which one; this is the extended Hamming code. -/
def eccByte (d : Nat) : Nat := eccHamming d + 64 * b2n (oddOnes 32 d != oddOnes 6 (eccHamming d))

/-- What a read of a word finds: the word as it stands, the corrected word, or an error of two bits. -/
inductive EccRead where
  | clean (d : Nat)
  | corrected (d : Nat)
  | uncorrectable
  deriving DecidableEq, Repr

/-- Read the word `d` with check byte `c` (R113): bit [7] of the byte is not checked. -/
def eccRead (d c : Nat) : EccRead :=
  let s := eccHamming d ^^^ (c % 64)
  if oddOnes 32 d == oddOnes 7 c then if s = 0 then .clean d else .uncorrectable
  else match (eccPlaces.zip (List.range 32)).find? fun e => e.1 == s with
    | some e => .corrected (d ^^^ 2 ^ e.2)
    | none => if 38 < s then .uncorrectable else .corrected d

/-- A word as a struck write left it, as a read finds it: one data bit inverted, or two (R118). -/
def eccStruck (d : Nat) (double : Bool) : EccRead := eccRead (d ^^^ (if double then 3 else 1)) (eccByte d)

/-! ### Counting errors -/

/-- Note an error: its area and address. -/
def noteError (w : World) (area addr : Nat) : World :=
  setO (setO w Obj.MEM_ECC_LAST_ADDR (wrapBits 64 addr : Nat)) Obj.MEM_ECC_LAST_AREA area

/-- A corrected error (R114). Areas 0 to 4 are DRAM, 5 and 6 SRAM. DEDUCED (log 79): an hour is a window that begins with
the first error after the window before it, and bit [31] is raised once in it. -/
def countCe (area addr : Nat) (w : World) : World :=
  let k := if area < 5 then Obj.MEM_ECC_CE else Obj.MEM_SRAM_CE
  let w := bump (noteError w area addr) k
  let fresh := decide (w.mem.ceHourClk + secClk 3600 ≤ w.clk)
  let n := if fresh then 1 else w.mem.ceHour + 1
  let w := { w with mem := { w.mem with ceHour := n, ceHourClk := if fresh then w.clk else w.mem.ceHourClk
                                        ceWarned := if fresh then false else w.mem.ceWarned } }
  let count := getN w k % 2147483648
  if getN w Obj.MEM_CE_WARN < n ∧ w.mem.ceWarned = false then
    raise { w with mem := { w.mem with ceWarned := true, ceStamp := some w.clk } } Ev.MEM_CE area (2147483648 + count)
  else if stampOk w w.mem.ceStamp (secClk 1) then
    raise { w with mem := { w.mem with ceStamp := some w.clk } } Ev.MEM_CE area count
  else w

/-- An uncorrectable error is counted and raised (R116); the response of its area comes beside this. -/
def countUe (area addr : Nat) (w : World) : World :=
  raise (bump (noteError w area addr) (if area < 5 then Obj.MEM_ECC_UE else Obj.MEM_SRAM_UE)) Ev.MEM_UE area (addr % 4294967296)

/-- Read the struck words of an area that `hit` names: corrected errors are counted and written back (R114); the
uncorrectable ones are counted and answered, for the response of their area. -/
def readStruck (area : Nat) (hit : Struck → Bool) (w : World) : List Struck × World :=
  let l := w.mem.struck.filter fun e => e.area == area && hit e
  if l.isEmpty then ([], w)
  else
    let w := { w with mem := { w.mem with struck := w.mem.struck.filter fun e => !(e.area == area && hit e) } }
    l.foldl (fun (acc : List Struck × World) e =>
      match eccStruck 0 e.double with
      | .uncorrectable => (acc.1 ++ [e], countUe area e.addr acc.2)
      | _ => (acc.1, countCe area e.addr acc.2)) ([], w)

/-- The struck words of one place. -/
def readPlace (area unit : Nat) (line : Int) (w : World) : Bool × World :=
  let (l, w) := readStruck area (fun e => e.unit == unit && e.line == line) w
  (!l.isEmpty, w)

end Sys2Proof.Machine
end

