-- ==== Sys2Proof/Machine/Web.lean ====
section
/-! DEFINITION. The web position (chapter 2): encoder channels, the index checks, the encoder roles, the high-water
tracker, the speed, and the anchor that the line clock takes at every counted edge (R65). -/

namespace Sys2Proof.Machine

/-! ### Channels and roles -/

def encAt (w : World) (n : Nat) : EncCh := w.web.enc.getD n EncCh.reset
def setEnc (w : World) (n : Nat) (e : EncCh) : World :=
  { w with web := { w.web with enc := w.web.enc.set n e } }
def updEnc (w : World) (n : Nat) (f : EncCh → EncCh) : World := setEnc w n (f (encAt w n))

/-- The primary encoder that WEB_SRC names. -/
def encPri (w : World) : Nat := getF w Obj.WEB_SRC 0 2
/-- The secondary encoder, only while SEC_MODE is CHECK or BACKUP (R41). -/
def encSec (w : World) : Option Nat :=
  if getF w Obj.WEB_SRC 8 2 = 1 ∨ getF w Obj.WEB_SRC 8 2 = 2 then some (getF w Obj.WEB_SRC 4 2) else none
/-- Whether channel `n` is checked (R34): the active encoder or the secondary. -/
def encInRole (w : World) (n : Nat) : Bool := n == w.web.active || encSec w == some n
/-- Whether channel `n` is monitored for loss (R35): the primary, the active encoder or the secondary. -/
def encNamed (w : World) (n : Nat) : Bool := n == encPri w || encInRole w n
/-- Whether channel `n` decodes: EN is 1 and neither A nor B is lost. -/
def encDecodes (w : World) (n : Nat) : Bool :=
  let e := encAt w n
  getF w (Obj.WEB_ENC_CFG n) 0 1 == 1 && !e.lossA && !e.lossB

/-- The filter delay (N + 2) × 3.2 ns of channel `n` (R33). -/
def encDelay (w : World) (n : Nat) : Frac := frac ((getF w (Obj.WEB_ENC_CFG n) 8 8 + 2 : Nat) * 16) 5
/-- The compensated time of an edge filtered now, in whole ns of the timer (R33). -/
def edgeNs (w : World) (n : Nat) : Int := fracFloor (fracSub (timerFrac w) (encDelay w n))
/-- The ET of a time in ns of the timer. -/
def etOf (ns : Int) : Nat := (ns % 4294967296).toNat

/-- Raise an event of encoder `n` with the compensated ET and the counted position (R33, R61). -/
def raiseEnc (w : World) (code n : Nat) (data : Int) : World :=
  raiseAt w code n (wrapInt 32 data) (etOf (edgeNs w n)) (posReport w.web.pos)

/-! ### Roles, faults and inhibits -/

/-- Make encoder `n` the active one: the speed and SPD_VALID are kept, the edge history starts anew (R42, R47). -/
def makeActive (w : World) (n : Nat) : World :=
  { w with web := { w.web with active := n, run := 0, etHist := [] } }

/-- The first boundary placed whose set-up instant lies ahead, or the end of the frame in progress at the
composition point, or the first line not yet composed (R43). -/
def inhibitPoint (w : World) : Int :=
  match w.job.bounds.find? (fun b => !b.isSetUp && !b.virt) with
  | some b => b.w
  | none =>
    match frameAt w (asr (webPos w) 16) with
    | some f => f.wEnd
    | none => 2 * w.mem.front

def rowAt (w : World) (r : Nat) : RowClk := w.lck.rows.getD r RowClk.reset
def setRow (w : World) (r : Nat) (x : RowClk) : World := { w with lck := { w.lck with rows := w.lck.rows.set r x } }
def updRow (w : World) (r : Nat) (f : RowClk → RowClk) : World := setRow w r (f (rowAt w r))

/-- Put row `r` under an inhibit of kind 1 (encoder fault) or 2 (switch) and raise LCK_INHIBIT as it reaches the row;
`inhibited` is the sum of the kinds that hold. -/
def inhibitRow (w : World) (kind r : Nat) : World :=
  let x := (rowAt w r).inhibited
  if bitOf x (kind - 1) then w else raise (updRow w r fun y => { y with inhibited := x + kind }) Ev.LCK_INHIBIT r kind

/-- The encoder inhibit ends at row `r` (R43). -/
def encoderRelease (w : World) (r : Nat) : World :=
  let x := (rowAt w r).inhibited
  if bitOf x 0 then raise (updRow w r fun y => { y with inhibited := x - 1 }) Ev.LCK_INHIBIT r 0 else w

/-- The switch inhibit ends at row `r` (R56). DEDUCED (log 77): a row that an encoder fault still inhibits is not
reported as released. -/
def switchRelease (w : World) (r : Nat) : World :=
  let x := (rowAt w r).inhibited
  if bitOf x 1 then
    let w := updRow w r fun y => { y with inhibited := x - 2 }
    if x = 2 then raise w Ev.LCK_INHIBIT r 0 else w
  else w

/-- The response to a fault of the active encoder without a usable backup (R43). -/
def encInhibit (w : World) (kind : Nat) : World :=
  if kind = 3 then
    let w := { w with web := { w.web with lossInhibit := true } }
    (List.range 16).foldl (fun w r => inhibitRow w 1 r) w
  else
    let p := inhibitPoint w
    let p := match w.web.wI with | some q => min p q | none => p
    { w with web := { w.web with wI := some p } }

/-- Whether the secondary is usable as a backup (R42). -/
def backupOf (w : World) : Option Nat :=
  match encSec w with
  | some s =>
    let e := encAt w s
    if getF w Obj.WEB_SRC 8 2 = 2 ∧ s ≠ w.web.active ∧ ¬ e.fault ∧ ¬ e.lossA ∧ ¬ e.lossB then some s else none
  | none => none

/-- ENC_FAULT of channel `n` (1 mismatches, 2 illegal, 3 loss), with the switch or the inhibit when it is the active
encoder (R42, R43). A channel whose fault is latched raises it no more, but a loss of the active encoder acts. -/
def encFault (w : World) (n kind : Nat) : World :=
  let again := (encAt w n).fault && !(kind == 3 && n == w.web.active && !w.web.lossInhibit)
  if again then w
  else
    let w := raiseEnc (updEnc w n fun e => { e with fault := true }) Ev.ENC_FAULT n kind
    let w := if encSec w = some n then { w with web := { w.web with slip := none } } else w
    if n ≠ w.web.active then w
    else
      match backupOf w with
      | some s =>
        let former := w.web.active
        let w := makeActive { w with web := { w.web with switched := true } } s
        raiseAt w Ev.ENC_SWITCH s former (etOf (edgeNs w n)) (posReport w.web.pos)
      | none => encInhibit w kind

/-! ### Counted edges -/

/-- The line clock's anchor at a counted edge (R65): the residue moves toward 0 by at most 1/16 line. -/
def rhoDecay (rho : Int) : Int :=
  if rho < 0 then rho + min (-rho) 268435456 else rho - min rho 268435456

def anchorEdge (w : World) (ns : Int) : World :=
  let rho := rhoDecay w.lck.rho
  { w with lck := { w.lck with rhoPrev := w.lck.rho, rho := rho, sE := w.web.pos + rho, tE := ns } }

/-- The tracker on a counted edge of the active encoder (R45). -/
def trackEdge (w : World) (n : Nat) (dir : Int) : World :=
  let t := w.web
  let net := t.net + dir
  let pos := t.pos + dir * lpcOf w n
  let w := { w with web := { t with net := net, pos := pos } }
  if dir = 1 ∧ t.hwmNet < net then
    let w := { w with web := { w.web with hwmNet := net, hwm := pos, trk := .forward } }
    match t.trk with
    | .behind => bump w Obj.WEB_JITTER_EXC
    | .reversed => raiseEnc w Ev.WEB_REVERSAL n 0
    | .forward => w
  else if dir = -1 then
    let trk := if t.trk = .forward then .behind else t.trk
    let w := { w with web := { w.web with trk := trk } }
    if trk = .behind ∧ getO w Obj.WEB_JITTER_LIMIT < t.hwmNet - net then
      let w := bump { w with web := { w.web with trk := .reversed } } Obj.WEB_REVERSALS
      raiseEnc w Ev.WEB_REVERSAL n 1
    else w
  else w

/-- The speed on a counted edge of the active encoder with compensated ET `et` (R47). -/
def speedEdge (w : World) (n : Nat) (dir : Int) (et : Nat) : World :=
  let t := w.web
  let back := decide (dir = -1)
  let clk := w.clk - (getF w (Obj.WEB_ENC_CFG n) 8 8 + 2)
  let w := if t.standstill then raiseEnc w Ev.WEB_MOTION n 1 else w
  let w :=
    if t.standstill || back != t.back then
      { w with web := { w.web with back := back, run := 1, vNum := 0, vDen := 0, valid := false, etHist := [] } }
    else if t.run = 0 then { w with web := { w.web with run := 1 } }
    else
      let run := t.run + 1
      let m := min (getN w Obj.WEB_SPD_AVG) (run - 1)
      let (et0, clk0) := t.etHist.getD (m - 1) (et, clk)
      { w with web := { w.web with run := run, vNum := m * lpcOf w n, vDen := etSpan et et0 (clk - clk0), valid := true } }
  { w with web := { w.web with etHist := ((et, clk) :: w.web.etHist).take 64, etLast := et, edgeClk := clk
                               standstill := false } }

/-- The slip window on a counted edge (R41): travel of the primary and of the secondary in 2^-32 line. -/
def slipEdge (w : World) (n : Nat) (dir : Int) : World :=
  match encSec w with
  | none => { w with web := { w.web with slip := none } }
  | some s =>
    let p := encPri w
    let lost := fun (e : EncCh) => e.lossA || e.lossB || e.lossZ
    if w.web.trk ≠ .forward ∨ lost (encAt w p) = true ∨ lost (encAt w s) = true ∨ (encAt w s).fault = true then
      { w with web := { w.web with slip := none } }
    else
      match w.web.slip with
      | none => if n = p then { w with web := { w.web with slip := some (0, 0) } } else w
      | some (a, b) =>
        let a := if n = p then a + dir * lpcOf w n else a
        let b := if n = s then b + dir * lpcOf w n else b
        { w with web := { w.web with slip := some (a, b) } }

/-- One count of channel `n` in direction `dir` (R33 to R35, R41, R45, R47, R65). -/
def countEdge (w : World) (n : Nat) (dir : Int) : World :=
  let e := encAt w n
  let ns := edgeNs w n
  let close := match e.lastClk with | some c => decide (w.clk - c < 16) && encInRole w n | none => false
  let gap := match e.lastClk with | some c => w.clk - c | none => 0
  let e' := { e with count := wrapSigned 48 (e.count + dir), back := decide (dir = -1), tally := e.tally + 1
                     lastClk := some w.clk }
  let w := setEnc w n e'
  let w :=
    if close then
      let w := bump w (Obj.WEB_ENC_OVERRATE n)
      if stampOk w e.overStamp (secClk 1) then
        raiseEnc (updEnc w n fun e => { e with overStamp := some w.clk }) Ev.ENC_OVERRATE n gap
      else w
    else w
  let w :=
    if n = w.web.active ∧ ¬ w.web.lossInhibit then
      let w := trackEdge w n dir
      let w := speedEdge w n dir (etOf ns)
      anchorEdge w ns
    else w
  slipEdge w n dir

/-- The direction of a count: A leading B counts forward, DIR_INV reverses this. -/
def encDir (w : World) (n : Nat) (aLeads : Bool) : Int :=
  if aLeads != (getF w (Obj.WEB_ENC_CFG n) 4 1 == 1) then 1 else -1

/-- An accepted edge of A or B of channel `n`, in the sense of A leading B or of B leading A. While A or B is lost the
channel decodes nothing and its levels are held (R35). -/
def encEdge (n : Nat) (aLeads : Bool) (w : World) : World :=
  let e := encAt w n
  if n < 4 ∧ ¬ e.lossA ∧ ¬ e.lossB then
    let w := updEnc w n fun e => { e with phase := (e.phase + if aLeads then 1 else 3) % 4 }
    if encDecodes w n then countEdge w n (encDir w n aLeads) else w
  else w

/-- ENC_EDGE (R45). -/
def execEncEdge (n : Nat) (aLeads : Bool) (s : State) : Host.Outcome State Fault Refusal :=
  onWorld (fun c w => whenDo (powered c.mode) (encEdge n aLeads) w) s

/-- An illegal transition of a channel in a role (R34): counted, raised once per second, a fault at the sixteenth
within 1,024 of the channel's own counts. -/
def illegalStep (n : Nat) (w : World) : World :=
  if encInRole w n then
    let e := encAt w n
    let at_ := (e.illegalAt ++ [e.tally]).filter fun t => e.tally < t + 1024
    let w := bump (updEnc w n fun e => { e with illegalAt := at_ }) (Obj.WEB_ENC_ILLEGAL n)
    let w :=
      if stampOk w e.illStamp (secClk 1) then
        raiseEnc (updEnc w n fun e => { e with illStamp := some w.clk }) Ev.ENC_ILLEGAL n e.count
      else w
    if 16 ≤ at_.length then encFault w n 2 else w
  else w

/-- A and B of channel `n` change in one filtered sample. -/
def encIllegal (n : Nat) (w : World) : World :=
  let e := encAt w n
  if n < 4 ∧ ¬ e.lossA ∧ ¬ e.lossB then
    let w := updEnc w n fun e => { e with phase := (e.phase + 2) % 4 }
    if encDecodes w n then illegalStep n w else w
  else w

/-- ENC_ILLEGAL (R34). -/
def execEncIllegal (n : Nat) (s : State) : Host.Outcome State Fault Refusal :=
  onWorld (fun c w => whenDo (powered c.mode) (encIllegal n) w) s

/-! ### Loss and return of a signal -/

/-- The LOSS bits of a channel: A, B, Z from bit 0. -/
def lossBits (e : EncCh) : Nat := b2n e.lossA + 2 * b2n e.lossB + 4 * b2n e.lossZ

/-- Set the LOSS flag of signal 0 (A), 1 (B) or 2 (Z). -/
def setLoss (e : EncCh) (sig : Nat) (on : Bool) : EncCh :=
  match sig with
  | 0 => { e with lossA := on }
  | 1 => { e with lossB := on }
  | _ => { e with lossZ := on }

/-- A signal of a monitored channel has stayed below the loss threshold for 1 µs (R35). -/
def encLoss (n sig : Nat) (w : World) : World :=
  if n < 4 ∧ sig < 3 ∧ encNamed w n = true ∧ ¬ bitOf (lossBits (encAt w n)) sig then
    let w := updEnc w n fun e => setLoss e sig true
    let w := if n = encPri w ∨ encSec w = some n then { w with web := { w.web with slip := none } } else w
    let w := raise w Ev.ENC_LOSS n (lossBits (encAt w n))
    if sig ≠ 2 ∧ n = w.web.active then encFault w n 3 else w
  else w

/-- ENC_LOSS (R35). -/
def execEncLoss (n sig : Nat) (s : State) : Host.Outcome State Fault Refusal :=
  onWorld (fun c w => whenDo (powered c.mode) (encLoss n sig) w) s

/-- The quadrature phase of levels of A and B. -/
def phaseOf (a b : Bool) : Nat := if a then (if b then 2 else 1) else (if b then 3 else 0)

/-- A lost signal has stayed above the threshold for 1 µs; `a` and `b` are the filtered levels found. When both A and
B are back, the levels are compared with the held ones: one count, one illegal transition, or nothing (R35). -/
def encReturn (n sig : Nat) (a b : Bool) (w : World) : World :=
  if n < 4 ∧ sig < 3 ∧ bitOf (lossBits (encAt w n)) sig = true then
    let w := updEnc w n fun e => setLoss e sig false
    let e := encAt w n
    if sig = 2 ∨ e.lossA = true ∨ e.lossB = true then w
    else
      match (phaseOf a b + 4 - e.phase) % 4 with
      | 1 => encEdge n true w
      | 3 => encEdge n false w
      | 2 => encIllegal n w
      | _ => w
  else w

/-- ENC_SIGNAL_RETURN (R35). -/
def execEncSignalReturn (n sig : Nat) (a b : Bool) (s : State) : Host.Outcome State Fault Refusal :=
  onWorld (fun c w => whenDo (powered c.mode) (encReturn n sig a b) w) s

/-! ### The index -/

/-- The deviation d of R37: the index count less the nearest expected one; half a revolution gives a positive d. -/
def indexDev (count ref : Int) (cpr : Nat) : Int :=
  let r := (count - ref) % (cpr : Int)
  if 2 * r ≤ cpr then r else r - cpr

/-- Move the counted position by an index correction of `d` counts on the active encoder: the residue takes the step,
so the anchor stays (R38, R65). An index at the clock of a counted edge belongs to that edge. -/
def indexStep (w : World) (n : Nat) (d : Int) : World :=
  let c := d * lpcOf w n
  let onEdge := (encAt w n).lastClk == some w.clk
  let rho := if onEdge then rhoDecay (w.lck.rhoPrev + c) else w.lck.rho + c
  let pos := w.web.pos - c
  let w := { w with web := { w.web with pos := pos, hwm := w.web.hwm - c } }
  if onEdge then { w with lck := { w.lck with rho := rho, rhoPrev := w.lck.rhoPrev + c, sE := pos + rho } }
  else { w with lck := { w.lck with rho := rho } }

/-- An index within or outside the tolerance (R38, R39). -/
def indexCheck (w : World) (n : Nat) : World :=
  let e := encAt w n
  let d := indexDev e.count e.refCount (getN w (Obj.WEB_ENC_CPR n))
  let w := setO (setO w (Obj.WEB_ENC_IDX_COUNT n) e.count) (Obj.WEB_ENC_IDX_DEV n) (clampInt (-32768) 32767 d)
  if d.natAbs ≤ getN w (Obj.WEB_ENC_IDX_TOL n) then
    let w := updEnc w n fun e => { e with mismRun := 0 }
    if d = 0 then w
    else
      let w := updEnc w n fun e => { e with count := wrapSigned 48 (e.count - d) }
      let w := if n = w.web.active ∧ ¬ w.web.lossInhibit then indexStep w n d else w
      raiseEnc (bump w (Obj.WEB_ENC_IDX_ADJ n)) Ev.INDEX_ADJ n d
  else
    let run := min 3 (e.mismRun + 1)
    let w := bump (updEnc w n fun e => { e with mismRun := run }) (Obj.WEB_ENC_IDX_MISM n)
    let w := raiseEnc w Ev.INDEX_MISMATCH n d
    if run = 3 then encFault w n 1 else w

/-- An index of channel `n`: the first clock at which Z is active and its gate is met (R37 to R40). -/
def indexEvent (n : Nat) (w : World) : World :=
  let e := encAt w n
  if n < 4 ∧ getF w (Obj.WEB_ENC_CFG n) 3 1 = 1 ∧ getN w (Obj.WEB_ENC_CPR n) ≠ 0 ∧ ¬ e.lossZ ∧
      encInRole w n = true ∧ w.web.trk = .forward then
    if e.refValid then indexCheck w n
    else
      let w := updEnc w n fun e => { e with refCount := e.count, refValid := true, refPos := some (posReport w.web.pos) }
      let w := setO w (Obj.WEB_ENC_IDX_COUNT n) e.count
      raiseEnc w Ev.INDEX_REF n e.count
  else w

/-- INDEX (R37). -/
def execIndex (n : Nat) (s : State) : Host.Outcome State Fault Refusal :=
  onWorld (fun c w => whenDo (powered c.mode) (indexEvent n) w) s

/-! ### Slip, standstill, position set -/

/-- The end of a slip window: the signed difference, secondary minus primary (R41). -/
def slipEnd (w : World) : World :=
  match w.web.slip, encSec w with
  | some (a, b), some s =>
    if getO w Obj.WEB_SLIP_WIN * 4294967296 ≤ a then
      let d := b - a
      let w := setO { w with web := { w.web with slip := some (0, 0) } } Obj.WEB_SLIP_LAST
        (clampInt (-2147483648) 2147483647 (asr d 16))
      if getO w Obj.WEB_SLIP_LIMIT * 65536 < d.natAbs then raiseInt w Ev.ENC_SLIP s (asr d 16) else w
    else w
  | _, _ => w

/-- SLIP_WINDOW_END (R41). -/
def execSlipWindowEnd (s : State) : Host.Outcome State Fault Refusal :=
  onWorld (fun c w => whenDo (powered c.mode) slipEnd w) s

/-- Whether no edge has come for WEB_STANDSTILL_MS (R47). -/
def standstillDue (w : World) : Bool :=
  !w.web.standstill && decide (w.web.edgeClk + msClk (getN w Obj.WEB_STANDSTILL_MS) ≤ w.clk)

/-- Standstill: the speed is 0 and SPD_VALID is 0 (R47). -/
def standstill (w : World) : World :=
  raise { w with web := { w.web with standstill := true, vNum := 0, vDen := 0, valid := false } }
    Ev.WEB_MOTION w.web.active 0

/-- Position and high-water mark take a raw Q48.16 value; the tracker stands at its mark (R31). -/
def setPosition (w : World) (v : Int) : World :=
  let p := v * 65536
  { w with web := { w.web with pos := p, hwm := p, hwmNet := w.web.net, trk := .forward, slip := none } }

/-- The web coordinate on entry to SELFTEST (R31): counts, position, mark and speed at 0, references and role faults
unset, the primary encoder active, the probes at their start. -/
def webSelftest (w : World) : World :=
  let enc := w.web.enc.map fun e => { EncCh.reset with phase := e.phase, lossA := e.lossA, lossB := e.lossB, lossZ := e.lossZ }
  let web := { Web.reset with enc := enc, active := encPri w, ssi := w.web.ssi
                              hswInhibit := w.web.hswInhibit, edgeClk := w.clk }
  { w with web := web, lck := { w.lck with rho := 0, rhoPrev := 0, sE := 0 } }

/-- Entry to IDLE: faults and the inhibits they cause end, MISM_RUN clears, the primary is active again (R39, R42,
R43). A row under a switch inhibit stays so. -/
def webIdle (w : World) : World :=
  let w := { w with web := { w.web with enc := w.web.enc.map (fun e => { e with fault := false, mismRun := 0 })
                                        switched := false, lossInhibit := false, wI := none } }
  let w := if w.web.active = encPri w then w else makeActive w (encPri w)
  (List.range 16).foldl encoderRelease w

/-- A write of WEB_SRC: outside the print states the primary becomes active unless a backup has taken over since the
last entry to IDLE (R42, R44). -/
def rolesWritten (w : World) : World :=
  let w := { w with web := { w.web with slip := none } }
  if w.web.switched ∨ w.web.active = encPri w then w else makeActive w (encPri w)

/-- WEB_ENC_STATUS of channel `n`. -/
def encStatus (w : World) (n : Nat) : Nat :=
  let e := encAt w n
  b2n (n == w.web.active) * 4096 + e.mismRun * 512 + b2n e.fault * 256 + b2n e.refValid * 128 + b2n e.back * 64
    + lossBits e

end Sys2Proof.Machine
end

