-- ==== Sys2Proof/Machine/Store.lean ====
section
/-! DEFINITION. The rows and the layer store as the commit and the composition see them: the bar-side set of a line
(R81, R202), row geometry (R62, R63), and the items of the layer store (R108 to R112). -/

namespace Sys2Proof.Machine

/-! ### Bar-side sets and rows -/

def barAt (w : World) (b : Nat) : BarJq := w.jq.bars.getD b BarJq.reset
def setBar (w : World) (b : Nat) (x : BarJq) : World := { w with jq := { w.jq with bars := w.jq.bars.set b x } }
def updBar (w : World) (b : Nat) (f : BarJq → BarJq) : World := setBar w b (f (barAt w b))

/-- Whether key `k` is an object of bar `b`'s set (R200): its JQ parameters, the positions of its rows, and the row
and resolution mode. -/
def isBarKey (b k : Nat) : Bool :=
  k == Obj.LCK_ROW_MODE || k == Obj.LCK_RES_MODE ||
  (k / 256 == 0x2500 + 0x10 * b && k % 256 != 0 && k % 256 ≤ 9) ||
  ((k / 256 == 0x2210 + 2 * b || k / 256 == 0x2211 + 2 * b) && 1 ≤ k % 256 && k % 256 ≤ 3)

/-- The first table index of each bar table, by part: screen, map, trims, volume, coefficients, profile. -/
def barTables : List Nat := [0x3500, 0x3510, 0x3520, 0x3530, 0x3540, 0x3550]
/-- Whether a table key belongs to bar `b`'s set. -/
def isBarTbl (b k : Nat) : Bool := barTables.any fun t => k / 4294967296 == t + b

/-- Whether 600 lpi is in force for a resolution mode, with the half-line state of AUTO (R74). -/
def resIs600 (mode : Int) (hl : Bool) : Bool := mode == 1 || (mode == 2 && hl)

/-- The set of bar `b` as the values in force make it. -/
def makeSet (w : World) (b tag : Nat) (wB : Int) : BarSet :=
  { tag := tag, wB := wB, switch := false, full := getO w Obj.LCK_ROW_MODE == 1
    res600 := resIs600 (getO w Obj.LCK_RES_MODE) w.lck.hl600
    obj := mapFilter w.dict.obj (isBarKey b), tbl := mapFilter w.dict.tbl (isBarTbl b)
    phases := mapFilter w.jq.phases fun k => k / 8192 == b }

/-- The newest set of a queue whose boundary is at or below `x`; the oldest where none is. -/
def pickSet (l : List BarSet) (x : Int) : Option BarSet :=
  match (l.filter (fun s => s.wB ≤ x)).getLast? with
  | some s => some s
  | none => l.head?

/-- Drop the sets behind which both of two readers stand at the boundary of the next. -/
def dropSets (a c : Int) : List BarSet → List BarSet
  | s :: t :: r => if t.wB ≤ a ∧ t.wB ≤ c then dropSets a c (t :: r) else s :: t :: r
  | l => l

/-- The boundary of the set at the front of a row's pass, and the last line that may still feed an unfired line of the
row: a head phase shifts by at most 24 row lines (R179). -/
def passSet (w : World) (b row : Nat) : Int := ((barAt w b).passes.getD row Pass.reset).setB
def fedFrom (w : World) (b row : Nat) : Int := (rowAt w (2 * b + row)).next - 96

/-- The queue of R201: a set leaves it once both rows' fronts have passed the boundary of the next. -/
def setQueue (w : World) (b : Nat) : List BarSet := dropSets (passSet w b 0) (passSet w b 1) (barAt w b).sets

/-- Forget the sets that neither the passes nor the line clock need: a row fires the lines below a boundary under the
set before it (R81), after its front has passed the boundary. -/
def freeSets (w : World) (b : Nat) : World :=
  let need := fun row => min (passSet w b row) (fedFrom w b row)
  updBar w b fun q => { q with sets := dropSets (need 0) (need 1) q.sets }

/-- The set that bar `b` uses for line `x` (R202); with an empty queue, the values in force. -/
def setFor (w : World) (b : Nat) (x : Int) : BarSet := (pickSet (barAt w b).sets x).getD (makeSet w b 0 0)

/-- A value of a set. -/
def setV (s : BarSet) (k : Nat) : Int := mapGetD s.obj k (objDefault k)
/-- A table entry of a set. -/
def setTbl (s : BarSet) (ix e : Nat) (d : Int) : Int := mapGetD s.tbl (tblKey ix e) d

/-- A row position rounded to the nearest 1/64 line, ties upward (R62). -/
def pos64 (raw : Int) : Int := asr (raw + 512) 10

/-- d_r in 1/64 line from L, LCK_ROW_POS and LCK_ROW_ALIGN (R62). -/
def d64Of (look : Nat) (r : Nat) (pos align : Int) : Int := 128 * look + (if r = 0 then 0 else pos64 pos) + align

/-- d_r of row `r` under a set, in 1/64 line. -/
def rowD64 (w : World) (r : Nat) (s : BarSet) : Int :=
  d64Of w.lck.look r (setV s (Obj.LCK_ROW_POS r)) (setV s (Obj.LCK_ROW_ALIGN r))

/-- d_r with the values in force. -/
def rowD64Now (w : World) (r : Nat) : Int :=
  d64Of w.lck.look r (getO w (Obj.LCK_ROW_POS r)) (getO w (Obj.LCK_ROW_ALIGN r))

/-- The line spacing of a set (R63). -/
def setSpacing (s : BarSet) : Int := rowSpacing s.full s.res600

/-- D in web-buffer lines (R18): the distance of row 15 from row 0, a fraction counting as a whole line. -/
def spanD (w : World) : Nat := (ceilDivInt (max 0 (rowD64Now w 15 - rowD64Now w 0)) 128).toNat

/-- Whether a look-ahead fits the ring (R18). -/
def spanFits (w : World) : Bool := spanD w ≤ 55232

/-- The look-ahead that R18 makes of MEM_LOOKAHEAD. -/
def clampLook (w : World) : Nat := max 2048 (min (getN w Obj.MEM_LOOKAHEAD) (57344 - 64 - spanD w))

/-! ### The look-ahead -/

/-- A = c − floor((P − d_0) / 2) (R105). -/
def lookActual (w : World) : Int :=
  w.mem.front - asr (webPos w - rowD64Now w 0 * 1024) 17

/-- MEM_LA_ACTUAL as A stands now: 0 outside the print states (R106). -/
def lookNow (printing : Bool) (w : World) : Int :=
  if printing then clampInt (-2147483648) 2147483647 (lookActual w) else 0

/-- Renew MEM_LA_ACTUAL and MEM_LA_MIN. -/
def noteLook (w : World) : World :=
  let a := lookNow true w
  let w := setO w Obj.MEM_LA_ACTUAL a
  if a < getO w Obj.MEM_LA_MIN then setO w Obj.MEM_LA_MIN a else w

/-! ### Trims and positions of the colour hold loop -/

/-- The key of a nozzle position: bar, row, logical column. -/
def posKey (b row c : Nat) : Nat := b * 262144 + row * 131072 + c

/-- A new trims version reaches a row of bar `b` (R189, R310): what the loop had set there is gone. From row A on the
loop writes no trims until row B; there g_b becomes 1.0 and every u_n the new trim. -/
def newTrims (w : World) (b row : Nat) : World :=
  let w := { w with jq := { w.jq with trims := mapFilter w.jq.trims fun k => k / 131072 != 2 * b + row } }
  if row = 0 then { w with loop := { w.loop with hold := w.loop.hold.set b true } }
  else
    setO { w with loop := { w.loop with hold := w.loop.hold.set b false
                                        u := mapFilter w.loop.u fun k => k / 262144 != b } }
      (Obj.CHL_GAIN b) 16777216

/-! ### Items -/

/-- The key of the image under an ID: the older one while a transfer builds its replacement (R111). -/
def imageKey (w : World) (id : Nat) : Option Nat :=
  (w.mem.items.find? fun e => e.2.ty ≤ 3 && e.2.id == id).map (·.1)

/-- The key of the record of a stream with a sequence number: a complete one, or else the newest (R96). -/
def recordKey (w : World) (stream seq : Nat) : Option Nat :=
  let l := w.mem.items.filter fun e => 4 ≤ e.2.ty && e.2.id == stream && e.2.seq == seq
  match l.find? fun e => e.2.state == 2 with
  | some e => some e.1
  | none => l.getLast?.map (·.1)

def itemAt (w : World) (k : Nat) : Option Item := mapGet w.mem.items k
def setItem (w : World) (k : Nat) (i : Item) : World := { w with mem := { w.mem with items := mapPut w.mem.items k i } }
def dropItem (w : World) (k : Nat) : World := { w with mem := { w.mem with items := mapDel w.mem.items k } }

/-- Channels and bytes per sample of an item (R108). -/
def itemChannels (i : Item) : Nat := i.format / 16 + 1
def itemBps (i : Item) : Nat := if bitOf i.format 3 then 2 else 1
/-- Whether an item is a Muslin stream. -/
def itemMuslin (i : Item) : Bool := i.ty == 3 || i.ty == 5
/-- The raw size of an item. -/
def itemRaw (i : Item) : Nat := i.width * i.height * itemChannels i * itemBps i

/-- The layer store in blocks of 64 KiB: in force, taken, free. -/
def storeBlocks (w : World) : Nat := getN w Obj.MEM_LS_MIB * 16
def usedBlocks (w : World) : Nat := (w.mem.items.map (·.2.blocks)).foldl (· + ·) 0
def freeBlocks (w : World) : Nat := storeBlocks w - usedBlocks w

/-- Whether a layer in force or in a shadow names image `id` (R112), or a set that lines are still composed from uses it:
the one before a boundary, or content that is held (R166). -/
def imageInUse (w : World) (id : Nat) : Bool :=
  match imageKey w id with
  | none => false
  | some k =>
    let names := fun (get : Nat → Int) (n : Nat) =>
      field (get (Obj.LAY_CFG n)).toNat 8 2 == 1 && get (Obj.LAY_IMAGE_ID n) == id
    (List.range 10).any (fun n => names (getO w) n || names (getSh w) n) ||
    w.job.calSets.any fun s => s.layers.any fun u => match u with | some u => u.item == k | none => false

end Sys2Proof.Machine
end

