-- ==== Sys2Proof/Machine/Ports.lean ====
section
/-! DEFINITION. The head ports as the line clock and the schedulers see them: links and chains (R252 to R254), head
profiles (R209, R210, R264), nozzle counts, the lead (R66), F_max, head phases (R70, R179), and attaching heads
(R72, R199, R254). -/

namespace Sys2Proof.Machine

/-! ### Links and ports -/

def linkAt (w : World) (i : Nat) : Link := w.links.getD i Link.reset
def setLink (w : World) (i : Nat) (l : Link) : World := { w with links := w.links.set i l }
def updLink (w : World) (i : Nat) (f : Link → Link) : World := setLink w i (f (linkAt w i))

def portAt (w : World) (p : Nat) : FirePort := w.fire.getD p FirePort.reset
def setPort_ (w : World) (p : Nat) (x : FirePort) : World := { w with fire := w.fire.set p x }
def updPort (w : World) (p : Nat) (f : FirePort → FirePort) : World := setPort_ w p (f (portAt w p))

/-- The head ports of bar `b`. -/
def barPorts (b : Nat) : List Nat := [2 * b, 2 * b + 1]

/-- Whether a link is enabled (YQL_PORT_CFG.EN, YQL_CAM_CFG.EN). -/
def linkEn (w : World) (i : Nat) : Bool :=
  if i < 16 then bitOf (getN w (Obj.YQL_PORT_CFG i)) 0 else bitOf (getN w (Obj.YQL_CAM_CFG (i - 16))) 0

/-! ### Head profiles -/

/-- A head profile (R209): nozzles per row, groups, BLOCK layout, slot and guard times, the energy of each code, the
group limit and the fire limit. -/
structure Prof where
  nozzles : Nat
  groups : Nat
  block : Bool
  slotNs : Nat
  guardNs : Nat
  e : List Nat
  limit : Nat
  fireMax : Nat
  deriving DecidableEq, Repr

/-- Profile `k` as written. -/
def profRaw (w : World) (k : Nat) : Prof :=
  { nozzles := getN w (Obj.YQL_HPF_NOZZLES k), groups := getN w (Obj.YQL_HPF_GROUPS k)
    block := getO w (Obj.YQL_HPF_LAYOUT k) == 1, slotNs := getN w (Obj.YQL_HPF_SLOT_NS k)
    guardNs := getN w (Obj.YQL_HPF_GUARD_NS k), e := 0 :: (List.range 7).map fun i => getN w (Obj.YQL_HPF_E_WAVE k i)
    limit := getN w (Obj.YQL_HPF_E_LIMIT k), fireMax := getN w (Obj.YQL_HPF_FIRE_MAX_HZ k) }

/-- The group of nozzle `j` of a head row (R209). -/
def groupOf (p : Prof) (j : Nat) : Nat := if p.block then j * p.groups / max 1 p.nozzles else j % p.groups

/-- The nozzles of group `g` in group order. -/
def groupNozzles (p : Prof) (g : Nat) : List Nat := (List.range p.nozzles).filter fun j => groupOf p j == g

/-- Every second element, from position `k`. -/
def everySecond (k : Nat) (l : List Nat) : List Nat :=
  ((l.zip (List.range l.length)).filter fun e => e.2 % 2 == k).map (·.1)

/-- The energy of some nozzles of a head under codes (R213). -/
def energyOf (p : Prof) (codes : List Nat) (js : List Nat) : Nat :=
  (js.map fun j => p.e.getD (codes.getD j 0) 0).foldl (· + ·) 0

/-- The sums of R213: the energies of the even and odd positions of each group. -/
def halfEnergies (p : Prof) (codes : List Nat) : List (Nat × Nat) :=
  (List.range p.groups).map fun g =>
    let js := groupNozzles p g
    (energyOf p codes (everySecond 0 js), energyOf p codes (everySecond 1 js))

/-- The power of two at or below a group count. -/
def pow2Below (g : Nat) : Nat := if 16 ≤ g then 16 else if 8 ≤ g then 8 else if 4 ≤ g then 4 else if 2 ≤ g then 2 else 1

/-- Energies raised to the one before (R210). -/
def risingE : Nat → List Nat → List Nat
  | _, [] => []
  | m, x :: xs => max m x :: risingE (max m x) xs

/-- The corrected profile (R210). -/
def profFix (p : Prof) : Prof :=
  let g := pow2Below p.groups
  { p with groups := g, e := risingE 0 p.e, fireMax := min p.fireMax (1000000000 / (g * p.slotNs + p.guardNs)) }

/-- The lowest-numbered profile with a code (R264). -/
def slotOf (w : World) (code : Nat) : Option Nat :=
  if code = 0 then none else (List.range 16).find? fun k => getN w (Obj.YQL_HPF_CODE k) == code

/-- The corrected profile of a head. -/
def headProf (w : World) (h : Head) : Option Prof := (slotOf w h.code).map fun k => profFix (profRaw w k)

/-- Nozzles per row of a head, by its profile; none where no profile matches. -/
def headNozzles (w : World) (h : Head) : Nat := match headProf w h with | some p => p.nozzles | none => 0

/-! ### Chains -/

/-- A head in chain order: its driver (from 0), its number there, the chain index of its first nozzle, its nozzles
per row. -/
structure ChainHead where
  drv : Nat
  hd : Nat
  base : Nat
  n : Nat
  head : Head
  deriving DecidableEq, Repr

/-- The heads of a driver from head `h` on. -/
def chainOfHeads (w : World) (d : Nat) : Nat → Nat → List Head → List ChainHead
  | _, _, [] => []
  | h, base, x :: xs =>
    { drv := d, hd := h, base := base, n := headNozzles w x, head := x } ::
      chainOfHeads w d (h + 1) (base + headNozzles w x) xs

/-- The heads of a list of drivers from driver `d` on (R243). -/
def chainOfDrivers (w : World) : Nat → Nat → List Driver → List ChainHead
  | _, _, [] => []
  | d, base, x :: xs =>
    let l := chainOfHeads w d 0 base x.heads
    l ++ chainOfDrivers w (d + 1) (base + (l.map (·.n)).foldl (· + ·) 0) xs

/-- The chain of head port `p`; an enabled port only (R254). -/
def chain (w : World) (p : Nat) : List ChainHead :=
  if linkEn w p then chainOfDrivers w 0 0 (linkAt w p).drivers else []

/-- The attached heads of a port. -/
def attachedHeads (w : World) (p : Nat) : List ChainHead := (chain w p).filter (·.head.attached)

/-- Nozzles per row of a port: YQL_PORT_NOZZLES. -/
def portNozzles (w : World) (p : Nat) : Nat := ((chain w p).map (·.n)).foldl (· + ·) 0

/-- A head's key in a FIFO line. -/
def headKey (c : ChainHead) : Nat := c.drv * 8 + c.hd
/-- A head row's key for its phase. -/
def phaseKey (p d h row : Nat) : Nat := p * 4096 + d * 256 + h * 2 + row

/-! ### Latency, lead and limits -/

/-- Sum of the retiming delays of the drivers before driver `k`. -/
def fwdBefore (ds : List Driver) (k : Nat) : Nat := ((ds.take k).map (·.tFwd)).foldl (· + ·) 0
def retBefore (ds : List Driver) (k : Nat) : Nat := ((ds.take k).map (·.tRet)).foldl (· + ·) 0

/-- D_k in 1/8 ns from the round trip in 1/8 ns, ties upward (R253). -/
def latOf (ds : List Driver) (k rtt : Nat) : Int :=
  let d := ds.getD k { serial := 0, vendor := 0, type := 0, version := 0, tFwd := 0, tRet := 0, tTurn := 0, tProc := 0
                       rtt := none, lat := 0, base := 0, status := 0, statusClk := 0, heads := [] }
  let f := fwdBefore ds k
  roundDiv ((rtt : Int) - 8 * (f + retBefore ds k) - 8 * d.tTurn) 2 + 8 * f

/-- The chain latency in whole ns, rounded up (R253). -/
def chainLat (l : Link) : Nat :=
  (l.drivers.map fun d => (ceilDivInt (d.lat + 8 * d.tProc) 8).toNat).foldl max 0

/-- The lead of bar `b`'s rows in ns (R66): the longest transmission and chain latency of its ports, and the margin. -/
def leadNs (w : World) (b : Nat) : Nat :=
  ((barPorts b).map fun p => txNs (portNozzles w p) + chainLat (linkAt w p)).foldl max 0 + getN w Obj.LCK_LEAD_MARGIN_NS

/-- F_max of bar `b`'s rows in Hz: the device's limit, the head profiles of its ports, the governor's ceiling. -/
def fMax (w : World) (b : Nat) : Nat :=
  let heads := (barPorts b).flatMap fun p => attachedHeads w p
  (heads.map fun c => match slotOf w c.head.code with | some k => getN w (Obj.YQL_HPF_FIRE_EFF k) | none => 80000).foldl min
    (min 80000 (getN w Obj.LCK_CEIL_HZ))

/-! ### Head phases -/

/-- The phase of a head row in a set, in 1/64 line. -/
def headPhase (s : BarSet) (p : Nat) (c : ChainHead) (row : Nat) : Int := mapGetD s.phases (phaseKey p c.drv c.hd row) 0
/-- The whole-line part of a phase (R70). -/
def phaseQ (h s : Int) : Int := h / (64 * s)
/-- The remainder f' of a phase in 1/64 line (R70). -/
def phaseRem (h s : Int) : Int := h % (64 * s)

/-- Limit a phase at load and record it (R179). -/
def loadPhase (w : World) (p d h row : Nat) (v : Int) : World :=
  let v' := clampInt (-1536) 1536 v
  let w := if v = v' then w
    else
      let w := adjust w Obj.LCK_ALIGN_TABLE (if v < v' then 1 else 2) 0 v v'
      raise w Ev.JQ_PHASE_CLAMPED p ((d + 1) * 256 + h)
  { w with jq := { w.jq with phases := mapPutD w.jq.phases (phaseKey p d h row) v' 0 } }

/-- The entry of the alignment table for a serial (R71). -/
def alignOf (w : World) (serial : Nat) : Option (Nat × AlignRec) := w.lck.align.find? fun e => e.2.serial == serial

/-- Load the phases of an attached head (R72); `fresh` says that ALIGN_MISSING may be raised. -/
def loadAlign (w : World) (p d h serial : Nat) (fresh : Bool) : Bool × World :=
  match alignOf w serial with
  | some (_, a) =>
    if a.valid then (true, loadPhase (loadPhase w p d h 0 a.phA) p d h 1 a.phB)
    else
      let w := loadPhase (loadPhase w p d h 0 0) p d h 1 0
      (false, if fresh then raise w Ev.ALIGN_MISSING p ((d + 1) * 256 + h) else w)
  | none =>
    let w := loadPhase (loadPhase w p d h 0 0) p d h 1 0
    (false, if fresh then raise w Ev.ALIGN_MISSING p ((d + 1) * 256 + h) else w)

/-! ### Nozzle states -/

/-- The key of a nozzle: bar, port side, row, chain index (R195). -/
def nozKey (b side row i : Nat) : Nat := b * 262144 + side * 131072 + row * 65536 + i
/-- The working state of a nozzle: 0 OK, 1 WEAK, 2 OUT. -/
def nozState (w : World) (k : Nat) : Nat := mapGetD w.jq.noz k 0
def setNozState (w : World) (k v : Nat) : World := { w with jq := { w.jq with noz := mapPutD w.jq.noz k v 0 } }

/-- A change of a nozzle's state in place, with its event (R197): `e` is side, row and chain index. -/
def changeNoz (w : World) (b e v : Nat) : World :=
  let k := b * 262144 + e
  if nozState w k = v then w
  else raise (setNozState w k v) Ev.JQ_NOZ_STATE b (v * 1073741824 + e)

/-- Set the states of the nozzles of a head row from a list. -/
def loadStates (w : World) (b side row base : Nat) (l : List Nat) : World :=
  (l.zip (List.range l.length)).foldl (fun w e => changeNoz w b (nozKey 0 side row (base + e.2)) e.1) w

/-- The head record of a serial (R198). -/
def headRecordOf (w : World) (serial : Nat) : Option HeadRecord :=
  (w.jq.recs.find? fun e => e.2.serial == serial).map (·.2)

/-- Load the nozzle states of an attached head (R199): from its record, or all OK. -/
def loadHeadRecord (w : World) (p d h base n serial : Nat) : Bool × World :=
  let states := fun (r : Option HeadRecord) row => (List.range n).map fun j =>
    match r with | some r => min 2 (mapGetD r.states (4096 * row + j) 0) | none => 0
  let load := fun (r : Option HeadRecord) w =>
    (List.range 2).foldl (fun w row => loadStates w (p / 2) (p % 2) row base (states r row)) w
  match headRecordOf w serial with
  | some r =>
    if r.valid ∧ r.nozzles = n then (true, load (some r) w)
    else (false, raise (load none w) Ev.JQ_HEAD_NEW p ((d + 1) * 256 + h))
  | none => (false, raise (load none w) Ev.JQ_HEAD_NEW p ((d + 1) * 256 + h))

/-! ### Counts that objects show -/

/-- Attached heads of all ports with their port. -/
def allHeads (w : World) : List (Nat × ChainHead) :=
  (List.range 16).flatMap fun p => (attachedHeads w p).map fun c => (p, c)

/-- LCK_ALIGN_INVALID (R72). -/
def alignInvalid (w : World) : Nat := ((allHeads w).filter fun e => !e.2.head.aligned).length
/-- JQ_HEAD_UNKNOWN (R199). -/
def headUnknown (w : World) : Nat := ((allHeads w).filter fun e => !e.2.head.known).length
/-- YQL_HPF_HEADS. -/
def profHeads (w : World) (k : Nat) : Nat := ((allHeads w).filter fun e => slotOf w e.2.head.code == some k).length

/-! ### Profiles on entry to ARMED -/

/-- Profiles with the same code: the lower-numbered one keeps it (R264). -/
def dedupProfiles (w : World) : World :=
  (List.range 16).foldl (fun w k =>
    let c := getN w (Obj.YQL_HPF_CODE k)
    if c ≠ 0 ∧ (List.range k).any (fun j => getN w (Obj.YQL_HPF_CODE j) == c) = true then
      storeLater (adjust (setO w (Obj.YQL_HPF_CODE k) 0) (Obj.YQL_HPF_CODE k) 7 0 c 0) (Obj.YQL_HPF_CODE k) 0
    else w) w

/-- The corrected fields of a profile: key, written value, corrected value. -/
def profCorrections (w : World) (k : Nat) : List (Nat × Nat × Nat) :=
  let r := profRaw w k
  let f := profFix r
  let waves := (List.range 7).map fun i => (Obj.YQL_HPF_E_WAVE k i, r.e.getD (i + 1) 0, f.e.getD (i + 1) 0)
  ((Obj.YQL_HPF_GROUPS k, r.groups, f.groups) :: waves ++ [(Obj.YQL_HPF_FIRE_MAX_HZ k, r.fireMax, f.fireMax)]).filter
    fun e => e.2.1 != e.2.2

/-- R210 for profile `k` on entry to ARMED. -/
def applyProfile (w : World) (k : Nat) : World :=
  let c := profCorrections w k
  let w := setO w (Obj.YQL_HPF_FIRE_EFF k) (profFix (profRaw w k)).fireMax
  if ¬ w.sys.profNew.getD k true then w
  else
    let w := { w with sys := { w.sys with profNew := w.sys.profNew.set k false } }
    let w := c.foldl (fun w e => adjust w e.1 7 0 e.2.1 e.2.2) w
    if c = [] then w
    else match (allHeads w).find? fun e => slotOf w e.2.head.code == some k with
      | some (p, h) => raise w Ev.FIR_PROFILE_CLAMP p (k * 65536 + (h.drv + 1) * 256 + h.hd)
      | none => w

def armProfiles (w : World) : World := (List.range 16).foldl applyProfile (dedupProfiles w)

/-! ### Link time -/

/-- The link tick of an instant of the timer, rounded to the nearest with ties upward (R66, R238): from the present
link time and timer, at the ratio that the timer's rate implies. -/
def toTicks (w : World) (t : Frac) : Int :=
  let perNs := fracDiv (frac 5 2) (frac (getO w Obj.TIM_ADDEND) 268435456)
  fracRound (fracAdd (frac w.tim.halfTicks 2) (fracMul (fracSub t (timerFrac w)) perNs))

/-- The line number of LINE_START (R63). -/
def lineNumber (res600 : Bool) (x : Int) : Nat := wrapInt 24 (if res600 then x / 2 else x)

/-! ### Commands -/

/-- An instant of the timer in unit intervals of 0.16 ns on the count of the clock. -/
def uiAt (w : World) (t : Frac) : Nat := (20 * w.clk + fracFloor (fracMul (fracSub t (timerFrac w)) (frac 25 4))).toNat

/-- Unit intervals from one place of a sending direction to the next (R230, R236): a block of 66 bits on six lanes of 6.25
Gb/s, or on one of 1.5625 Gb/s. -/
def placeUi (i : Nat) : Nat := if i < 16 then 11 else 264

/-- The first free place of a link at or after an instant. -/
def placeAt (w : World) (i ui : Nat) : Nat :=
  let x := (linkAt w i).wire
  max x.next (ceilDiv (ui - x.alignUi) (placeUi i))

/-- Put blocks on the lanes of a link from an instant on (R233, R236). The IDLE blocks before them are not counted: the
registers behind IDLE blocks are free values (log 84). -/
def putBlocks (w : World) (i ui : Nat) (bs : List Block) : World :=
  let x := (linkAt w i).wire
  let n := sendLanes i
  let g := placeAt w i ui
  let placed := placeBlocks n x.seq g bs
  let lanes := (List.range n).map fun k =>
    scrambleLane (if g = x.next ∧ x.regs ≠ [] then x.regs.getD k 0 else (Config.laneReg i k x.alignUi g).toNat)
      ((placed.filter fun e => laneOf n e.1 == k).map (·.2))
  updLink w i fun l => { l with wire := { x with next := (placed.getLast?.map (·.1)).getD g + 1
                                                 regs := lanes.map (·.2), lanes := lanes.map (·.1) } }

/-- SEQ of the last ALIGN set of a head port (R236). -/
def alignSeq (w : World) (p : Nat) : Nat :=
  let x := (linkAt w p).wire
  x.seq + (20 * w.clk - x.alignUi) / 66 / 16384

/-- LINK_TIME of a SYNC sent now: the link time at which its header leaves (R239). -/
def syncTime (w : World) (i : Nat) : Nat :=
  let at_ := (linkAt w i).wire.alignUi + placeUi i * placeAt w i (20 * w.clk)
  (linkTime w + (roundDiv ((at_ : Int) - 20 * w.clk) 8).toNat) % 281474976710656

/-- Send a SYNC block (R239). -/
def putSync (w : World) (i : Nat) : World :=
  let t := syncTime w i
  putBlocks (send (updLink w i fun l => { l with syncDue := false, syncSeq := alignSeq w i }) (.sync i t)) i (20 * w.clk)
    [controlBlock (syncBlock t)]

/-- The ALIGN sets of a link start anew with number `seq` at an instant. -/
def restartAlign (w : World) (i ui seq : Nat) : World :=
  updLink w i fun l => { l with wire := { l.wire with alignUi := ui, seq := seq, next := 0, regs := [] } }

/-- The end of electrical idle (R257): its time counts in FIR_IDLE_PCT, and the training burst runs from 1,000 ns on. Its
ALIGN set leaves at 1,337.92 ns and the header of its SYNC at 1,665.28 ns, 1,301 ticks after the restart. -/
def exitIdle (w : World) (p : Nat) : World :=
  let x := portAt w p
  if ¬ x.idle then w
  else
    let w := updPort w p fun x => { x with idle := false, idles := (x.idles.filter fun e => w.clk < e.2 + secClk 1) ++ [(x.idleClk, w.clk)] }
    let t := (linkTime w + 1301) % 281474976710656
    let ui := 20 * w.clk + 8362
    let lanes := (List.range 6).map fun k => scrambleLane (Config.laneReg p k ui 0).toNat (burstLane t k)
    let w := updLink w p fun l => { l with syncDue := false, syncSeq := 0, wire :=
      { alignUi := ui, seq := 0, next := 192, regs := lanes.map (·.2), lanes := lanes.map (·.1) } }
    send w (.sync p t)

/-- A command goes out with its TAG. -/
def emitCmd (w : World) (i addr op tag arg : Nat) (data : List Nat) : World :=
  putBlocks (send w (.yql i addr op tag arg data)) i (20 * w.clk) (cmdBlocks addr op tag arg data)

/-- Take the next TAG of a link; command traffic ends electrical idle (R226, R248). -/
def takeTag (w : World) (i : Nat) : Nat × World :=
  let w := if i < 16 then exitIdle w i else w
  let t := ((linkAt w i).tag + 1) % 256
  (t, updLink w i fun l => { l with tag := t })

/-- Send a command whose response is an event of its own (ENUM, LAT_ECHO, MARGIN), or that has none. -/
def sendRaw (w : World) (i addr op arg : Nat) : World :=
  let (t, w) := takeTag w i
  emitCmd w i addr op t arg []

/-- Whether line frames occupy the lanes of a link: a command waits for the gap behind them (R249). -/
def lanesBusy (w : World) (i : Nat) : Bool := decide (i < 16) && !(portAt w i).tx.isEmpty

/-- Send a command that waits for its response, between two line frames (R248, R249). -/
def sendCmd (w : World) (i addr op arg : Nat) (data : List Nat) : World :=
  let (t, w) := takeTag w i
  let c : YCmd := { tag := t, addr := addr, op := op, arg := arg, data := data, tries := 1, clk := w.clk
                    waiting := lanesBusy w i }
  let w := updLink w i fun l => { l with cmds := l.cmds ++ [c] }
  if c.waiting then w else emitCmd w i addr op t arg data

/-- The commands that wait for a gap go out, in order. -/
def flushCmds (w : World) (i : Nat) : World :=
  let l := (linkAt w i).cmds.filter (·.waiting)
  let w := updLink w i fun x => { x with cmds := x.cmds.map fun c =>
    if c.waiting then { c with waiting := false, clk := w.clk } else c }
  l.foldl (fun w c => emitCmd w i c.addr c.op c.tag c.arg c.data) w

/-- SET_PHASE of every attached head row of a port (R251) under the set of its row: `now`, or from the first line of the
set. -/
def sendPhases (w : World) (p : Nat) (sets : Nat → BarSet) (now : Bool) : World :=
  (attachedHeads w p).foldl (fun w c => (List.range 2).foldl (fun w row =>
    let s := sets row
    let sp := setSpacing s
    let code : Nat := if sp = 1 then 0 else if sp = 2 then 1 else 2
    let f := (phaseRem (headPhase s p c row) sp).toNat
    let arg := c.hd * 536870912 + row * 268435456 + f % 256 * 1048576 + code * 262144
    let line := lineNumber s.res600 (rowFirst row s.full s.res600 s.wB)
    sendCmd w p (c.drv + 1) 6 arg [if now then 16777216 else line]) w) w

end Sys2Proof.Machine
end

