-- ==== Sys2Proof/Machine/Probe.lean ====
section
/-! DEFINITION. Probe windows (R50, R51, R477) and the frame-start probe (R54). -/

namespace Sys2Proof.Machine

def prbAt (w : World) (n : Nat) : Probe := w.web.prb.getD n Probe.reset
def updPrb (w : World) (n : Nat) (f : Probe → Probe) : World :=
  { w with web := { w.web with prb := w.web.prb.modify n f } }

/-- Whether the window of probe `n` is an ET window. -/
def winEt (w : World) (n : Nat) : Bool := getF w (Obj.WEB_PRB_CFG n) 5 1 == 1
/-- Whether probe `n` has a window: EN and WIN_EN. -/
def winOn (w : World) (n : Nat) : Bool :=
  getF w (Obj.WEB_PRB_CFG n) 0 1 == 1 && getF w (Obj.WEB_PRB_CFG n) 4 1 == 1

/-- START, END or PERIOD (part 0, 1, 2) of probe `n` in force. -/
def winKey (n part : Nat) : Nat := Obj.WEB_PRB_WIN_START n + part
def winVal (w : World) (n part : Nat) : Int :=
  let v := getO w (winKey n part)
  if winEt w n then v % 4294967296 else v
/-- What START, END or PERIOD reads: a held write reads back as written. -/
def winRead (w : World) (n part : Nat) : Int :=
  match (prbAt w n).held.getD part none with
  | some v => v
  | none => getO w (winKey n part)

/-- Whether a latched value lies in the half-open window [s, e) (R50). -/
def insideWin (etMode : Bool) (s e q : Int) (et : Nat) : Bool :=
  if etMode then decide (etDiff et s.toNat < etDiff e.toNat s.toNat)
  else decide (0 ≤ posDiff q s ∧ posDiff q e < 0)

/-- Whether the window of probe `n` is open now. -/
def winOpen (w : World) (n : Nat) : Bool :=
  winOn w n && (prbAt w n).armed && insideWin (winEt w n) (winVal w n 0) (winVal w n 1) (webPos w) (nowEt w)

/-- Whether the window of probe `n` has reached its end (R51, R476). An ET end up to 2^31 ns ago is reached, unless the
window starts within the next 2^31 ns. -/
def winEnded (w : World) (n : Nat) : Bool :=
  let s := winVal w n 0
  let e := winVal w n 1
  if winEt w n then
    let now := nowEt w
    decide (etDiff now e.toNat < 2147483648) && !decide (etDiff s.toNat now ≠ 0 ∧ etDiff s.toNat now < 2147483648)
  else posReached w e

/-- A window value that a check of R51 changes: an adjustment with reason 7. -/
def winClamp (w : World) (n part source : Nat) (new : Int) : World :=
  let k := winKey n part
  let old := getO w k
  if old = new then w else storeLater (adjust (setO w k new) k 7 source old new) k new

/-- The checks of R51 on the window values of probe `n`; a position window longer than 2^46 lines is cut to that (R30). -/
def winCheck (w : World) (n source : Nat) : World :=
  let s := winVal w n 0
  let e := winVal w n 1
  let p := winVal w n 2
  if winEt w n then
    let len := etDiff e.toNat s.toNat
    let len' : Nat := if len = 0 then 1 else satNat 2147483648 len
    let w := if len' = len then w else winClamp w n 1 source ((s + len') % 4294967296)
    if p ≠ 0 ∧ p < len' then winClamp w n 2 source len' else w
  else
    let len := posDiff e s
    let len' := if len ≤ 0 then 65536 else min len (linePos (2 ^ 46))
    let w := if len' = len then w else winClamp w n 1 source (wrapSigned 64 (s + len'))
    if p ≠ 0 ∧ p < len' then winClamp w n 2 source len' else w

/-- Put the held writes of probe `n` into its objects. -/
def winApplyHeld (w : World) (n : Nat) : World :=
  let h := (prbAt w n).held
  let w := (List.range 3).foldl (fun w i =>
    match h.getD i none with
    | some v => storeLater (setO w (winKey n i) v) (winKey n i) v
    | none => w) w
  updPrb w n fun p => { p with held := [none, none, none] }

/-- The probe afresh (R477): no previous accepted latch, its window armed from the objects. -/
def Probe.afresh (p : Probe) : Probe :=
  { p with armed := true, accepted := false, extraRaised := false, closed := [], lastPos := none }

/-- Arm the window of probe `n` from its objects. -/
def winArm (w : World) (n : Nat) : World :=
  updPrb w n fun p => { p with armed := true, accepted := false, extraRaised := false }

/-- Every probe starts afresh (R477): held writes take effect, the values are checked and the windows armed. -/
def prbAfresh (w : World) : World :=
  (List.range 8).foldl (fun w n =>
    let w := winApplyHeld w n
    let w := winCheck w n 0
    updPrb w n Probe.afresh) w

/-- A change of WEB_PRB_CFG in force: a probe whose window comes on, goes off or changes its mode is armed anew. -/
def prbReconf (old w : World) : World :=
  (List.range 8).foldl (fun w n =>
    if winOn old n = winOn w n ∧ winEt old n = winEt w n then w
    else winArm (winCheck (winApplyHeld w n) n 0) n) w

/-- Whether probe `n` is a frame-start probe under a configuration: EN and FRAME_START. -/
def isFrameStart (cfg : Nat) : Bool := bitOf cfg 0 && bitOf cfg 6
/-- The frame-start probe in force (R54, R89). -/
def frameStartProbe (w : World) : Option Nat :=
  (List.range 8).find? fun n => isFrameStart (getN w (Obj.WEB_PRB_CFG n))

end Sys2Proof.Machine
end

