-- ==== Sys2Proof/Machine/Commit.lean ====
section
/-! DEFINITION. The commit (chapter 6): the cross-field rules (R54, R83, R169, R204, R289), the readiness of layers
(R161, R165), and applying the shadow set (R162, R163, R167, R201). -/

namespace Sys2Proof.Machine

/-! ### Which objects a commit moves, and when -/

/-- Whether `k` is a C object. -/
def isC (k : Nat) : Bool := match objRow k with | some (r, _, _) => r.c | none => false
/-- Whether a table key belongs to a shadowed table. -/
def isCTbl (k : Nat) : Bool := isC (k / 4294967296 * 256)

/-- The C objects that are neither Calico's nor the bar side's: they take effect when the web reaches the boundary
(R163). -/
def isHeldKey (k : Nat) : Bool :=
  (List.range 4).any (fun n => k == Obj.WEB_ENC_LPC n) || (List.range 8).any (fun n => k == Obj.WEB_PRB_CFG n) ||
  [Obj.JOB_FRAME_SRC, Obj.JOB_FRAME_LEN, Obj.JOB_FRAME_GAP, Obj.JOB_MARK_OFS, Obj.JOB_REPEAT,
   Obj.JOB_VD_SEQ_START, Obj.INS_POS, Obj.INS_WIN_LINES].contains k

/-- The value of an object in the newest set handed out, or else in force. -/
def comingO (w : World) (k : Nat) : Int :=
  match w.job.fins.getLast? with
  | some f => if isHeldKey k then mapGetD f.held k (objDefault k) else getO w k
  | none => getO w k
/-- The frame-start probe of the newest set handed out. -/
def comingProbe (w : World) : Option Nat :=
  (List.range 8).find? fun n => isFrameStart (comingO w (Obj.WEB_PRB_CFG n)).toNat

/-! ### The cross-field rules -/

/-- A clamp of a shadow value by a rule at commit: reason 7 (R327), counted in JOB_COMMIT_CLAMPS. -/
def clampSh (w : World) (k : Nat) (new : Int) : World :=
  let old := getSh w k
  if old = new then w
  else
    let w := storeLater (setSh w k new) k new
    setO (adjust w k 7 0 old new) Obj.JOB_COMMIT_CLAMPS (min 65535 (getO w Obj.JOB_COMMIT_CLAMPS + 1))

/-- R54: the lowest-numbered probe with FRAME_START keeps it. -/
def ruleFrameStart (w : World) : World :=
  let has := fun (w : World) n => bitOf (getSh w (Obj.WEB_PRB_CFG n)).toNat 6
  match (List.range 8).find? (has w) with
  | none => w
  | some f => (List.range 8).foldl (fun w n =>
      if n ≠ f ∧ has w n = true then
        clampSh w (Obj.WEB_PRB_CFG n) (setField (getSh w (Obj.WEB_PRB_CFG n)).toNat 6 1 0 : Nat)
      else w) w

/-- The shadow position of row `r` relative to 2 × L, in 1/64 line. -/
def shRel (w : World) (r : Nat) : Int :=
  d64Of 0 r (getSh w (Obj.LCK_ROW_POS r)) (getSh w (Obj.LCK_ROW_ALIGN r))

/-- R83 rule 1 in a print state: all rows keep the positions and alignments in force. -/
def keepRows (w : World) : World :=
  (List.range 16).foldl (fun w r =>
    let w := if r = 0 then w else clampSh w (Obj.LCK_ROW_POS r) (getO w (Obj.LCK_ROW_POS r))
    clampSh w (Obj.LCK_ROW_ALIGN r) (getO w (Obj.LCK_ROW_ALIGN r))) w

/-- R83 rule 1: the order of the rows, taken in increasing r. -/
def ruleRows (print : Bool) : List Nat → World → World
  | [], w => w
  | r :: rs, w =>
    let need := shRel w (r - 1) + 1
    if shRel w r < need then
      let v := (need - getSh w (Obj.LCK_ROW_ALIGN r)) * 1024
      if 110464 * 65536 < v then
        if print then keepRows w
        else ruleRows print rs (clampSh w (Obj.LCK_ROW_POS r) (110464 * 65536))
      else ruleRows print rs (clampSh w (Obj.LCK_ROW_POS r) v)
    else ruleRows print rs w

/-- R18 at a commit in a print state, where L stays: rows whose span no longer fits the ring keep the positions and
alignments in force. DEDUCED (log 78): R83 names the check and no field to clamp. -/
def ruleSpan (print : Bool) (w : World) : World :=
  let d := (ceilDivInt (max 0 (shRel w 15 - shRel w 0)) 128).toNat
  if print ∧ 57344 < w.lck.look + d + 64 then keepRows w else w

/-- R83 rule 2: both objects take effect when written (R81), so the value in force is clamped. -/
def ruleReturn (w : World) : World :=
  let hl := getO w Obj.LCK_HL_RETURN_PCT
  let warn := getO w Obj.LCK_OVS_WARN_PCT
  if warn ≤ hl then
    let w := storeLater (setO w Obj.LCK_HL_RETURN_PCT (warn - 1)) Obj.LCK_HL_RETURN_PCT (warn - 1)
    setO (adjust w Obj.LCK_HL_RETURN_PCT 7 0 hl (warn - 1)) Obj.JOB_COMMIT_CLAMPS
      (min 65535 (getO w Obj.JOB_COMMIT_CLAMPS + 1))
  else w

/-- Clear the nibbles of a channel map that map a source channel with `bad`. -/
def unmapCh (map : Nat) (bad : Nat → Bool) : Nat :=
  (List.range 8).foldl (fun m j =>
    let nib := field m (4 * j) 4
    if 8 ≤ nib ∧ bad (nib - 8) = true then setField m (4 * j) 4 0 else m) map

/-- The working channels that a channel map maps. -/
def mappedMask (map : Nat) : Nat := ofBits ((List.range 8).map fun j => bitOf map (4 * j + 3))

/-- Source, class, policy and ALPHA of a LAY_CFG value. -/
def laySrc (cfg : Nat) : Nat := field cfg 8 2
def layClass (cfg : Nat) : Nat := field cfg 10 2
def layPolicy (cfg : Nat) : Nat := field cfg 12 4
def layAlpha (cfg : Nat) : Nat := field cfg 24 4
def layTile (cfg : Nat) : Nat := field cfg 16 3

/-- The sequence number that the set in the shadows expects next (R96). -/
def shadowSeq (w : World) : Nat :=
  if w.job.vdWritten then (getSh w Obj.JOB_VD_SEQ_START).toNat else getN w Obj.JOB_VD_SEQ_NEXT

/-- The item of layer `n` under a set of values. -/
def laySource (w : World) (get : Nat → Int) (seq n : Nat) : Option Nat :=
  match laySrc (get (Obj.LAY_CFG n)).toNat with
  | 1 =>
    let id := (get (Obj.LAY_IMAGE_ID n)).toNat
    if id = 0 then none else imageKey w id
  | 3 => recordKey w n seq
  | _ => none

/-- R169 for layer `n`. Rule 6 looks at the item that a set-up instant reads. -/
def ruleLayer (atSetup : Bool) (n : Nat) (w : World) : World :=
  let k := Obj.LAY_CFG n
  let cfg := fun (w : World) => (getSh w k).toNat
  let w := if 8 ≤ n ∧ laySrc (cfg w) = 3 then clampSh w k (setField (cfg w) 8 2 0 : Nat) else w
  let w :=
    if laySrc (cfg w) = 3 ∧ layClass (cfg w) ≠ 3 then clampSh w k (setField (cfg w) 10 2 3 : Nat)
    else if layClass (cfg w) = 3 ∧ laySrc (cfg w) ≠ 3 then clampSh w k (setField (cfg w) 10 2 2 : Nat)
    else w
  let w := if layClass (cfg w) = 3 ∧ layPolicy (cfg w) = 1 then clampSh w k (setField (cfg w) 12 4 4 : Nat) else w
  let w := if 8 ≤ n ∧ 3 ≤ layPolicy (cfg w) then clampSh w k (setField (cfg w) 12 4 2 : Nat) else w
  let m := Obj.LAY_CH_MAP n
  let map := fun (w : World) => (getSh w m).toNat
  let alpha := layAlpha (cfg w)
  let w := if alpha = 0 then w else clampSh w m (unmapCh (map w) (fun c => c == alpha - 1) : Nat)
  let w :=
    match if atSetup then laySource w (getSh w) (shadowSeq w) n else none with
    | none => w
    | some key =>
      match itemAt w key with
      | none => w
      | some it =>
        let ch := itemChannels it
        let new : Nat := unmapCh (map w) fun c => ch ≤ c
        let w := if new ≠ map w ∨ ch < alpha then
            { w with cal := { w.cal with rule6Sh := if w.cal.rule6Sh.contains n then w.cal.rule6Sh else n :: w.cal.rule6Sh } }
          else w
        let w := clampSh w m new
        if ch < alpha then clampSh w k (setField (cfg w) 24 4 0 : Nat) else w
  let ko := (getSh w (Obj.LAY_KO_MASK n)).toNat
  let bad := mappedMask (map w)
  clampSh w (Obj.LAY_KO_MASK n) (ofBits ((List.range 8).map fun j => bitOf ko j && !bitOf bad j) : Nat)

/-- R204 for bar `b`. -/
def ruleRedist (b : Nat) (w : World) : World :=
  let w1 := getSh w (Obj.JQ_RD_W1 b)
  let w2 := getSh w (Obj.JQ_RD_W2 b)
  if 32768 < 2 * (w1 + w2) then clampSh w (Obj.JQ_RD_W2 b) (max 0 (16384 - w1)) else w

/-- R289: the inspection line lies beyond row 15. -/
def ruleInspect (w : World) : World :=
  let p := getSh w (Obj.LCK_ROW_POS 15)
  if getSh w Obj.INS_POS ≤ p then clampSh w Obj.INS_POS (p + 65536) else w

/-- All cross-field rules of a commit, in order (R327). -/
def commitRules (print atSetup : Bool) (w : World) : World :=
  let w := beginCommit w
  let w := ruleFrameStart w
  let w := ruleSpan print (ruleReturn (ruleRows print ((List.range 16).drop 1) w))
  let w := (List.range 10).foldl (fun w n => ruleLayer atSetup n w) w
  let w := (List.range 8).foldl (fun w b => ruleRedist b w) w
  endCommit (ruleInspect w)

/-! ### Readiness -/

/-- What a set-up instant finds of a layer: source, reason it is not ready (0: ready), policy, demand in KiB, the KiB of
history that it takes (its demand, or that of held content), item. -/
structure LayerCheck where
  n : Nat
  src : Nat
  reason : Nat
  policy : Nat
  demand : Nat
  room : Nat
  item : Option Nat
  deriving DecidableEq, Repr

/-- The ratio in 2^-32 of an object value, or from the item's DPI when it is 0 (R151). -/
def layRatio (v : Int) (dpi : Nat) : Nat :=
  if v = 0 then (roundDiv ((dpi : Int) * 4294967296) 600).toNat else v.toNat

/-- The history demand of an item in KiB (R161). -/
def layDemand (it : Item) (rx tile : Nat) : Nat :=
  let cols := min it.width (ceilDiv (49152 * rx) 4294967296 + 8)
  let kib := ceilDiv (8 * itemChannels it * itemBps it * cols) 1024
  if tile = 2 then 2 * kib else kib

/-- The policy of a LAY_CFG value, by class where it is 0 (R165). -/
def layPolicyOf (cfg : Nat) : Nat :=
  if layPolicy cfg ≠ 0 then layPolicy cfg
  else match layClass cfg with | 2 => 2 | 3 => 4 | _ => 1

/-- Why an item is not ready (R165 reasons 1 to 5). -/
def itemReason (w : World) (src : Nat) (item : Option Nat) : Nat :=
  match item.bind (itemAt w) with
  | none => if src = 3 then 4 else 1
  | some it =>
    if it.state = 4 then 3
    else if it.state ≠ 2 then (if src = 3 then 4 else 2)
    else if itemMuslin it && decide (it.width < (streamHdr it.data).width) then 5
    else 0

/-- Whether held content can still be composed (R166): a constant, or an item that is complete. -/
def holdable (w : World) (u : LayerUse) : Bool :=
  u.item == 0 || match itemAt w u.item with | some i => i.state == 2 | none => false

/-- The content that layer `n` can hold. -/
def heldUse (w : World) (n : Nat) : Option LayerUse := (w.cal.last.getD n none).filter (holdable w)

/-- The demand of held content in KiB. -/
def heldDemand (w : World) (u : LayerUse) : Nat :=
  match itemAt w u.item with
  | some it => layDemand it u.rx (layTile u.cfg)
  | none => 0

/-- The history that a layer takes which is not ready: under HOLD that of the content it holds (R161, R166). -/
def heldRoom (w : World) (n pol : Nat) : Nat := if pol = 1 then ((heldUse w n).map (heldDemand w)).getD 0 else 0

/-- Readiness of the layers from `n` on, with `room` KiB of history left (R161, R165). -/
def layerChecks (w : World) (get : Nat → Int) (seq : Nat) : List Nat → Nat → List LayerCheck
  | [], _ => []
  | n :: ns, room =>
    let cfg := (get (Obj.LAY_CFG n)).toNat
    let src := laySrc cfg
    let pol := layPolicyOf cfg
    if src = 0 ∨ src = 2 then
      { n := n, src := src, reason := 0, policy := pol, demand := 0, room := 0, item := none } :: layerChecks w get seq ns room
    else
      let item := laySource w get seq n
      let reason := itemReason w src item
      let demand := match item.bind (itemAt w) with
        | some it => layDemand it (layRatio (get (Obj.LAY_RATIO_X n)) it.dpiX) (layTile cfg)
        | none => 0
      let reason := if reason = 0 ∧ room < demand then 6 else reason
      let take := if reason = 0 then demand else min room (heldRoom w n pol)
      { n := n, src := src, reason := reason, policy := pol, demand := demand, room := take, item := item } ::
        layerChecks w get seq ns (room - take)

/-- The readiness of the set in force, and of the set in the shadows. -/
def checkInForce (w : World) : List LayerCheck :=
  layerChecks w (getO w) (getN w Obj.JOB_VD_SEQ_NEXT) (List.range 10) 6144
def checkShadow (w : World) : List LayerCheck := layerChecks w (getSh w) (shadowSeq w) (List.range 10) 6144

/-! ### Applying -/

/-- Whether a key is one of layer `n`'s settings. -/
def isLayerKey (n k : Nat) : Bool := k / 256 == 0x2310 + n

/-- Note the boundary from which layer settings changed by a commit count their tiling (R164, TILE_CONT). -/
def noteTiles (old w : World) (wB : Int) : World :=
  let from_ := (List.range 10).map fun n =>
    let same := mapFilter old.dict.obj (isLayerKey n) == mapFilter w.dict.obj (isLayerKey n) &&
      mapFilter old.dict.tbl (inTable (0x3310 + n)) == mapFilter w.dict.tbl (inTable (0x3310 + n))
    if same then w.cal.tileFrom.getD n none else some wB
  { w with cal := { w.cal with tileFrom := from_ } }

/-- The objects of a commit that take effect at its boundary (R163), with JOB_COMMIT_TAG and COMMIT_APPLIED; the web
position is continuous over a change of WEB_ENC_LPC (R36). -/
def finishCommit (w : World) (f : CommitFin) : World :=
  let before := pos32 w
  let old := w
  let w := { w with dict := { w.dict with obj := mapReplace w.dict.obj f.held isHeldKey } }
  let d := before - pos32 w
  let w := { w with web := { w.web with pos := w.web.pos + d, hwm := w.web.hwm + d } }
  let w := prbReconf old w
  let w := setO w Obj.JOB_COMMIT_TAG f.tag
  let w := raise w Ev.COMMIT_APPLIED 0 f.tag
  if f.forced then raise w Ev.COMMIT_FORCED 0 f.tag else w

/-- Hand every bar its set (R201), and its head phases to the drivers (R251). -/
def handSets (w : World) (tag : Nat) (wB : Int) : World :=
  (List.range 8).foldl (fun w b =>
    let s := makeSet w b tag wB
    let w := updBar w b fun q => { q with sets := q.sets ++ [s] }
    sendPhases (sendPhases w (2 * b) (fun _ => s) false) (2 * b + 1) (fun _ => s) false) w

/-- Apply the shadow set: at a boundary with the tag of its frame, or at once (no boundary; tag 0). -/
def applyCommit (w : World) (bound : Option Int) (tag : Nat) (forced : Bool) : World :=
  let sh := w.dict.shadow
  let old := w
  let w := { w with dict := { w.dict with obj := mapReplace w.dict.obj sh (fun k => isC k && !isHeldKey k)
                                          tbl := mapReplace w.dict.tbl w.dict.tblShadow isCTbl }
                    job := { w.job with commit := false, stalls := 0, deferred := false, vdWritten := false }
                    cal := { w.cal with rule6Done := w.cal.rule6Sh, rule6Sh := [] } }
  let w := setO w Obj.JOB_COMMIT_STATE 0
  let w := if old.job.vdWritten then setO w Obj.JOB_VD_SEQ_NEXT (mapGetD sh Obj.JOB_VD_SEQ_START 0) else w
  let f : CommitFin := { wB := bound.getD 0, tag := tag, forced := forced, held := mapFilter sh isHeldKey }
  match bound with
  | none =>
    let moved := (List.range 8).filter fun b =>
      mapFilter old.dict.tbl (inTable (0x3520 + b)) != mapFilter w.dict.tbl (inTable (0x3520 + b))
    finishCommit (moved.foldl (fun w b => newTrims (newTrims w b 0) b 1) w) f
  | some b =>
    let w := handSets (noteTiles old w b) tag b
    { w with job := { w.job with fins := w.job.fins ++ [f] } }

/-- Bars whose set queue has no free entry (R201). -/
def fullBars (w : World) : List Nat := (List.range 8).filter fun b => 8 ≤ (setQueue w b).length

/-- LAY_NOT_READY of layer `n`, counted (R166). -/
def layNotReady (no pol n reason : Nat) (w : World) : World :=
  bump (raise w Ev.LAY_NOT_READY n (pol * 268435456 + reason * 16777216 + no % 16777216)) (Obj.LAY_NOT_READY_CNT n)

/-- A pending commit at a set-up instant (R163, R167, R201): the layers that stall it or, when it is forced, that are
handled as BLANK_MARK, and whether it was applied. A layer of the shadow set that stalls it raises LAY_NOT_READY under
STALL, as every layer that is not ready does. -/
def tryCommit (w : World) (wB : Int) (no : Nat) : World × Bool × List Nat :=
  let w := commitRules true true w
  let full := fullBars w
  if full ≠ [] then
    let w := setO { w with job := { w.job with deferred := true } } Obj.JOB_COMMIT_STATE 2
    (full.foldl (fun w b => raise w Ev.JQ_SET_DEFER b no) w, false, [])
  else
    let waits := (checkShadow w).filter fun c => c.reason != 0 && c.policy == 3
    let stalled := waits.map (·.n)
    let lim := getN w Obj.JOB_STALL_MAX
    if stalled ≠ [] ∧ (lim = 0 ∨ w.job.stalls < lim) then
      let w := setO { w with job := { w.job with deferred := false, stalls := w.job.stalls + 1 } } Obj.JOB_COMMIT_STATE 2
      (waits.foldl (fun w c => raise (layNotReady no 3 c.n c.reason w) Ev.COMMIT_STALLED c.n w.job.stalls) w, false, stalled)
    else (applyCommit w (some wB) no (stalled ≠ []), true, stalled)

/-- A commit applied outside the print states, or when they are left (R162). -/
def commitNow (w : World) : World := applyCommit (commitRules false false w) none 0 false

end Sys2Proof.Machine
end

