-- ==== Sys2Proof/Machine/Frames.lean ====
section
/-! DEFINITION. The frame sequencer (R85 to R96, R440, R441): boundaries, set-up instants, frames, their reports,
probe marks, and what entering and leaving the print states does to it. -/

namespace Sys2Proof.Machine

/-! ### Placing boundaries -/

/-- A boundary at `x` whose set-up instant lies ahead. -/
def Boundary.at (x : Int) : Boundary :=
  { w := x, wEnd := x, no := 0, isSetUp := false, starts := false, last := false, virt := false, late := false
    noSrc := false, probe := 0, seq := 0, causes := [] }

def addBound (w : World) (b : Boundary) : World := { w with job := { w.job with bounds := w.job.bounds ++ [b] } }
/-- Drop the boundaries whose set-up instant lies ahead. -/
def dropUnset (w : World) : World := { w with job := { w.job with bounds := w.job.bounds.filter (·.isSetUp) } }
/-- Replace the first boundary whose set-up instant lies ahead. -/
def putUnset (b : Boundary) : List Boundary → List Boundary
  | [] => []
  | x :: xs => if x.isSetUp then x :: putUnset b xs else b :: xs

/-- The smallest `base + k * p` at or beyond `x`. -/
def gridFrom (base : Int) (p : Nat) (x : Int) : Int := base + ceilDivInt (x - base) p * p

/-- The period of the set handed out last (R87). -/
def framePeriod (w : World) : Nat := 2 * ((comingO w Obj.JOB_FRAME_LEN).toNat + (comingO w Obj.JOB_FRAME_GAP).toNat)
/-- The web position in whole lines, rounded up and down. -/
def posCeil (w : World) : Int := -asr (-(webPos w)) 16
def posFloor (w : World) : Int := asr (webPos w) 16
/-- Whether JOB_FRAME_SRC of the newest set is PROBE. -/
def comingProbeSrc (w : World) : Bool := comingO w Obj.JOB_FRAME_SRC == 1
/-- Whether the condition of R89 holds or begins at a boundary already set up. -/
def noSrcComing (w : World) : Bool := w.job.noSrc || w.job.bounds.any (·.noSrc)
/-- The virtual boundary at which a commit is applied while the condition of R89 lasts. -/
def addVirtual (w : World) : World :=
  addBound w { Boundary.at (2 * (asr (posFloor w + 128) 1 + 1)) with virt := true }

/-- FRAME_MARK (R119). -/
def frameMark (w : World) (inst kind : Nat) (lines : Int) : World :=
  raise w Ev.FRAME_MARK inst (kind * 268435456 + wrapInt 28 (max 0 lines))

/-! ### What a frame is composed from -/

/-- Report a channel of rule 6 (R169) that an item does not have, once per layer and commit; the clamp is one of the
commit's. -/
def rule6Report (w : World) (n k : Nat) (old new : Nat) : World :=
  if old = new ∨ w.cal.rule6Done.contains n = true then w
  else setO (adjust w k 7 0 old new) Obj.JOB_COMMIT_CLAMPS (min 65535 (getO w Obj.JOB_COMMIT_CLAMPS + 1))

/-- The settings of layer `n` in force, with the channels its item has. -/
def makeUse (w : World) (n : Nat) (item : Option Nat) (wB : Int) : LayerUse × World :=
  let cfg := getN w (Obj.LAY_CFG n)
  let map := getN w (Obj.LAY_CH_MAP n)
  let it := item.bind (itemAt w)
  let ch := match it with | some i => itemChannels i | none => 8
  let map' := unmapCh map fun c => ch ≤ c
  let cfg' := if ch < layAlpha cfg then setField cfg 24 4 0 else cfg
  let w := rule6Report w n (Obj.LAY_CH_MAP n) map map'
  let w := rule6Report w n (Obj.LAY_CFG n) cfg cfg'
  let w := if map = map' ∧ cfg = cfg' then w
    else { w with cal := { w.cal with rule6Done := if w.cal.rule6Done.contains n then w.cal.rule6Done else n :: w.cal.rule6Done } }
  let dx := match it with | some i => i.dpiX | none => 600
  let dy := match it with | some i => i.dpiY | none => 600
  let fillOf := fun v => (List.range 4).map fun j => field v (16 * j) 16
  let tile := if bitOf cfg 19 then some ((w.cal.tileFrom.getD n none).getD wB) else none
  ({ cfg := cfg', chMap := map', opacity := getN w (Obj.LAY_OPACITY n), posX := getO w (Obj.LAY_POS_X n)
     posY := getO w (Obj.LAY_POS_Y n), rx := layRatio (getO w (Obj.LAY_RATIO_X n)) dx
     ry := layRatio (getO w (Obj.LAY_RATIO_Y n)) dy
     fill := fillOf (getN w (Obj.LAY_FILL_LO n)) ++ fillOf (getN w (Obj.LAY_FILL_HI n))
     ko := getN w (Obj.LAY_KO_MASK n), item := item.getD 0, tileW := tile
     coef := mapFilter w.dict.tbl (inTable (0x3310 + n)) }, w)

/-- The declared output of a frame's decode job (R138): the samples of its stream. -/
def declaredOut (i : Item) : Nat := let h := streamHdr i.data; h.width * h.height * h.channels

/-- What the pass over the layers of a frame gathers. -/
structure FrameWork where
  uses : List (Option LayerUse)
  blank : Bool
  held : Bool
  stop : List Nat
  ready : List Nat
  total : Nat
  deriving DecidableEq, Repr

/-- One layer of a frame (R165, R166): what it is composed from, its state and its reports. -/
def frameLayer (no : Nat) (seq : Nat) (wB : Int) (forced : List Nat) (a : World × FrameWork) (c : LayerCheck) :
    World × FrameWork :=
  let (w, f) := a
  let n := c.n
  let w := setO w (Obj.LAY_BUF_KIB n) c.demand
  if c.src = 0 then
    (setO w (Obj.LAY_STATE n) 0, { f with uses := f.uses ++ [none], ready := n :: f.ready })
  else if c.reason = 0 then
    let (u, w) := makeUse w n c.item wB
    let w := setO w (Obj.LAY_STATE n) 1
    ({ w with cal := { w.cal with last := w.cal.last.set n (some u) } },
     { f with uses := f.uses ++ [some u], ready := n :: f.ready, total := f.total + c.room })
  else
    let p0 := if forced.contains n || c.policy == 3 then 4 else c.policy
    let hold := (heldUse w n).filter fun u => heldDemand w u ≤ c.room
    let failed := p0 == 1 && hold.isNone
    let pol := if failed then 4 else p0
    let w := if failed then raise w Ev.LAY_HOLD_FAIL n (no % 16777216) else w
    let state := if c.reason = 6 then 6 else if pol = 1 then 2 else if pol = 2 then 3 else 4
    let w := setO w (Obj.LAY_STATE n) (state : Nat)
    let w := if pol = 5 then raise w Ev.LAY_STOP n (no % 16777216) else w
    let w := if c.reason = 6 then raise w Ev.LAY_NOT_FIT n c.demand else w
    let w := if c.reason = 4 then raise w Ev.VD_MISSING n seq else w
    let w := if c.reason = 5 then
        raise (bump w Obj.MUS_REFUSALS) Ev.MUS_REFUSED (n % 4) ((c.item.bind (itemAt w)).elim 0 fun i => declaredOut i)
      else w
    let w := layNotReady no pol n c.reason w
    (w, { f with uses := f.uses ++ [if pol = 1 then hold else none], blank := f.blank || pol == 4 || pol == 5
                 held := f.held || pol == 1, total := f.total + (if pol = 1 then c.room else 0), stop := if pol = 5 then n :: f.stop else f.stop })

/-- Whether an object or table belongs to what Calico reads per frame beside its layers. -/
def isCalKey (k : Nat) : Bool :=
  k == Obj.JOB_INK_MASK || k / 256 == 0x2330 || k / 256 == 0x2340 || (k / 256 == 0x2400 && k % 256 ≤ 3)

/-- What both fronts of a bar have passed leaves its LIVE queue: the newest entry at or below them stays (R185). -/
def liveDrop (front : Int) : List (Int × Int × Int) → List (Int × Int × Int)
  | a :: b :: r => if b.1 ≤ front then liveDrop front (b :: r) else a :: b :: r
  | l => l

/-- Sample the LIVE values of bar `b` for the frame that starts at `wB` (R185). -/
def liveSample (wB : Int) (w : World) (b : Nat) : World :=
  let q := barAt w b
  let s := (pickSet q.sets wB).getD (makeSet w b 0 0)
  if field (setV s (Obj.JQ_CFG b)).toNat 18 2 ≠ 1 then w
  else
    let front := min (q.passes.getD 0 Pass.reset).front (q.passes.getD 1 Pass.reset).front
    let l := liveDrop front q.live
    let v := (getO w (Obj.JQ_STRETCH_LIVE_X b), getO w (Obj.JQ_STRETCH_LIVE_Y b))
    if (l.getLast?.map (·.2)) = some v then setBar w b { q with live := l }
    else if l.length < 64 then setBar w b { q with live := l ++ [(wB, v)] }
    else bump (setBar w b { q with live := l }) (Obj.JQ_LIVE_DEFERRED b)

/-- Set up the frame that starts at boundary `b` (R96, R165): its layers, its cause-6 range, web-stop by STOP, the
sequence number, and Calico's set. `forced` names the layers of a forced commit, `stalled` those of a stalled one. -/
def setUpFrame (w : World) (b : Boundary) (no : Nat) (forced stalled : List Nat) : Boundary × World :=
  let seq := getN w Obj.JOB_VD_SEQ_NEXT
  let wEnd := b.w + 2 * comingO w Obj.JOB_FRAME_LEN
  let w := { w with cal := { w.cal with tileFrom := w.cal.tileFrom.map fun t => some (t.getD b.w) } }
  let (w, f) := (checkInForce w).foldl (frameLayer no seq b.w forced)
    (w, { uses := [], blank := false, held := false, stop := [], ready := [], total := 0 })
  let w := stalled.foldl (fun w n => setO w (Obj.LAY_STATE n) 5) w
  let w := if f.held then bump w Obj.JOB_HELD_FRAMES else w
  let w := setO (setO w Obj.JOB_BUF_KIB f.total) Obj.JOB_VD_SEQ_NEXT ((seq + 1) % 4294967296 : Nat)
  let stop := f.stop ++ w.job.stopLayers.filter fun n => !f.ready.contains n && !f.stop.contains n
  let w := stopSrc { w with job := { w.job with stopLayers := stop } } 2 (stop ≠ [])
  let w := (List.range 8).foldl (liveSample b.w) w
  let set : CalSet := { wB := b.w, obj := mapFilter w.dict.obj isCalKey, tbl := mapFilter w.dict.tbl (inTable 0x3340)
                        layers := f.uses }
  let w := { w with job := { w.job with calSets := w.job.calSets ++ [set], lastNo := no } }
  ({ b with wEnd := wEnd, no := no, isSetUp := true, starts := true, seq := seq
            causes := (if f.blank then [6] else []) ++ (if b.late then [12] else []) }, w)

/-! ### The set-up instant -/

/-- Whether frames are held back (R440). -/
def pausing (mode : DevState) (w : World) : Bool := w.sys.pausePending || mode == .paused

/-- The count of the set a commit brings (R92). -/
def recount (w : World) : World :=
  let r := (comingO w Obj.JOB_REPEAT).toNat
  { w with job := { w.job with count := if r = 0 then none else some r } }

/-- The set-up instant of the virtual boundary of R89. -/
def setupVirtual (w : World) (b : Boundary) : World :=
  if ¬ w.job.commit then { w with job := { w.job with bounds := w.job.bounds.filter (!·.virt) } }
  else
    let (w, applied, _) := tryCommit w b.w (w.job.lastNo % 4294967295 + 1)
    if !applied then { w with job := { w.job with bounds := putUnset { b with w := b.w + 128 } w.job.bounds } }
    else
      let w := recount { w with job := { w.job with bounds := putUnset { b with isSetUp := true } w.job.bounds } }
      if comingProbeSrc w then w
      else addBound w (Boundary.at (gridFrom w.job.origin (framePeriod w) (b.w + 128)))

/-- The set-up instant of a boundary of frames (R86, R89, R92, R163). -/
def setupFrameBoundary (w : World) (b : Boundary) : World :=
  let no := w.job.lastNo % 4294967295 + 1
  let (w, applied, layers) := if w.job.commit then tryCommit w b.w no else (w, false, [])
  let w := if applied then recount w else w
  let probe := comingProbeSrc w
  if probe && (comingProbe w).isNone then
    let w := { w with job := { w.job with bounds := putUnset { b with isSetUp := true, noSrc := true } w.job.bounds } }
    let w := dropUnset w
    if w.job.commit then addVirtual w else w
  else
    let starts := w.job.count != some 0
    let (b', w) :=
      if starts then setUpFrame w b no (if applied then layers else []) (if applied then [] else layers)
      else ({ b with isSetUp := true }, w)
    let last := w.job.count == some 1
    let w := if starts then { w with job := { w.job with count := w.job.count.map (· - 1) } } else w
    let w := { w with job := { w.job with bounds := putUnset { b' with last := starts && last } w.job.bounds } }
    if probe then w
    else
      let w := dropUnset { w with job := { w.job with grid := b.w } }
      addBound w (Boundary.at (b.w + framePeriod w))

/-- SETUP_INSTANT: the web reaches w_B - 128 of the first boundary not yet set up. -/
def setupInstant (mode : DevState) (w : World) : World :=
  match w.job.bounds.find? (!·.isSetUp) with
  | none => w
  | some b =>
    if ¬ posReached w (linePos (b.w - 128)) then w
    else if b.virt then setupVirtual w b
    else if pausing mode w then
      { w with job := { w.job with pauseEff := true
                                   grid := if comingProbeSrc w then w.job.grid else b.w
                                   bounds := putUnset { b with isSetUp := true } w.job.bounds } }
    else setupFrameBoundary w b

/-! ### The boundary at the composition point -/

/-- Commits whose boundary is at or below `x` are complete. -/
def finishUpTo (w : World) (x : Int) : World :=
  let due := w.job.fins.filter fun f => f.wB ≤ x
  due.foldl finishCommit { w with job := { w.job with fins := w.job.fins.filter fun f => x < f.wB } }

/-- The frame in progress is cut short at `x` (R91). -/
def cutFrame (w : World) (x : Int) (probe : Nat) : World :=
  match w.job.frames.getLast? with
  | none => w
  | some f =>
    if f.wEnd ≤ x ∨ f.done then w
    else
      let w := frameMark w probe 2 (f.wEnd - x)
      let w := defectFrame w f.no 13 x f.wEnd
      let w := if f.last then raise w Ev.JOB_END 0 f.no else w
      { w with job := { w.job with frames := w.job.frames.map fun g =>
          if g.no = f.no then { g with wEnd := x, cut := true, last := false } else g } }

/-- Record the parts of the waiting MARK ranges that a frame [wB, wEnd) decides (R56, R94). -/
def placeMarks (no : Nat) (wB wEnd : Int) : List (Int × Int) → World → World
  | [], w => w
  | (s, e) :: rest, w =>
    let w := if s < min e wB then defectFrame w 0 5 s (min e wB) else w
    let w := if max s wB < min e wEnd then defectFrame w no 5 (max s wB) (min e wEnd) else w
    let w := if max s wEnd < e then { w with job := { w.job with marks := w.job.marks ++ [(max s wEnd, e)] } } else w
    placeMarks no wB wEnd rest w

/-- A frame begins (R85). -/
def beginFrame (w : World) (b : Boundary) : World :=
  let w := cutFrame w b.w b.probe
  let f : FrameRec := { no := b.no, wB := b.w, wEnd := b.wEnd, cut := false, defect := false, last := b.last
                        seq := b.seq, winLen := max 2 (getO w Obj.INS_WIN_LINES), vdFreed := false, done := false
                        et := nowEt w }
  let w := { w with job := { w.job with frames := w.job.frames ++ [f] } }
  let w := raise w Ev.FRAME_START 0 b.no
  let w := b.causes.foldl (fun w c => defectFrame w b.no c b.w b.wEnd) w
  let marks := w.job.marks
  placeMarks b.no b.w b.wEnd marks { w with job := { w.job with marks := [] } }

/-- FRAME_START: the first boundary set up reaches the composition point. -/
def frameStart (w : World) : World :=
  match w.job.bounds with
  | [] => w
  | b :: rest =>
    if ¬ b.isSetUp ∨ ¬ posReached w (linePos b.w) then w
    else
      let w := finishUpTo { w with job := { w.job with bounds := rest } } b.w
      if b.virt then
        { w with job := { w.job with noSrc := getO w Obj.JOB_FRAME_SRC == 1 && (frameStartProbe w).isNone } }
      else if b.noSrc then
        frameMark { w with job := { w.job with noSrc := true, noSrcClk := w.clk } } 255 4 0
      else if b.starts then beginFrame w b
      else w

def execFrameStart (s : State) : Host.Outcome State Fault Refusal :=
  onWorld (fun c w => whenDo (inPrint c.mode) frameStart w) s

/-- JOB_END: the last frame counted ends at the composition point (R92). -/
def jobEnd (w : World) : World :=
  match w.job.frames.find? (·.last) with
  | none => w
  | some f =>
    if posReached w (linePos f.wEnd) then
      raise { w with job := { w.job with frames := w.job.frames.map fun g => if g.no = f.no then { g with last := false } else g } }
        Ev.JOB_END 0 f.no
    else w

def execJobEnd (s : State) : Host.Outcome State Fault Refusal :=
  onWorld (fun c w => whenDo (inPrint c.mode) jobEnd w) s

/-- FRAME_SRC_ABSENT_TICK: a second has passed since the last FRAME_MARK of kind 4 (R89). -/
def noSrcTick (w : World) : World :=
  if w.job.noSrc ∧ w.job.noSrcClk + secClk 1 ≤ w.clk then
    frameMark { w with job := { w.job with noSrcClk := w.clk } } 255 4 0
  else w

def execFrameSrcAbsentTick (s : State) : Host.Outcome State Fault Refusal :=
  onWorld (fun c w => whenDo (inPrint c.mode) noSrcTick w) s

/-! ### JOB_COMMIT -/

/-- An accepted write of 1 to JOB_COMMIT (R162). -/
def jobCommit (mode : DevState) (w : World) : World :=
  let w := bump w Obj.JOB_COMMIT_SEQ
  let w := raise w Ev.COMMIT_ACCEPTED 0 (getN w Obj.JOB_COMMIT_SEQ)
  if inPrint mode then
    if w.job.commit then w
    else
      let w := setO (setO { w with job := { w.job with commit := true, stalls := 0, deferred := false } }
        Obj.JOB_COMMIT_STATE 1) Obj.JOB_COMMIT_CLAMPS 0
      if noSrcComing w then addVirtual w else w
  else commitNow (setO w Obj.JOB_COMMIT_CLAMPS 0)

/-! ### Probe marks -/

/-- An accepted latch of the frame-start probe `n` with mark coordinate `mark` (R88, R90, R91). DEDUCED (log 79): the
lines field of FRAME_MARK kind 3 is 0. -/
def frameLatch (mode : DevState) (w : World) (n : Nat) (mark : Int) : World :=
  if ¬ inPrint mode ∨ getO w Obj.JOB_FRAME_SRC ≠ 1 ∨ noSrcComing w = true then w
  else
    let m := mark + getO w Obj.JOB_MARK_OFS * 65536
    let up := -asr (-m) 16
    let wB := up + up % 2
    let waiting := (w.job.bounds.filter (!·.isSetUp)).length
    let exhausted := match w.job.count with | some c => decide (c ≤ waiting) | none => false
    if w.job.pauseEff ∨ mode = .paused ∨ 4 ≤ w.job.bounds.length ∨ exhausted = true ∨
        w.job.bounds.any (fun b => wB ≤ b.w) = true then
      frameMark w n 3 0
    else if posDiff (linePos wB) (webPos w) < 128 * 65536 then
      let e := posCeil w + 128
      let wB' := e + e % 2
      let w := frameMark (bump w Obj.JOB_MARKS_LATE) n 1 (wB' - wB)
      addBound w { Boundary.at wB' with late := true, probe := n }
    else addBound w { Boundary.at wB with probe := n }

/-! ### Reports, pause, entry and exit -/

/-- Report a frame (R95): status 0 GOOD, 1 DEFECT, 2 INCOMPLETE. -/
def reportFrame (w : World) (f : FrameRec) (status : Nat) : World :=
  let w := { w with job := { w.job with frames := w.job.frames.map fun g => if g.no = f.no then { g with done := true } else g } }
  let w := setO (setO w Obj.JOB_DONE_FRAME f.no) Obj.JOB_DONE_STATUS status
  raise w Ev.FRAME_DONE 0 (status * 1073741824 + f.no % 1073741824)

/-- Report the frames that row 15 has passed: its next unfired line is `next`. -/
def framesDone (w : World) (next : Int) : World :=
  (w.job.frames.filter fun f => !f.done && decide (f.wEnd ≤ next)).foldl
    (fun w f => reportFrame w f (if f.cut then 2 else if f.defect then 1 else 0)) w

/-- Whether a pending pause is complete (R440): every frame begun is done and none is about to begin. -/
def pauseComplete (w : World) : Bool :=
  w.sys.pausePending && w.job.frames.all (·.done) && !w.job.bounds.any (fun b => b.isSetUp && b.starts)

/-- RESUME (R440, R441): frames start again at the first boundary whose set-up instant comes after it. -/
def resumeFrames (mode : DevState) (w : World) : World :=
  let w := { w with sys := { w.sys with pausePending := false } }
  let w := if mode = .paused ∧ comingProbeSrc w = true then dropUnset w else w
  let need := !comingProbeSrc w && !noSrcComing w && !w.job.bounds.any (!·.isSetUp)
  let w := { w with job := { w.job with pauseEff := false } }
  if need then addBound w (Boundary.at (gridFrom w.job.grid (framePeriod w) (posCeil w + 128))) else w

/-- Free the variable-data records of a sequence number: those no longer in transfer (R96, R112). -/
def freeRecords (w : World) (seq : Nat) : World :=
  { w with mem := { w.mem with items := w.mem.items.filter fun e => !(4 ≤ e.2.ty && e.2.seq == seq && e.2.state != 1) } }

/-- Leaving ARMED, PRINTING and PAUSED (R95, R162, R106, R166). -/
def leaveFrames (w : World) : World :=
  let w := (w.job.frames.filter (!·.done)).foldl (fun w f => reportFrame w f 2) w
  let w := (w.job.bounds.filter fun b => b.isSetUp && b.starts).foldl (fun w b => freeRecords w b.seq) w
  let w := w.job.fins.foldl finishCommit { w with job := { w.job with fins := [] } }
  let w := if w.job.commit then commitNow w else w
  let w := w.job.marks.foldl (fun w m => defectFrame w 0 5 m.1 m.2) w
  let w := stopSrc (stopSrc w 1 false) 2 false
  { w with job := { w.job with bounds := [], marks := [], stopLayers := [], noSrc := false, pauseEff := false, calSets := [] }
           sys := { w.sys with pausePending := false } }

/-- The origin of the count grid on entry to ARMED, with its adjustment (R87). -/
def frameOrigin (w : World) : Int × World :=
  if getO w Obj.JOB_ORIGIN_SRC = 1 then
    match (encAt w w.web.active).refPos with
    | some p =>
      let o := asr p 16 - asr p 16 % 2
      (o, if linePos o = p then w else adjust w Obj.JOB_ORIGIN_SRC 5 0 p (linePos o))
    | none => (getO w Obj.JOB_FRAME_ORIGIN, w)
  else (getO w Obj.JOB_FRAME_ORIGIN, w)

/-- Entry to ARMED from IDLE (R85, R87, R92, R174). -/
def armFrames (w : World) : World :=
  let r := getN w Obj.JOB_REPEAT
  let (o, w) := frameOrigin w
  let count := if r = 0 then none else some r
  let w := { w with job := { w.job with bounds := [], frames := [], lastNo := 0, count := count, origin := o, grid := o
                                        noSrc := false, pauseEff := false, calSets := [], marks := [], stopLayers := []
                                        defects := w.job.defects.map fun d => { d with isOpen := false } }
                    cal := { w.cal with last := List.replicate 10 none, tileFrom := List.replicate 10 none } }
  if getO w Obj.JOB_FRAME_SRC = 1 then w
  else addBound w (Boundary.at (gridFrom o (framePeriod w) (posCeil w + 128)))

end Sys2Proof.Machine
end

