-- ==== Sys2Proof/Machine/Inputs.lean ====
section
/-! DEFINITION. The other web inputs (chapter 2): probe edges and windows, magnetic switches, SSI masters. -/

namespace Sys2Proof.Machine

/-! ### Probes -/

/-- The time a compensated latch is moved back, in fifths of a ns: filter and sensor delay (R48). -/
def prbDelay5 (w : World) (n : Nat) : Nat :=
  if getF w (Obj.WEB_PRB_CFG n) 3 1 = 1 then
    (getF w (Obj.WEB_PRB_CFG n) 8 8 + 2) * 16 + 5 * getN w (Obj.WEB_PRB_SENS_DLY n)
  else 0

/-- The latched position, raw Q48.16 (R48). -/
def latchPos (w : World) (d5 : Nat) : Int :=
  let (n, d) := speedMag w
  let back : Int := if w.web.back then -1 else 1
  posReport ((pos32 w * (5 * d : Nat) - back * (n * d5 : Nat)) / ((5 * d : Nat) : Int))
/-- The latched ET (R48). -/
def latchEt (w : World) (d5 : Nat) : Nat := etOf (fracFloor (fracSub (timerFrac w) (frac d5 5)))

/-- The newest window of probe `n` that waits for T_d and holds a latch, by its place in the list (R50, R51). -/
def closedAt (w : World) (n : Nat) (q : Int) (et : Nat) : Option Nat :=
  let l := (prbAt w n).closed
  ((List.range l.length).filter fun i => match l[i]? with
    | some c => insideWin (winEt w n) c.start c.stop q et
    | none => false).getLast?

/-- Whether closed window `i` of a probe, or its present window, has PRB_EXTRA raised against it. -/
def Probe.saidExtra (p : Probe) : Option Nat → Bool
  | some i => (p.closed[i]?).any (·.extra)
  | none => p.extraRaised
def Probe.sayExtra (p : Probe) : Option Nat → Probe
  | some i => { p with closed := p.closed.modify i fun c => { c with extra := true } }
  | none => { p with extraRaised := true }

/-- Whether closed window `i` of a probe, or its present window, has accepted a latch. -/
def Probe.hasLatch (p : Probe) : Option Nat → Bool
  | some i => (p.closed[i]?).any (·.accepted)
  | none => p.accepted
def Probe.takeLatch (p : Probe) : Option Nat → Probe
  | some i => { p with closed := p.closed.modify i fun c => { c with accepted := true } }
  | none => { p with accepted := true }

/-- An extra latch (R52) in closed window `i`, or against the present or next window: counted, and raised once per window,
or once per second without windows. -/
def prbExtra (w : World) (n : Nat) (i : Option Nat) (q : Int) (et : Nat) : World :=
  let w := bump w (Obj.WEB_PRB_EXTRA n)
  let p := prbAt w n
  let said := if winOn w n then p.saidExtra i else !stampOk w p.extraStamp (secClk 1)
  if said then w
  else
    let w := updPrb w n fun p => if winOn w n then p.sayExtra i else { p with extraStamp := some w.clk }
    raiseAt w Ev.PRB_EXTRA n (getN w (Obj.WEB_PRB_EXTRA n)) et q

/-- An accepted latch (R53, R54). -/
def prbAccept (mode : DevState) (w : World) (n : Nat) (rising : Bool) (q : Int) (et : Nat) : World :=
  let last := (prbAt w n).lastPos
  let w := bump w (Obj.WEB_PRB_ACCEPTED n)
  let w := setO w (Obj.WEB_PRB_PITCH n) (match last with | some l => posDiff q l | none => 0)
  let mark := posDiff q (getO w (Obj.WEB_PRB_OFFSET n))
  let w := setO (setO (setO w (Obj.WEB_PRB_POS n) q) (Obj.WEB_PRB_ET n) et) (Obj.WEB_PRB_MARK n) mark
  let w := updPrb w n fun p => { p with lastPos := some q }
  let w := raiseAt w Ev.PRB_LATCH n (b2n rising * 2147483648 + getN w (Obj.WEB_PRB_ACCEPTED n) % 2147483648) et q
  if frameStartProbe w = some n then frameLatch mode w n mark else w

/-- A filtered edge at probe `n` (R48 to R52). A latch that lies in a window that waits for T_d belongs to it, unless
it lies in a window that followed (R50). DEDUCED (log 77): a latch exactly WEB_PRB_LOCKOUT lines after the accepted one is
no longer locked out. -/
def probeEdge (n : Nat) (rising : Bool) (mode : DevState) (w : World) : World :=
  let cfg := getN w (Obj.WEB_PRB_CFG n)
  if n < 8 ∧ bitOf cfg 0 = true ∧ bitOf cfg (if rising then 1 else 2) = true then
    let d5 := prbDelay5 w n
    let q := latchPos w d5
    let et := latchEt w d5
    let p := prbAt w n
    let on := winOn w n
    let inNow := on && p.armed && insideWin (winEt w n) (winVal w n 0) (winVal w n 1) q et
    let past := if on && !inNow then closedAt w n q et else none
    let locked := match p.lastPos with
      | some l => decide (0 ≤ posDiff q l ∧ posDiff q l < getO w (Obj.WEB_PRB_LOCKOUT n))
      | none => false
    let inside := inNow || past.isSome
    if locked || w.web.trk != .forward || (on && !inside) || (inside && p.hasLatch past) then prbExtra w n past q et
    else
      let w := if inside then updPrb w n fun p => p.takeLatch past else w
      prbAccept mode w n rising q et
  else w

def execProbeEdge (n : Nat) (rising : Bool) (s : State) : Host.Outcome State Fault Refusal :=
  onWorld (fun c w => whenDo (powered c.mode) (probeEdge n rising c.mode) w) s

/-- The decision on a closed window (R51). -/
def prbDecide (w : World) (n : Nat) (c : ClosedWin) : World :=
  if c.accepted then w
  else
    let w := bump w (Obj.WEB_PRB_MISSED n)
    raise w Ev.PRB_MISSED n (getN w (Obj.WEB_PRB_MISSED n))

/-- The window of probe `n` closes (R51). -/
def winClose (n : Nat) (w : World) : World :=
  if n < 8 ∧ winOn w n = true ∧ (prbAt w n).armed = true ∧ winEnded w n = true then
    let s := winVal w n 0
    let e := winVal w n 1
    let w := updPrb w n fun p =>
      { p with closed := p.closed ++ [{ start := s, stop := e, clk := w.clk, accepted := p.accepted, extra := p.extraRaised }]
               accepted := false, extraRaised := false }
    let held := (prbAt w n).held
    let moved := (held.getD 0 none).isSome || (held.getD 1 none).isSome
    let any := moved || (held.getD 2 none).isSome
    let w := winApplyHeld w n
    let w := if any then winCheck w n 0 else w
    if moved then w
    else
      let p := winVal w n 2
      if p = 0 then updPrb w n fun p => { p with armed := false }
      else
        let wrap := fun (v : Int) => if winEt w n then v % 4294967296 else wrapSigned 64 v
        setO (setO w (winKey n 0) (wrap (s + p))) (winKey n 1) (wrap (e + p))
  else w

def execPrbWindowClose (n : Nat) (s : State) : Host.Outcome State Fault Refusal :=
  onWorld (fun c w => whenDo (powered c.mode) (winClose n) w) s

/-- T_d in CLK_TS clocks, rounded up (R51). -/
def prbTd (w : World) (n : Nat) : Nat :=
  if getF w (Obj.WEB_PRB_CFG n) 3 1 = 1 then getF w (Obj.WEB_PRB_CFG n) 8 8 + 3 + nsClk (getN w (Obj.WEB_PRB_SENS_DLY n)) else 1

/-- PRB_MISSED: every window whose T_d has passed since its close is decided, oldest first. -/
def prbMissed (n : Nat) (w : World) : World :=
  let due := fun (c : ClosedWin) => decide (c.clk + prbTd w n ≤ w.clk)
  let l := (prbAt w n).closed
  (l.filter due).foldl (fun w c => prbDecide w n c) (updPrb w n fun p => { p with closed := l.filter fun c => !due c })

def execPrbMissed (n : Nat) (s : State) : Host.Outcome State Fault Refusal :=
  onWorld (fun c w => whenDo (powered c.mode && decide (n < 8)) (prbMissed n) w) s

/-- A checked write of START, END or PERIOD of probe `n`: held while a window is open, else in force with its checks; a
write of START arms a window again (R51). The next window keeps the PRB_EXTRA raised against it (R52). -/
def winWrite (w : World) (n part source : Nat) (v : Int) : World :=
  if winOpen w n then updPrb w n fun p => { p with held := p.held.set part (some v) }
  else
    let w := winCheck (setO w (winKey n part) v) n source
    updPrb w n fun p => { p with armed := p.armed || part == 0, accepted := p.accepted && part == 2 }

/-! ### Magnetic switches -/

/-- A level of switch `n` is accepted; `pos` and `et` were latched at the raw edge (R55, R56). -/
def hswChange (n : Nat) (high : Bool) (pos : Int) (et : Nat) (mode : DevState) (w : World) : World :=
  let cfg := getN w (Obj.WEB_HSW_CFG n)
  let active := high == bitOf cfg 1
  if n < 4 ∧ bitOf cfg 0 = true ∧ bitOf (getN w Obj.WEB_HSW_STATE) n ≠ active then
    let w := setO w Obj.WEB_HSW_STATE (setBit (getN w Obj.WEB_HSW_STATE) n active : Nat)
    let w := raiseAt w Ev.HSW_CHANGE n (b2n high) et pos
    match field cfg 2 2, active with
    | 1, true =>
      let m := posDiff pos (getO w (Obj.WEB_HSW_OFFSET n))
      let s := -asr (-m) 16
      let len := getO w (Obj.WEB_HSW_MARK_LEN n)
      if len = 0 then w else defectRange w (inPrint mode) 5 s (s + len)
    | 2, true =>
      let w := { w with web := { w.web with hswInhibit := w.web.hswInhibit.set n true } }
      (List.range 16).foldl (fun w r => inhibitRow w 2 r) w
    | _, false =>
      let w := { w with web := { w.web with hswInhibit := w.web.hswInhibit.set n false } }
      if w.web.hswInhibit.any (·) then w else (List.range 16).foldl switchRelease w
    | _, _ => w
  else w

def execHswChange (n : Nat) (high : Bool) (pos : Int) (et : Nat) (s : State) : Host.Outcome State Fault Refusal :=
  onWorld (fun c w => whenDo (powered c.mode) (hswChange n high pos et c.mode) w) s

/-! ### SSI masters -/

def ssiAt (w : World) (n : Nat) : SsiM := w.web.ssi.getD n SsiM.reset
def updSsi (w : World) (n : Nat) (f : SsiM → SsiM) : World := { w with web := { w.web with ssi := w.web.ssi.modify n f } }

/-- The divider D of R58 for a requested clock: the smallest from 16 to 1,563 whose frequency does not exceed it. -/
def ssiDiv (hz : Nat) : Nat := max 16 (min 1563 (ceilDiv 312500000 (2 * hz)))
/-- The clock in use, Hz. -/
def ssiClk (hz : Nat) : Nat := (roundDiv 312500000 (2 * ssiDiv hz)).toNat
/-- The shortest period, µs (R59). -/
def ssiMinPeriod (w : World) (n : Nat) : Nat :=
  let bits := getF w (Obj.WEB_SSI_CFG n) 8 8 + getF w (Obj.WEB_SSI_CFG n) 2 1 + 1
  ceilDiv (bits * 2 * ssiDiv (getN w (Obj.WEB_SSI_CLK_HZ n)) * 2) 625 + getN w (Obj.WEB_SSI_MONOFLOP n)

/-- A transfer starts: ET and position are latched at the first falling clock edge (R59). -/
def ssiStart (n : Nat) (w : World) : World :=
  let m := ssiAt w n
  let due := match m.lastStart with | some c => decide (c + usClk (getN w (Obj.WEB_SSI_PERIOD n)) ≤ w.clk) | none => true
  if n < 2 ∧ getF w (Obj.WEB_SSI_CFG n) 0 1 = 1 ∧ m.busy = none ∧ due = true then
    updSsi w n fun m => { m with busy := some (nowEt w, webPos w), lastStart := some w.clk }
  else w

def execSsiTransferStart (n : Nat) (s : State) : Host.Outcome State Fault Refusal :=
  onWorld (fun c w => whenDo (powered c.mode) (ssiStart n) w) s

/-- Gray code to binary, `k` bits from the top. -/
def grayToBin : Nat → Nat → Nat → Nat
  | 0, _, acc => acc
  | k + 1, g, acc => grayToBin k g (2 * acc + (acc % 2 + g / 2 ^ k % 2) % 2)

/-- A transfer ends with the data bits `raw` as clocked in; `idleHigh` says whether the data line was high before the
first clock, `err` is the error bit (R60). DEDUCED (log 77): before the first good value there is nothing for
WEB_SSI_MAX_DELTA to compare with. -/
def ssiDone (n raw : Nat) (idleHigh err : Bool) (w : World) : World :=
  match (ssiAt w n).busy with
  | none => w
  | some (et, pos) =>
    let bits := getF w (Obj.WEB_SSI_CFG n) 8 8
    let raw := raw % 2 ^ bits
    let v := if getF w (Obj.WEB_SSI_CFG n) 1 1 = 1 then grayToBin bits raw 0 else raw
    let lim := getN w (Obj.WEB_SSI_MAX_DELTA n)
    let kind :=
      if !idleHigh then 1
      else if getF w (Obj.WEB_SSI_CFG n) 2 1 == 1 && err then 2
      else if raw + 1 = 2 ^ bits then 3
      else if lim ≠ 0 ∧ (ssiAt w n).good = true ∧ lim < ((v : Int) - getO w (Obj.WEB_SSI_VALUE n)).natAbs then 4
      else 0
    let w := updSsi w n fun m => { m with busy := none }
    if kind ≠ 0 then raiseAt (bump w (Obj.WEB_SSI_ERRORS n)) Ev.SSI_FAULT n kind et pos
    else setO (setO (updSsi w n fun m => { m with good := true }) (Obj.WEB_SSI_VALUE n) v) (Obj.WEB_SSI_ET n) et

def execSsiTransferDone (n raw : Nat) (idleHigh err : Bool) (s : State) : Host.Outcome State Fault Refusal :=
  onWorld (fun c w => whenDo (powered c.mode && decide (n < 2)) (ssiDone n raw idleHigh err) w) s

end Sys2Proof.Machine
end

