-- ==== Sys2Proof/Machine/Jacquard.lean ====
section
/-! DEFINITION. The bar slice's arithmetic (R181 to R196): decoding a web-buffer line, the stretch scaler, column
states, density, drop volume, screening and the nozzle map. Here "/" rounds to the nearest, ties upward
(chapter 7). -/

namespace Sys2Proof.Machine

/-! ### The decode unit -/

/-- Slots of the web-buffer ring and columns of a plane line. -/
def wbSlots : Nat := 57344
def wbCols : Nat := 49152
def wbKey (n : Int) (plane : Nat) : Nat := (n % (wbSlots : Int)).toNat * 8 + plane

/-- The section that a read of line `n` finds (R101, R103, R104): the one written, BLANK below the composition point
at the entry to ARMED, or none where the slot is not ready. -/
def wbSection (w : World) (plane : Nat) (n : Int) : Option Section :=
  match mapGet w.mem.wb (wbKey n plane) with
  | some s => if s.kind = 0 ∨ s.line ≠ wrapInt 24 n then none else some s
  | none =>
    match w.mem.blankBelow with
    | some c =>
      if c - wbSlots ≤ n ∧ n < c then
        some { line := wrapInt 24 n, kind := 1, frame := 0, length := 0, data := [], ue := false }
      else none
    | none => none

/-- The unreliable columns after a coded line: segments with NOREF at 1 are reliable again (R141). -/
def afterSegs (segs : List (Nat × Bool)) (unrel : List Bool) : List Bool :=
  match segs with
  | [] => []
  | (n, noRef) :: rest =>
    (if noRef then List.replicate (min n unrel.length) false else unrel.take n) ++ afterSegs rest (unrel.drop n)

/-- Decode one line after the line `p` before it (R130, R141). -/
def decodeWbStep (w : World) (plane : Nat) (n : Int) (p : WbLine) : WbLine :=
  let zeros := List.replicate wbCols 0
  let lost := { p with xs := zeros, notReady := true, spoilt := false, unsure := false, miss := true, guards := []
                       ref := zeros, unrel := List.replicate wbCols true }
  match wbSection w plane n with
  | none => lost
  | some s =>
    if s.ue then { lost with spoilt := true, notReady := false, miss := false }
    else
      let clean := { lost with notReady := false, miss := false, unrel := List.replicate wbCols false }
      match s.kind with
      | 1 => clean
      | 3 =>
        let bits := bytesBits s.data
        let xs := (List.range wbCols).map fun i => bitsNum ((bits.drop (12 * i)).take 12)
        { clean with xs := xs, ref := xs }
      | _ =>
        let o := decodeLine 12 wbCols wbCols 0 false (some p.ref) s.data 0 (8 * s.length)
        if o.guards ≠ [] then { lost with guards := o.guards }
        else
          let u := afterSegs o.noRefs p.unrel
          { clean with xs := (o.xs.zip u).map (fun e => if e.2 then 0 else e.1), unsure := u.contains true
                       ref := o.xs, unrel := u }

/-- A line that needs no line before it: one that is not ready, spoilt, BLANK or RAW, or a coded line whose first segment
has NOREF (a key line, R130). -/
def selfContained (w : World) (plane : Nat) (n : Int) : Bool :=
  match wbSection w plane n with
  | none => true
  | some s => s.ue || s.kind != 2 || bitOf (s.data.getD 1 0) 7

/-- The key line at or before line `n` (R143), over at most `k` lines. -/
def keyLineBefore (w : World) (plane : Nat) : Nat → Int → Int
  | 0, n => n
  | k + 1, n => if selfContained w plane n then n else keyLineBefore w plane k (n - 1)

/-- Where decoding of line `n` starts for a unit that has decoded the lines below `next`: behind them, or at the key line
at or before `n` where that lies further on. -/
def decodeStart (w : World) (plane : Nat) (next n : Int) : Int := max next (keyLineBefore w plane wbSlots n)

/-- What a unit holds before its first line: no reference, every column unreliable. -/
def WbLine.none : WbLine :=
  { xs := [], notReady := false, spoilt := false, unsure := false, miss := false, guards := []
    ref := List.replicate wbCols 0, unrel := List.replicate wbCols true }

/-- A 12-bit sample widened to 16 bits (R181). -/
def widen12 (x : Nat) : Nat := 16 * x + x / 256

/-! ### The stretch scaler -/

/-- The built-in cubic taps of phase `f` (R184). -/
def cubicTaps (f : Nat) : List Int :=
  let q : Int := f
  let c := [roundDiv (-4096 * q + 128 * q * q - q * q * q) 32, roundDiv (524288 - 320 * q * q + 3 * q * q * q) 32,
    roundDiv (4096 * q + 256 * q * q - 3 * q * q * q) 32, roundDiv (-64 * q * q + q * q * q) 32]
  let r := 16384 - (c.getD 0 0 + c.getD 1 0 + c.getD 2 0 + c.getD 3 0)
  if f < 32 then c.modify 1 (· + r) else c.modify 2 (· + r)

/-- Entry `e` of JQ_STRETCH_COEF by default: horizontal phases, then vertical phases (R184). -/
def coefDefault (e : Nat) : Int := (cubicTaps (e % 256 / 4)).getD (e % 4) 0

/-- The taps of phase `f` on an axis (0 horizontal, 1 vertical) under a set. -/
def stretchTaps (s : BarSet) (b axis f : Nat) : List Int :=
  if bitOf (setV s (Obj.JQ_CFG b)).toNat 8 then
    (List.range 4).map fun t => setTbl s (0x3540 + b) (256 * axis + 4 * f + t) (coefDefault (4 * f + t))
  else cubicTaps f

/-- Limit a density (chapter 7). -/
def dens16 (x : Int) : Nat := (clampInt 0 65535 x).toNat

/-- Four taps on four samples. -/
def scale4 (taps : List Int) (xs : List Nat) : Nat :=
  dens16 (roundDiv (((taps.zip xs).map fun e => e.1 * (e.2 : Int)).foldl (· + ·) 0) 16384)

/-- The ratio R in 2^-32: `g32` is the nominal ratio in 2^-32, `sigma` the stretch in 2^-24. -/
def ratio32 (g32 sigma : Int) : Int := g32 / 16777216 * (16777216 - sigma)

/-- A source position in 2^-32: the origin plus (k + 0.5) R − 0.5, with `k2` = 2k + 1. -/
def srcPos (origin k2 r : Int) : Int := origin + k2 * r / 2 - 2147483648

/-- Whole part and phase of a source position (R182). -/
def posWhole (s : Int) : Int := s / 4294967296
def posPhase (s : Int) : Nat := (s % 4294967296 / 67108864).toNat

/-- The vertical position of a data line (R183): the position, and whether the deviation is held. -/
def vertPos (wB : Int) (res600 : Bool) (x sigma : Int) : Int × Bool :=
  let k := if res600 then (x - wB) / 2 else x - wB
  let g : Int := if res600 then 4294967296 else 2147483648
  let s0 := srcPos (wB * 2147483648) (2 * k + 1) g
  let s := srcPos (wB * 2147483648) (2 * k + 1) (ratio32 g sigma)
  let lim : Int := 16 * 4294967296
  if lim < s - s0 then (s0 + lim, true) else if s - s0 < -lim then (s0 - lim, true) else (s, false)

/-- The four web-buffer lines under a vertical position, held to the frame (R183). -/
def vertLines (wB wEnd s : Int) : List Int :=
  (List.range 4).map fun (t : Nat) => clampInt (wB / 2) (wEnd / 2 - 1) (posWhole s - 1 + t)

/-- The horizontal position of column `c` (R182). -/
def horzPos (anchor sigma : Int) (c : Int) : Int :=
  srcPos (anchor * 2147483648) (2 * (c - anchor) + 1) (ratio32 2147483648 sigma)

/-- A print line's densities after the vertical pass, and what the horizontal pass needs. -/
structure SrcLine where
  cols : List Nat
  sigmaX : Int
  anchor : Int
  deriving DecidableEq, Repr

/-- The stretched density of column `c` (R182). -/
def stretchCol (s : BarSet) (b : Nat) (l : SrcLine) (c : Int) : Nat :=
  let p := horzPos l.anchor l.sigmaX c
  if p + 2147483648 < 0 ∨ 49152 * 4294967296 ≤ p + 2147483648 then 0
  else scale4 (stretchTaps s b 0 (posPhase p))
    ((List.range 4).map fun (t : Nat) => l.cols.getD (clampInt 0 49151 (posWhole p - 1 + t)).toNat 0)

/-- The vertical pass over decoded lines. -/
def vertPass (taps : List Int) (ls : List WbLine) : List Nat :=
  (List.range wbCols).map fun i => scale4 taps (ls.map fun l => widen12 (l.xs.getD i 0))

/-- σ_x and σ_y of a frame (R185): by STR_MODE of the set in force. -/
def frameSigma (w : World) (s : BarSet) (b : Nat) (f : FrameRec) : Int × Int :=
  match field (setV s (Obj.JQ_CFG b)).toNat 18 2 with
  | 1 =>
    match ((barAt w b).live.filter fun e => e.1 ≤ f.wB).getLast? with
    | some (_, x, y) => (x, y)
    | none => (0, 0)
  | 2 =>
    let j := (f.no - max 1 s.tag) % (max 1 (setV s (Obj.JQ_STR_PROF_LEN b)).toNat)
    (setTbl s (0x3550 + b) (2 * j) 0, setTbl s (0x3550 + b) (2 * j + 1) 0)
  | _ => (setV s (Obj.JQ_STRETCH_X b), setV s (Obj.JQ_STRETCH_Y b))

/-! ### The nozzle map -/

/-- The default map entry of element `e` (R195): side, row and chain index are its digits. -/
def mapDefault (e : Nat) : Nat :=
  (49152 * (e / 131072) + e % 65536) * 32768 + e / 65536 % 2 * 16384 + 3 * 4096 + 63 * 64

/-- A nozzle of a row that is not MASKED: its element, column, stitch weight and working state. -/
structure NozEnt where
  elem : Nat
  col : Nat
  stitch : Nat
  state : Nat
  deriving DecidableEq, Repr

/-- The map entry of an element under a set. -/
def mapEntry (s : BarSet) (b e : Nat) : Nat := (setTbl s (0x3510 + b) e (mapDefault e : Nat)).toNat

/-- The nozzles of bar `b`'s row that are not MASKED, in the order of their entries, within the discovered count. -/
def rowEnts (w : World) (s : BarSet) (b row : Nat) : List NozEnt :=
  (List.range 2).flatMap fun side => (List.range (portNozzles w (2 * b + side))).filterMap fun i =>
    let e := 131072 * side + 65536 * row + i
    let v := mapEntry s b e
    if field v 12 2 = 3 then none
    else some { elem := e, col := field v 15 17, stitch := field v 6 6, state := nozState w (nozKey b side row i) }

/-- Column states (R186). -/
inductive ColSt where
  | none | out | weak | ok
  deriving DecidableEq, Repr

def ColSt.usable : ColSt → Bool
  | .ok => true | .weak => true
  | _ => false

def stOf : Nat → ColSt
  | 0 => .ok | 1 => .weak
  | _ => .out

/-- The state of a column and the nozzles that print it. -/
def colInfo (ents : List NozEnt) (c : Nat) : ColSt × List NozEnt :=
  match ents.filter fun e => e.col == c with
  | [] => (.none, [])
  | [a] => (stOf a.state, if (stOf a.state).usable then [a] else [])
  | a :: b :: _ =>
    match stOf a.state, stOf b.state with
    | .ok, .ok => (.ok, [a, b])
    | .weak, .weak => (.weak, [a, b])
    | .ok, _ => (.ok, [a])
    | _, .ok => (.ok, [b])
    | .weak, _ => (.weak, [a])
    | _, .weak => (.weak, [b])
    | _, _ => (.out, [])

/-! ### Density -/

/-- The row that prints a pixel in full-row mode (R188): 0 for A, 1 for B. -/
def splitRow (mode : Nat) (c : Nat) (y : Int) : Nat :=
  match mode with
  | 0 => if ((c : Int) + y) % 2 = 0 then 0 else 1
  | 1 => c % 2
  | 2 => if y % 2 = 0 then 0 else 1
  | _ => 0

/-- What the density step of a line works from: the set, the bar, the row of the pass, the print-line index, the
stretched densities and the nozzles of both rows. -/
structure DensIn where
  s : BarSet
  b : Nat
  row : Nat
  y : Int
  line : SrcLine
  ents : List (List NozEnt)
  deriving DecidableEq, Repr

def DensIn.cfg (d : DensIn) : Nat := (setV d.s (Obj.JQ_CFG d.b)).toNat
def DensIn.col (d : DensIn) (q c : Nat) : ColSt := (colInfo (d.ents.getD q []) c).1

/-- A share of a density. -/
def shareOf (x wt : Int) : Int := roundDiv (x * wt) 16384

/-- The partner step of one row (R187): row `q` gives to its partner. -/
def partnerStep (share : Int) (q : Nat) (stQ stP : ColSt) (own : List Int × Bool) : List Int × Bool :=
  let (o, moved) := own
  let p := 1 - q
  let oq := o.getD q 0
  if stP.usable ∧ (stQ = .out ∨ stQ = .none) then ((o.set p (o.getD p 0 + oq)).set q 0, moved)
  else if stP = .ok ∧ stQ = .weak then
    let m := shareOf oq share
    ((o.set p (o.getD p 0 + m)).set q (oq - m), true)
  else (o, moved)

/-- The density of column `c` that falls to the row of the pass before redistribution, and whether a WEAK share was
moved to the partner. -/
def ownDens (d : DensIn) (c : Nat) : Int × Bool :=
  let x : Int := stretchCol d.s d.b d.line c
  if ¬ d.s.full then (x, false)
  else
    let r := splitRow (field d.cfg 16 2) c d.y
    let own : List Int × Bool := ([if r = 0 then x else 0, if r = 1 then x else 0], false)
    let own := if bitOf d.cfg 14 then
        let sh := setV d.s (Obj.JQ_WEAK_SHARE d.b)
        partnerStep sh 1 (d.col 1 c) (d.col 0 c) (partnerStep sh 0 (d.col 0 c) (d.col 1 c) own)
      else own
    (own.1.getD d.row 0, own.2)

/-- What column `c` gives to its neighbours (R187). -/
def givenDens (d : DensIn) (c : Nat) : Int :=
  if ¬ bitOf d.cfg 13 then 0
  else
    let (o, moved) := ownDens d c
    match d.col d.row c with
    | .out => o
    | .weak => if moved then 0 else shareOf o (setV d.s (Obj.JQ_WEAK_SHARE d.b))
    | _ => 0

/-- What column `c` receives from the columns at distance 1 and 2. -/
def receivedDens (d : DensIn) (c : Nat) : Int :=
  let w1 := setV d.s (Obj.JQ_RD_W1 d.b)
  let w2 := setV d.s (Obj.JQ_RD_W2 d.b)
  let from_ := fun (k : Int) (wt : Int) =>
    let c' := (c : Int) + k
    if c' < 0 ∨ 98303 < c' then 0 else shareOf (givenDens d c'.toNat) wt
  from_ (-2) w2 + from_ (-1) w1 + from_ 1 w1 + from_ 2 w2

/-- The final density of a usable column with its trim, before the limit (R187). -/
def finalDens (d : DensIn) (trim : Int) (c : Nat) : Int :=
  let g := if d.s.res600 then setV d.s (Obj.JQ_HL_GAIN d.b) else 16384
  roundDiv (((ownDens d c).1 - givenDens d c + receivedDens d c) * trim * g) 268435456

/-- Whether an OUT column loses its density (JQ_UNCOVERED): neither its partner nor a neighbour can take it. -/
def uncovered (d : DensIn) (c : Nat) : Bool :=
  let nb := fun (k : Int) =>
    let c' := (c : Int) + k
    0 ≤ c' && c' ≤ 98303 && (d.col d.row c'.toNat).usable
  d.col d.row c == .out && !(d.s.full && bitOf d.cfg 14 && (d.col (1 - d.row) c).usable) &&
    !(nb (-2) || nb (-1) || nb 1 || nb 2)

/-! ### Volume and screening -/

/-- Element `e` of JQ_VOL by default: 16 frequencies, then 7 × 16 multipliers (R191). -/
def volDefault (e : Nat) : Int := if e < 16 then 5000 * (e + 1) else 16384

/-- m_L(f) (R190). -/
def volMult (s : BarSet) (b lv f : Nat) : Int :=
  if ¬ bitOf (setV s (Obj.JQ_CFG b)).toNat 12 then 16384
  else
    let v := fun e => setTbl s (0x3530 + b) e (volDefault e)
    let m := fun i => v (16 + 16 * (lv - 1) + i)
    if (f : Int) < v 0 then m 0
    else match (List.range 15).find? fun i => (f : Int) < v (i + 1) with
      | none => m 15
      | some i => m i + roundDiv ((m (i + 1) - m i) * (f - v i)) (v (i + 1) - v i).toNat

/-- The ordered index of an `n`-bit square (R193). -/
def orderedIndex (n i j : Nat) : Nat :=
  ((List.range n).map fun k =>
    b2n (bitOf i k != bitOf j k) * 2 ^ (2 * n - 1 - 2 * k) + b2n (bitOf j k) * 2 ^ (2 * n - 2 - 2 * k)).foldl (· + ·) 0

/-- Element `e` of JQ_THRESH by default (R194): level, row of the array, column. -/
def threshDefault (e : Nat) : Int :=
  let lv := e / 65536
  let b256 := orderedIndex 8 (e % 256) (e / 256 % 256)
  min 65535 (9362 * lv + roundDiv (9362 * b256) 65536)

/-- The code of a column (R192): the first level from 7 down whose threshold the density exceeds. -/
def screenCode (thresh mult : Nat → Int) (dens : Int) : Nat → Nat
  | 0 => 0
  | lv + 1 =>
    if thresh (lv + 1) < dens16 (roundDiv (dens * mult (lv + 1)) 16384) then lv + 1 else screenCode thresh mult dens lv

/-- The nozzle of a column that takes its code (R192). -/
def stitchPick (c : Nat) (y : Int) : List NozEnt → Option Nat
  | [] => none
  | [a] => some a.elem
  | a :: b :: _ => if orderedIndex 3 (c % 8) (y % 8).toNat * 63 < a.stitch * 64 then some a.elem else some b.elem

/-- The code that each nozzle of the row takes: its element and code, for codes that are not 0; and the pixels
limited. -/
def rowCodes (d : DensIn) (trim : Nat → Int) (mult : Nat → Int) : List (Nat × Nat) × Nat :=
  let ents := d.ents.getD d.row []
  let cols := (ents.map (·.col)).eraseDups
  let res := cols.filterMap fun c =>
    let (st, noz) := colInfo ents c
    if ¬ st.usable then none
    else
      let v := finalDens d (trim c) c
      let code := screenCode (fun lv => setTbl d.s (0x3500 + d.b) (65536 * (lv - 1) + 256 * (d.y % 256).toNat + c % 256)
        (threshDefault (65536 * (lv - 1) + 256 * (d.y % 256).toNat + c % 256))) mult (dens16 v) 7
      some (((stitchPick c d.y noz).getD 0, code), decide (65535 < v))
  (res.map (·.1), (res.filter (·.2)).length)

/-! ### Checks of a table as it is loaded -/

/-- The checks of R196 over the entries of one bar in chain order, from element `e` on: the entries, how many
changed, and the (column, row) pairs seen with the stitch of the first. `fuel` is the number of entries left. -/
def mapCheck (get : Nat → Nat) : Nat → Nat → List (Nat × Nat × Nat) → List (Nat × Nat) × Nat
  | 0, _, _ => ([], 0)
  | k + 1, e, seen =>
    let v0 := get e
    let row := e / 65536 % 2
    let side := e / 131072
    let v := v0 - v0 % 64
    let col := field v 15 17
    let lo := 49152 * side
    let badCol := 98303 < col ∨ col + 2048 < lo ∨ lo + 49151 + 2048 < col
    let v := if field v 14 1 ≠ row ∨ badCol then setField v 12 2 3 else v
    let prev := seen.filter fun s => s.1 == col && s.2.1 == row
    let masked := field v 12 2 == 3
    let v := if masked = false ∧ 2 ≤ prev.length then setField v 12 2 3 else v
    let v := match masked, prev with
      | false, [p] => setField v 6 6 (63 - p.2.2)
      | _, _ => v
    let seen := if field v 12 2 = 3 then seen else (col, row, field v 6 6) :: seen
    let (l, n) := mapCheck get k (e + 1) seen
    (if v = v0 then l else (e, v) :: l, if v = v0 then n else n + 1)

/-- Four taps that sum to 16,384 (R184): the taps, and whether they changed. -/
def fixTaps (f : Nat) (t : List Int) : List Int × Bool :=
  let d := 16384 - t.foldl (· + ·) 0
  if d = 0 then (t, false)
  else
    let i := if f < 32 then 1 else 2
    let v := t.getD i 0 + d
    if v < -32768 ∨ 32767 < v then ([0, 16384 - 256 * f, 256 * f, 0], true) else (t.set i v, true)

/-- The frequencies of JQ_VOL after the checks of R191. -/
def fixFreqs : Option Int → List Int → List Int
  | _, [] => []
  | prev, f :: fs =>
    let f := clampInt 0 80000 f
    let f := match prev with | some p => if f ≤ p then p + 1 else f | none => f
    f :: fixFreqs (some f) fs

end Sys2Proof.Machine
end

