-- ==== Sys2Proof/Machine/Bars.lean ====
section
/-! DEFINITION. The bar slices at work (R177 to R208): the row passes, table loads, FIFO writes and checkpoints
(R400), nozzle states, head records, and the exchange of slices. -/

namespace Sys2Proof.Machine

/-! ### Passes and the set in force at a line -/

def passAt (w : World) (b row : Nat) : Pass := (barAt w b).passes.getD row Pass.reset
def updPass (w : World) (b row : Nat) (f : Pass → Pass) : World :=
  updBar w b fun q => { q with passes := q.passes.modify row f }

/-- Whether row `r` fires coordinate `x` under the set of `x`. -/
def firesAt (w : World) (r : Nat) (x : Int) : Bool :=
  let s := setFor w (r / 2) x
  rowFires r s.full s.res600 x

/-- The first coordinate beyond `x` that row `r` fires, each under its own set (R63, R75). -/
def nextRowLine (w : World) (r : Nat) (x : Int) : Int :=
  match (List.range 8).find? fun (i : Nat) => firesAt w r (x + 1 + i) with
  | some i => x + 1 + i
  | none => x + 1

/-- The print-line index y of a line (R187). -/
def printIndex (s : BarSet) (x : Int) : Int := if s.res600 then x / 2 else x

/-! ### Guards of the decode units -/

/-- Whether an event limited to one per second may be raised for a unit, and the note of it. -/
def musLimit (w : World) (key : Nat) : Bool × World :=
  let ok := stampOk w (mapGet w.mem.musStamp key) (secClk 1)
  (ok, if ok then { w with mem := { w.mem with musStamp := mapPut w.mem.musStamp key w.clk } } else w)

/-- Report a guard of codec unit `u` (R138 to R140). -/
def reportGuard (u : Nat) (w : World) (g : GuardRep) : World :=
  if g.kind = 20 then raise (bump w Obj.MUS_REFUSALS) Ev.MUS_REFUSED u g.samples
  else if g.kind < 10 then
    let (ok, w) := musLimit (bump w Obj.MUS_OVERRUNS) (2 * u)
    if ok then raise w Ev.MUS_OVERRUN u (g.kind * 1073741824 + g.samples % 1073741824) else w
  else
    let (ok, w) := musLimit (bump w Obj.MUS_FORMAT_ERRS) (2 * u + 1)
    if ok then raise w Ev.MUS_FORMAT u ((g.kind - 10) * 268435456 + g.seg % 268435456) else w

/-- Report what decoding line `n` finds: guards and lost references (R141). The bar's two passes both read a line; it is
reported once. -/
def reportWb (b : Nat) (w : World) (n : Int) (l : WbLine) : World :=
  if n < (barAt w b).decTold then w
  else
    let unit := 7 + getN w (Obj.JQ_BAR_SLICE b)
    let w := l.guards.foldl (reportGuard unit) w
    let w := if l.unsure then bump w Obj.MUS_REF_LOST_LINES else w
    let w := if l.unsure && !(barAt w b).refLost then raise w Ev.MUS_REF_LOST b (wrapInt 24 n) else w
    updBar w b fun q => { q with decTold := n + 1, refLost := l.unsure }

/-- A struck word of a section is read (R118): the section is spoilt where two bits are inverted. -/
def readSection (b : Nat) (m : Int) (w : World) : World :=
  let (bad, w) := readPlace 1 (wbKey m b) m w
  match mapGet w.mem.wb (wbKey m b) with
  | some x => if bad then { w with mem := { w.mem with wb := mapPut w.mem.wb (wbKey m b) { x with ue := true } } } else w
  | none => w

/-- Decode line `m` of the bar's plane for a pass: the line that the unit decoded before it is its reference (R122). -/
def decodeOne (b row : Nat) (m : Int) (w : World) : World :=
  let w := readSection b m w
  let prev := match (passAt w b row).lines.getLast? with
    | some e => if e.1 = m - 1 then e.2 else WbLine.none
    | none => WbLine.none
  let l := decodeWbStep w b m prev
  updPass (reportWb b w m l) b row fun p => { p with decNext := m + 1, lines := lastN 4 (p.lines ++ [(m, l)]) }

/-- Decode the lines from `m` to `n`, at most `k` of them, in increasing order. -/
def decodeAhead (b row : Nat) : Nat → Int → Int → World → World
  | 0, _, _, w => w
  | k + 1, m, n, w => if n < m then w else decodeAhead b row k (m + 1) n (decodeOne b row m w)

/-- Decode what the taps on the lines `ns` of a pass need (R122, R143). -/
def decodeFor (b row : Nat) (ns : List Int) (w : World) : World :=
  let lo := ns.headD 0
  let hi := ns.getLastD 0
  let next := (passAt w b row).decNext
  if hi < next then w
  else
    let m := decodeStart w b next lo
    decodeAhead b row (hi + 1 - m).toNat m hi w

/-- A line that a pass holds decoded. -/
def decodedLine (w : World) (b row : Nat) (n : Int) : WbLine :=
  ((passAt w b row).lines.lookup n).getD WbLine.none

/-! ### Densities of a data line -/

/-- What the vertical pass of a data line finds: its densities, the defect causes of its taps, and the web-buffer line
that was missing. -/
structure VertOut where
  line : SrcLine
  causes : List Nat
  miss : Option Int
  limited : Bool
  deriving DecidableEq, Repr

/-- The vertical pass of data line `x` of bar `b` in frame `f` over the lines its row's pass holds decoded (R181, R183,
R104, R116). -/
def vertOut (w : World) (s : BarSet) (b row : Nat) (f : Option FrameRec) (x : Int) : VertOut :=
  let anchor := setV s (Obj.JQ_SX_ANCHOR b)
  let zero : SrcLine := { cols := [], sigmaX := 0, anchor := anchor }
  match f with
  | none => { line := zero, causes := [], miss := none, limited := false }
  | some f =>
    let (sx, sy) := frameSigma w s b f
    let (p, lim) := vertPos f.wB s.res600 x sy
    if f.wEnd * 2147483648 ≤ p + 2147483648 then { line := zero, causes := [], miss := none, limited := lim }
    else
      let ns := vertLines f.wB f.wEnd p
      let ls := ns.map (decodedLine w b row)
      let missed := (ns.zip ls).find? fun e => e.2.miss
      { line := { cols := vertPass (stretchTaps s b 1 (posPhase p)) ls, sigmaX := sx, anchor := anchor }
        causes := (if ls.any (fun l => l.notReady || l.unsure) then [7] else []) ++
          (if ls.any (·.spoilt) then [10] else [])
        miss := missed.map (·.1), limited := lim }

/-- Trim of a column (R189): what the loop set in place, or the set's. -/
def trimOf (w : World) (s : BarSet) (b row c : Nat) : Int :=
  match mapGet w.jq.trims (posKey b row c) with
  | some v => v
  | none => setTbl s (0x3520 + b) (98304 * row + c) 16384

/-- The row frequency for the volume table (R190), and the note of the last one measured. -/
def volFreq (w : World) (b : Nat) (s : BarSet) : Nat × World :=
  if w.web.valid then
    let lps := fracFloor (fracScale (speedLps w) 65536)
    let f := (roundDiv lps (65536 * setSpacing s).toNat).toNat
    (f, setO (updBar w b fun q => { q with freq := f }) (Obj.JQ_FREQ_HZ b) f)
  else ((barAt w b).freq, setO w (Obj.JQ_FREQ_HZ b) (barAt w b).freq)

/-! ### The FIFO -/

/-- Put a head's section into the entry of fire line `x`; a section already there is discarded (R179). -/
def putSection (x : Int) (k : Nat) (sec : HeadSec) : List FifoLine → List FifoLine
  | [] => []
  | e :: es =>
    if e.x = x then { e with secs := mapPut e.secs k sec, clash := e.clash || (mapGet e.secs k).isSome } :: es
    else e :: putSection x k sec es

/-- An entry for fire line `x` of frame `no` without sections yet. -/
def newEntry (x : Int) (no : Nat) : FifoLine := { x := x, frame := no, secs := [], clash := false, bad := false }

/-- The entries with one for fire line `x`, in fire-line order. -/
def putEntry (x : Int) (no : Nat) : List FifoLine → List FifoLine
  | [] => [newEntry x no]
  | e :: es =>
    if e.x = x then e :: es
    else if x < e.x then newEntry x no :: e :: es
    else e :: putEntry x no es

/-- Entry `row` of a port's FIFOs. -/
def fifoOf (w : World) (p row : Nat) : List FifoLine := (portAt w p).fifo.getD row []
def setFifo (w : World) (p row : Nat) (l : List FifoLine) : World :=
  updPort w p fun x => { x with fifo := x.fifo.set row l }

/-- The frame of a line, 0 outside every frame. -/
def frameNo (w : World) (x : Int) : Nat := match frameAt w x with | some f => f.no | none => 0

/-- A run of fire lines that a phase change affected ends (R179): DEDUCED (log 82), at the first fire line that it does
not affect, or as the print states are left. -/
def endPhase (w : World) (b row : Nat) : World :=
  let n := (passAt w b row).phaseRun
  if n = 0 then w else raise (updPass w b row fun p => { p with phaseRun := 0 }) Ev.JQ_PHASE_LINES (2 * b + row) n

/-- Count a fire line that a phase change affected (R179), or end the run of them. -/
def notePhase (w : World) (b row : Nat) (hit : Bool) : World :=
  if hit then updPass (bump w (Obj.JQ_PHASE_LINES b)) b row fun p => { p with phaseRun := p.phaseRun + 1 }
  else endPhase w b row

/-- Write the sections of data line `x` for port `p` (R178, R213): `codes` gives the code of a map element. A port without
nozzles has no line to send and takes no entry. -/
def writePort (b row : Nat) (s : BarSet) (x next : Int) (codes : List (Nat × Nat)) (mult : List Nat) (w : World)
    (p : Nat) : World :=
  let sp := setSpacing s
  let side := p % 2
  let floor := max next ((passAt w b row).done.getD side 0)
  let w := if x < floor ∨ portNozzles w p = 0 then w else setFifo w p row (putEntry x (frameNo w x) (fifoOf w p row))
  (chain w p).foldl (fun w c =>
    let fire := x + phaseQ (headPhase s p c row) sp * sp
    if fire < floor then w
    else
      let elem := fun j => 131072 * side + 65536 * row + c.base + j
      let at_ := fun j =>
        let v := mapEntry s b (elem j)
        if field v 12 2 = 3 then none else some (field v 15 17)
      let line := (List.range c.n).map fun j => (codes.lookup (elem j)).getD 0
      let sec : HeadSec :=
        { w := x, codes := line, halves := (headProf w c.head).elim [] fun pr => halfEnergies pr line
          cols := (List.range c.n).map at_, mult := mult }
      noteWrite 5 (2 * p + row) fire
        (setFifo w p row (putSection fire (headKey c) sec (putEntry fire (frameNo w fire) (fifoOf w p row))))) w

/-- The data lines that feed fire line `x` at a head (R178): under each queued set, the line of the row that the
whole-line shift of its phase leads to `x`. -/
def feeds (w : World) (p row : Nat) (c : ChainHead) (x : Int) : List Int :=
  let b := p / 2
  let sets := (barAt w b).sets
  (if sets.isEmpty then [makeSet w b 0 0] else sets).filterMap fun s =>
    let d := x - phaseQ (headPhase s p c row) (setSpacing s) * setSpacing s
    let t := setFor w b d
    if t.wB = s.wB ∧ t.tag = s.tag ∧ firesAt w (2 * b + row) d = true then some d else none

/-- Whether fire line `x` is complete at port `p` (R178): the front has passed every data line that feeds it. -/
def fifoComplete (w : World) (p row : Nat) (x : Int) : Bool :=
  let front := (passAt w (p / 2) row).front
  x < (passAt w (p / 2) row).done.getD (p % 2) 0 || (chain w p).all fun c => (feeds w p row c x).all (· < front)

/-- Whether a phase change affects fire line `x` of a row (R179): at a head of either port no data line feeds it, or a
section of it was discarded. -/
def phaseHit (w : World) (b row : Nat) (x : Int) : Bool :=
  (barPorts b).any fun p =>
    ((fifoOf w p row).any fun e => e.x == x && e.clash) || (chain w p).any fun c => (feeds w p row c x).isEmpty

/-- The fill of a FIFO (R220): complete entries not yet committed. -/
def fifoFill (w : World) (p row : Nat) : Nat :=
  let next := (rowAt w (p / 2 * 2 + row)).next
  ((fifoOf w p row).filter fun e => next ≤ e.x && fifoComplete w p row e.x).length

/-! ### Checkpoints -/

/-- The newest valid checkpoint of a bar (R402). -/
def newestCkpt (q : BarJq) : Option Ckpt :=
  (q.ckpts.filterMap id).foldl (fun acc c => match acc with
    | none => some c
    | some a => if a.seq < c.seq then some c else some a) none

/-- Take a checkpoint of bar `b` (R400), into the slot that does not hold the newest. -/
def takeCkpt (w : World) (b : Nat) : World :=
  let q := barAt w b
  let seq := q.ckptSeq + 1
  let f := fun row => (passAt w b row).front
  let s := fun row => setFor w b (f row)
  let frame := fun row => match frameAt w (f row) with | some r => r.no | none => 0
  let c : Ckpt :=
    { seq := seq, slice := getN w (Obj.JQ_BAR_SLICE b), fronts := [f 0, f 1]
      tags := [(s 0).tag, (s 1).tag], frames := [frame 0, frame 1], et := nowEt w
      flags := b2n (s 0).res600 + 2 * b2n (s 1).res600 + 4 * b2n (s 0).full +
        8 * b2n (passAt w b 0).load.isSome + 16 * b2n (passAt w b 1).load.isSome
      sets := setQueue w b, live := q.live }
  updBar w b fun q => { q with ckpts := q.ckpts.set ((seq + 1) % 2) (some c), ckptSeq := seq }

/-- The lower of the two fronts as a print-line index. -/
def lowerFront (w : World) (b : Nat) : Int :=
  let y := fun row => let x := (passAt w b row).front; printIndex (setFor w b x) x
  min (y 0) (y 1)

/-- Take a checkpoint when the lower front crossed a multiple of 64. -/
def ckptAfter (w : World) (b : Nat) (before : Int) : World :=
  if before / 64 < lowerFront w b / 64 then takeCkpt w b else w

/-- Whether the front may advance to `x` (R401): at most 128 print lines beyond the newest checkpoint's. -/
def ckptRoom (w : World) (b row : Nat) (x : Int) : Bool :=
  match newestCkpt (barAt w b) with
  | none => true
  | some c =>
    let y0 := c.fronts.getD row 0
    printIndex (setFor w b x) x - printIndex (setFor w b y0) y0 ≤ 128

/-! ### BAR_LINE_PREPARE -/

/-- Whether a pass has room (R177): the front stays within 128 row lines and 256 lines of the next unfired line, and
each FIFO has a free entry. -/
def passRoom (w : World) (b row : Nat) : Bool :=
  let next := (rowAt w (2 * b + row)).next
  let x := (passAt w b row).front
  let s := setFor w b x
  x - next < 128 * setSpacing s && x - next < 256 && (barPorts b).all fun p => (fifoOf w p row).length < 128

/-- Whether two sets differ in a table that is loaded at a row (R202). -/
def loadsTable (b row : Nat) (s t : BarSet) : Bool :=
  let part := fun (x : BarSet) ix => mapFilter x.tbl (inTable (ix + b))
  part s 0x3510 != part t 0x3510 || part s 0x3520 != part t 0x3520 || (row == 0 && part s 0x3500 != part t 0x3500)

/-- The front reaches the boundary of a new set (R202): the set takes effect, and a table load begins when a large
table differs. A new trims version replaces what the loop had set at the row (R189). -/
def enterSet (w : World) (b row : Nat) (s : BarSet) : World :=
  let p := passAt w b row
  let q := barAt w b
  let old := (q.sets.find? fun t => t.wB == p.setB && t.tag == p.tag).getD s
  let trims := mapFilter old.tbl (inTable (0x3520 + b)) != mapFilter s.tbl (inTable (0x3520 + b))
  let w := if trims then newTrims w b row else w
  let load := if loadsTable b row old s then some w.clk else none
  let w := if load.isSome then noteWrite 6 b 0 w else w
  let w := updPass w b row fun p => { p with setB := s.wB, tag := s.tag, load := load }
  let w := setO w (if row = 0 then Obj.JQ_TAG_A b else Obj.JQ_TAG_B b) s.tag
  let w := if row = 1 then raise w Ev.JQ_SET_APPLIED b s.tag else w
  freeSets w b

/-- Reports of a data line: the stretch limit, a missing slot, uncovered columns and defect causes. -/
def lineReports (w : World) (b row : Nat) (s : BarSet) (x : Int) (f : Option FrameRec) (o : VertOut)
    (lost : Nat) : World :=
  let no := match f with | some f => f.no | none => 0
  let q := barAt w b
  let add := fun (l : List Nat) => no :: l.filter fun n => w.job.frames.any fun g => g.no == n && !g.done
  let w := if o.limited && !q.limFrames.contains no then
      raise (updBar w b fun q => { q with limFrames := add q.limFrames }) Ev.JQ_STRETCH_LIMIT b no else w
  let w := match o.miss with
    | some n => if q.missFrames.contains no then w else
        raise (updBar w b fun q => { q with missFrames := add q.missFrames }) Ev.WB_SLOT_MISS b (wrapInt 24 n)
    | none => w
  let w := if lost != 0 && !q.uncovFrames.contains no && f.isSome then
      raise (updBar w b fun q => { q with uncovFrames := add q.uncovFrames }) Ev.JQ_COL_UNCOVERED b lost else w
  o.causes.foldl (fun w c => defectLine w (2 * b + row) c x (setSpacing s)) w

/-- Columns that lose their density, over both rows (JQ_UNCOVERED). -/
def uncoveredCount (d : DensIn) : Nat :=
  ((List.range 2).map fun row =>
    (((d.ents.getD row []).map (·.col)).eraseDups.filter fun c => uncovered { d with row := row } c).length).foldl
    (· + ·) 0

/-- Prepare data line `x` of a row: decode, stretch, density, volume, screening, mapping, FIFO. -/
def prepareLine (w : World) (b row : Nat) (s : BarSet) (x : Int) : World :=
  let f := frameAt w x
  let w := match f with
    | none => w
    | some fr =>
      let (_, sy) := frameSigma w s b fr
      decodeFor b row (vertLines fr.wB fr.wEnd (vertPos fr.wB s.res600 x sy).1) w
  let o := vertOut w s b row f x
  let (freq, w) := volFreq w b s
  let mult := fun lv => volMult s b lv freq
  let d : DensIn := { s := s, b := b, row := row, y := printIndex s x, line := o.line
                      ents := [rowEnts w s b 0, rowEnts w s b 1] }
  let (codes, clipped) := if o.line.cols = [] then ([], 0) else rowCodes d (trimOf w s b row) mult
  let w := addO w (Obj.JQ_CLIP_PX b) 64 clipped
  let lost := uncoveredCount d
  let w := lineReports (setO w (Obj.JQ_UNCOVERED b) lost) b row s x f o lost
  let next := (rowAt w (2 * b + row)).next
  (barPorts b).foldl (writePort b row s x next codes ((List.range 7).map fun i => (mult (i + 1)).toNat)) w

/-- BAR_LINE_PREPARE of row `r`. -/
def barLinePrepare (r : Nat) (w : World) : World :=
  let b := r / 2
  let row := r % 2
  let p := passAt w b row
  if (barAt w b).halt ∨ (barAt w b).noSlice ∨ p.load.isSome = true ∨ passRoom w b row = false then w
  else
    let s := setFor w b p.front
    if s.wB ≠ p.setB ∨ s.tag ≠ p.tag then enterSet w b row s
    else
      let nx := nextRowLine w r p.front
      if ckptRoom w b row nx = false then w
      else
        let before := lowerFront w b
        let w := prepareLine w b row s p.front
        let w := updPass w b row fun p => { p with front := nx }
        let w := updBar w b fun q => { q with lineClk := q.lineClk.set row w.clk }
        ckptAfter w b before

def execBarLinePrepare (r : Nat) (s : State) : Host.Outcome State Fault Refusal :=
  onWorld (fun c w => whenDo (decide (r < 16) && inPrint c.mode) (barLinePrepare r) w) s

/-- TABLE_LOAD_DONE of row `r` (R203). -/
def tableLoadDone (r : Nat) (w : World) : World :=
  let b := r / 2
  match (passAt w b (r % 2)).load with
  | none => w
  | some c =>
    let us := clkUs (w.clk - c)
    let w := updPass w b (r % 2) fun p => { p with load := none }
    let w := setO w (Obj.JQ_LOAD_US b) (max (getO w (Obj.JQ_LOAD_US b)) (min 65535 us : Nat))
    if c + usClk 100 < w.clk then raise w Ev.JQ_TABLE_SLOW r us else w

def execTableLoadDone (r : Nat) (s : State) : Host.Outcome State Fault Refusal :=
  onWorld (fun _ w => whenDo (decide (r < 16)) (tableLoadDone r) w) s

/-! ### Nozzle states and head records -/

/-- The map entry in force of the nozzle selected at bar `b` (JQ_NOZ_ENTRY): element and entry, with the working state in
STATE unless the nozzle is MASKED (R197). -/
def selNoz (print : Bool) (w : World) (b : Nat) : Nat × Nat :=
  let sel := getN w (Obj.JQ_NOZ_SEL b)
  let row := field sel 16 1
  let e := 131072 * field sel 17 1 + 65536 * row + field sel 0 16
  let s := if print then setFor w b (passAt w b row).front else makeSet w b 0 0
  let v := mapEntry s b e
  (e, if field v 12 2 = 3 then v else setField v 12 2 (nozState w (b * 262144 + e)))

/-- A write of JQ_NOZ_STATE (R197): without effect and recorded when the nozzle is MASKED. It clears LOOPSET of the
position that the nozzle prints (R312). -/
def nozWrite (print : Bool) (b v source : Nat) (w : World) : World :=
  let (e, ent) := selNoz print w b
  if field ent 12 2 = 3 then
    adjust w (Obj.JQ_NOZ_STATE b) 6 source v (nozState w (b * 262144 + e))
  else
    let w := { w with loop := { w.loop with loopset := mapDel w.loop.loopset (posKey b (e / 65536 % 2) (field ent 15 17)) } }
    changeNoz w b e v

/-- The head record of an attached head as it stands (R198). -/
def headRecordNow (w : World) (p : Nat) (c : ChainHead) : HeadRecord :=
  let st := fun row j => nozState w (nozKey (p / 2) (p % 2) row (c.base + j))
  let l := (List.range 2).flatMap fun row => ((List.range c.n).map fun j => (4096 * row + j, st row j)).filter (·.2 != 0)
  { serial := c.head.serial, nozzles := c.n, valid := true, date := w.tim.sec % 4294967296, states := l }

/-- The place of a serial in a table of 1,024: its entry, a free one, or the one with the oldest date among serials
that are not attached (R71, R198). -/
def tablePlace (serial : Nat) (attached : List Nat) (l : List (Nat × Nat × Nat)) : Option Nat :=
  match l.find? fun e => e.2.1 == serial with
  | some e => some e.1
  | none =>
    match (List.range 1024).find? fun i => !l.any fun e => e.1 == i with
    | some i => some i
    | none => ((l.filter fun e => !attached.contains e.2.1).foldl (fun acc e => match acc with
        | none => some e
        | some a => if e.2.2 < a.2.2 then some e else some a) none).map (·.1)

/-- Serials of the attached heads. -/
def attachedSerials (w : World) : List Nat := (allHeads w).map fun e => e.2.head.serial

/-- JQ_HEAD_STORE (R198). -/
def headStore (w : World) : World :=
  let heads := allHeads w
  let w := heads.foldl (fun w e =>
    let l := w.jq.recs.map fun r => (r.1, r.2.serial, r.2.date)
    match tablePlace e.2.head.serial (attachedSerials w) l with
    | some i => { w with jq := { w.jq with recs := mapPut w.jq.recs i (headRecordNow w e.1 e.2) } }
    | none => w) w
  raise (storeTableLater w (Obj.JQ_HEAD_STATE / 256)) Ev.JQ_STATE_STORED 0 heads.length

/-! ### Slices -/

/-- Put slice `s` in service for bar `b`. -/
def mapSlice (w : World) (b s : Nat) : World :=
  let old := getN w (Obj.JQ_BAR_SLICE b)
  raise (setO w (Obj.JQ_BAR_SLICE b) s) Ev.JQ_SLICE_MAP b (old * 16 + s)

/-- Whether the spare exists and is in JQ_SLICE_OK. -/
def spareOk (w : World) : Bool :=
  let s := getN w Obj.JQ_SPARE
  s ≤ 8 && bitOf (getN w Obj.JQ_SLICE_OK) s

/-- The exchange of a bar's slice with the spare (R207). -/
def swapSlice (w : World) (b : Nat) : World :=
  let old := getN w (Obj.JQ_BAR_SLICE b)
  setO (mapSlice w b (getN w Obj.JQ_SPARE)) Obj.JQ_SPARE old

end Sys2Proof.Machine
end

