-- ==== Sys2Proof/Machine/Chl.lean ====
section
/-! DEFINITION. What the colour hold loop keeps of a position and a group (R303, R307 to R310), k̄_b, and the restoring
of a head's records at its attachment (R315). -/

namespace Sys2Proof.Machine

/-! ### Positions and groups -/

/-- Position n of group (b, x) (R297): row A or B, column 2x or 2x + 1. -/
def groupPos (b x n : Nat) : Nat := posKey b (n / 2) (2 * x + n % 2)
def groupKey (b x : Nat) : Nat := 49152 * b + x
def groupAt (w : World) (b x : Nat) : Group := mapGetD w.loop.groups (groupKey b x) Group.reset
def updLoop (w : World) (f : Loop → Loop) : World := { w with loop := f w.loop }
def setGroup (w : World) (b x : Nat) (g : Group) : World :=
  updLoop w fun l => { l with groups := mapPutD l.groups (groupKey b x) g Group.reset }

/-- θ of a position in Q2.14. -/
def thetaAt (w : World) (k : Nat) : Nat := mapGetD w.loop.theta k 16384
def setTheta (w : World) (k v : Nat) : World := updLoop w fun l => { l with theta := mapPutD l.theta k v 16384 }

/-- The set in force at a row's pass. -/
def rowSet (w : World) (b row : Nat) : BarSet := setFor w b (passAt w b row).front
/-- The trim of the set at a position. -/
def baseTrim (w : World) (b row c : Nat) : Int := setTbl (rowSet w b row) (0x3520 + b) (98304 * row + c) 16384

/-- u of a position in Q2.14: where the loop has not set it, the trim of the set (R310, R317). -/
def uAt (w : World) (b row c : Nat) : Nat := mapGetD w.loop.u (posKey b row c) (baseTrim w b row c).toNat
def setU (w : World) (b row c v : Nat) : World := updLoop w fun l => { l with u := mapPut l.u (posKey b row c) v }

/-- The trim of u under g_b (R309): 16,384 × g_b × u_n, rounded and limited. -/
def trimValue (w : World) (b u : Nat) : Int :=
  clampInt (getO w Obj.CHL_TRIM_MIN) (getO w Obj.CHL_TRIM_MAX) (roundDiv (getO w (Obj.CHL_GAIN b) * u) 16777216)

/-- Write a trim in place (R189); during a switchover it waits for the spare's first line (R405). -/
def writeTrim (w : World) (b row c : Nat) (v : Int) : World :=
  if (barAt w b).halt then updBar w b fun q => { q with heldTrims := q.heldTrims ++ [(row, c, v)] }
  else { w with jq := { w.jq with trims := mapPut w.jq.trims (posKey b row c) v.toNat } }

/-- The trims that waited for the spare's first line are written (R405). -/
def flushTrims (w : World) (b : Nat) : World :=
  let l := (barAt w b).heldTrims
  l.foldl (fun w e => writeTrim w b e.1 e.2.1 e.2.2) (updBar w b fun q => { q with heldTrims := [], halt := false })

/-- Whether the loop writes trims to a bar (R310). -/
def trimsOn (w : World) (b : Nat) : Bool :=
  bitOf (getN w Obj.CHL_CFG) 0 && bitOf (getN w Obj.CHL_CFG) 1 && !w.loop.hold.getD b false

/-- The nozzles of a row under the set in force there. -/
def rowNozzles (w : World) (b row : Nat) : List NozEnt := rowEnts w (rowSet w b row) b row

/-- The nozzles of a bar as the loop's positions have them: a nozzle-map version counts once it has reached row B
(R307). -/
def loopEnts (w : World) (b : Nat) : List (List NozEnt) := (List.range 2).map (rowEnts w (rowSet w b 1) b)

/-- k̄_b (R308): the mean θ of the columns whose state in their row is OK or WEAK; 1.0 where there is none. `ents` are
the nozzles of the two rows. -/
def meanTheta (w : World) (b : Nat) (ents : List (List NozEnt)) : Nat :=
  let ks := (List.range 2).flatMap fun row => (List.range 98304).filterMap fun c =>
    if (colInfo (ents.getD row []) c).1.usable then some (thetaAt w (posKey b row c)) else none
  if ks.isEmpty then 16384 else (roundDiv (ks.foldl (· + ·) 0 : Nat) ks.length).toNat

def kMean (w : World) (b : Nat) : Nat := meanTheta w b (loopEnts w b)

/-! ### Head loop records -/

/-- The usable record of a serial. -/
def loopRecOf (w : World) (serial n : Nat) : Option LoopRec :=
  (w.loop.recs.find? fun e => e.2.serial == serial && e.2.valid && e.2.nozzles == n).map (·.2)

/-- The head that holds chain index `i` of a port, with the nozzle's number in it. -/
def headOfIndex (w : World) (p i : Nat) : Option (ChainHead × Nat) :=
  ((chain w p).find? fun c => c.base ≤ i && i < c.base + c.n).map fun c => (c, i - c.base)

/-- θ and LOOPSET that a nozzle's head record, as loaded at its attachment, gives (R315, R317): 1.0 without a usable
record. -/
def storedTheta (w : World) (b row elem : Nat) : Nat × Bool :=
  match headOfIndex w (2 * b + elem / 131072) (elem % 65536) with
  | some (c, j) =>
    match mapGet w.loop.loaded c.head.serial with
    | some r => (mapGetD r.theta (4096 * row + j) 16384, mapGetD r.loopset (4096 * row + j) 0 == 1)
    | none => (16384, false)
  | none => (16384, false)

/-- Restore the position of column `c` from the records of the nozzles that print it, and write its trim as a step. -/
def restorePos (b row kbar : Nat) (ents : List NozEnt) (w : World) (c : Nat) : World :=
  match ents.filter fun e => e.col == c with
  | [] => w
  | l =>
    let vs := l.map fun e => storedTheta w b row e.elem
    let th := (roundDiv ((vs.map (·.1)).foldl (· + ·) 0 : Nat) vs.length).toNat
    let k := posKey b row c
    let w := setTheta w k th
    let w := updLoop w fun s => { s with loopset := mapPutD s.loopset k (b2n (vs.any (·.2))) 0 }
    let g := groupAt w b (c / 2)
    let w := setGroup w b (c / 2) { g with s := List.replicate 10 0, b := List.replicate 4 0 }
    if trimsOn w b then
      let u := (roundDiv (16384 * kbar : Nat) (max 1 th)).toNat
      writeTrim (setU w b row c (min 65535 u)) b row c (trimValue w b u)
    else w

/-- A head is attached (R315): its positions take θ and LOOPSET, S and B of their groups restart, and outside the print
states u_n and the trim follow at once. -/
def restoreHead (w : World) (p base n : Nat) : World :=
  let b := p / 2
  let w := match headOfIndex w p base with
    | some (c, _) =>
      let t := mapDel w.loop.loaded c.head.serial
      let t := match loopRecOf w c.head.serial c.n with | some r => mapPut t c.head.serial r | none => t
      updLoop w fun l => { l with loaded := t }
    | none => w
  let kbar := kMean w b
  (List.range 2).foldl (fun w row =>
    let ents := rowNozzles w b row
    let mine := ents.filter fun e => e.elem / 131072 == p % 2 && decide (base ≤ e.elem % 65536) && decide (e.elem % 65536 < base + n)
    (mine.map (·.col)).eraseDups.foldl (restorePos b row kbar ents) w) w

end Sys2Proof.Machine
end

