-- ==== Sys2Proof/Machine/Switch.lean ====
section
/-! DEFINITION. Deadlines (R408) and the fail-over of bar slices (R399 to R407), and changes of the device state as
they are recorded (R437). -/

namespace Sys2Proof.Machine

/-! ### Device state -/

/-- Change the device state: SYS_PREV_STATE, the clock of the entry, and SYS_STATE with the cause (1 command,
2 start-up, 3 a cause of SAFE or a power save, 4 link or hot-plug, 5 pause complete, 6 first line of a frame: R457,
log 17). -/
def setMode (cause : Nat) (m : DevState) (s : State) : State :=
  let old := s.ctl.mode
  let w := { s.w with sys := { s.w.sys with enterClk := s.w.clk } }
  { s with ctl := { s.ctl with mode := m, prev := old }
           w := raise w Ev.SYS_STATE 0 (cause * 16777216 + modeCode old * 256 + modeCode m) }

/-! ### Deadlines -/

/-- A miss of deadline `n` (R408): counted, and for deadlines 3, 6, 7 (host) and 8 SUP_DEADLINE at most once per
second with the lateness in µs. -/
def dlMiss (w : World) (n us : Nat) : World :=
  let w := bump w (Obj.SUP_DL_MISS (n - 1))
  if (n = 3 ∨ n = 6 ∨ n = 7 ∨ n = 8) ∧ stampOk w (mapGet w.sup.dlStamp n) (secClk 1) = true then
    raise { w with sup := { w.sup with dlStamp := mapPut w.sup.dlStamp n w.clk } } Ev.SUP_DEADLINE n (min us 4294967295)
  else w

/-! ### Slice fail-over -/

/-- The first row line at or beyond the next unfired line that is not complete at port `p`. -/
def firstIncomplete (w : World) (p row : Nat) : Int :=
  let b := p / 2
  let next := (rowAt w (2 * b + row)).next
  let l := (fifoOf w p row).filter fun e => next ≤ e.x
  match l.find? fun e => !fifoComplete w p row e.x with
  | some e => e.x
  | none => match l.getLast? with
    | some e => nextRowLine w (2 * b + row) e.x
    | none => max next (passAt w b row).front

/-- A failure of a bar's slice: entries not complete are discarded (R225). -/
def dropIncomplete (w : World) (b : Nat) : World :=
  (List.range 2).foldl (fun w row =>
    let dones := (barPorts b).map fun p => firstIncomplete w p row
    let w := updPass w b row fun p => { p with done := dones }
    (barPorts b).foldl (fun w p =>
      setFifo w p row ((fifoOf w p row).filter fun e => e.x < dones.getD (p % 2) 0)) w) w

/-- No slice is left for bar `b` (R403). -/
def noSliceLeft (w : World) (b : Nat) : World :=
  let w := updBar w b fun q => { q with noSlice := true, halt := false, miss := [] }
  let w := raise w Ev.SUP_SPARE (getN w (Obj.JQ_BAR_SLICE b)) 2
  stopSrc w 6 true

/-- Bar `b`'s slice has failed with a cause of R399: the spare takes the bar (R402), or no slice is left (R403). -/
def sliceFail (w : World) (b cause : Nat) : World :=
  let q := barAt w b
  if q.noSlice then w
  else
    let old := getN w (Obj.JQ_BAR_SLICE b)
    let spare := getN w Obj.JQ_SPARE
    let can := !q.halt && spareOk w && (newestCkpt q).isSome
    let w := setO w Obj.JQ_SLICE_OK (setBit (getN w Obj.JQ_SLICE_OK) old false : Nat)
    let w := setO w (Obj.FIR_BAR_MISS (2 * b)) 0
    let w := setO w (Obj.FIR_BAR_MISS (2 * b + 1)) 0
    let w := dropIncomplete w b
    if can then
      let data := cause * 268435456 + old * 16777216 + spare * 1048576 + q.ckptSeq % 65536
      let w := { w with sup := { w.sup with sliceFails := w.sup.sliceFails.modify old (· + 1)
                                            retest := w.sup.retest ++ [(old, w.clk)], spareTest := none
                                            swClk := w.sup.swClk.set b w.clk } }
      let w := updBar w b fun q => { q with halt := true, miss := [] }
      let w := setO (mapSlice w b spare) Obj.JQ_SPARE 255
      let w := setO (bump w Obj.SUP_SWITCHES) Obj.SUP_LAST_CAUSE data
      raise w Ev.SUP_SWITCH b data
    else noSliceLeft w b

/-- SLICE_INTERNAL_FAULT at bar `b`: an internal fault, or an uncorrectable error in the bar's tables (R399). -/
def sliceInternalFault (b : Nat) (tables : Bool) (w : World) : World := sliceFail w b (if tables then 3 else 4)

/-- Whether a pass of bar `b` has a free FIFO entry and has completed no line for SUP_SLICE_STALL_US (R399). -/
def stalled (w : World) (b : Nat) : Bool :=
  let q := barAt w b
  !q.halt && !q.noSlice && (List.range 2).any fun row =>
    (barPorts b).all (fun p => (fifoOf w p row).length < 128) &&
      q.lineClk.getD row 0 + usClk (getN w Obj.SUP_SLICE_STALL_US) ≤ w.clk

/-- The data line from which the spare runs the full pipeline (R402): the first that feeds a fire line not complete. -/
def restartLine (w : World) (b row : Nat) : Int :=
  let p := passAt w b row
  let l := (barPorts b).flatMap fun pt =>
    let d := p.done.getD (pt % 2) 0
    let s := setFor w b d
    d :: (chain w pt).map fun c => d - phaseQ (headPhase s pt c row) (setSpacing s) * setSpacing s
  max p.start (l.foldl min (l.headD 0))

/-- SWITCHOVER_DONE: the spare delivers its first line (R402), and trims that waited for it are written (R405). -/
def switchoverDone (b : Nat) (w : World) : World :=
  if ¬ (barAt w b).halt then w
  else
    let w := (List.range 2).foldl (fun w row =>
      let x := restartLine w b row
      let s := setFor w b x
      updPass w b row fun p =>
        { p with front := x, setB := s.wB, tag := s.tag, load := none, decNext := -4611686018427387904, lines := [] }) w
    let w := flushTrims (updBar w b fun q => { q with lineClk := [w.clk, w.clk] }) b
    setO w Obj.SUP_SWITCH_US (min 65535 (clkUs (w.clk - w.sup.swClk.getD b 0)) : Nat)

def execSwitchoverDone (b : Nat) (s : State) : Host.Outcome State Fault Refusal :=
  onWorld (fun c w => whenDo (decide (b < 8) && inPrint c.mode) (switchoverDone b) w) s

/-- SLICE_RETEST_DONE: the replaced slice has repeated the self-test (R406). -/
def sliceRetest (slice : Nat) (pass : Bool) (w : World) : World :=
  if ¬ w.sup.retest.any (fun e => e.1 == slice) then w
  else
    let w := { w with sup := { w.sup with retest := w.sup.retest.filter fun e => e.1 != slice } }
    if pass ∧ w.sup.sliceFails.getD slice 0 < getN w Obj.SUP_SLICE_FAIL_MAX then
      let w := setO w Obj.JQ_SLICE_OK (setBit (getN w Obj.JQ_SLICE_OK) slice true : Nat)
      let w := { setO w Obj.JQ_SPARE slice with sup := { w.sup with spareClk := w.clk } }
      raise w Ev.SUP_SPARE slice 1
    else raise w Ev.SUP_SPARE slice 0

def execSliceRetestDone (slice : Nat) (pass : Bool) (s : State) : Host.Outcome State Fault Refusal :=
  onWorld (fun _ w => whenDo (decide (slice < 9)) (sliceRetest slice pass) w) s

/-- SPARE_TEST_START (R407). -/
def spareTestStart (w : World) : World :=
  let m := getN w Obj.SUP_SPARE_TEST_MIN
  if m = 0 ∨ bitOf (getN w Obj.SUP_CFG) 1 = true ∨ spareOk w = false ∨ w.sup.spareTest.isSome = true ∨
      w.clk < w.sup.spareClk + secClk (60 * m) then w
  else { w with sup := { w.sup with spareTest := some w.clk, spareClk := w.clk } }

def execSpareTestStart (s : State) : Host.Outcome State Fault Refusal := onWorld (fun _ w => spareTestStart w) s

/-- SPARE_TEST_DONE with its result (R407). -/
def spareTestDone (pass : Bool) (w : World) : World :=
  if w.sup.spareTest.isNone then w
  else
    let w := { w with sup := { w.sup with spareTest := none } }
    if pass then w
    else
      let s := getN w Obj.JQ_SPARE
      raise (setO w Obj.JQ_SLICE_OK (setBit (getN w Obj.JQ_SLICE_OK) s false : Nat)) Ev.SUP_SPARE s 0

def execSpareTestDone (pass : Bool) (s : State) : Host.Outcome State Fault Refusal :=
  onWorld (fun _ w => spareTestDone pass w) s

/-- A write of a bar's number to JQ_SLICE_SWAP (R207): accepted in IDLE and SERVICE with a spare that passed. -/
def sliceSwap (mode : DevState) (b source : Nat) (w : World) : World :=
  if (mode = .idle ∨ mode = .service) ∧ spareOk w = true ∧ b < 8 then swapSlice w b
  else adjust w Obj.JQ_SLICE_SWAP 6 source b 0

end Sys2Proof.Machine
end

