-- ==== Sys2Proof/Machine/LineTime.lean ====
section
/-! DEFINITION. Predicting fire times (R62 to R67, R77, R221): targets, the landing instant from the anchor, saturation,
commit instants and the pull. Instants are in ns of the timer. -/

namespace Sys2Proof.Machine

/-- What the line clock computes for a line of a row: the target in 1/64 line, the spacing, the fire time before and
after saturation, the lead and the latest commit instant. -/
structure Fire where
  p64 : Int
  spacing : Int
  nominal : Frac
  fire : Frac
  lead : Nat
  commit : Frac
  deriving DecidableEq, Repr

/-- The target of line `x` of row `r` in 1/64 line (R62). -/
def target64 (w : World) (r : Nat) (x : Int) : Int := 64 * x + rowD64 w r (setFor w (r / 2) x)

/-- Whether the interpolated position has reached a target (R67, R476). -/
def targetReached (w : World) (p64 : Int) : Bool := posReached w (p64 * 1024)

/-- The reported speed is 0 where it cannot carry a line to its target. -/
def speedZero (w : World) : Bool := (speedLps w).num == 0

/-- The fire time of line `x` of row `r` before saturation (R66): from the anchor at the present speed. -/
def nominalFire (w : World) (r : Nat) (x : Int) : Frac :=
  let dist := frac (target64 w r x * 67108864 - w.lck.sE) 4294967296
  let land := fracAdd (fracI w.lck.tE) (fracScale (fracDiv dist (speedLps w)) 1000000000)
  fracSub land (fracI (setV (setFor w (r / 2) x) (Obj.LCK_ROW_ADV r)))

/-- A fire time held to 1 / F_max behind the row's last (R66 pseudocode). -/
def saturate (w : World) (r : Nat) (f : Frac) : Frac :=
  match (rowAt w r).lastFire with
  | none => f
  | some l => fracMax f (fracAdd l (frac 1000000000 (max 1 (fMax w (r / 2)))))

/-- The fire of line `x` of row `r`, as predicted now. -/
def fireOf (w : World) (r : Nat) (x : Int) : Fire :=
  let s := setFor w (r / 2) x
  let n := nominalFire w r x
  let f := saturate w r n
  let lead := leadNs w (r / 2)
  { p64 := target64 w r x, spacing := setSpacing s, nominal := n, fire := f, lead := lead, commit := fracSub f (fracI lead) }

/-- Whether a fire time can be predicted: SPD_VALID at 1, tracker FORWARD, a speed above 0, the row not inhibited. -/
def predictable (w : World) (r : Nat) : Bool :=
  w.web.valid && w.web.trk == .forward && !speedZero w && (rowAt w r).inhibited == 0

/-- The predicted commit instant of the next line of row `r`. -/
def nextCommit (w : World) (r : Nat) : Option Frac :=
  if predictable w r then some (fireOf w r (rowAt w r).next).commit else none

/-- The other row of the bar. -/
def otherRow (r : Nat) : Nat := if r % 2 = 0 then r + 1 else r - 1

/-- The instant that port `p` asks for a line of row `r` whose latest commit instant is `c` (R221): earlier when the
other row's next line would be committed within one transmission time after it, but not before the transmission ahead
ends. On a tie row A is pulled. -/
def pullAt (w : World) (p r : Nat) (c : Frac) : Frac :=
  match nextCommit w (otherRow r) with
  | none => c
  | some o =>
    let tx := fracI (txNs (portNozzles w p))
    let after := if r % 2 = 0 then fracLe c o else fracLt c o
    if after ∧ fracLt o (fracAdd c tx) = true then
      fracMin c (fracMax (fracSub o tx) (portAt w p).busy)
    else c

/-- The ports of a row's bar that serve nozzles. -/
def servingPorts (w : World) (r : Nat) : List Nat := (barPorts (r / 2)).filter fun p => portNozzles w p != 0

/-- The earlier of the instants that the ports ask for, with the ports that pull. -/
def commitInstant (w : World) (r : Nat) (c : Frac) : Frac × List Nat :=
  let l := (servingPorts w r).map fun p => (p, pullAt w p r c)
  (l.foldl (fun acc e => fracMin acc e.2) c, (l.filter fun e => fracLt e.2 c).map (·.1))

/-- The frequency in Hz that a line spacing demands (R76): 0 while SPD_VALID is 0 or the tracker is not FORWARD. -/
def demandAt (w : World) (spacing : Int) : Frac :=
  if w.web.valid ∧ w.web.trk = .forward then fracDiv (speedLps w) (fracI spacing) else fracI 0

/-- The set under which row `r` fires its next line. -/
def nextSet (w : World) (r : Nat) : BarSet := setFor w (r / 2) (rowAt w r).next

/-- Demanded frequency of row `r` in Hz as a fraction (R76). -/
def rowDemand (w : World) (r : Nat) : Frac := demandAt w (setSpacing (nextSet w r))

/-- Whether row `r`'s demand is at or above `pct` percent of its F_max. -/
def demandAbove (w : World) (r : Nat) (pct : Int) : Bool :=
  fracLe (fracI (pct * fMax w (r / 2))) (fracScale (rowDemand w r) 100)

/-! ### The half-line switch -/

/-- The boundaries begun or set up at least 512 lines ahead of bar 0 row A, in order, with the tags of their frames,
behind the one at which a queue was full (R77). -/
def switchBoundaries (w : World) : List (Int × Nat) :=
  let need := webPos w - rowD64Now w 0 * 1024 + 512 * 65536
  let l := (w.job.frames.map fun f => (f.wB, f.no)) ++
    (w.job.bounds.filter fun b => b.isSetUp && !b.virt).map fun b => (b.w, b.no)
  l.filter fun e => decide (need ≤ linePos e.1) && w.lck.hlAfter.all (· < e.1)

/-- Hand every bar the set in force with the resolution wanted, at boundary `wB` (R77, R80). Sets that begin at or
beyond the boundary take the resolution too, and the heads get the settings of each (R251). -/
def insertSwitch (w : World) (to600 : Bool) (wB : Int) (tag : Nat) : World :=
  let w := (List.range 8).foldl (fun w b =>
    updBar w b fun q =>
      let base := (pickSet q.sets wB).getD (makeSet w b 0 wB)
      let new := { base with wB := wB, tag := tag, switch := true, res600 := to600 }
      let before := q.sets.filter fun s => s.wB < wB
      let later := (q.sets.filter fun s => wB < s.wB).map fun s =>
        if setV s Obj.LCK_RES_MODE = 2 then { s with res600 := to600 } else s
      { q with sets := before ++ [new] ++ later }) w
  let w := (List.range 16).foldl (fun w p =>
    ((barAt w (p / 2)).sets.filter fun s => wB ≤ s.wB).foldl (fun w s => sendPhases w p (fun _ => s) false) w) w
  { w with lck := { w.lck with hlWant := none, hlAfter := none, hl600 := to600, hlLast := some wB } }

/-- Place a wanted switch at the first boundary with the margin; where a queue has no free entry, the switch moves beyond
the boundaries known now (R77). -/
def placeSwitch (w : World) : World :=
  match w.lck.hlWant, switchBoundaries w with
  | some to600, e :: es =>
    if (List.range 8).any fun b => 8 ≤ (setQueue w b).length then
      { w with lck := { w.lck with hlAfter := some (es.getLastD e).1 } }
    else insertSwitch w to600 e.1 e.2
  | _, _ => w

end Sys2Proof.Machine
end

