-- ==== Sys2Proof/Machine/Fire.lean ====
section
/-! DEFINITION. The fire schedulers (R209 to R226): group energy, the strobe plan, downgrading, overlap, sending a line
or a null line, fire tallies (R299), and electrical idle. -/

namespace Sys2Proof.Machine

/-! ### Groups and energy -/

/-- A head's part of a line: its place in the chain, its profile, its codes, the energies stored with them (R213) and the
remainder of its phase as a fraction of the row period (R70). -/
structure HeadLine where
  c : ChainHead
  prof : Prof
  codes : List Nat
  halves : List (Nat × Nat)
  rem64 : Int
  deriving DecidableEq, Repr

/-- The stored energy of a half of group `g`: 0 even, 1 odd. -/
def halfEnergy (h : HeadLine) (g half : Nat) : Nat :=
  let e := h.halves.getD g (0, 0)
  if half = 0 then e.1 else e.2
/-- The stored energy of group `g`. -/
def groupEnergy (h : HeadLine) (g : Nat) : Nat := halfEnergy h g 0 + halfEnergy h g 1

/-- The alignment delay of a head in ns (R70). -/
def alignDelay (h : HeadLine) (spacing : Int) (period : Frac) : Frac :=
  fracMul (frac h.rem64 (64 * spacing).toNat) period

/-! ### The strobe plan -/

/-- The split budget of a head (R214). -/
def splitBudget (p : Prof) (tPred : Frac) (margin : Nat) : Nat :=
  let t := fracDiv (fracSub (fracScale tPred (100 - margin)) (fracI (100 * p.guardNs))) (fracI (100 * p.slotNs))
  min p.groups (max 0 (fracFloor t - p.groups)).toNat

/-- Bits of a mask below `g`. -/
def maskBelow (mask g : Nat) : Nat := ((List.range g).filter fun i => bitOf mask i).length

/-- The excess of group `g` over all heads (R215). -/
def groupExcess (hs : List HeadLine) (g : Nat) : Nat :=
  (hs.map fun h => if g < h.prof.groups then groupEnergy h g - h.prof.limit else 0).foldl
    (· + ·) 0

/-- Insert a candidate in decreasing order of excess, ties to the lower group. -/
def insCand (e : Nat × Nat) : List (Nat × Nat) → List (Nat × Nat)
  | [] => [e]
  | x :: xs => if x.2 < e.2 then e :: x :: xs else x :: insCand e xs

/-- The split mask of a line (R215): `budget` is S_h of each head. -/
def splitMask (hs : List (HeadLine × Nat)) : Nat :=
  let ex := (List.range 16).map fun g => (g, groupExcess (hs.map (·.1)) g)
  let cand := (ex.filter fun e => e.2 != 0).foldl (fun acc e => insCand e acc) []
  cand.foldl (fun mask e =>
    let g := e.1
    if hs.all fun h => h.1.prof.groups ≤ g || maskBelow mask h.1.prof.groups + 1 ≤ h.2 then setBit mask g true else mask) 0

/-- One unit lowered until its excess is gone (R216): the codes, the pointer, the steps. `fuel` bounds the loop: the
energy is 0 once every code is. -/
def lowerUnit (p : Prof) (js : List Nat) : Nat → Int → Nat → List Nat → Nat → List Nat × Nat × Nat
  | 0, _, i, codes, steps => (codes, i, steps)
  | k + 1, excess, i, codes, steps =>
    if excess ≤ 0 then (codes, i, steps)
    else
      let n := js.getD i 0
      let v := codes.getD n 0
      let i' := (i + 1) % max 1 js.length
      if v = 0 then lowerUnit p js k excess i' codes steps
      else lowerUnit p js k (excess - ((p.e.getD v 0 : Int) - p.e.getD (v - 1) 0)) i' (codes.set n (v - 1)) (steps + 1)

/-- The units of a head under a split mask (R216): pointer key suffix (2 × group + half), nozzles and stored energy. -/
def unitsOf (h : HeadLine) (mask : Nat) : List (Nat × List Nat × Nat) :=
  (List.range h.prof.groups).flatMap fun g =>
    let js := groupNozzles h.prof g
    if bitOf mask g then [(2 * g, everySecond 0 js, halfEnergy h g 0), (2 * g + 1, everySecond 1 js, halfEnergy h g 1)]
    else [(2 * g, js, groupEnergy h g)]

/-- Downgrade the units of a head that exceed the limit (R216): codes, pointers, steps. DEDUCED (log 83): a pointer that
an unsplit group left beyond the end of its even half stands at its remainder by the half's size. -/
def downgradeHead (row : Nat) (mask : Nat) (ptr : KMap Nat) (h : HeadLine) : HeadLine × KMap Nat × Nat :=
  (unitsOf h mask).foldl (fun (h, ptr, steps) u =>
    let (suffix, js, e) := u
    if e ≤ h.prof.limit then (h, ptr, steps)
    else
      let key := ((row * 64 + headKey h.c) * 32) + suffix
      let i := mapGetD ptr key 0 % max 1 js.length
      let (codes, i, k) := lowerUnit h.prof js (8 * js.length + 1) ((e : Int) - h.prof.limit) i h.codes 0
      ({ h with codes := codes }, mapPutD ptr key i 0, steps + k)) (h, ptr, 0)

/-- Downgrade every head of a line. -/
def downgradeAll (row mask : Nat) (ptr : KMap Nat) : List HeadLine → List HeadLine × KMap Nat × Nat
  | [] => ([], ptr, 0)
  | h :: hs =>
    let (h', ptr, k) := downgradeHead row mask ptr h
    let (hs', ptr, n) := downgradeAll row mask ptr hs
    (h' :: hs', ptr, k + n)

/-! ### Fire tallies -/

/-- The window that holds coordinate `x` (R286, R299): windows follow every INS_WIN_LINES from the boundary of the
last frame begun at or before it. -/
def windowAt (w : World) (x : Int) : Option Int :=
  match (w.job.frames.filter fun f => f.wB ≤ x).getLast? with
  | none => none
  | some f => some (f.wB + (x - f.wB) / f.winLen * f.winLen)

/-- Bar 0 row A fires the first line of a window: a tally slot is taken, or the window is skipped (R100). -/
def takeTally (w : World) (x : Int) : World :=
  match windowAt w x with
  | none => w
  | some s =>
    if w.mem.tallyWins.any fun e => e.1 == s then w
    else
      let used := w.mem.tallyWins.filterMap (·.2)
      match (List.range w.mem.tallyWin).find? fun i => !used.contains i with
      | some i =>
        { w with mem := { w.mem with tallyWins := w.mem.tallyWins ++ [(s, some i)]
                                     tally := mapFilter w.mem.tally fun k => k / 1572864 != i } }
      | none => bump { w with mem := { w.mem with tallyWins := w.mem.tallyWins ++ [(s, none)] } } Obj.MEM_TALLY_SKIP

/-- The weight of a drop of waveform `lv` (R299). -/
def dropWeight (w : World) (b lv mult : Nat) : Nat :=
  (roundDiv ((getN w (Obj.CHL_VNOM b (lv - 1)) : Int) * 16384) (max 1 mult)).toNat

/-- Add the codes sent of one head to the tally of a line's window (R299). -/
def addTally (w : World) (r : Nat) (x : Int) (codes : List Nat) (sec : HeadSec) : World :=
  match (windowAt w x).bind fun s => (w.mem.tallyWins.find? fun e => e.1 == s).bind (·.2) with
  | none => w
  | some slot =>
    let w := noteWrite 3 slot 0 w
    let base := slot * 1572864 + 196608 * (r / 2) + 98304 * (r % 2)
    (codes.zip sec.cols).foldl (fun w e =>
      match e.2 with
      | some c => if e.1 = 0 then w
        else { w with mem := { w.mem with tally := mapAdd w.mem.tally (base + c) (dropWeight w (r / 2) e.1 (sec.mult.getD (e.1 - 1) 16384)) } }
      | none => w) w

/-! ### Sending -/

/-- Entries of a record of the last second. -/
def lastSecond (clk : Nat) (l : List (Nat × Nat)) : List (Nat × Nat) := l.filter fun e => clk < e.1 + secClk 1

/-- What a port is told to send. -/
structure SendReq where
  r : Nat
  x : Int
  f : Fire
  fireAt : Frac
  late : Bool
  null : Bool
  deriving DecidableEq, Repr

/-- The predicted period T_pred of R214 in ns; none without a speed or a previous fire. -/
def predPeriod (w : World) (q : SendReq) : Option Frac :=
  let bySpeed := if w.web.valid ∧ ¬ speedZero w then
      some (fracDiv (fracScale (fracI q.f.spacing) 1000000000) (speedLps w)) else none
  match (rowAt w q.r).lastFire with
  | none => bySpeed
  | some l =>
    let d := fracSub q.fireAt l
    match bySpeed with | none => some d | some v => some (fracMin d v)

/-- T_pred in link ticks, saturated (R242). -/
def periodTicks (t : Option Frac) : Nat :=
  match t with
  | none => 16777215
  | some t => min 16777215 (max 0 (fracRound (fracMul t (frac 100 128)))).toNat

/-- The occupancy key of a head row. -/
def occKey (row : Nat) (c : ChainHead) : Nat := row * 64 + headKey c

/-- The heads of a FIFO line as the scheduler works on them; a missing section reads code 0 (R179). -/
def headLines (w : World) (p row : Nat) (x spacing : Int) (e : Option FifoLine) : List HeadLine :=
  let s := setFor w (p / 2) x
  (chain w p).filterMap fun c => (headProf w c.head).map fun pr =>
    let sec := e.bind fun e => mapGet e.secs (headKey c)
    { c := c, prof := pr, rem64 := phaseRem (headPhase s p c row) spacing
      codes := sec.elim (List.replicate c.n 0) (·.codes), halves := sec.elim [] (·.halves) }

/-- The period of the alignment delays of a line (R70, R246): the difference of the stamps of the row's last two lines, or
T_pred for a line that goes out as FIRST. -/
def stampPeriod (w : World) (p : Nat) (q : SendReq) : Frac :=
  let pred := (predPeriod w q).getD (fracI 0)
  if (portAt w p).first.getD (q.r % 2) true then pred
  else match (rowAt w q.r).lastFire with
    | none => pred
    | some l => fracSub q.fireAt l

/-- Move the occupancy of each head past a line with firing instants at `fireAt` (R218). -/
def occupy (row : Nat) (mask : Nat) (spacing : Int) (period fireAt : Frac) (hs : List HeadLine) (occ : KMap Frac) :
    KMap Frac :=
  hs.foldl (fun occ h =>
    let at_ := fracAdd fireAt (alignDelay h spacing period)
    let start := match mapGet occ (occKey row h.c) with | some e => fracMax at_ e | none => at_
    let slots := h.prof.groups + maskBelow mask h.prof.groups
    mapPut occ (occKey row h.c) (fracAdd start (fracI (slots * h.prof.slotNs + h.prof.guardNs)))) occ

/-- The greatest time by which a line's firing instant falls before the end of a head's occupancy (R218). -/
def overlapNs (row : Nat) (spacing : Int) (period fireAt : Frac) (hs : List HeadLine) (occ : KMap Frac) : Frac :=
  hs.foldl (fun acc h =>
    match mapGet occ (occKey row h.c) with
    | none => acc
    | some e => fracMax acc (fracSub e (fracAdd fireAt (alignDelay h spacing period)))) (fracI 0)

/-- Put a frame on the wide lanes (R221, R241): the transmission runs from the end of the one ahead. -/
def transmit (w : World) (p : Nat) (q : SendReq) (rot mask period : Nat) (codes : List Nat) : World :=
  let row := q.r % 2
  let x := portAt w p
  let n := portNozzles w p
  let s := setFor w (q.r / 2) q.x
  let ticks := toTicks w q.fireAt
  let first := x.first.getD row true
  let header := lineHeader row rot mask (codes.all (· == 0)) first period n
  let line := lineNumber s.res600 q.x
  let start := fracMax (timerFrac w) x.busy
  let words := lineFrame (wrapInt 32 ticks) line header codes
  let stop := fracAdd start (fracI (txNs n))
  let w := updPort w p fun x =>
    { x with busy := stop, tx := x.tx ++ [{ row := row, x := q.x, stop := stop }], first := x.first.set row false
             loads := lastSecond w.clk x.loads ++ [(w.clk, 3 * n)] }
  send (putBlocks w p (uiAt w start) (frameBlocks words)) (.line p row (wrapInt 48 ticks) words)

/-- Set bits of FIR_STATUS: DG, SPLIT and OVERLAP of the last line. -/
def lineFlags (w : World) (p : Nat) (dg split overlap : Bool) : World :=
  let v := getN w (Obj.FIR_STATUS p)
  setO w (Obj.FIR_STATUS p) (setBit (setBit (setBit v 0 dg) 1 split) 4 overlap : Nat)

/-- Compare a line's firing instants with the occupancy of each head (R218): whether it falls into one. -/
def noteOverlap (w : World) (p : Nat) (q : SendReq) (hs : List HeadLine) : Bool × World :=
  let beyond := overlapNs (q.r % 2) q.f.spacing (stampPeriod w p q) q.fireAt hs (portAt w p).occ
  if fracLt (fracI 0) beyond then
    (true, raise (bump w (Obj.FIR_OVERLAPS p)) Ev.FIR_SLOT_OVERLAP p (fracCeil beyond).toNat)
  else (false, w)

/-- Send a null line (R223): code 0 for every nozzle, a split mask of 0. -/
def sendNull (w : World) (p : Nat) (q : SendReq) (rot : Nat) : World :=
  let row := q.r % 2
  let hs := headLines w p row q.x q.f.spacing none
  let period := stampPeriod w p q
  let (overlap, w) := noteOverlap w p q hs
  let w := updPort w p fun x => { x with occ := occupy row 0 q.f.spacing period q.fireAt hs x.occ }
  transmit (lineFlags w p false false overlap) p q rot 0 (periodTicks (predPeriod w q)) (List.replicate (portNozzles w p) 0)

/-- Count the split groups, steps and peaks of a line of frame `no` that is sent (R217). -/
def countPlan (w : World) (p no mask steps : Nat) (hs : List HeadLine) : World :=
  let w := addO w (Obj.FIR_SPLITS p) 32 (maskBelow mask 16)
  let w := addO w (Obj.FIR_DOWNGRADES p) 64 steps
  let w := if steps = 0 then w else bump w (Obj.FIR_DG_LINES p)
  let peak := hs.foldl (fun m h => (List.range h.prof.groups).foldl
    (fun m g => max m (groupEnergy h g * 100 / max 1 h.prof.limit)) m) 0
  updPort w p fun x => { x with dg := if steps = 0 then x.dg else mapAdd x.dg no steps
                                peaks := lastSecond w.clk x.peaks ++ [(w.clk, min 65535 peak)] }

/-- Plan and send a complete line (R214 to R218, R223 step 3). -/
def sendLine (w : World) (p : Nat) (q : SendReq) (rot : Nat) (e : FifoLine) : World :=
  let row := q.r % 2
  let t := predPeriod w q
  let period := stampPeriod w p q
  let hs := headLines w p row q.x q.f.spacing (some e)
  let noSplit := ¬ bitOf (getN w (Obj.FIR_CFG p)) 0 ∨ ¬ w.web.valid ∨ q.late
  let margin := getN w (Obj.FIR_SPLIT_MARGIN p)
  let budget := fun (h : HeadLine) => if noSplit then 0 else splitBudget h.prof (t.getD (fracI 0)) margin
  let (overlap, w) := noteOverlap w p q hs
  let mask := if overlap then 0 else splitMask (hs.map fun h => (h, budget h))
  let (hs', ptr, steps) := downgradeAll row mask (portAt w p).ptr hs
  let w := countPlan w p e.frame mask steps hs
  let w := updPort w p fun x => { x with ptr := ptr, occ := occupy row mask q.f.spacing period q.fireAt hs' x.occ }
  let w := hs'.foldl (fun w h => match mapGet e.secs (headKey h.c) with
    | some sec => addTally w q.r q.x h.codes sec
    | none => w) w
  transmit (lineFlags w p (steps != 0) (mask != 0) overlap) p q rot mask (periodTicks t) (hs'.flatMap (·.codes))

/-! ### Committing a line at its ports -/

/-- What a port did with a committed line: the defect cause of a null or discarded line (0: sent), and whether it
counts as a miss of the slice (R224). -/
structure PortDone where
  cause : Nat
  miss : Bool
  deriving DecidableEq, Repr

/-- Discard a line at a port whose link recovers or is down (R258, R259). -/
def discardLine (w : World) (p row : Nat) (x : Int) : World :=
  let w := updLink w p fun l => { l with discarded := l.discarded + 1 }
  setFifo w p row ((fifoOf w p row).filter fun e => x < e.x)

/-- A line committed before its entry is complete (R223 step 2, R225): a null line of cause 8, or of cause 9 while no
slice delivers. -/
def sendMissed (w : World) (p : Nat) (q : SendReq) (rot : Nat) : World × PortDone :=
  let b := q.r / 2
  let row := q.r % 2
  if (barAt w b).halt ∨ (barAt w b).noSlice then
    (sendNull (updPort w p fun x => { x with blank := x.blank.modify row (· + 1) }) p q rot, ⟨9, false⟩)
  else
    let w := dlMiss (bump w (Obj.FIR_LATE p)) 1 0
    let w := raise w Ev.FIR_LATE_LINE p (row * 2147483648 + lineNumber (setFor w b q.x).res600 q.x)
    (sendNull w p q rot, ⟨8, true⟩)

/-- The commit of a row line at port `p` (R211, R222, R223, R258). A complete line that no data line feeds goes out with
code 0 (R179). -/
def portCommit (w : World) (p : Nat) (q : SendReq) : World × PortDone :=
  let row := q.r % 2
  let b := q.r / 2
  let x := portAt w p
  let rot := x.rowN.getD row 0 % 16
  let w := updPort (exitIdle w p) p fun x => { x with rowN := x.rowN.modify row (· + 1) }
  let w := setO w (if row = 0 then Obj.FIR_ROT_A p else Obj.FIR_ROT_B p) rot
  let l := linkAt w p
  if l.portDown then (discardLine w p row q.x, ⟨8, false⟩)
  else if portNozzles w p = 0 then (w, ⟨0, false⟩)
  else if l.st ≠ .up then (discardLine w p row q.x, ⟨8, false⟩)
  else if q.null then (sendNull w p q rot, ⟨1, false⟩)
  else
    let latest := if q.late then timerFrac w else q.f.commit
    if fracLt latest x.busy then
      let w := bump w (Obj.FIR_TX_CONFLICTS p)
      let w := raise w Ev.FIR_TX_CONFLICT p (row * 2147483648 + lineNumber (setFor w b q.x).res600 q.x)
      (sendNull w p q rot, ⟨8, false⟩)
    else
      let entry := (fifoOf w p row).find? fun e => e.x == q.x
      if fifoComplete w p row q.x then
        let e := entry.getD (newEntry q.x (frameNo w q.x))
        let (ue, w) := readPlace 5 (2 * p + row) q.x w
        if e.bad || ue then (sendNull w p q rot, ⟨10, false⟩) else (sendLine w p q rot e, ⟨0, false⟩)
      else sendMissed w p q rot

/-- Count a fire line's outcome in the bar's window of 1,024 (R224); eight misses start a switchover. -/
def countMiss (w : World) (b : Nat) (miss : Bool) : World :=
  let w := updBar w b fun q => { q with miss := (miss :: q.miss).take 1024 }
  let n := ((barAt w b).miss.filter id).length
  let w := setO (setO w (Obj.FIR_BAR_MISS (2 * b)) n) (Obj.FIR_BAR_MISS (2 * b + 1)) n
  if 8 ≤ n then sliceFail (raise w Ev.FIR_SLICE_MISS b n) b 2 else w

/-- A run of lines sent null during a switchover ends (R225): each port counts those that it sent so. -/
def endBlank (w : World) (r : Nat) : World :=
  let b := r / 2
  let n := (barAt w b).blankRun.getD (r % 2) 0
  if n = 0 then w
  else
    let w := updBar w b fun q => { q with blankRun := q.blankRun.set (r % 2) 0 }
    let w := raise w Ev.FIR_SWITCH_BLANK r n
    (barPorts b).foldl (fun w p =>
      let w := addO w (Obj.FIR_SWITCH_BLANK_CNT p) 32 ((portAt w p).blank.getD (r % 2) 0)
      updPort w p fun x => { x with blank := x.blank.set (r % 2) 0 }) w

/-- Fill events of a row's FIFOs after a commit (R220), at most once in the frame of the row's next line. -/
def fillCheck (w : World) (printing : Bool) (r : Nat) : World :=
  let row := r % 2
  let no := frameNo w (rowAt w r).next
  (servingPorts w r).foldl (fun w p =>
    let n := fifoFill w p row
    let k := if row = 0 then Obj.FIR_FIFO_MIN_A p else Obj.FIR_FIFO_MIN_B p
    let w := setO w k (min (getN w k) n)
    if printing ∧ n < getN w (Obj.FIR_FIFO_LOW_WM p) ∧ (portAt w p).lowFrame.getD row 0 ≠ no + 1 then
      let w := updPort w p fun x => { x with lowFrame := x.lowFrame.set row (no + 1) }
      raise w Ev.FIR_FIFO_LOW p (row * 2147483648 + n)
    else w) w

/-- A struck word of a bar's tables is read (R118): a failure of the bar's slice where two bits are inverted (R116). -/
def readTables (w : World) (b : Nat) : World :=
  let (bad, w) := readPlace 6 b 0 w
  if bad then sliceFail w b 3 else w

/-- Commit a row line to both ports of its bar, with the defect record that the row gets (R93, R223). A line that is null
under R67 has its record already, of cause 1 only. -/
def sendRow (w : World) (q : SendReq) : World :=
  let b := q.r / 2
  let w := notePhase (readTables w b) b (q.r % 2) (phaseHit w b (q.r % 2) q.x)
  let w := if q.r = 0 then takeTally w q.x else w
  let (w, ds) := (barPorts b).foldl (fun (w, ds) p =>
    let (w, d) := portCommit w p q
    (w, ds ++ [d])) ((w, []) : World × List PortDone)
  let cause := (ds.find? fun d => d.cause != 0).map (·.cause)
  let w := match cause with
    | some c => if q.null then w else defectLine w q.r c q.x q.f.spacing
    | none => w
  let blank := ds.any fun d => d.cause == 9
  let w := if blank then
      updBar w b fun x => { x with blankRun := x.blankRun.modify (q.r % 2) (· + 1) }
    else endBlank w q.r
  countMiss w b (ds.any (·.miss))

/-- Raise FIR_DOWNGRADE for the frames that both rows of a bar have passed (R217). -/
def reportDowngrades (w : World) (b : Nat) : World :=
  let next := min (rowAt w (2 * b)).next (rowAt w (2 * b + 1)).next
  (barPorts b).foldl (fun w p =>
    let due := (portAt w p).dg.filter fun e =>
      match w.job.frames.find? fun f => f.no == e.1 with
      | some f => f.wEnd ≤ next
      | none => true
    due.foldl (fun w e =>
      raise (updPort w p fun x => { x with dg := mapDel x.dg e.1 }) Ev.FIR_DOWNGRADE p e.2) w) w

/-! ### The end of a transmission, and electrical idle -/

/-- Whether a port may enter electrical idle (R226); `gap` says that the next start lies far enough ahead. -/
def idleAllowed (w : World) (p : Nat) : Bool :=
  let rows := [2 * (p / 2), 2 * (p / 2) + 1]
  bitOf (getN w (Obj.FIR_CFG p)) 1 && 2000 ≤ getN w Obj.LCK_LEAD_MARGIN_NS && (linkAt w p).cmds.isEmpty &&
    (portAt w p).tx.isEmpty && !(portAt w p).idle && (linkAt w p).st == .up &&
    rows.all fun r => match (rowAt w r).lastFire with
      | none => true
      | some f => fracLe f (fracAdd (timerFrac w) (fracI 100000))

/-- The first predicted start of a transmission at a port, of either row. -/
def nextStart (w : World) (p : Nat) : Option Frac :=
  let l := [2 * (p / 2), 2 * (p / 2) + 1].filterMap (nextCommit w)
  match l with
  | [] => none
  | x :: xs => some (xs.foldl fracMin x)

def enterIdle (w : World) (p : Nat) : World :=
  bump (updPort w p fun x => { x with idle := true, idleClk := w.clk }) (Obj.FIR_IDLE_ENTRIES p)

/-- Enter electrical idle when the next start is predicted far enough ahead, or when none can be predicted and nothing
has been sent for FIR_IDLE_US (R226). -/
def idleTry (w : World) (p : Nat) : World :=
  let us := getN w (Obj.FIR_IDLE_US p)
  if ¬ idleAllowed w p then w
  else match nextStart w p with
    | some t => if fracLt (fracAdd (portAt w p).busy (fracI (1000 * us))) t then enterIdle w p else w
    | none => if (portAt w p).endClk + usClk us ≤ w.clk then enterIdle w p else w

/-- In a gap between line frames a SYNC goes out when one is due: after a SYNC difference (R250), and once after each
ALIGN set (R239). -/
def sendSync (w : World) (p : Nat) : World :=
  if (linkAt w p).syncDue ∨ (linkAt w p).syncSeq ≠ alignSeq w p then putSync w p else w

/-- The gaps of the ports that send nothing: a SYNC after each ALIGN set (R239). -/
def syncGaps (w : World) : World :=
  (List.range 16).foldl (fun w p =>
    if (linkAt w p).st = .up ∧ (portAt w p).idle = false ∧ (portAt w p).tx.isEmpty = true ∧
        (linkAt w p).syncSeq ≠ alignSeq w p then putSync w p else w) w

/-- LINE_TX_DONE at port `p`: the entry is released (R219); the port may enter electrical idle (R226). -/
def lineTxDone (p : Nat) (w : World) : World :=
  match (portAt w p).tx with
  | [] => w
  | t :: rest =>
    let w := updPort w p fun x => { x with tx := rest, endClk := w.clk }
    let w := setFifo w p t.row ((fifoOf w p t.row).filter fun e => t.x < e.x)
    idleTry (if rest = [] then flushCmds (sendSync w p) p else w) p

def execLineTxDone (p : Nat) (s : State) : Host.Outcome State Fault Refusal :=
  onWorld (fun _ w => whenDo (decide (p < 16)) (lineTxDone p) w) s

def execIdleEntryDelayEnd (p : Nat) (s : State) : Host.Outcome State Fault Refusal :=
  onWorld (fun _ w => whenDo (decide (p < 16)) (fun w => idleTry w p) w) s

/-- IDLE_EXIT at port `p` (R257): 2 µs before the predicted start. -/
def idleExit (p : Nat) (w : World) : World :=
  match nextStart w p with
  | some t => if fracLe t (fracAdd (timerFrac w) (fracI 2000)) then exitIdle w p else w
  | none => w

def execIdleExit (p : Nat) (s : State) : Host.Outcome State Fault Refusal :=
  onWorld (fun _ w => whenDo (decide (p < 16)) (idleExit p) w) s

/-! ### Entering and leaving the print states -/

/-- Every port starts from a clean state (R227). -/
def armPorts (w : World) : World :=
  (List.range 16).foldl (fun w p =>
    let w := updPort w p fun x => { FirePort.reset with unitOk := x.unitOk, idle := x.idle, idleClk := x.idleClk
                                                        busy := timerFrac w, endClk := w.clk }
    let w := updLink w p fun l => { l with fails := [] }
    let w := setO (setO w (Obj.FIR_FIFO_MIN_A p) 128) (Obj.FIR_FIFO_MIN_B p) 128
    setO (setO (setO w (Obj.FIR_BAR_MISS p) 0) (Obj.FIR_ROT_A p) 0) (Obj.FIR_ROT_B p) 0) w

/-- Unsent entries are discarded (R227); runs of a switchover and of a phase change end, and the frames still in print
report their downgrades (R217). -/
def leavePorts (w : World) : World :=
  let w := (List.range 16).foldl endBlank w
  let w := (List.range 16).foldl (fun w r => endPhase w (r / 2) (r % 2)) w
  (List.range 16).foldl (fun w p =>
    let w := (portAt w p).dg.foldl (fun w e => raise w Ev.FIR_DOWNGRADE p e.2) w
    updPort w p fun x => { x with fifo := [[], []], dg := [] }) w

end Sys2Proof.Machine
end

