-- ==== Sys2Proof/Machine/LineClock.lean ====
section
/-! DEFINITION. The line clock at work (R63 to R82): committing, skipping and marking lines, and the overspeed and
half-line episodes. -/

namespace Sys2Proof.Machine

/-! ### LINE_COMMIT -/

/-- The row moves on to its next line, whose fire time its defect records take (R93); row 15 reports the frames it has
passed (R64, R95). -/
def advanceRow (w : World) (r : Nat) (x : Int) : World :=
  let et := match (rowAt w r).recent.getLast? with
    | some e => if e.1 = x then (fracFloor e.2 % 4294967296).toNat else nowEt w
    | none => nowEt w
  let w := updRow (stampDefects w r x et) r fun y => { y with next := nextRowLine w r x }
  let w := reportDowngrades w (r / 2)
  if r = 15 then framesDone w (rowAt w 15).next else w

/-- A run of skipped lines ends (R78): DEDUCED (log 78), with the row's next committed line, or as the print states are
left. -/
def endSkips (w : World) (r : Nat) : World :=
  let n := (rowAt w r).skipRun
  if n = 0 then w
  else raise (updRow w r fun y => { y with skipRun := 0 }) Ev.LCK_LINES_SKIPPED r n

/-- The null lines of a row shift are reported, and the watch over them ends (R82). -/
def endShift (w : World) (r : Nat) : World :=
  let n := (rowAt w r).shiftNulls
  let w := updRow w r fun y => { y with shiftRaised := false, shiftNulls := 0 }
  if n = 0 then w else raise w Ev.LCK_OFS_SHIFT r n

/-- The row reaches its first line under another set (R74, R77, R80, R82), whether it fires it or not: LCK_HALFLINE at
row A of a switch, and the watch over the null lines that a smaller d_r leaves. -/
def noteSet (w : World) (r : Nat) (x : Int) : World :=
  let s := setFor w (r / 2) x
  let row := rowAt w r
  if row.setB = s.wB ∧ row.setTag = s.tag then w
  else
    let w := endShift w r
    let old := setFor w (r / 2) (x - setSpacing s)
    let smaller := rowD64 w r s < rowD64 w r old
    let half := s.switch && r % 2 == 0 && row.res600 != s.res600
    let w := updRow w r fun y => { y with setB := s.wB, setTag := s.tag, res600 := s.res600, shiftRaised := smaller }
    let w := freeSets w (r / 2)
    if half then raise w Ev.LCK_HALFLINE (r / 2) (b2n s.res600) else w

/-- The count of null lines after a shift ends with the first line that is not null, at which LCK_OFS_SHIFT is raised
(R82; the instant is DEDUCED, log 78). -/
def noteShift (w : World) (r : Nat) (null : Bool) : World :=
  if ¬ (rowAt w r).shiftRaised then w
  else if null then updRow w r fun y => { y with shiftNulls := y.shiftNulls + 1 }
  else endShift w r

/-- The lag of a fire in 1/65,536 line: speed times the delay that saturation adds. -/
def lagOf (w : World) (f : Fire) : Int :=
  fracFloor (fracScale (fracMul (speedLps w) (frac (fracSub f.fire f.nominal).num ((fracSub f.fire f.nominal).den * 1000000000))) 65536)

/-- LCK_SATURATED and LCK_ROW_LAG as the row's saturation changes (R78, R84). -/
def noteSat (w : World) (r : Nat) (f : Fire) : World :=
  let lag := clampInt 0 4194304 (lagOf w f)
  let sat := fracLt f.nominal f.fire
  let was := (rowAt w r).sat
  let w := setO (updRow w r fun y => { y with sat := sat, lag := lag }) (Obj.LCK_ROW_LAG r) lag
  if sat = was then w else raise w Ev.LCK_SATURATED r (b2n sat)

/-- Whether row `r` demands more than LCK_OVS_STOP_PCT of its F_max (R79). -/
def aboveStop (w : World) (r : Nat) : Bool :=
  fracLt (fracI (getO w Obj.LCK_OVS_STOP_PCT * fMax w (r / 2))) (fracScale (rowDemand w r) 100)

/-- The count of consecutive fired lines above the stop threshold (R79); a null line is none. -/
def noteStopRun (w : World) (r : Nat) (null : Bool) : World :=
  updRow w r fun y => { y with stopRun := if aboveStop w r then (if null then y.stopRun else y.stopRun + 1) else 0 }

/-- A late line sent null: LCK_LATE_FIRE at most once per row and frame (R67). -/
def lateNull (w : World) (r : Nat) (x : Int) (late64 : Int) (spacing : Int) : World :=
  let no := match frameAt w x with | some f => f.no | none => 0
  let w := defectLine w r 1 x spacing
  if (rowAt w r).lateFrame = some no then w
  else raise (updRow w r fun y => { y with lateFrame := some no }) Ev.LCK_LATE_FIRE r (clampInt 0 4294967295 late64).toNat

/-- The last line of a list whose fire time is past. -/
def firedLast (now : Frac) : List (Int × Frac) → Option Int
  | [] => none
  | e :: es => if fracLt e.2 now then some ((firedLast now es).getD e.1) else none

/-- Lines of a list from the last that has fired on. -/
def keepFired (now : Frac) : List (Int × Frac) → List (Int × Frac)
  | a :: b :: r => if fracLt b.2 now then keepFired now (b :: r) else a :: b :: r
  | l => l

/-- The last line of row `r` whose fire time is past (R430); none since the entry to ARMED. -/
def lastFired (w : World) (r : Nat) : Option Int := firedLast (timerFrac w) (rowAt w r).recent

/-- Hand a line to its ports and move the row on. -/
def fireRow (w : World) (r : Nat) (x : Int) (f : Fire) (fireAt : Frac) (late null : Bool) : World :=
  let w := noteStopRun (noteSet w r x) r null
  let w := sendRow w { r := r, x := x, f := f, fireAt := fireAt, late := late, null := null }
  let w := noteShift w r null
  let w := updRow w r fun y => { y with lastFire := some fireAt }
  let w := setO w (Obj.LCK_ROW_LAST r) ((lastFired w r).elim (getO w (Obj.LCK_ROW_LAST r)) linePos)
  let w := { w with thm := { w.thm with lines := if null then w.thm.lines else w.thm.lines + 1 } }
  updRow w r fun y => { y with recent := keepFired (timerFrac w) y.recent ++ [(x, fireAt)] }

/-- Whether a line of a saturated row lands more than LCK_LATE_TOL behind its target when it fires at `fireAt` (R78). -/
def lagging (w : World) (f : Fire) (fireAt : Frac) : Bool :=
  fracLt f.nominal f.fire && decide (getO w Obj.LCK_LATE_TOL * 1024 < lagOf w { f with fire := fireAt })

/-- A line that saturation leaves too far behind its target is marked and counted (R78). -/
def markLag (w : World) (r : Nat) (x : Int) (f : Fire) : World := defectLine (bump w Obj.LCK_SAT_LINES) r 2 x f.spacing

/-- Commit a line late (R67): the earliest fire time the port allows. `late` is its lateness in lines. -/
def commitLate (w : World) (r : Nat) (x : Int) (f : Fire) (late : Frac) : World :=
  let at_ := fracAdd (timerFrac w) (fracI f.lead)
  let late64 := fracFloor (fracScale late 64)
  let null := fracLt (frac (getO w Obj.LCK_LATE_TOL) 64) late
  let w := bump w Obj.LCK_LATE
  let w := if null then lateNull w r x late64 f.spacing else if lagging w f at_ then markLag w r x f else w
  fireRow w r x f at_ true null

/-- Mark an inhibited line (R43, R56): it is not committed. DEDUCED (log 77): under both inhibits it gets both causes. -/
def markInhibited (w : World) (r : Nat) (x spacing : Int) : World :=
  let held := (rowAt w r).inhibited
  let w := noteSet w r x
  let w := if bitOf held 0 then defectLine w r 11 x spacing else w
  let w := if bitOf held 1 then defectLine w r 4 x spacing else w
  advanceRow w r x

/-- The inhibit of an encoder fault reaches the row at the line w_I (R43). -/
def inhibitWave (w : World) (r : Nat) (x : Int) : World :=
  match w.web.wI with
  | some i => if i ≤ x then inhibitRow w 1 r else w
  | none => w

/-- A line that is due with SPD_VALID at 1. -/
def commitOnTime (w : World) (r : Nat) (x : Int) (f : Fire) (pulled : List Nat) : World :=
  let now := timerFrac w
  let w := noteSat w r f
  if fracLe f.commit (fracSub now (frac 16 5)) then
    let late := frac ((fracSub (fracAdd now (fracI f.lead)) f.fire).num) ((fracSub (fracAdd now (fracI f.lead)) f.fire).den * 1000000000)
    commitLate w r x f (fracMul (speedLps w) late)
  else
    let w := pulled.foldl (fun w p => bump w (Obj.FIR_PULLS p)) w
    let w := if lagging w f f.fire then markLag w r x f else w
    fireRow w r x f f.fire false false

/-- The first row at or above a percentage of its F_max. -/
def rowAbove (w : World) (pct : Int) : Option Nat := (List.range 16).find? fun r => demandAbove w r pct

/-- Whether the speed lies below LCK_HL_RETURN_PCT of the 1200-lpi limit of every row (R80). -/
def belowReturn (w : World) : Bool :=
  (List.range 16).all fun r =>
    fracLt (fracScale (demandAt w (rowSpacing (nextSet w r).full false)) 100)
      (fracI (getO w Obj.LCK_HL_RETURN_PCT * fMax w (r / 2)))

/-- Keep what R76 evaluates at every clock: the times since every row is below 100 % (R79) and since the speed is below
the return threshold (R80), and the end of a row's run above the stop threshold (R79). -/
def noteTimers (w : World) : World :=
  let since := fun (on : Bool) (t : Option Nat) => if on then some (t.getD w.clk) else none
  let rows := (w.lck.rows.zip (List.range 16)).map fun e =>
    if e.1.stopRun ≠ 0 ∧ aboveStop w e.2 = false then { e.1 with stopRun := 0 } else e.1
  { w with lck := { w.lck with belowSince := since (rowAbove w 100).isNone w.lck.belowSince
                               returnSince := since (belowReturn w) w.lck.returnSince, rows := rows } }

/-- LINE_COMMIT of row `r`: the row's next line, once its commit instant or its target has come (R67 pseudocode). The
flag says that a line was committed, and its coordinate. -/
def lineCommit (r : Nat) (w : World) : World × Option Int :=
  let x := (rowAt w r).next
  let s := setFor w (r / 2) x
  let sp := setSpacing s
  let w := inhibitWave (placeSwitch (noteTimers w)) r x
  let p := target64 w r x
  if w.web.trk ≠ .forward then (w, none)
  else if (rowAt w r).inhibited ≠ 0 then
    (if targetReached w p then markInhibited w r x sp else w, none)
  else if ¬ w.web.valid ∨ speedZero w then
    if targetReached w p then
      let at_ := fracAdd (timerFrac w) (fracI (leadNs w (r / 2)))
      let f : Fire := { p64 := p, spacing := sp, nominal := at_, fire := at_, lead := leadNs w (r / 2), commit := timerFrac w }
      let w := endSkips w r
      (advanceRow (commitLate w r x f (frac (w.web.pos - p * 67108864) 4294967296)) r x, some x)
    else (w, none)
  else
    let f := fireOf w r x
    let skip := getO w Obj.LCK_SAT_LAG_MAX * 65536 < lagOf w f
    if skip then
      if fracLe (fracSub f.nominal (fracI f.lead)) (timerFrac w) then
        let w := bump (defectLine (noteSat (noteSet w r x) r f) r 3 x sp) Obj.LCK_SKIPPED
        (advanceRow (updRow w r fun y => { y with skipRun := y.skipRun + 1 }) r x, none)
      else (w, none)
    else
      let (c, pulled) := commitInstant w r f.commit
      if fracLe c (timerFrac w) then
        let w := endSkips w r
        (advanceRow (commitOnTime w r x f pulled) r x, some x)
      else (w, none)

/-! ### Entry to ARMED -/

/-- The first line of a row whose target lies ahead of the web position (R206). -/
def firstLine (w : World) (r : Nat) : Int :=
  let s := setFor w (r / 2) 0
  let x0 := asr (webPos w * 64 - rowD64 w r s * 65536) 22
  rowFirst r s.full s.res600 (x0 + 1)

/-- The line clock on entry to ARMED: rows, episodes and timers start anew (R65, R76, R206). DEDUCED (log 78): an episode
that ends so raises no OVERSPEED_WARN with data 0. -/
def armClock (w : World) : World :=
  let w := { w with lck := { w.lck with rho := 0, warnRow := none, overRow := none, belowSince := none, returnSince := none
                                        hlWant := none, hlAfter := none, hl600 := false, hlLast := none } }
  (List.range 16).foldl (fun w r =>
    let s := setFor w (r / 2) 0
    let x := firstLine w r
    let w := setRow w r { RowClk.reset with next := x, inhibited := (rowAt w r).inhibited, setB := s.wB, setTag := s.tag
                                            res600 := s.res600 }
    setO w (Obj.LCK_ROW_LAG r) 0) w

/-! ### Overspeed -/

/-- OVERSPEED_WARN: an episode begins (R76). -/
def overWarn (w : World) : World :=
  match w.lck.warnRow, rowAbove w (getO w Obj.LCK_OVS_WARN_PCT) with
  | none, some r => raise { w with lck := { w.lck with warnRow := some r } } Ev.OVERSPEED_WARN r 1
  | _, _ => w

def execOverspeedWarn (s : State) : Host.Outcome State Fault Refusal :=
  onWorld (fun c w => whenDo (powered c.mode) overWarn w) s

/-- OVERSPEED_WARN_END: every row below the threshold less 2 points. -/
def overWarnEnd (w : World) : World :=
  match w.lck.warnRow, rowAbove w (getO w Obj.LCK_OVS_WARN_PCT - 2) with
  | some r, none => raise { w with lck := { w.lck with warnRow := none } } Ev.OVERSPEED_WARN r 0
  | _, _ => w

def execOverspeedWarnEnd (s : State) : Host.Outcome State Fault Refusal :=
  onWorld (fun c w => whenDo (powered c.mode) overWarnEnd w) s

/-- OVERSPEED: an episode begins; under AUTO at 1200 lpi a half-line switch is scheduled (R76, R77). Outside the print
states no boundary lies ahead, and nothing is scheduled. DEDUCED (log 78): while an earlier switch is still on its way
DATA is 2. -/
def overspeed (print : Bool) (w : World) : World :=
  match w.lck.overRow, rowAbove w 100 with
  | none, some r =>
    let auto := print && getO w Obj.LCK_RES_MODE == 2 && !w.lck.hl600 && w.lck.hlWant != some true
    let w := { w with lck := { w.lck with overRow := some r, belowSince := none, returnSince := none
                                          hlWant := if auto then some true else w.lck.hlWant } }
    placeSwitch (raise w Ev.OVERSPEED r (if auto then 1 else 2))
  | _, _ => w

def execOverspeed (s : State) : Host.Outcome State Fault Refusal :=
  onWorld (fun c w => whenDo (powered c.mode) (overspeed (inPrint c.mode)) w) s

/-- OVERSPEED_END: every row below 100 %; the 100 ms of R79 begin. -/
def overspeedEnd (w : World) : World :=
  match rowAbove w 100 with
  | some _ => w
  | none => { w with lck := { w.lck with overRow := none
                                         belowSince := if w.lck.belowSince.isNone then some w.clk else w.lck.belowSince } }

def execOverspeedEnd (s : State) : Host.Outcome State Fault Refusal :=
  onWorld (fun c w => whenDo (powered c.mode) overspeedEnd w) s

/-- OVERSPEED_STOP of a row that stayed above the threshold for its lines (R79). -/
def overStop (w : World) : World :=
  match (List.range 16).find? fun r => decide (getN w Obj.LCK_OVS_STOP_LINES ≤ (rowAt w r).stopRun) && aboveStop w r with
  | none => w
  | some r =>
    if w.lck.stopReq then w
    else
      let w := raise w Ev.OVERSPEED_STOP r (fracRound (rowDemand w r)).toNat
      stopSrc { w with lck := { w.lck with stopReq := true, belowSince := none } } 0 true

def execOverspeedStop (s : State) : Host.Outcome State Fault Refusal :=
  onWorld (fun c w => whenDo (inPrint c.mode) overStop w) s

/-- OVERSPEED_STOP_RELEASE: every row below 100 % for 100 ms (R79). -/
def overStopRelease (w : World) : World :=
  match rowAbove w 100, w.lck.belowSince with
  | some _, _ => { w with lck := { w.lck with belowSince := none } }
  | none, none => { w with lck := { w.lck with belowSince := some w.clk } }
  | none, some c =>
    if w.lck.stopReq ∧ c + msClk 100 ≤ w.clk then
      stopSrc { w with lck := { w.lck with stopReq := false } } 0 false
    else w

def execOverspeedStopRelease (s : State) : Host.Outcome State Fault Refusal := onWorld (fun _ w => overStopRelease w) s

/-- HALFLINE_RETURN: at 600 lpi the speed has stayed below the threshold for LCK_HL_HOLD_MS (R80). -/
def halflineReturn (w : World) : World :=
  if ¬ w.lck.hl600 ∨ getO w Obj.LCK_RES_MODE ≠ 2 ∨ (nextSet w 0).res600 = false then w
  else if ¬ belowReturn w then { w with lck := { w.lck with returnSince := none } }
  else match w.lck.returnSince with
    | none => { w with lck := { w.lck with returnSince := some w.clk } }
    | some c =>
      if c + msClk (getN w Obj.LCK_HL_HOLD_MS) ≤ w.clk then
        placeSwitch { w with lck := { w.lck with hlWant := some false, returnSince := none } }
      else w

def execHalflineReturn (s : State) : Host.Outcome State Fault Refusal :=
  onWorld (fun c w => whenDo (inPrint c.mode) halflineReturn w) s

/-! ### LCK_ALIGN_STORE -/

/-- A serial is selected: LCK_ALIGN_PH_A, PH_B and SRC take its stored values, or 0 (chapter 3, Objects). -/
def alignSelect (w : World) : World :=
  let put := fun (a b : Int) (c : Bool) =>
    setO (setO (setO w Obj.LCK_ALIGN_PH_A a) Obj.LCK_ALIGN_PH_B b) Obj.LCK_ALIGN_SRC (b2n c)
  match alignOf w (getN w Obj.LCK_ALIGN_SERIAL) with
  | some (_, a) => put a.phA a.phB a.entered
  | none => put 0 0 false

/-- Store the selected alignment record (R73). Outside the print states the phases are in force at once. -/
def alignStore (source : Nat) (w : World) : World :=
  let serial := getN w Obj.LCK_ALIGN_SERIAL
  let l := w.lck.align.map fun e => (e.1, e.2.serial, e.2.date)
  match if serial = 0 then none else tablePlace serial (attachedSerials w) l with
  | none => adjust w Obj.LCK_ALIGN_STORE 6 source 1 0
  | some i =>
    let a : AlignRec := { serial := serial, phA := getO w Obj.LCK_ALIGN_PH_A, phB := getO w Obj.LCK_ALIGN_PH_B, valid := true
                          entered := getO w Obj.LCK_ALIGN_SRC == 1, date := w.tim.sec % 4294967296 }
    let w := { w with lck := { w.lck with align := mapPut w.lck.align i a } }
    let w := raise (storeTableLater w (Obj.LCK_ALIGN_TABLE / 256)) Ev.ALIGN_STORED i (serial % 4294967296)
    ((allHeads w).filter fun e => e.2.head.serial == serial).foldl (fun w e =>
      let w := loadPhase (loadPhase w e.1 e.2.drv e.2.hd 0 a.phA) e.1 e.2.drv e.2.hd 1 a.phB
      updLink w e.1 fun k => { k with drivers := k.drivers.modify e.2.drv fun d =>
        { d with heads := d.heads.modify e.2.hd fun h => { h with aligned := true } } }) w

end Sys2Proof.Machine
end

