-- ==== Sys2Proof/Machine/Links.lean ====
section
/-! DEFINITION. Yuquenel links: training, discovery, latency, status, recovery, hot-plug and retuning (R236 to R266).
Links 0 to 15 are head ports, link 16 + c is camera port c. -/

namespace Sys2Proof.Machine

/-- Whether a device state takes arrivals at once (R260). -/
def plugState : DevState → Bool
  | .idle => true | .service => true | .safe => true | .thermalHold => true
  | _ => false

/-- The configuration word of a link. -/
def linkCfg (w : World) (i : Nat) : Nat :=
  if i < 16 then getN w (Obj.YQL_PORT_CFG i) else getN w (Obj.YQL_CAM_CFG (i - 16))

/-- Addressed drivers. -/
def chainLen (w : World) (i : Nat) : Nat := (linkAt w i).drivers.length

/-! ### Training and discovery -/

/-- Start training a link (R254, R255): chain and checks start anew. -/
def startTraining (w : World) (i : Nat) : World :=
  updLink (restartAlign w i (20 * w.clk) 0) i fun l =>
    { l with st := .training, startClk := w.clk, excess := false, verBad := false, noProf := false
             tooMany := false, cmds := [], portDown := false, fenOff := false, discarded := 0
             arrival := none, trial := none }

/-- The next address of ENUM: behind the chain, or 15 for an excess driver after address 8 (R252). -/
def enumNext (w : World) (i : Nat) : Nat := if chainLen w i < 8 then chainLen w i + 1 else 15

/-- RESET_ADDR and the first ENUM (R252); `keep` continues an addressed chain. -/
def startEnum (w : World) (i : Nat) (keep : Bool) : World :=
  let w := updLink w i fun l => { l with st := .enumerating, enumClk := w.clk, answerClk := w.clk, excess := false
                                         drivers := if keep then l.drivers else [] }
  let w := if keep then w else sendRaw w i 0 8 0
  let a := enumNext w i
  sendRaw (updLink w i fun l => { l with enumAddr := a }) i 0 1 a

/-- The preset of the highest margin, the lower on a tie (R255). -/
def bestPreset (l : List Nat) : Nat :=
  ((l.zip (List.range l.length)).foldl (fun (acc : Nat × Nat) e => if acc.1 < e.1 then e else acc) (l.headD 0, 0)).2

/-- The ALIGN sets of a training: one every 64 blocks, of which the last has been sent (R255). -/
def trainedAlign (w : World) (i : Nat) : World :=
  let x := (linkAt w i).wire
  let sets := (20 * w.clk - x.alignUi) / (66 * 64)
  restartAlign w i (x.alignUi + 66 * 64 * sets) (x.seq + sets)

/-- TRAINING_DONE of link `i`: `margins` are the margins read for each preset, lane by lane; a MARGIN command goes out for
each of the 16 presets (R255). A link that recovers keeps its presets and sends SYNC (R258). -/
def trainingDone (i : Nat) (margins : List (List Nat)) (w : World) : World :=
  match (linkAt w i).st with
  | .training =>
    let cfg := linkCfg w i
    let p := if bitOf cfg 2 then margins.map bestPreset else List.replicate 6 (field cfg 4 4)
    let w := updLink w i fun l => { l with presets := (p ++ List.replicate 6 0).take 6 }
    let w := startEnum (putSync (trainedAlign w i) i) i false
    if bitOf cfg 2 then (List.range 16).foldl (fun w _ => sendRaw w i 1 11 0) w else w
  | .recovering => putSync (trainedAlign w i) i
  | _ => w

def execTrainingDone (i : Nat) (margins : List (List Nat)) (s : State) : Host.Outcome State Fault Refusal :=
  onWorld (fun _ w => whenDo (decide (i < 24)) (trainingDone i margins) w) s

/-- A link is down: YQL_LINK_DOWN with its reason. -/
def linkDown (w : World) (i reason : Nat) : World :=
  raise (updLink w i fun l => { l with st := .down }) Ev.YQL_LINK_DOWN i reason

/-- TRAINING_TIMEOUT: no block lock within 20 ms (R254). -/
def trainingTimeout (i : Nat) (w : World) : World :=
  if (linkAt w i).st = .training ∧ (linkAt w i).startClk + msClk 20 ≤ w.clk then linkDown w i 6 else w

def execTrainingTimeout (i : Nat) (s : State) : Host.Outcome State Fault Refusal :=
  onWorld (fun _ w => whenDo (decide (i < 24)) (trainingTimeout i) w) s

/-! ### Recovery -/

/-- Link recovery starts (R258): the steps of R255 again, with the presets kept. -/
def startRecovery (w : World) (i : Nat) : World :=
  if (linkAt w i).st = .up then
    updLink (restartAlign w i (20 * w.clk) 0) i fun l => { l with st := .recovering, startClk := w.clk, reported := [], cmds := [], discarded := 0, trial := none }
  else w

/-- A link that has lost lock or its driver: YQL_LINK_DOWN and recovery; outside operation it is down. -/
def linkLost (w : World) (i reason : Nat) : World :=
  match (linkAt w i).st with
  | .up => startRecovery (raise w Ev.YQL_LINK_DOWN i reason) i
  | .training => linkDown w i reason
  | .enumerating => linkDown w i reason
  | _ => w

/-- ALIGN_SET_RX: the LANE, SEQ and skew in UI of each lane of a set (R237). A set that does not match is a deskew
failure. -/
def alignSetRx (i : Nat) (lanes : List (Nat × Nat × Int)) (w : World) : World :=
  let seq0 := (lanes.headD (0, 0, 0)).2.1
  let skews := lanes.map (·.2.2)
  let lo := skews.foldl min (skews.headD 0)
  let bad := (lanes.zip (List.range lanes.length)).find? fun e =>
    e.1.1 != e.2 || e.1.2.1 != seq0 || decide (200 < e.1.2.2 - lo)
  match bad with
  | none => w
  | some (l, k) =>
    let w := raise w Ev.YQL_DESKEW i (k * 256 + min 255 (l.2.2 - lo).natAbs)
    linkLost w i 2

def execAlignSetRx (i : Nat) (lanes : List (Nat × Nat × Int)) (s : State) : Host.Outcome State Fault Refusal :=
  onWorld (fun _ w => whenDo (decide (i < 24)) (alignSetRx i lanes) w) s

/-- BLOCK_ERROR: an invalid header or control block; `inFrame` says that it lies inside a line frame, which fails that
line (R235). -/
def blockError (i : Nat) (inFrame : Bool) (w : World) : World :=
  let w := if inFrame && decide (16 ≤ i) then updLink w i fun l => { l with badFrame := true } else w
  let w := if i < 16 then bump w (Obj.YQL_RET_ERRORS i) else w
  let w := updLink w i fun l => { l with errAt := (l.errAt.filter fun c => w.clk < c + secClk 1) ++ [w.clk] }
  if stampOk w (linkAt w i).errStamp (secClk 1) then
    raise (updLink w i fun l => { l with errStamp := some w.clk }) Ev.YQL_BLOCK_ERR i (linkAt w i).errAt.length
  else w

def execBlockError (e : BlockErr) (s : State) : Host.Outcome State Fault Refusal :=
  onWorld (fun _ w => whenDo (decide (e.link < 24)) (blockError e.link e.inFrame) w) s

/-- LINK_LOCK_LOST: 16 invalid headers within 64 blocks, or the clock stopped (R235, R258). -/
def execLinkLockLost (i : Nat) (clock : Bool) (s : State) : Host.Outcome State Fault Refusal :=
  onWorld (fun _ w => whenDo (decide (i < 24)) (fun w => linkLost w i (if clock then 3 else 1)) w) s

/-! ### Enumeration -/

/-- ENUM_STEP: every 1 ms the next address, after address 8 the address of an excess driver (R252). -/
def enumStep (i : Nat) (w : World) : World :=
  if (linkAt w i).st ≠ .enumerating then w
  else
    let a := enumNext w i
    sendRaw (updLink w i fun l => { l with enumAddr := a, enumClk := w.clk }) i 0 1 a

def execEnumStep (i : Nat) (s : State) : Host.Outcome State Fault Refusal :=
  onWorld (fun _ w => whenDo (decide (i < 24)) (enumStep i) w) s

/-- The serials of the heads attached at port `p` before a rediscovery: a head in its place raises no second
ALIGN_MISSING (R72). -/
def wasAttached (old : List Driver) (d h serial : Nat) : Bool :=
  match (old.getD d { serial := 0, vendor := 0, type := 0, version := 0, tFwd := 0, tRet := 0, tTurn := 0, tProc := 0
                      rtt := none, lat := 0, base := 0, status := 0, statusClk := 0, heads := [] }).heads[h]? with
  | some x => x.serial == serial && x.attached
  | none => false

/-- Attach head `h` of driver `d` (R72, R199, R254). -/
def attachHead (old : List Driver) (p d : Nat) (ok : Bool) (w : World) (c : ChainHead) : World :=
  let serial := c.head.serial
  if ¬ ok ∨ (slotOf w c.head.code).isNone = true then w
  else
    let (al, w) := loadAlign w p d c.hd serial (!wasAttached old d c.hd serial)
    let (kn, w) := loadHeadRecord w p d c.hd c.base c.n serial
    let w := updLink w p fun l => { l with drivers := l.drivers.modify d fun x =>
      { x with heads := x.heads.modify c.hd fun h => { h with attached := true, aligned := al, known := kn } } }
    restoreHead w p c.base c.n

/-- A driver as its identity gives it. -/
def driverOf (w : World) (id : Identity) (base : Nat) : Driver :=
  { serial := id.serial, vendor := id.vendor, type := id.type, version := id.version, tFwd := id.tFwd, tRet := id.tRet
    tTurn := id.tTurn, tProc := id.tProc, rtt := none, lat := 0, base := base, status := 0, statusClk := w.clk
    heads := id.heads.map fun h =>
      { serial := h.1, code := h.2, slot := slotOf w h.2, attached := false, aligned := false, known := false } }

/-- The 64 LAT_ECHO commands of a latency measurement (R253). -/
def echoes (w : World) (i addr : Nat) : World := (List.range 64).foldl (fun w _ => sendRaw w i addr 2 0) w

/-- DRIVER_ENUM: an ENUM response of a head driver (R252). Address 15 is an excess driver. -/
def driverEnum (p addr : Nat) (id : Identity) (w : World) : World :=
  let l := linkAt w p
  if l.st ≠ .enumerating ∨ addr ≠ l.enumAddr then w
  else if addr = 15 then updLink w p fun l => { l with excess := true, answerClk := w.clk }
  else if addr ≠ l.drivers.length + 1 then w
  else
    let old := l.drivers
    let base := portNozzles w p
    let w := updLink w p fun l => { l with drivers := l.drivers ++ [driverOf w id base], answerClk := w.clk }
    let w := ((chain w p).filter fun c => c.drv == addr - 1).foldl (attachHead old p (addr - 1) (id.version == 1)) w
    let w := raise w Ev.YQL_DRV_ARRIVE p (addr * 268435456 + id.serial % 268435456)
    echoes w p addr

def execDriverEnum (p addr : Nat) (id : Identity) (s : State) : Host.Outcome State Fault Refusal :=
  onWorld (fun _ w => whenDo (decide (p < 16)) (driverEnum p addr id) w) s

/-- LATENCY_MEASURED of endpoint `addr`: the sum of 64 round trips in ps, from which the device's own delays are removed
(R253). -/
def latencyMeasured (i addr sumPs : Nat) (w : World) : World :=
  if addr = 0 ∨ chainLen w i < addr then w
  else
    let rtt := (roundDiv ((sumPs : Int) - 64 * (linkAt w i).ownPs) 8000).toNat
    let lat := latOf (linkAt w i).drivers (addr - 1) rtt
    let w := updLink w i fun l => { l with drivers := l.drivers.modify (addr - 1) fun d => { d with rtt := some rtt, lat := lat } }
    let base := (((linkAt w i).drivers[addr - 1]?).map (·.base)).getD 0
    let w := sendCmd w i addr 3 (wrapInt 32 lat) []
    let w := if i < 16 then sendCmd w i addr 9 base [] else w
    let w := if i < 16 then setO w (Obj.YQL_CHAIN_LAT_NS i) (chainLat (linkAt w i))
      else setO w (Obj.YQL_CAM_LAT_NS (i - 16)) (chainLat (linkAt w i))
    putSync w i

def execLatencyMeasured (i addr sumPs : Nat) (s : State) : Host.Outcome State Fault Refusal :=
  onWorld (fun _ w => whenDo (decide (i < 24)) (latencyMeasured i addr sumPs) w) s

/-- Drivers of a port that report another protocol version, with their addresses. -/
def badVersions (w : World) (i : Nat) : List (Nat × Nat) :=
  (((linkAt w i).drivers.zip (List.range 8)).filter fun e => e.1.version != 1).map fun e => (e.2 + 1, e.1.version)

/-- A chain above 65,536 nozzles per row: none of its heads is attached (R254). -/
def nozzlesOver (w : World) (p n : Nat) : World :=
  raise (updLink w p fun l => { l with drivers := l.drivers.map fun d =>
    { d with heads := d.heads.map fun h => { h with attached := false } } }) Ev.YQL_NOZZLES_OVER p n

/-- The checks of a port after discovery (R254). -/
def portChecks (w : World) (p : Nat) : World :=
  let bad := badVersions w p
  let miss := (chain w p).filter fun c => (slotOf w c.head.code).isNone
  let n := portNozzles w p
  let tooMany : Bool := decide (65536 < n)
  let w := updLink w p fun l => { l with verBad := bad != [], noProf := miss != [], tooMany := tooMany }
  let w := bad.foldl (fun w e => raise w Ev.YQL_VERSION p (e.1 * 256 + e.2)) w
  let w := if (linkAt w p).excess then raise w Ev.YQL_CHAIN_LONG p 15 else w
  let w := miss.foldl (fun w c =>
    raise w Ev.YQL_PROFILE_MISSING p (c.head.code * 65536 + (c.drv + 1) * 256 + c.hd)) w
  if tooMany then nozzlesOver w p n else w

/-- CHAIN_END: no ENUM is answered for 30 ms, or an excess driver has answered (R252, R254). -/
def chainEnd (p : Nat) (w : World) : World :=
  let l := linkAt w p
  if l.st ≠ .enumerating ∨ (w.clk < l.answerClk + msClk 30 ∧ l.excess = false) then w
  else
    let w := portChecks (updLink w p fun l => { l with st := .up, enumAddr := 0 }) p
    let w := setO (setO w (Obj.YQL_CHAIN_LEN p) l.drivers.length) (Obj.YQL_PORT_NOZZLES p) (portNozzles w p)
    raise w Ev.YQL_LINK_UP p l.drivers.length

def execChainEnd (p : Nat) (s : State) : Host.Outcome State Fault Refusal :=
  onWorld (fun _ w => whenDo (decide (p < 16)) (chainEnd p) w) s

/-- CAMERA_ENUM: the camera's identity against the camera profile (R261). -/
def cameraEnum (c : Nat) (id : Identity) (w : World) : World :=
  let i := 16 + c
  if (linkAt w i).st ≠ .enumerating then w
  else
    let code := (id.heads.headD (0, 0)).2
    let bad := code != getN w Obj.YQL_CPF_CODE
    let w := updLink w i fun l => { l with drivers := [driverOf w id 0], st := .up, noProf := bad, verBad := id.version != 1
                                           trigs := [], trigCount := 0, enumAddr := 0 }
    let w := setO w (Obj.YQL_CAM_SERIAL c) id.serial
    let w := raise w Ev.YQL_CAM_ARRIVE i (id.serial % 4294967296)
    let w := if bad then raise w Ev.YQL_CAM_PROFILE i code else w
    let w := if id.version = 1 then w else raise w Ev.YQL_VERSION i (256 + id.version)
    echoes (raise w Ev.YQL_LINK_UP i 1) i 1

def execCameraEnum (c : Nat) (id : Identity) (s : State) : Host.Outcome State Fault Refusal :=
  onWorld (fun _ w => whenDo (decide (c < 8)) (cameraEnum c id) w) s

/-- Whether camera port `c` delivers lines: up, with the profile's camera. -/
def cameraUsed (w : World) (c : Nat) : Bool :=
  let l := linkAt w (16 + c)
  l.st == .up && !l.noProf && !l.verBad && linkEn w (16 + c)

/-! ### Responses and status -/

/-- RSP_RX: a response is matched by its TAG (R248); READ and WRITE complete an access of YQL_RW_DATA. -/
def rspRx (i tag result value : Nat) (w : World) : World :=
  match (linkAt w i).cmds.find? fun c => c.tag == tag with
  | none => w
  | some c =>
    let w := updLink w i fun l => { l with cmds := l.cmds.filter fun x => x.tag != tag }
    if c.op = 4 then
      let w := setO w Obj.YQL_RW_RESULT result
      if result = 0 then setO w Obj.YQL_RW_DATA (value % 4294967296 : Nat) else w
    else if c.op = 5 then setO w Obj.YQL_RW_RESULT result
    else w

def execRspRx (i tag result value : Nat) (s : State) : Host.Outcome State Fault Refusal :=
  onWorld (fun _ w => whenDo (decide (i < 24)) (rspRx i tag result value) w) s

/-- The coordinate of a 24-bit line number at a row: the last one at or before its next line. -/
def lineOfNumber (w : World) (r line : Nat) : Int :=
  let next := (rowAt w r).next
  let s := setFor w (r / 2) next
  let k : Int := if s.res600 then 2 else 1
  let n := next / k
  let d := (n - line) % 16777216
  (n - d) * k

/-- LINE_FAIL_RX (R247): one defect record of cause 8 for the line, whichever drivers report it. DEDUCED (log 84):
outside the print states no row has a frame in print, and no record is written. -/
def lineFailRx (print : Bool) (p row result line : Nat) (w : World) : World :=
  let r := 2 * (p / 2) + row
  let known := (barPorts (p / 2)).any fun q => (linkAt w q).fails.contains (row, line)
  let mine := (linkAt w p).fails.contains (row, line)
  let x := lineOfNumber w r line
  let w := if known || !print then w else defectLine w r 8 x (setSpacing (setFor w (r / 2) x))
  let w := if mine then w else bump w (Obj.YQL_LINE_FAILS p)
  let w := updLink w p fun l => { l with fails := lastN 256 (if mine then l.fails else l.fails ++ [(row, line)]) }
  if stampOk w (linkAt w p).failStamp (secClk 1) then
    raise (updLink w p fun l => { l with failStamp := some w.clk }) Ev.YQL_LINE_FAIL p
      (row * 2147483648 + result * 268435456 + line % 16777216)
  else w

def execLineFailRx (p row result line : Nat) (s : State) : Host.Outcome State Fault Refusal :=
  onWorld (fun c w => whenDo (decide (p < 16 ∧ row < 2 ∧ result < 8)) (lineFailRx (inPrint c.mode) p row result line) w) s

/-- Fields of a status word (R250). -/
def stHeadFault (v : Nat) : Nat := field v 24 8
def stDnUp (v : Nat) : Bool := bitOf v 23
def stSyncDiff (v : Nat) : Int := sextBits 7 (field v 16 7)
def stMargin (v : Nat) : Nat := min (field v 8 8) (field v 0 8)

/-- STATUS_RX of driver `addr` (R250, R258). -/
def statusRx (p addr word : Nat) (w : World) : World :=
  match (linkAt w p).drivers[addr - 1]? with
  | none => w
  | some d =>
    if addr = 0 then w
    else
      let diff := stSyncDiff word
      let inSync := decide (-1 ≤ diff ∧ diff ≤ 1)
      let newFault := stHeadFault word &&& (stHeadFault d.status ^^^ 255)
      let w := updLink w p fun l =>
        { l with drivers := l.drivers.modify (addr - 1) fun d => { d with status := word, statusClk := w.clk }
                 reported := if inSync && l.st == .recovering && !l.reported.contains addr then addr :: l.reported else l.reported
                 marginLow := lastSecond w.clk l.marginLow ++ [(w.clk, stMargin word)] }
      let w := if newFault = 0 then w else raise w Ev.YQL_HEAD_FAULT p (addr * 256 + stHeadFault word)
      let w := if inSync then w
        else
          let w := updLink (raise w Ev.YQL_SYNC_ERR p (addr * 256 + wrapInt 8 diff)) p fun l => { l with syncDue := true }
          if (portAt w p).tx.isEmpty then sendSync w p else w
      if ¬ stDnUp word ∧ addr < chainLen w p then startRecovery w p else w

def execStatusRx (p addr word : Nat) (s : State) : Host.Outcome State Fault Refusal :=
  onWorld (fun _ w => whenDo (decide (p < 16)) (statusRx p addr word) w) s

/-- Whether a driver has sent no status for YQL_STATUS_TO_US. -/
def silent (w : World) (d : Driver) : Bool := d.statusClk + usClk (getN w Obj.YQL_STATUS_TO_US) ≤ w.clk

/-- DRIVER_SILENT (R250, R258). -/
def driverSilent (p addr : Nat) (w : World) : World :=
  match (linkAt w p).drivers[addr - 1]? with
  | some d => if addr ≠ 0 ∧ silent w d = true ∧ (linkAt w p).st = .up then linkLost w p 4 else w
  | none => w

def execDriverSilent (p addr : Nat) (s : State) : Host.Outcome State Fault Refusal :=
  onWorld (fun _ w => whenDo (decide (p < 16)) (driverSilent p addr) w) s

/-- A command's operation fails (R249): an access of YQL_RW_DATA reports a timeout. DEDUCED (log 84): SET_LAT and SET_BASE
are needed by the discovery of the link, which is then down with the reason of a silent driver. -/
def failOp (w : World) (i : Nat) (c : YCmd) : World :=
  if c.op = 4 ∨ c.op = 5 then setO w Obj.YQL_RW_RESULT 4
  else if c.op = 3 ∨ c.op = 9 then linkDown w i 4
  else w

/-- CMD_RESP_TIMEOUT (R249): resent with the same TAG up to three times; then YQL_CMD_TIMEOUT, and in the print states
recovery. -/
def cmdTimeout (print : Bool) (i tag : Nat) (w : World) : World :=
  match (linkAt w i).cmds.find? fun c => c.tag == tag with
  | none => w
  | some c =>
    if c.waiting ∨ w.clk < c.clk + usClk (getN w Obj.YQL_RESP_TO_US) then w
    else if c.tries < 4 then
      let wait := lanesBusy w i
      let w := updLink w i fun l => { l with cmds := l.cmds.map fun x =>
        if x.tag = tag then { x with tries := x.tries + 1, clk := w.clk, waiting := wait } else x }
      if wait then w else emitCmd w i c.addr c.op c.tag c.arg c.data
    else
      let w := updLink w i fun l => { l with cmds := l.cmds.filter fun x => x.tag != tag }
      let w := if i < 16 then bump w (Obj.YQL_CMD_TIMEOUTS i) else w
      let w := raise w Ev.YQL_CMD_TIMEOUT i (c.addr * 256 + c.op)
      if print then startRecovery w i else failOp w i c

def execCmdRespTimeout (i tag : Nat) (s : State) : Host.Outcome State Fault Refusal :=
  onWorld (fun c w => whenDo (decide (i < 24)) (cmdTimeout (inPrint c.mode) i tag) w) s

/-- RECOVERY_DONE (R258): every addressed driver has reported SYNC_DIFF within ±1. -/
def recoveryDone (i : Nat) (w : World) : World :=
  let l := linkAt w i
  if l.st ≠ .recovering ∨ (i < 16 ∧ (List.range l.drivers.length).any (fun k => !l.reported.contains (k + 1)) = true) then w
  else
    let w := updLink w i fun l => { l with st := .up, reported := [] }
    let w := raise w Ev.YQL_RETRAIN i (min 4294967295 (clkUs (w.clk - l.startClk)))
    if i < 16 then
      let w := updPort (bump w (Obj.YQL_RETRAINS i)) i fun x => { x with first := [true, true] }
      sendPhases w i (fun row => nextSet w (2 * (i / 2) + row)) true
    else w

def execRecoveryDone (i : Nat) (s : State) : Host.Outcome State Fault Refusal :=
  onWorld (fun _ w => whenDo (decide (i < 24)) (recoveryDone i) w) s

/-- The drivers from the first silent one on leave the chain (R260). -/
def departDrivers (w : World) (p : Nat) : World :=
  let ds := (linkAt w p).drivers
  let k := ((ds.zip (List.range 8)).find? fun e => silent w e.1).elim 0 (·.2)
  let w := ((ds.zip (List.range 8)).filter fun e => k ≤ e.2).foldl (fun w e =>
    raise w Ev.YQL_DRV_DEPART p ((e.2 + 1) * 268435456 + e.1.serial % 268435456)) w
  let w := updLink w p fun l => { l with drivers := l.drivers.take k }
  setO (setO w (Obj.YQL_CHAIN_LEN p) k) (Obj.YQL_PORT_NOZZLES p) (portNozzles w p)

/-- A link whose recovery has not succeeded within YQL_RECOVER_MS: what does not depend on the device state (R259,
R261). In PRINTING web stop is requested and the chain stays as it is. -/
def recoveryFailed (mode : DevState) (i : Nat) (w : World) : World :=
  let w := updLink w i fun l => { l with st := .down }
  if 16 ≤ i then
    let w := raise w Ev.YQL_PORT_DOWN i (linkAt w i).discarded
    let s := (((linkAt w i).drivers[0]?).map (·.serial)).getD 0
    raise (updLink w i fun l => { l with drivers := [] }) Ev.YQL_CAM_DEPART i (s % 4294967296)
  else
    let w := raise w Ev.YQL_PORT_DOWN i (linkAt w i).discarded
    let w := updLink w i fun l => { l with portDown := true, fenOff := true }
    if mode = .printing then stopSrc w 3 true else departDrivers w i

/-- Whether recovery has lasted YQL_RECOVER_MS. -/
def recoveryOver (w : World) (i : Nat) : Bool :=
  (linkAt w i).st == .recovering && (linkAt w i).startClk + msClk (getN w Obj.YQL_RECOVER_MS) ≤ w.clk

/-! ### Hot-plug and retuning -/

/-- An arrival is discovered (R260): a port that was down, or a driver behind the last of a chain. -/
def discoverArrival (w : World) (i : Nat) : World :=
  let w := updLink w i fun l => { l with arrival := none, portDown := false, fenOff := false }
  startEnum w i ((linkAt w i).st == .up)

/-- Whether link `i` has an arrival to report: it was down, or its last driver reports a downstream link. -/
def arrivalPossible (w : World) (i : Nat) : Bool :=
  let l := linkAt w i
  linkEn w i && (l.st == .down || (i < 16 && l.st == .up && match l.drivers.getLast? with
    | some d => stDnUp d.status
    | none => true))

/-- An arrival while the device prints is refused and kept (R260). -/
def refuseArrival (w : World) (i serial : Nat) : World :=
  raise (updLink w i fun l => { l with arrival := some serial }) Ev.YQL_HOTPLUG_REFUSED i (serial % 4294967296)

/-- The arrivals kept during PRINTING are handled on entry to a state that takes them (R260). -/
def heldArrivals (w : World) : World :=
  if getO w Obj.YQL_HOTPLUG_EN = 0 then w
  else (List.range 24).foldl (fun w i => if (linkAt w i).arrival.isSome then discoverArrival w i else w) w

/-- Discover every enabled link: DISCOVER and YQL_DISCOVER (R252, R260). -/
def discoverAll (w : World) : World :=
  (List.range 24).foldl (fun w i =>
    if ¬ (linkAt w i).testOk then w
    else if linkEn w i then startTraining w i
    else updLink w i fun l => { l with st := .disabled, drivers := [] }) w

/-- YQL_DISCOVER written 1 (R260). -/
def discoverWrite (mode : DevState) (source : Nat) (w : World) : World :=
  if mode = .idle ∨ mode = .service then discoverAll w else adjust w Obj.YQL_DISCOVER 6 source 1 0

/-- Whether a preset may change now (R256): no line frame is on the lanes, and the next start is predicted no sooner than
2 µs ahead, or cannot be predicted. -/
def presetGap (w : World) (i : Nat) : Bool :=
  decide (16 ≤ i) || ((portAt w i).tx.isEmpty && match nextStart w i with
    | some t => fracLe (fracAdd (timerFrac w) (fracI 2000)) t
    | none => true)

/-- RETUNE_TRIAL: every 10 s a neighbouring preset on one lane (R256); `margin` is the lane's margin before. -/
def retuneTrial (i margin : Nat) (w : World) : World :=
  let l := linkAt w i
  if l.st ≠ .up ∨ bitOf (linkCfg w i) 1 = false ∨ l.trial.isSome = true ∨ w.clk < l.trialClk + secClk 10 ∨
      presetGap w i = false then w
  else
    let lanes := if i < 16 then 6 else 1
    let k := l.trialLane
    let lane := k / 2 % lanes
    let old := l.presets.getD lane 0
    let up := k % 2 = 0
    let new := if up then (if old = 15 then 14 else old + 1) else (if old = 0 then 1 else old - 1)
    updLink w i fun l => { l with presets := l.presets.set lane new, trialLane := (k + 1) % (2 * lanes), trialClk := w.clk
                                  trial := some { lane := lane, preset := old, margin := margin, clk := w.clk } }

def execRetuneTrial (i margin : Nat) (s : State) : Host.Outcome State Fault Refusal :=
  onWorld (fun _ w => whenDo (decide (i < 24)) (retuneTrial i margin) w) s

/-- RETUNE_TRIAL_END: after 1 s the preset is kept when the margin rose by at least 4, or goes back in a gap (R256). -/
def retuneEnd (i margin : Nat) (w : World) : World :=
  match (linkAt w i).trial with
  | none => w
  | some t =>
    if w.clk < t.clk + secClk 1 then w
    else if t.margin + 4 ≤ margin then
      let w := updLink w i fun l => { l with trial := none }
      if i < 16 then bump w (Obj.YQL_EQ_STEPS i) else w
    else if presetGap w i then updLink w i fun l => { l with trial := none, presets := l.presets.set t.lane t.preset }
    else w

def execRetuneTrialEnd (i margin : Nat) (s : State) : Host.Outcome State Fault Refusal :=
  onWorld (fun _ w => whenDo (decide (i < 24)) (retuneEnd i margin) w) s

/-! ### YQL_RW_DATA -/

/-- A write of YQL_RW_DATA (chapter 9): WRITE to the selected register; refused in the print states. -/
def rwWrite (mode : DevState) (source v : Nat) (w : World) : World :=
  if inPrint mode then adjust w Obj.YQL_RW_DATA 6 source v (getO w Obj.YQL_RW_DATA)
  else
    let a := getN w Obj.YQL_RW_ADDR
    sendCmd (setO w Obj.YQL_RW_DATA v) (getN w Obj.YQL_RW_PORT) (field a 28 4) 5 (field a 0 28) [v]

/-- A read of YQL_RW_DATA: READ from the selected register, in every state. -/
def rwRead (w : World) : World :=
  let a := getN w Obj.YQL_RW_ADDR
  sendCmd w (getN w Obj.YQL_RW_PORT) (field a 28 4) 4 (field a 0 28) []

def execYqlRwDataRead (s : State) : Host.Outcome State Fault Refusal := onWorld (fun _ w => rwRead w) s

/-! ### What the objects show -/

/-- YQL_PORT_STATUS.STATE. -/
def linkStCode : LinkSt → Nat
  | .disabled => 0 | .training => 1 | .enumerating => 2 | .up => 3 | .recovering => 4 | .down => 5 | .failed => 6

/-- Whether a check of R254 refuses ARMED at port `p`: an enabled port that is not up, or a failed check. -/
def portBlocks (w : World) (p : Nat) : Bool :=
  let l := linkAt w p
  linkEn w p && (l.verBad || l.excess || l.noProf || l.tooMany || (l.st != .up && l.st != .recovering))

/-- YQL_PORT_STATUS of port `p`, or YQL_CAM_STATUS of link 16 + c. -/
def portStatus (w : World) (i : Nat) : Nat :=
  let l := linkAt w i
  let sync := l.drivers.all fun d => -1 ≤ stSyncDiff d.status && stSyncDiff d.status ≤ 1
  b2n (sync && l.drivers != []) + 2 * b2n l.excess + 4 * b2n l.tooMany + 8 * b2n l.verBad + 16 * b2n l.noProf +
    32 * b2n (decide (i < 16) && portBlocks w i) + 128 * b2n l.testOk + 256 * linkStCode l.st

/-- YQL_MARGIN_MIN: the lowest margin of the last second. -/
def marginMin (w : World) (p : Nat) : Nat :=
  match (lastSecond w.clk (linkAt w p).marginLow).map (·.2) with
  | [] => 0
  | x :: xs => xs.foldl min x

/-- YQL_PORT_PRESET. -/
def portPreset (w : World) (p : Nat) : Nat :=
  (((linkAt w p).presets.zip (List.range 6)).map fun e => e.1 % 16 * 16 ^ e.2).foldl (· + ·) 0

/-- An entry of the chain table YQL_CHAIN, 128 bytes. -/
def chainEntry (w : World) (d : Driver) : List Nat :=
  let heads := d.heads.flatMap fun h =>
    leBytes 8 h.serial ++ leBytes 2 h.code ++ [match slotOf w h.code with | some k => k | none => 255]
  leBytes 8 d.serial ++ leBytes 2 d.vendor ++ leBytes 2 d.type ++ [d.heads.length, d.version] ++ leBytes 2 1 ++
    leBytes 2 d.tFwd ++ leBytes 2 d.tRet ++ leBytes 2 d.tTurn ++ leBytes 2 d.tProc ++ leBytes 4 (d.rtt.getD 0) ++
    leBytesInt 4 d.lat ++ leBytes 4 d.base ++ leBytes 4 (d.status % 4294967296) ++
    (heads ++ List.replicate 88 0).take 88

/-- The chain table of port `p`. -/
def chainTable (w : World) (p : Nat) : List Nat :=
  ((linkAt w p).drivers.flatMap (chainEntry w) ++ List.replicate 1024 0).take 1024

/-! ### Self-test of the links -/

/-- A head profile is written outside the print states: the nozzle counts of the chains follow, and a port above 65,536
per row is refused with its heads (R23, R254). DEDUCED (log 84): the check of R254 is repeated when a profile changes.
-/
def recheckPorts (w : World) : World :=
  (List.range 16).foldl (fun w p =>
    if (linkAt w p).st ≠ .up then w
    else
      let n := portNozzles w p
      let many : Bool := decide (65536 < n)
      let was := (linkAt w p).tooMany
      let w := setO (updLink w p fun l => { l with tooMany := many }) (Obj.YQL_PORT_NOZZLES p) n
      if many && !was then nozzlesOver w p n else w) w

/-- The loopback of R265: a link with a block error or a deskew failure is FAILED, and the device's own delays in ps are
kept for R253. -/
def linkSelftest (w : World) (ok : List Bool) (delays : List Nat) : World :=
  (List.range 24).foldl (fun w i =>
    let w := updLink w i fun l => { l with ownPs := delays.getD i 0 }
    if ok.getD i true then updLink w i fun l => { l with testOk := true }
    else raise (updLink w i fun l => { l with testOk := false, st := .failed }) Ev.YQL_LINK_DOWN i 5) w

end Sys2Proof.Machine
end

