-- ==== Sys2Proof/Machine/Compose.lean ====
section
/-! DEFINITION. Composition (R101 to R106, R147 to R160, R164): source samples, the scalers, tiling, coverage, blending,
colour conversion and the ink planes of a web-buffer line; the sections it writes; the look-ahead. -/

namespace Sys2Proof.Machine

/-- The rounded and limited quotient of chapter 6 (R149). -/
def divQ (a : Int) (b : Nat) : Nat := (clampInt 0 65535 (roundDiv a b)).toNat

/-! ### Kernels -/

/-- Terms of the sine series: `t` is the next term and `x2` the square of the argument, in 2^-64. -/
def sinSeries : Nat → Nat → Int → Int → Int
  | 0, _, _, _ => 0
  | k + 1, i, x2, t => t + sinSeries k (i + 1) x2 (-(t * x2 / (18446744073709551616 * ((2 * i + 2) * (2 * i + 3) : Nat))))

/-- sin(π k / 256) in 2^-64 for k from 0 to 256. -/
def sin256 (k : Nat) : Int :=
  let j : Nat := if 128 < k then 256 - k else k
  let x : Int := 57952155664616982739 * (j : Int) / 256
  sinSeries 14 0 (x * x / 18446744073709551616) x

/-- The LANCZOS4 weight of tap `t` at phase `f` > 0: L(x) without the factors that all taps of a phase share. With
x = m / 64, L(x) is 4 sin(πx) sin(πx/4) / (πx)², and sin(πx) has one magnitude over the taps. -/
def lanczosWeight (f t : Nat) : Int :=
  let m : Int := 64 * (t : Int) - 192 - f
  let s := sin256 m.natAbs * 4294967296 / (m * m)
  if (t % 2 == 0) == decide (0 < m) then s else -s

/-- Bring the taps of a phase to 16,384 at tap 3 or 4 (R152). -/
def residueTap (f : Nat) (c : List Int) : List Int :=
  let r := 16384 - c.foldl (· + ·) 0
  if f < 32 then c.modify 3 (· + r) else c.modify 4 (· + r)

/-- The built-in taps of a kernel at a phase (R152). -/
def layTaps (kernel f : Nat) : List Int :=
  match kernel with
  | 0 => (List.range 8).map fun t => if t = (if f < 32 then 3 else 4) then 16384 else 0
  | 1 => [0, 0, 0, 16384 - 256 * (f : Int), 256 * (f : Int), 0, 0, 0]
  | _ =>
    if f = 0 then [0, 0, 0, 16384, 0, 0, 0, 0]
    else
      let ws := (List.range 8).map (lanczosWeight f)
      let sum := ws.foldl (· + ·) 0
      residueTap f (ws.map fun x => roundDiv (16384 * x) sum.toNat)

/-- Entry `e` of LAY_COEF by default: BILINEAR on both axes (R153). -/
def layCoefDefault (e : Nat) : Int := (layTaps 1 (e % 512 / 8)).getD (e % 8) 0

/-- Fields of a LAY_CFG value. -/
def layKernel (cfg : Nat) : Nat := field cfg 22 2
def layBlend (cfg : Nat) : Nat := field cfg 20 2

/-- The taps of a layer on an axis (0 horizontal, 1 vertical). -/
def useTaps (n : Nat) (u : LayerUse) (axis f : Nat) : List Int :=
  if layKernel u.cfg = 3 then
    (List.range 8).map fun t =>
      let e := 512 * axis + 8 * f + t
      mapGetD u.coef (tblKey (0x3310 + n) e) (layCoefDefault e)
  else layTaps (layKernel u.cfg) f

/-- Eight taps on eight samples. -/
def scale8 (taps : List Int) (xs : List Nat) : Nat :=
  divQ (((taps.zip xs).map fun e => e.1 * (e.2 : Int)).foldl (· + ·) 0) 16384

/-! ### Source lines -/

/-- A sample of `w` bytes as Calico sees it (R149). -/
def widenSample (bps x : Nat) : Nat := if bps = 1 then 257 * x else x

/-- Line `m` of raw data: its channels, samples as they stand. Raw data holds its lines in order, each as its channels one
after another, samples little-endian (assumption 24). -/
def rawPlanes (it : Item) (data : List Nat) (m : Nat) : List (List Nat) :=
  let bps := itemBps it
  (List.range (itemChannels it)).map fun c =>
    let plane := data.drop ((m * itemChannels it + c) * it.width * bps)
    (List.range it.width).map fun x => leAt (plane.drop (x * bps)) 0 bps

/-- Line `m` of an item as planes of 16-bit samples, with the guards that decoding found in it and in the lines from its
directory entry on (R134); the history takes the item's WIDTH (R138). -/
def itemLine (it : Item) (m : Nat) : List (List Nat) × List (Nat × GuardRep) :=
  let (ps, gs) := if itemMuslin it then decodeStreamLine it.data it.width m else (rawPlanes it it.data m, [])
  (ps.map fun p => p.map (widenSample (itemBps it)), gs)

/-- The source column and line that a tap at (x, y) reads (R154, R155). -/
def tapPlace (tile : Nat) (width height : Nat) (x y : Int) : Nat × Nat :=
  let wd : Int := width
  let ht : Int := height
  match tile with
  | 1 => ((x % wd).toNat, (y % ht).toNat)
  | 2 => ((x % wd).toNat, ((y - x / wd * (ht / 2)) % ht).toNat)
  | 3 => (((x - y / ht * (wd / 2)) % wd).toNat, (y % ht).toNat)
  | _ => ((clampInt 0 (wd - 1) x).toNat, (clampInt 0 (ht - 1) y).toNat)

/-- s = (k + 0.5) R − 0.5 in 2^-32 (R151), exact: twice the value, so that no half is lost. -/
def srcTwice (k : Int) (r : Nat) : Int := (2 * k + 1) * r - 4294967296
/-- Whole part and phase of a source coordinate. -/
def srcWhole (t : Int) : Int := t / 8589934592
def srcPhase (t : Int) : Nat := (t % 8589934592 / 134217728).toNat

/-- The vertical count of a layer at web-buffer line `n`: from the first line of the frame, or of the boundary that
TILE_CONT counts from. -/
def layerY (u : LayerUse) (wB n : Int) : Int := n - (u.tileW.getD wB) / 2 - u.posY

/-- The source lines that the taps of one output line read, each once. -/
def lineSet (u : LayerUse) (it : Item) (y0 : Int) : List Nat :=
  let tile := layTile u.cfg
  let ys := (List.range 8).map fun (t : Nat) => y0 - 3 + t
  if tile = 2 then
    let x0 := srcWhole (srcTwice (0 - u.posX) u.rx) - 3
    let x1 := srcWhole (srcTwice (49151 - u.posX) u.rx) + 4
    let k0 := x0 / (it.width : Int)
    let ks := (List.range ((x1 / (it.width : Int) - k0).toNat + 1)).map fun (i : Nat) => (k0 + i) * it.width
    (ks.flatMap fun k => ys.map fun y => (tapPlace 2 it.width it.height k y).2).eraseDups
  else (ys.map fun y => (tapPlace tile it.width it.height 0 y).2).eraseDups

/-- The lines of an item by number, as planes, and the guards that decoding them finds, each with its line. `hist` are the
lines that stand decoded in the layer's history: a line behind one of them continues the decoding, any other begins at its
directory entry and decodes the lines before it too (R134). -/
def fetchLines (it : Item) (hist ms : List Nat) : KMap (List (Array Nat)) × List (Nat × GuardRep) :=
  let (ls, gs, _) := ms.foldl (fun (acc : KMap (List (Array Nat)) × List (Nat × GuardRep) × List Nat) m =>
    let (ps, gs) := itemLine it m
    let new := if acc.2.2.contains m then [] else if acc.2.2.contains (m - 1) && m != 0 then gs.filter (·.1 == m) else gs
    (mapPut acc.1 m (ps.map (·.toArray)), acc.2.1 ++ new, m :: acc.2.2)) ([], [], hist)
  (ls, gs)

/-! ### One layer at one pixel -/

/-- What a layer puts on a web-buffer line: its layer number, its use, its item's size, the vertical place, and the
source lines. A FILL has no item. -/
structure LayerLine where
  n : Nat
  use : LayerUse
  width : Nat
  height : Nat
  y : Int
  lines : KMap (List (Array Nat))

/-- The 16-bit sample of source channel `ch` at output column `x` (R151, R152). -/
def layerSample (l : LayerLine) (ch x : Nat) : Nat :=
  if l.use.item = 0 then l.use.fill.getD ch 0
  else
    let sy := srcTwice l.y l.use.ry
    let sx := srcTwice ((x : Int) - l.use.posX) l.use.rx
    let vt := useTaps l.n l.use 1 (srcPhase sy)
    let ht := useTaps l.n l.use 0 (srcPhase sx)
    let src := fun (cx cy : Int) =>
      let (c, m) := tapPlace (layTile l.use.cfg) l.width l.height cx cy
      (((mapGetD l.lines m []).getD ch #[]).getD c 0)
    let col := fun (cx : Int) => scale8 vt ((List.range 8).map fun (t : Nat) => src cx (srcWhole sy - 3 + t))
    scale8 ht ((List.range 8).map fun (t : Nat) => col (srcWhole sx - 3 + t))

/-- The footprint coverage of a layer (R154, R155); a FILL covers every pixel (R148). -/
def footprint (l : LayerLine) (x : Nat) : Nat :=
  if l.use.item = 0 ∨ layTile l.use.cfg ≠ 0 then 65535
  else
    let px := (2 * ((x : Int) - l.use.posX) + 1) * l.use.rx
    let py := (2 * l.y + 1) * l.use.ry
    if 0 ≤ px ∧ px < 8589934592 * (l.width : Int) ∧ 0 ≤ py ∧ py < 8589934592 * (l.height : Int) then 65535 else 0

/-- The coverage of a layer at a pixel (R156). -/
def coverage (l : LayerLine) (x : Nat) : Nat :=
  let f := footprint l x
  if f = 0 then 0
  else
    let a := divQ ((f : Int) * l.use.opacity) 65535
    match layAlpha l.use.cfg with
    | 0 => a
    | k + 1 => divQ ((a : Int) * layerSample l k x) 65535

/-- One channel under a layer (R156): full scale `full`, knockout, mapped sample, blend, coverage. -/
def blendOne (full : Nat) (ko : Bool) (s : Option Nat) (blend a c : Nat) : Nat :=
  let na : Int := 65535 - (a : Int)
  if ko then divQ ((c : Int) * na) 65535
  else
    match s with
    | none => c
    | some s =>
      match blend with
      | 0 => s
      | 2 => full - divQ (((full : Int) - c) * (65535 - (divQ ((a : Int) * s) full : Int))) 65535
      | _ => divQ ((a : Int) * s + na * c) 65535

/-- The sample that a channel map takes into working channel `j` at a pixel, shifted down by `sh` bits. -/
def mappedSample (l : LayerLine) (sh x j : Nat) : Option Nat :=
  let nib := field l.use.chMap (4 * j) 4
  if 8 ≤ nib then some (layerSample l (nib - 8) x / 2 ^ sh) else none

/-- A layer over the channels of a pixel. MULTIPLY scales the coverage by the sample over full scale. -/
def blendLayer (full sh : Nat) (x : Nat) (cs : List Nat) (l : LayerLine) : List Nat :=
  let a := coverage l x
  if a = 0 then cs
  else
    (List.range 8).map fun j =>
      blendOne full (bitOf l.use.ko j) (mappedSample l sh x j) (layBlend l.use.cfg) a (cs.getD j 0)

/-! ### Colour conversion -/

/-- A value that Calico's set holds. -/
def calV (s : CalSet) (k : Nat) : Int := mapGetD s.obj k (objDefault k)

/-- y_k of R158. -/
def inkSum (s : CalSet) (k : Nat) (cs : List Nat) : Nat :=
  let m := (List.range 8).map fun j => calV s (0x2330 * 256 + 1 + 8 * k + j) * (cs.getD j 0 : Int)
  (clampInt 0 65535 (roundDiv (m.foldl (· + ·) 0 + 4096 * 16 * calV s (0x2330 * 256 + 0x41 + k)) 4096)).toNat

/-- The ink sample of R159. -/
def inkOf (s : CalSet) (k y : Nat) : Nat :=
  if bitOf (calV s Obj.JOB_CRV_EN).toNat k then
    let t := fun (i : Nat) => (mapGetD s.tbl (tblKey 0x3340 (4096 * k + i)) (i : Int)).toNat
    let i := y / 16
    let f := y % 16
    (t i * (16 - f) + t (min (i + 1) 4095) * f + 8) / 16
  else min 4095 ((y + 8) / 16)

/-- The working channels of a pixel: the print layers in increasing order over 0 (R156). -/
def workChannels (ls : List LayerLine) (x : Nat) : List Nat :=
  ls.foldl (blendLayer 65535 0 x) (List.replicate 8 0)

/-- The ink planes of a web-buffer line: none for an ink that is masked (R160). -/
def inkPlanes (s : CalSet) (ls : List LayerLine) : List (Option (List Nat)) :=
  let px := (List.range wbCols).map (workChannels ls)
  let mask := (calV s Obj.JOB_INK_MASK).toNat
  (List.range 8).map fun k => if bitOf mask k then some (px.map fun cs => inkOf s k (inkSum s k cs)) else none

/-! ### The frame and the layers of a line -/

/-- A frame as composition sees it: number, range, sequence number, and whether it has begun. -/
structure CompFrame where
  no : Nat
  wB : Int
  wEnd : Int
  seq : Nat
  begun : Bool
  deriving DecidableEq, Repr

/-- The frame of web-buffer line `n`, begun or set up ahead of the composition point; a later one cuts an earlier. -/
def compFrame (w : World) (n : Int) : Option CompFrame :=
  let begun := w.job.frames.map fun f => ({ no := f.no, wB := f.wB, wEnd := f.wEnd, seq := f.seq, begun := true } : CompFrame)
  let coming := (w.job.bounds.filter fun b => b.isSetUp && b.starts).map fun b =>
    ({ no := b.no, wB := b.w, wEnd := b.wEnd, seq := b.seq, begun := false } : CompFrame)
  match ((begun ++ coming).filter fun f => f.wB ≤ 2 * n).getLast? with
  | some f => if 2 * n < f.wEnd then some f else none
  | none => none

/-- Calico's set of a frame. -/
def calSetOf (w : World) (f : CompFrame) : Option CalSet := (w.job.calSets.filter fun s => s.wB ≤ f.wB).getLast?

/-- Cause 10 over a whole frame, once (R116, R142): at once, or with the frame when it begins. -/
def spoilFrame (w : World) (f : CompFrame) : World :=
  if f.begun then
    if w.job.defects.any (fun d => d.frame == f.no && d.cause == 10 && d.row == 255) then w
    else defectFrame w f.no 10 f.wB f.wEnd
  else
    { w with job := { w.job with bounds := w.job.bounds.map fun b =>
        if b.isSetUp && b.starts && b.no == f.no && !b.causes.contains 10 then { b with causes := b.causes ++ [10] } else b } }

/-- Note a spoilt source line: the item is damaged from the next boundary on (R116, R142). -/
def spoilLine (w : World) (key m : Nat) : World :=
  match itemAt w key with
  | none => w
  | some it => setItem w key { it with state := 4, bad := if it.bad.contains m then it.bad else m :: it.bad }

/-- A struck word of an item is read (R118): its line is spoilt where two bits are inverted. Which line holds the word
is not stated: a free value. -/
def readStoreItem (key : Nat) (it : Item) (w : World) : World :=
  let (l, w) := readStruck 2 (fun e => e.unit == key) w
  l.foldl (fun w e => spoilLine w key (e.addr % max 1 it.height)) w

/-- A guard in a layer's source line (R142): reported by composition decode unit n mod 4 (assumption 56), and handled as
an uncorrectable error in the layer store at an address that the spec leaves open. -/
def guardLine (n key : Nat) (w : World) (g : Nat × GuardRep) : World :=
  let (v, w) := takeFree (reportGuard (n % 4) w g.2)
  spoilLine (countUe 2 v w) key g.1

/-- What layer `n` puts on a line: nothing where one of its source lines is spoilt, by an error or by a guard. A guard, in
these lines or in one decoded to reach them, and a spoilt line give the frame cause 10. -/
def layerLine (f : CompFrame) (line : Int) (n : Nat) (u : LayerUse) (w : World) : Option LayerLine × World :=
  let y := layerY u f.wB line
  if u.item = 0 then (some { n := n, use := u, width := 1, height := 1, y := y, lines := [] }, w)
  else
    match itemAt w u.item with
    | none => (none, w)
    | some it =>
      let ms := lineSet u it (srcWhole (srcTwice y u.ry))
      let w := readStoreItem u.item it w
      let bad := fun (w : World) => match itemAt w u.item with | some i => i.bad | none => []
      let h := w.cal.hist.getD n (0, [])
      let (ls, gs) := fetchLines it (if h.1 = u.item then h.2 else []) (ms.filter fun m => !(bad w).contains m)
      let w := gs.foldl (guardLine n u.item) { w with cal := { w.cal with hist := w.cal.hist.set n (u.item, ms) } }
      let w := if gs = [] then w else spoilFrame w f
      if (ms.any fun m => (bad w).contains m) = true then (none, spoilFrame w f)
      else (some { n := n, use := u, width := it.width, height := it.height, y := y, lines := ls }, w)

/-- The layers of `ns` on a line. -/
def layerLines (f : CompFrame) (line : Int) (s : CalSet) : List Nat → World → List LayerLine × World
  | [], w => ([], w)
  | n :: ns, w =>
    match s.layers.getD n none with
    | none => layerLines f line s ns w
    | some u =>
      let (l, w) := layerLine f line n u w
      let (ls, w) := layerLines f line s ns w
      (l.toList ++ ls, w)

/-! ### Writing a line -/

/-- Raw bytes of a line's eight plane sections. -/
def wbLineRaw : Nat := 8 * 73728

/-- Write one plane section (R101, R102, R160): counters, the reference of the next line, and the stored size. -/
def writeSection (set : CalSet) (n : Int) (frame k : Nat) (plane : Option (List Nat)) (w : World) : Nat × World :=
  let zeros := List.replicate wbCols 0
  let (kind, data, raws) := match plane with
    | none => (1, [], 0)
    | some xs =>
      let ref := mapGetD w.mem.refLine k zeros
      encodeSection (n % ((calV set Obj.MUS_WB_KEY).toNat : Int)).toNat (calV set Obj.MUS_WB_KEY).toNat
        (calV set Obj.MUS_WB_SEG_LOG).toNat (calV set Obj.MUS_WB_PRED).toNat xs ref
  let sec : Section := { line := wrapInt 24 n, kind := kind, frame := frame % 65536, length := data.length / 8
                         data := data, ue := false }
  let refs := match plane with
    | some xs => if kind = 1 then mapDel w.mem.refLine k else mapPut w.mem.refLine k xs
    | none => mapDel w.mem.refLine k
  let w := { w with mem := { w.mem with wb := mapPut w.mem.wb (wbKey n k) sec, refLine := refs } }
  let w := noteWrite 0 0 0 (if plane.isSome then noteWrite 1 (wbKey n k) n w else w)
  let w := addO w Obj.MUS_WB_RAW_SEGS 32 raws
  let w := if kind = 3 then bump w Obj.MUS_WB_RAW_SECTS else w
  (data.length, w)

/-- Write the eight sections of a line and renew MUS_WB_RATIO over the last 1,024 lines. -/
def writeLine (set : CalSet) (n : Int) (frame : Nat) (planes : List (Option (List Nat))) (w : World) : World :=
  let (stored, w) := (List.range 8).foldl (fun acc k =>
    let (d, w) := writeSection set n frame k (planes.getD k none) acc.2
    (acc.1 + d, w)) (0, w)
  let sizes := lastN 1024 (w.mem.wbSizes ++ [(wbLineRaw, stored)])
  let raw := (sizes.map (·.1)).foldl (· + ·) 0
  let st := (sizes.map (·.2)).foldl (· + ·) 0
  let q := if st = 0 then 32767 * 65536 else clampInt 65536 (32767 * 65536) (roundDiv (raw * 65536 : Nat) st)
  setO { w with mem := { w.mem with wbSizes := sizes } } Obj.MUS_WB_RATIO q

/-- The set that gap lines are written with; every plane of a gap line is BLANK. -/
def gapSet : CalSet := { wB := 0, obj := [], tbl := [], layers := [] }

/-- Compose and write line `n`: its ink planes for the preview, with its frame, or a gap line. -/
def composeLine (n : Int) (w : World) : Option (CompFrame × CalSet × List (Option (List Nat))) × World :=
  match compFrame w n with
  | none => (none, writeLine gapSet n 0 [] w)
  | some f =>
    match calSetOf w f with
    | none => (none, writeLine gapSet n 0 [] w)
    | some s =>
      let (ls, w) := layerLines f n s (List.range 8) w
      let planes := if ls.isEmpty && (List.range 8).all (fun k => calV s (0x2330 * 256 + 0x41 + k) == 0) &&
          calV s Obj.JOB_CRV_EN == 0 then
          (List.range 8).map fun k => if bitOf (calV s Obj.JOB_INK_MASK).toNat k then some (List.replicate wbCols 0) else none
        else inkPlanes s ls
      (some (f, s, planes), writeLine s n f.no planes w)

/-! ### The look-ahead -/

/-- Where A fell below 64 with the front where it is: P = d_0 + 2 (c − 63). -/
def starvePos (w : World) : Int := wrapSigned 64 (rowD64Now w 0 * 1024 + linePos (2 * (w.mem.front - 63)))

/-- The conditions of R105 and R106 after A has changed: the run of R106 begins or ends, a late condition ends, and a
starvation request is released. -/
def lookAfter (w : World) : World :=
  let w := noteLook w
  let a := lookActual w
  let w := if 2112 ≤ a then { w with mem := { w.mem with lateRaised := false } } else w
  let w := if 64 ≤ a then { w with mem := { w.mem with starveFrom := none } }
    else if w.mem.starveFrom.isNone then { w with mem := { w.mem with starveFrom := some (starvePos w) } } else w
  if 2048 ≤ a then stopSrc { w with mem := { w.mem with starved := false } } 1 false else w

/-- COMPOSE_LINE_START: the web has reached 2n − 128 of the front line. -/
def composeStart (w : World) : World :=
  if posReached w (linePos (2 * w.mem.front - 128)) then { w with mem := { w.mem with lineOpen := true } } else w

def execComposeLineStart (s : State) : Host.Outcome State Fault Refusal :=
  onWorld (fun c w => whenDo (inPrint c.mode) composeStart w) s

/-- COMP_LATE (R105), a miss of deadline 2 (R408). -/
def compLate (w : World) : World :=
  let w := lookAfter w
  if lookActual w < 2048 ∧ w.mem.lateRaised = false then
    raiseInt (bump { w with mem := { w.mem with lateRaised := true } } (Obj.SUP_DL_MISS 1)) Ev.COMP_LATE 0 (lookActual w)
  else w

def execCompLate (s : State) : Host.Outcome State Fault Refusal :=
  onWorld (fun c w => whenDo (inPrint c.mode) compLate w) s

/-- COMP_STARVED (R106): A has stayed below 64 for 2,048 lines of web travel. -/
def compStarved (w : World) : World :=
  let w := lookAfter w
  match w.mem.starveFrom with
  | none => w
  | some p =>
    if posDiff (webPos w) p < 2048 * 65536 ∨ w.mem.starved = true then w
    else
      let w := raiseInt { w with mem := { w.mem with starved := true } } Ev.COMP_STARVED 0 (lookActual w)
      if getB w Obj.MEM_LA_STOP then stopSrc w 1 true else w

def execCompStarved (s : State) : Host.Outcome State Fault Refusal :=
  onWorld (fun c w => whenDo (inPrint c.mode) compStarved w) s

/-- Free the variable-data records of the frames that are composed (R112). -/
def freeComposed (w : World) : World :=
  (w.job.frames.filter fun f => !f.vdFreed && decide (f.wEnd ≤ 2 * w.mem.front)).foldl (fun w f =>
    let w := freeRecords w f.seq
    { w with job := { w.job with frames := w.job.frames.map fun g => if g.no = f.no then { g with vdFreed := true } else g } }) w

/-- The front moves past line `n`: sets that no later line uses are dropped. -/
def advanceFront (w : World) : World :=
  let w := lookAfter w
  let n := w.mem.front + 1
  let late := decide (lookActual w < 2048)
  let w := { w with mem := { w.mem with front := n, lineOpen := false } }
  let old := (w.job.calSets.filter fun s => s.wB ≤ 2 * n).length - 1
  let w := { w with job := { w.job with calSets := w.job.calSets.drop old } }
  let w := if late then bump w Obj.MEM_LA_LATE else w
  lookAfter (freeComposed w)

/-- Entry to ARMED (R103, R105): every slot reads BLANK for the lines below the composition point, which is the front. -/
def armCompose (w : World) : World :=
  let p := ceilDivInt (posCeil w) 2
  let w := { w with mem := { w.mem with wb := [], blankBelow := some p, front := p, lineOpen := false, refLine := []
                                        lateRaised := false, starveFrom := none, starved := false, wbSizes := [] }
                    cal := { w.cal with prv := none, prvDropFrames := [], hist := List.replicate 10 (0, []) } }
  setO (setO w Obj.MEM_LA_ACTUAL (lookActual w)) Obj.MEM_LA_MIN (lookActual w)

/-- Leaving the print states: A is no longer computed (R106). -/
def leaveCompose (w : World) : World :=
  let w := setO { w with mem := { w.mem with lineOpen := false, starveFrom := none, starved := false, lateRaised := false } }
    Obj.MEM_LA_ACTUAL 0
  { w with cal := { w.cal with prv := none } }

end Sys2Proof.Machine
end

