-- ==== Sys2Proof/Machine/FixMath.lean ====
section
/-! DEFINITION. The functions of chapters 10 and 11 that are not exact in whole numbers: logarithm and power for band
densities (R284, R285) and the binary32 words of the loop's state records (R303). -/

namespace Sys2Proof.Machine

/-- One fixed point: 64 fraction bits. -/
def one64 : Nat := 18446744073709551616

/-- `k` bits of the logarithm to base 2 of a mantissa in [1, 2) with 64 fraction bits, by squaring. -/
def log2Bits : Nat → Nat → Nat
  | 0, _ => 0
  | k + 1, m =>
    let s := m * m / one64
    if 2 * one64 ≤ s then 2 ^ k + log2Bits k (s / 2) else log2Bits k s

/-- log2 (n / d) with 40 fraction bits, for positive `n` and `d`. -/
def log2Fix (n d : Nat) : Int :=
  let e : Int := (Nat.log2 n : Int) - (Nat.log2 d : Int)
  let m := if 0 ≤ e then n * one64 / (d * 2 ^ e.toNat) else n * one64 * 2 ^ (-e).toNat / d
  let (e, m) := if m < one64 then (e - 1, 2 * m) else (e, m)
  e * 1099511627776 + log2Bits 40 m

/-- The band density of a reflectance `n / d` (R285): −4,096 log10 R, rounded to the nearest, ties upward. The constant
is log10 2 in 2^-64. -/
def density (n d : Nat) : Int := roundDiv (-4096 * log2Fix n d * 5553023288523357132) (1099511627776 * one64)

/-- Terms of the exponential series: `t` is the next term and `y` the argument, in 2^-64. -/
def expSeries : Nat → Nat → Nat → Nat → Nat
  | 0, _, _, _ => 0
  | k + 1, i, y, t => t + expSeries k (i + 1) y (t * y / (one64 * (i + 1)))

/-- 10^(−d / 4,096) in 2^-64, from the constants log2 10 and ln 2 in 2^-64. -/
def pow10Neg (d : Int) : Nat :=
  let x : Int := -d * 61278757397652712441 / 4096
  let i := x / (one64 : Int)
  let f := (x % (one64 : Int)).toNat
  let e := expSeries 24 0 (f * 12786308645202655659 / one64) one64
  if 0 ≤ i then e * 2 ^ i.toNat else e / 2 ^ (-i).toNat

/-! ### binary32 -/

/-- The value of a binary32 word that is not negative. -/
def f32Val (w : Nat) : Frac :=
  let e := field w 23 8
  let m := field w 0 23
  if e = 0 then frac m (2 ^ 149)
  else if 150 ≤ e then fracI ((8388608 + m) * 2 ^ (e - 150) : Nat)
  else frac (8388608 + m : Nat) (2 ^ (150 - e))

/-- Nearest whole number, ties to even. -/
def roundEven (n d : Nat) : Nat :=
  let q := n / d
  let r := n % d
  if 2 * r < d then q else if d < 2 * r then q + 1 else q + q % 2

/-- The binary32 word nearest to a value that is not negative; the greatest finite one beyond the range. -/
def f32Of (x : Frac) : Nat :=
  let n := x.num.toNat
  if n = 0 then 0
  else
    let e : Int := (Nat.log2 n : Int) - (Nat.log2 x.den : Int)
    let low := if 0 ≤ e then n < x.den * 2 ^ e.toNat else n * 2 ^ (-e).toNat < x.den
    let e := max (-126) (if low then e - 1 else e)
    let k := e - 23
    let q := if 0 ≤ k then roundEven n (x.den * 2 ^ k.toNat) else roundEven (n * 2 ^ (-k).toNat) x.den
    let w := if q < 8388608 then q else ((e + 126).toNat) * 8388608 + q
    min w 0x7F7FFFFF

end Sys2Proof.Machine
end

