-- ==== Sys2Proof/Machine/Voile.lean ====
section
/-! DEFINITION. Voile (R267 to R280, R295): slot timing, pulse widths, the drive and measurement of a slot, the status
of pairs, the headroom loop and the power limiter. -/

namespace Sys2Proof.Machine

/-! ### Settings in force -/

/-- Whether a setting takes effect at a step point (R290), objects and pulse codes. -/
def isStepKey (k : Nat) : Bool :=
  k / 4294967296 == 0x3741 || k / 256 == 0x2741 || k / 256 == 0x2742 || k / 256 == 0x2701 || k / 256 == 0x2710 ||
  [Obj.VOI_I_GLB, Obj.VOI_BLANK_NS, Obj.VOI_CFG, Obj.INS_LINE_HZ].contains k
/-- Whether a step setting is one of Voile's (VOI_VER). -/
def isVoiKey (k : Nat) : Bool := isStepKey k && k / 256 != 0x2701 && k / 256 != 0x2710 && k != Obj.INS_LINE_HZ

/-- The settings as written, and a setting in force. -/
def liveSet (w : World) : KMap Int :=
  mapMerge (mapFilter w.dict.obj isStepKey) (mapFilter w.dict.tbl (inTable 0x3741))
def setVal (set : KMap Int) (k : Nat) : Int := mapGetD set k (if k < 16777216 then objDefault k else 0)
def insV (w : World) (k : Nat) : Int := setVal w.ins.set k
def insN (w : World) (k : Nat) : Nat := (insV w k).toNat

/-- T_L in clocks of a line rate (R267). -/
def lineClocks (hz : Nat) : Nat := ceilDiv 312500000 hz
/-- The line rate that a line period gives. -/
def lineHzAct (tl : Nat) : Nat := (roundDiv 312500000 tl).toNat
/-- B in clocks of VOI_BLANK_NS (R271). -/
def blankClocks (ns : Nat) : Nat := (roundDiv (ns * 5 : Nat) 16).toNat

/-- Bit reversal of four bits. -/
def bitrev4 (m : Nat) : Nat := m % 2 * 8 + m / 2 % 2 * 4 + m / 4 % 2 * 2 + m / 8 % 2

/-- Mean width of a pair in 1/16 clock under settings (R272). -/
def width16 (set : KMap Int) (k c : Nat) : Nat :=
  let n := field (setVal set Obj.VOI_CFG).toNat 8 8
  let v := (setVal set (tblKey 0x3741 (32 * k + c))).toNat / 2 ^ (16 - n) * 2 ^ (16 - n)
  let wref := lineClocks (setVal set Obj.INS_LINE_HZ).toNat - 2 * blankClocks (setVal set Obj.VOI_BLANK_NS).toNat
  v * wref * 16 / 65536

/-- Width of a pair in scan `m`, clocks (R272). -/
def pulseClocks (set : KMap Int) (m k c : Nat) : Nat :=
  let n := field (setVal set Obj.VOI_CFG).toNat 8 8
  let a := width16 set k c
  if n ≤ 12 then (a + 8) / 16 else a / 16 + (if bitrev4 (m % 16) < a % 16 then 1 else 0)

/-- Channel current code of a column. -/
def chCode (set : KMap Int) (c : Nat) : Nat := (setVal set (Obj.VOI_I_CH c)).toNat

/-- Whether a pair is in use (R272, R280). -/
def pairInUse (w : World) (k c : Nat) : Bool :=
  let n := field (insN w Obj.VOI_CFG) 8 8
  let a := width16 w.ins.set k c
  (if n ≤ 12 then 8 ≤ a else 0 < a) && chCode w.ins.set c != 0 && w.voi.sinkOk.getD c true

def pairAt (w : World) (i : Nat) : Pair := w.voi.pairs.getD i Pair.reset
def updPair (w : World) (i : Nat) (f : Pair → Pair) : World :=
  { w with voi := { w.voi with pairs := w.voi.pairs.modify i f } }
def updVoi (w : World) (f : Voi → Voi) : World := { w with voi := f w.voi }
def updIns (w : World) (f : Ins → Ins) : World := { w with ins := f w.ins }

/-- The states in which scan and Voile run (R295). -/
def scanStates (m : DevState) : Bool :=
  m == .idle || m == .armed || m == .printing || m == .paused || m == .service
/-- Whether the scan runs (R295). VOI_CFG takes effect at a step point (R290), so a scan that runs goes on until EN at 0
is in force, and one that does not run starts with EN written 1 (DEDUCED, log 85). -/
def scanning (m : DevState) (w : World) : Bool :=
  scanStates m && getF w Obj.INS_CFG 0 1 == 1 && (bitOf (insN w Obj.VOI_CFG) 0 || getF w Obj.VOI_CFG 0 1 == 1)

/-- VOI_I_GLB_EFF of the scan in progress: a change acts from the next scan (R275). -/
def scanEff (w : World) : Nat :=
  match w.ins.lines.getLast? with
  | some l => l.eff
  | none => getN w Obj.VOI_I_GLB_EFF

/-! ### Measurement of a pair -/

/-- Whether a current in µA is below 25 % of what is set (R274, R276). -/
def lowCurrent (w : World) (c ua : Nat) : Bool :=
  ua * 4 * 255 * 1023 < 200000 * scanEff w * chCode w.ins.set c

/-- Exclude a span in a band of the scan in progress (R285). -/
def exclSpan (w : World) (k c reason : Nat) : World :=
  updIns w fun i => { i with lines := i.lines.modify (i.lines.length - 1) fun l => { l with excl := l.excl ++ [(k, c, reason)] } }

/-- The middle of a list of voltages: the mean of the two middle ones where their number is even (R276). -/
def insertNat (x : Nat) : List Nat → List Nat
  | [] => [x]
  | y :: ys => if x ≤ y then x :: y :: ys else y :: insertNat x ys
def median (l : List Nat) : Nat :=
  let s := l.foldl (fun acc x => insertNat x acc) []
  let n := s.length
  if n % 2 = 1 then s.getD (n / 2) 0 else (s.getD (n / 2 - 1) 0 + s.getD (n / 2) 0) / 2

/-- The status after a measurement (R276). -/
def judge (p : Pair) (openLike shortLike : Bool) (clk : Nat) : Pair :=
  let clean := !openLike && !shortLike
  let o := if openLike then p.opens + 1 else 0
  let s := if shortLike then p.shorts + 1 else 0
  let c := if clean then p.cleans + 1 else 0
  let st := if 2 ≤ o then 1 else if 2 ≤ s then 2
    else if clean ∧ (p.st = 0 ∨ p.st = 3 ∨ 16 ≤ c) then 0 else p.st
  { p with opens := o, shorts := s, cleans := c, st := st, measClk := clk }

/-- Take a measurement of pair (k, c): voltage in mV, current in µA, the row's median where it has one. -/
def takeMeas (w : World) (k c mv ua : Nat) (mid : Option Nat) : World :=
  let i := 32 * k + c
  let p := pairAt w i
  let openLike := lowCurrent w c ua && decide (mv < getN w Obj.VOI_OPEN_MV)
  let shortLike := match mid with
    | some m => !openLike && decide (m + getN w Obj.VOI_SHORT_DV_MV < mv)
    | none => false
  let q := judge p openLike shortLike w.clk
  let w := setT (updPair w i fun _ => q) 0x3742 i mv 0
  let w := if q.st = 1 ∧ p.st ≠ 1 then raise w Ev.VOI_OPEN i 1 else w
  let w := if q.st = 2 ∧ p.st ≠ 2 then raise w Ev.VOI_SHORT i (2147483648 + (mv - mid.getD 0) % 65536) else w
  let w := if p.st = 1 ∧ q.st = 0 then raise w Ev.VOI_OPEN i 0 else w
  let w := if p.st = 2 ∧ q.st = 0 then raise w Ev.VOI_SHORT i 0 else w
  -- The headroom loop leaves out samples of too little current (R274).
  if lowCurrent w c ua then w
  else
    let vm := match w.voi.vMin with | some v => min v mv | none => mv
    let w := updVoi w fun v => { v with vMin := some vm }
    if 500 ≤ mv then w
    else
      let w := exclSpan w k c 7
      if w.voi.low then w
      else
        raise (updVoi w fun v => { v with low := true, lowPeriod := true, episode := true, bump := true })
          Ev.VOI_HEADROOM 0 (65536 + vm % 65536)

/-! ### The slot -/

/-- Whether a scan is a stretch scan (R277). -/
def stretchScan (w : World) (m : Nat) : Bool := bitOf (insN w Obj.VOI_CFG) 1 && m % 256 == 128

/-- The width of a pair's pulse in the scan in progress and whether it is stretched. -/
def slotPulse (w : World) (m k c : Nat) : Nat × Bool :=
  if !pairInUse w k c then (0, false)
  else
    let x := pulseClocks w.ins.set m k c
    if stretchScan w m && (pairAt w (32 * k + c)).st == 3 then (max x 469, true) else (x, false)

/-- The pulses of row k in the scan in progress, by column. -/
def slotPulses (w : World) (k : Nat) : List (Nat × Nat × Bool) :=
  (List.range 32).map fun c => (c, slotPulse w w.ins.scan k c)

/-- Pulses of row k: measurements, exclusions and energy (R271, R274 to R279). `meas` gives for each sink the voltage in
mV and the current in µA 1.2 µs after the start of its pulse. -/
def rowPulses (k : Nat) (ps : List (Nat × Nat × Bool)) (meas : List (Nat × Nat)) (w : World) : World :=
  let seen := ps.filter fun p => 375 ≤ p.2.1
  let mid := if 8 ≤ seen.length then some (median (seen.map fun p => (meas.getD p.1 (0, 0)).1)) else none
  ps.foldl (fun w p =>
    let c := p.1
    let (x, stretched) := p.2
    let w := if 375 ≤ x then takeMeas w k c (meas.getD c (0, 0)).1 (meas.getD c (0, 0)).2 mid else w
    let w := if stretched then exclSpan w k c 5 else w
    let st := (pairAt w (32 * k + c)).st
    let w := if st = 1 ∨ st = 2 ∨ w.voi.sinkOk.getD c true = false then exclSpan w k c 6 else w
    let mv := (getT w 0x3742 (32 * k + c) 0).toNat
    updVoi w fun v => { v with energy := v.energy + scanEff w * chCode w.ins.set c * mv * x }) w

/-- The lands in slot `k` of the scan in progress (R271): k = 8 is the dark slot. -/
def slotOut (w : World) (k : Nat) : VoiOut :=
  if k < 8 then
    { row := some k, blank := blankClocks (insN w Obj.VOI_BLANK_NS), drop := some (insN w (Obj.VOI_VPC_MV k))
      pulses := (slotPulses w k).map (·.2.1) }
  else { VoiOut.off with drop := some (insN w (Obj.VOI_VPC_MV 0)) }

/-- A slot runs: its lands, and the pulses and measurements of its row. -/
def driveSlot (k : Nat) (meas : List (Nat × Nat)) (w : World) : World :=
  let w := updVoi w fun v => { v with out := slotOut w k }
  if k < 8 then rowPulses k (slotPulses w k) meas w else w

/-- Sinks that fail (R280): their pairs are not in use any more. -/
def sinksFail (f : Nat) (w : World) : World :=
  (List.range 32).foldl (fun w c =>
    if bitOf f c && w.voi.sinkOk.getD c true then
      raise (updVoi w fun v => { v with sinkOk := v.sinkOk.set c false }) Ev.INS_UNIT_FAULT (32 + c) 0
    else w) w

/-! ### Power -/

/-- The mean sink power of the last 64 scans in mW (R275). An energy counts current codes × mV × clocks; a current of
200 mA has the codes 255 and 1,023. -/
def meanPower (w : World) : Frac :=
  let ps := w.voi.powers.map fun e => frac (200 * e.1 : Nat) (255 * 1023 * 1000 * max 1 e.2.1)
  fracDiv (fracSum ps) (fracI (max 1 ps.length : Nat))

/-- The mean as it would be with the VOI_I_GLB_EFF in force in every one of these scans. The limiter judges this mean,
so a cut is not repeated for the scans before it, and a lower limit cuts at once (R275; DEDUCED, log 85). -/
def meanAtEff (w : World) : Frac :=
  let eff := getN w Obj.VOI_I_GLB_EFF
  let ps := w.voi.powers.map fun e => frac (200 * e.1 * eff : Nat) (255 * 1023 * 1000 * max 1 e.2.1 * max 1 e.2.2)
  fracDiv (fracSum ps) (fracI (max 1 ps.length : Nat))

/-- The limit in force (R275, R419). -/
def voiLimit (w : World) : Nat :=
  let l := min 4000 (getN w Obj.VOI_PWR_LIMIT_MW)
  if 3 ≤ getN w Obj.THM_SHED_LEVEL then min l (getN w Obj.THM_VOI_SHED_MW) else l

/-- The limiter at the end of a scan of `clocks` clocks. -/
def powerScan (clocks : Nat) (w : World) : World :=
  let w := updVoi w fun v => { v with powers := lastN 64 (v.powers ++ [(v.energy, clocks, scanEff w)]), energy := 0
                                      sinceRise := v.sinceRise + 1 }
  let mean := meanPower w
  let lim := voiLimit w
  let w := setO (setO w Obj.VOI_PWR_MW (min 65535 (fracRound mean))) Obj.VOI_PWR_LIM_EFF lim
  let below := fracLt (fracScale mean 10) (fracI (9 * lim : Nat))
  let w := updVoi w fun v => { v with belowClk := if below then (match v.belowClk with | some c => some c | none => some w.clk) else none }
  let judged := meanAtEff w
  if fracLt (fracI lim) judged then
    let eff := (fracFloor (fracDiv (fracI (getN w Obj.VOI_I_GLB_EFF * lim : Nat)) judged)).toNat
    raise (setO w Obj.VOI_I_GLB_EFF eff) Ev.VOI_POWER_LIMIT 0 (min 65535 (fracRound judged).toNat * 65536 + eff)
  else w

/-- VOI_PWR_RECOVER_STEP (R275): below 90 % of the limit for 1 s, one step in 64 scans. -/
def pwrRecover (w : World) : World :=
  let held := match w.voi.belowClk with | some c => decide (c + secClk 1 ≤ w.clk) | none => false
  if held = true ∧ 64 ≤ w.voi.sinceRise ∧ getO w Obj.VOI_I_GLB_EFF < insV w Obj.VOI_I_GLB then
    updVoi (setO w Obj.VOI_I_GLB_EFF (getO w Obj.VOI_I_GLB_EFF + 1)) fun v => { v with sinceRise := 0 }
  else w

def execVoiPwrRecoverStep (s : State) : Host.Outcome State Fault Refusal :=
  onWorld (fun c w => whenDo (scanning c.mode w) pwrRecover w) s

/-! ### Headroom -/

/-- The end of a scan for the headroom loop: the saturation run (R274). -/
def hrScan (w : World) : World :=
  let top := getO w Obj.VOI_HR_DUTY == getO w Obj.VOI_HR_MAX
  let run := if top && w.voi.low then w.voi.lowRun + 1 else 0
  let w := updVoi w fun v => { v with hrScans := v.hrScans + 1, lowRun := run }
  if 64 ≤ run ∧ w.voi.sat = false then
    raise (updVoi w fun v => { v with sat := true }) Ev.VOI_HEADROOM 0 (131072 + (w.voi.vMin.getD 0) % 65536)
  else w

/-- Set the duty: between 0 and VOI_HR_MAX, or VOI_HR_INIT with HR_EN at 0. VHR_CTL is high for the duty in a period of
1,024 clocks, or for the rest of it where HR_POL has a higher duty lower V_A (R274; DEDUCED, log 85). -/
def setDuty (w : World) (v : Int) : World :=
  let d := if bitOf (insN w Obj.VOI_CFG) 2 then clampInt 0 (getO w Obj.VOI_HR_MAX) v else getO w Obj.VOI_HR_INIT
  let high := if bitOf (insN w Obj.VOI_CFG) 3 then 1024 - d.toNat else d.toNat
  setO (updVoi w fun x => { x with vhr := high }) Obj.VOI_HR_DUTY d

/-- The rise of 16 that a low sample leaves for the next scan. -/
def dutyBump (w : World) : World :=
  if w.voi.bump then setDuty (updVoi w fun v => { v with bump := false }) (getO w Obj.VOI_HR_DUTY + 16)
  else setDuty w (getO w Obj.VOI_HR_DUTY)

/-- HR_PERIOD_END (R274). -/
def hrPeriodEnd (w : World) : World :=
  if w.voi.hrScans < getN w Obj.VOI_HR_PERIOD then w
  else
    let v := w.voi
    let w := updVoi w fun v => { v with hrScans := 0, vMin := none, lowPeriod := false }
    match v.vMin with
    | none => w
    | some m =>
      let w := setO w Obj.VOI_VMIN_MV (min 40000 m : Nat)
      let t := getO w Obj.VOI_HR_TARGET_MV
      let d := getO w Obj.VOI_HR_DUTY
      let w := setDuty w (if (m : Int) < t - 100 then d + 4 else if t + 100 < (m : Int) then d - 1 else d)
      if v.episode ∧ 500 ≤ m ∧ v.lowPeriod = false then
        raise (updVoi w fun v => { v with episode := false, sat := false }) Ev.VOI_HEADROOM 0 (m % 65536)
      else w

def execHrPeriodEnd (s : State) : Host.Outcome State Fault Refusal :=
  onWorld (fun c w => whenDo (scanning c.mode w) hrPeriodEnd w) s

/-! ### Verification -/

/-- VOI_UNVERIFY of pair (k, c) (R277), whatever its status was. Its runs stay, so that two measurements in a row count
across the change (R276); leaving OPEN or SHORT in this way is no return of the pair and raises nothing (DEDUCED, log
85). -/
def voiUnverify (k c : Nat) (w : World) : World :=
  let i := 32 * k + c
  let p := pairAt w i
  if k < 8 ∧ c < 32 ∧ p.st ≠ 3 ∧ pairInUse w k c = true ∧ p.measClk + msClk (getN w Obj.VOI_VERIFY_MS) ≤ w.clk then
    updPair w i fun p => { p with st := 3, unverClk := w.clk, toldClk := w.clk }
  else w

def execVoiUnverify (k c : Nat) (s : State) : Host.Outcome State Fault Refusal := onWorld (fun _ w => voiUnverify k c w) s

/-- VOI_UNVERIFIED of pair (k, c) (R278). -/
def voiUnverified (k c : Nat) (w : World) : World :=
  let i := 32 * k + c
  let p := pairAt w i
  if k < 8 ∧ c < 32 ∧ p.st = 3 ∧ pairInUse w k c = true ∧ bitOf (insN w Obj.VOI_CFG) 1 = false ∧
      p.toldClk + msClk (getN w Obj.VOI_UNVER_MS) ≤ w.clk then
    raise (updPair w i fun p => { p with toldClk := w.clk }) Ev.VOI_UNVERIFIED i (clkMs (w.clk - p.unverClk))
  else w

def execVoiUnverified (k c : Nat) (s : State) : Host.Outcome State Fault Refusal := onWorld (fun _ w => voiUnverified k c w) s

/-! ### What the objects show -/

/-- Byte of VOI_DIAG of pair (k, c). -/
def voiDiag (w : World) (k c : Nat) : Nat :=
  (pairAt w (32 * k + c)).st + 4 * b2n (pairInUse w k c) + 8 * b2n (width16 w.ins.set k c < 375 * 16)

/-- Pairs with a status, and those of them in use. -/
def pairsOf (w : World) (st : Nat) : List (Nat × Nat) :=
  ((List.range 8).flatMap fun k => (List.range 32).map fun c => (k, c)).filter fun p => (pairAt w (32 * p.1 + p.2)).st == st
def pairsIn (w : World) (st : Nat) : List (Nat × Nat) := (pairsOf w st).filter fun p => pairInUse w p.1 p.2

/-- VOI_STATUS. -/
def voiStatus (m : DevState) (w : World) : Nat :=
  let rows := fun (l : List (Nat × Nat)) => ofBits ((List.range 8).map fun k => l.any fun p => p.1 == k)
  rows (pairsOf w 1 ++ pairsOf w 2) * 16777216 + rows (pairsIn w 3) * 65536 +
    16 * b2n (getO w Obj.VOI_I_GLB_EFF < insV w Obj.VOI_I_GLB) + 8 * b2n w.voi.sat + 4 * b2n w.voi.episode +
    2 * b2n (w.voi.unitOk && w.voi.sinkOk.all id) + b2n (scanning m w)

end Sys2Proof.Machine
end

