-- ==== Sys2Proof/Machine/Inspect.lean ====
section
/-! DEFINITION. Inspection (R267 to R295): scans and step points, camera lines, correction, windows, dark and white
tables, and the scans of uploads. -/

namespace Sys2Proof.Machine

/-! ### Pixels and tables -/

/-- Web pixels across. -/
def webPixels : Nat := 49152

/-- The camera pixel that measures web pixel `x`: the lowest-numbered camera in use that reaches it (R281). -/
def pixelOwner (w : World) (cams pixels x : Nat) : Option (Nat × Nat) :=
  (List.range 8).findSome? fun c =>
    if bitOf cams c then
      let o := insV w (Obj.INS_CAM_OFS c)
      let j := if bitOf (insN w Obj.INS_CAM_REV) c then o - x else (x : Int) - o
      if 0 ≤ j ∧ j < (pixels : Int) then some (c, j.toNat) else none
    else none

/-- D and Wd in force. -/
def darkAt (w : World) (x : Nat) : Int := getT w 0x3701 x 0
def whiteAt (w : World) (k x : Nat) : Int := getT w 0x3700 (webPixels * k + x) 0

/-- Why a pixel is bad: 0 it is not, 1 dark, 2 white floor (R283, R284). -/
def pixelBad (w : World) (x : Nat) : Nat :=
  if getO w Obj.INS_DARK_MAX < darkAt w x then 1
  else if (List.range 8).any fun k => whiteAt w k x < getO w Obj.INS_WHITE_FLOOR then 2
  else 0

/-- Renew INS_PIX_BAD and report each pixel that has become bad. -/
def notePixels (w : World) : World :=
  let bad := (List.range webPixels).filterMap fun x => let b := pixelBad w x; if b = 0 then none else some (x, b)
  let w := bad.foldl (fun w e => if w.ins.bad.contains e.1 then w else raise w Ev.INS_PIXEL_BAD e.1 e.2) w
  setO (updIns w fun i => { i with bad := bad.map (·.1) }) Obj.INS_PIX_BAD (min 65535 bad.length : Nat)

/-- Write the listed entries of a staged table. -/
def putTable (w : World) (ix : Nat) (t : KMap Int) : World := t.foldl (fun w e => setT w ix e.1 e.2 0) w

/-! ### Step points -/

/-- The cameras that can be used now. -/
def camsNow (w : World) : Nat := ofBits ((List.range 8).map (cameraUsed w))
/-- Whether the governor sheds inspection rate (R267, R419). -/
def wantHalf (w : World) : Bool := 2 ≤ getN w Obj.THM_SHED_LEVEL

/-- Whether anything takes effect at the next step point. -/
def stepPending (w : World) : Bool :=
  liveSet w != w.ins.set || w.ins.stagedDark.isSome || w.ins.stagedWhite.isSome || camsNow w != w.ins.cams ||
    wantHalf w != w.ins.half

/-- The settings that R273 names. -/
def scaleSet (set : KMap Int) : KMap Int × Nat :=
  (mapFilter set fun k => inTable 0x3741 k || k / 256 == 0x2741 || k == Obj.INS_LINE_HZ, field (setVal set Obj.VOI_CFG).toNat 8 8)

/-- White levels follow a change of a pair's width or current (R273), in column c's span; a pair that gave no light
before leaves them. A change of VOI_BLANK_NS alone is none that R273 names. -/
def scaleWhite (old new : KMap Int) (w : World) : World :=
  if scaleSet old = scaleSet new then w else
  ((List.range 8).flatMap fun k => (List.range 32).map fun c => (k, c)).foldl (fun w p =>
    let a := width16 old p.1 p.2 * chCode old p.2
    let b := width16 new p.1 p.2 * chCode new p.2
    if a = b ∨ a = 0 then w
    else
      (List.range 1536).foldl (fun w j =>
        let e := webPixels * p.1 + 1536 * p.2 + j
        let v := getT w 0x3700 e 0
        if v = 0 then w else setT w 0x3700 e (clampInt 0 65535 (roundDiv (v * b) a)) 0) w) w

/-- The line rate takes effect: above the camera profile's limit the object itself is clamped (R267). -/
def rateClamp (w : World) : World :=
  let hz := getO w Obj.INS_LINE_HZ
  let lim := getO w Obj.YQL_CPF_LINE_MAX_HZ
  let w := if lim < hz then
      storeLater (adjust (setO w Obj.INS_LINE_HZ lim) Obj.INS_LINE_HZ 7 0 hz lim) Obj.INS_LINE_HZ lim
    else w
  setO w Obj.INS_LINE_HZ_ACT (lineHzAct (lineClocks (getN w Obj.INS_LINE_HZ)) : Nat)

/-- The global current follows VOI_I_GLB, or stays where the limiter holds it. -/
def followGlb (old new : KMap Int) (w : World) : World :=
  let a := setVal old Obj.VOI_I_GLB
  let b := setVal new Obj.VOI_I_GLB
  if a = b then w
  else setO w Obj.VOI_I_GLB_EFF (if getO w Obj.VOI_I_GLB_EFF = a then b else min b (getO w Obj.VOI_I_GLB_EFF))

/-- Take the settings as written into force. -/
def takeSettings (w : World) : World :=
  let old := w.ins.set
  if liveSet w = old then w
  else
    let w := rateClamp w
    let new := liveSet w
    let w := followGlb old new (scaleWhite old new w)
    let w := if mapFilter old isVoiKey = mapFilter new isVoiKey then w else bump w Obj.VOI_VER
    updIns w fun i => { i with set := new }

/-- A dark table takes force. -/
def applyDark (t : KMap Int) (w : World) : World :=
  bump { putTable w 0x3701 t with sys := { w.sys with darkDone := true } } Obj.INS_DARK_VER

/-- The staged white levels take force (R284). -/
def takeWhite (w : World) : World :=
  match w.ins.stagedWhite with
  | some t =>
    let n := w.ins.refresh
    let lim := w.ins.limited
    let w := putTable (updIns w fun i => { i with stagedWhite := none, refresh := 0, limited := 0 }) 0x3700 t
    let w := bump w Obj.INS_WHITE_VER
    let w := if n = 0 then w else raise w Ev.INS_WHITE 0 (1073741824 + n)
    if lim = 0 then w else raise w Ev.INS_WHITE_LIMITED 0 lim
  | none => w

/-- Everything that waits takes effect, at the start of the scan after a step point (R290). White levels that were staged
were formed under the old widths and currents, so they take force first and R273 scales them too (DEDUCED, log 85). -/
def takeOver (w : World) : World :=
  let w := takeSettings (takeWhite w)
  let w := match w.ins.stagedDark with
    | some t => applyDark t (updIns w fun i => { i with stagedDark := none })
    | none => w
  let w := notePixels w
  let cams := camsNow w
  let w := (List.range 8).foldl (fun w c =>
    if bitOf cams c = bitOf w.ins.cams c then w else raise w Ev.INS_CAM_COVER c cams) w
  let half := wantHalf w
  let w := if half = w.ins.half then w else raise w Ev.INS_RATE 0 (b2n half)
  updIns w fun i => { i with cams := cams, half := half, apply := false }

/-! ### Camera lines -/

/-- The samples of `bits` bits in data words (R243, R263). -/
def unpackSamples (bits n : Nat) (words : List Nat) : List Nat :=
  let l := words.flatMap (numBits 64)
  (List.range n).map fun i => bitsNum ((l.drop (i * bits)).take bits)

/-- Put what has become of a line (its samples, or lost) into its scan. -/
def settleSlot (w : World) (c scan slot : Nat) (samples : Option (List Nat)) : World :=
  let key := 16 * c + slot
  updIns w fun i => { i with lines := i.lines.map fun l =>
    if l.scan = scan then
      match samples with
      | some s => { l with got := mapPut l.got key s }
      | none => { l with lost := key :: l.lost }
    else l }

/-- The last `n` dark lines of a camera, newest first. -/
def darksOf (w : World) (c n : Nat) : List (List Nat) := ((w.ins.darks.filter fun e => e.1 == c).map (·.2)).take n

/-- A dark line of camera `c` in scan `m`: the camera keeps its last 1,024, and the first one of a dark slot counts the
slot (R283; log 85). -/
def takeDark (w : World) (c m : Nat) (samples : List Nat) : World :=
  let bits := getN w Obj.YQL_CPF_BITS
  let new := samples.map fun s => s * 2 ^ (16 - bits)
  let kept := (darksOf w c 1023).map fun l => (c, l)
  updIns w fun i => { i with darks := (c, new) :: kept ++ i.darks.filter fun e => e.1 != c
                             darkLines := if i.darkScan = some m then i.darkLines else i.darkLines + 1, darkScan := some m }

/-- The dark table of the last `n` samples of each pixel (R283); a pixel without a sample has no entry. -/
def darkTable (w : World) (cams n : Nat) : KMap Int :=
  let lines := (List.range 8).map fun c => (darksOf w c n).map (·.toArray)
  (List.range webPixels).filterMap fun x =>
    match pixelOwner w cams (getN w Obj.YQL_CPF_PIXELS) x with
    | some (c, j) =>
      let s := (lines.getD c []).map fun a => a.getD j 0
      if s = [] then none else some (x, clampInt 0 65535 (roundDiv (s.foldl (· + ·) 0 : Nat) s.length))
    | none => none

/-- Report a new dark table of version `ver`. -/
def tellDark (t : KMap Int) (ver : Nat) (w : World) : World :=
  raise w Ev.INS_DARK 0 (ver % 65536 * 65536 + min 65535 (t.filter fun e => getO w Obj.INS_DARK_MAX < e.2).length)

/-- Lines of an upload block that is being read (R291): the line joins every block of its camera whose scans hold it. -/
def feedUpload (w : World) (c scan slot : Nat) (samples : List Nat) : World :=
  updIns w fun i => { i with upl := i.upl.map fun u =>
    match u.first with
    | some f =>
      let d := (scan + 4294967296 - f) % 4294967296
      if u.cam = c ∧ slot < 8 ∧ d < u.scans then { u with lines := mapPut u.lines (8 * d + slot) samples } else u
    | none => u }

/-! ### Windows -/

/-- The start and regular end of the window that holds coordinate `x`, with its frame (R286): from the frames begun. -/
def windowRange (w : World) (x : Int) : Option (Int × Int × FrameRec) :=
  match (w.job.frames.filter fun f => f.wB ≤ x).getLast?, windowAt w x with
  | some f, some s => some (s, s + f.winLen, f)
  | _, _ => none

/-- Open the window that holds `x`. -/
def openWindow (w : World) (x : Int) : World :=
  match windowRange w x with
  | none => w
  | some (s, e, f) =>
    let acc : WinAcc := { idx := w.ins.winIdx + 1, start := s, stop := e, frame := if s < f.wEnd then f.no else 0
                          wEnd := f.wEnd, spec := 0, eff := none, cur := false, half := w.ins.half, px := [] }
    updIns w fun i => { i with win := some acc, winIdx := acc.idx }

/-- The columns of any bar and row that fired a drop in the tallied window that starts at `s`; none where it was not
tallied. -/
def dropColumns (w : World) (s : Int) : Option (List Nat) :=
  match (w.mem.tallyWins.find? fun e => e.1 == s).bind (·.2) with
  | some slot => some ((w.mem.tally.filter fun e => e.1 / 1572864 == slot).map fun e => e.1 % 1572864 % 98304)
  | none => none

/-- The ink absorbances of a pixel from its band means (R287). -/
def absorbances (w : World) (means : List Int) : List Int :=
  (List.range 8).map fun i =>
    let m := (List.range 8).map fun k => insV w (Obj.INS_MTX (8 * i + k)) * means.getD k 0
    clampInt (-32768) 32767 (roundDiv (m.foldl (· + ·) 0) 4096 + insV w (Obj.INS_OFS i))

/-- Band means of a pixel. -/
def bandMeans (e : Nat × List Int) : List Int := e.2.map fun s => roundDiv s e.1

/-- Stage the white candidates of a closed window (R284): `before`, `own` and `after` are the columns with drops of the
windows j − 1, j and j + 1, where these count. -/
def stageWhite (w : World) (win : WinAcc) (before own after : Option (List Nat)) : World :=
  match before, own, after with
  | some a, some b, some c =>
    let m := getN w Obj.INS_WHITE_MARGIN
    let drops := (a ++ b ++ c).foldl (fun (acc : Array Bool) col => acc.set! col true) (Array.replicate 98304 false)
    let clear := fun x => (List.range (4 * m + 2)).all fun i =>
      let col := (2 * x : Int) - 2 * m + i
      col < 0 || decide (98304 ≤ col) || !drops.getD col.toNat false
    let cands := win.px.filter fun e => getN w Obj.INS_WHITE_MIN ≤ e.2.1 && clear e.1
    let step := getN w Obj.INS_WHITE_STEP
    cands.foldl (fun w e =>
      let ds := bandMeans e.2
      let w := updIns w fun i => { i with refresh := i.refresh + 1 }
      (List.range 8).foldl (fun w k =>
        let old := whiteAt w k e.1
        let new : Int := (old.toNat * pow10Neg (ds.getD k 0) + one64 / 2) / one64
        let d := old * step / 1000
        let v := clampInt 0 65535 (clampInt (old - d) (old + d) new)
        updIns w fun i => { i with stagedWhite := some (mapPut (i.stagedWhite.getD []) (webPixels * k + e.1) v)
                                   limited := i.limited + b2n (v != new) }) w) w
  | _, _, _ => w

/-- Whether window j + 1 is complete when window j closes (R284). -/
def afterKnown (w : World) : Bool :=
  2 * getO w Obj.INS_WIN_LINES * 65536 ≤ getO w Obj.INS_POS - getO w (Obj.LCK_ROW_POS 15)

/-- Close the open window at `stop` (R287): its record is formed, and its white candidates are staged. -/
def closeWindow (w : World) (stop : Int) : World :=
  match w.ins.win with
  | none => w
  | some win =>
    let own := dropColumns w win.start
    let after := if afterKnown w then dropColumns w win.stop else some []
    let w := if getF w Obj.INS_CFG 2 1 = 1 then stageWhite w win w.ins.prevDrops own after else w
    let short := stop < win.stop
    let hit := w.job.defects.any fun d => d.start < stop && win.start < d.stop
    let flags := 2 * b2n short + 4 * b2n (decide (win.wEnd < stop)) + 8 * b2n hit + 16 * b2n win.cur + 32 * b2n (win.half || w.ins.half)
    let r : WinRec :=
      { idx := win.idx, start := win.start, stop := stop, frame := win.frame, et := nowEt w, spec := min 65535 win.spec
        flags := flags, darkVer := getN w Obj.INS_DARK_VER, whiteVer := getN w Obj.INS_WHITE_VER
        voiVer := getN w Obj.VOI_VER, cams := w.ins.cams
        px := win.px.map fun e => (e.1, (e.2.1, absorbances w (bandMeans e.2))), closeClk := w.clk }
    let w := updIns w fun i => { i with win := none, prevDrops := own, closing := if i.unitOk then i.closing ++ [r] else i.closing }
    setO w Obj.INS_WIN_INDEX win.idx

/-- The open window closes where coordinate `x` has reached its end, or a boundary that cuts it (R286). -/
def closePast (w : World) (x : Int) : World :=
  match w.ins.win with
  | some win =>
    let cut := (w.job.frames.find? fun (f : FrameRec) => win.start < f.wB && f.wB < win.stop && f.wB ≤ x).map (FrameRec.wB)
    match cut with
    | some b => closeWindow w b
    | none => if win.stop ≤ x then closeWindow w win.stop else w
  | none => w

/-- The windows as a spectral line at coordinate `x` finds them (R286). -/
def moveWindow (w : World) (x : Int) : World :=
  let w := closePast w x
  match w.ins.win with
  | some _ => w
  | none => openWindow w x

/-! ### A spectral line -/

/-- The exclusions of a scan that reach a pixel: the lowest reason among them (R282, R285). -/
def spanReason (spill x : Nat) (l : List (Nat × Nat × Nat)) : Option Nat :=
  let hits := (l.filter fun e => 1536 * e.2.1 ≤ x + spill && x < 1536 * (e.2.1 + 1) + spill).map (·.2.2)
  hits.foldl (fun acc r => match acc with | none => some r | some a => some (min a r)) none

/-- What a spectral line gives at a pixel: the reason that excludes it, or its eight levels above dark and densities. -/
structure PixelOut where
  reason : Nat
  levels : List Int
  dens : List Int
  deriving DecidableEq, Repr

/-- Correct one pixel of a scan (R283 to R285). `bands` are the samples of its camera by slot. -/
def correctPixel (w : World) (l : SpecLine) (bits spill x j : Nat) (bands : List (Option (Array Nat))) : PixelOut :=
  let ss := bands.map fun b => b.map fun a => a.getD j 0
  let levels := ss.map fun s => (s.getD 0 : Int) * 2 ^ (16 - bits) - darkAt w x
  let reason :=
    if l.whole = 1 then 1
    else if ss.any (·.isNone) then 2
    else if getF w Obj.INS_CFG 1 1 = 1 ∧ ss.any (fun s => s == some (2 ^ bits - 1)) = true then 3
    else if pixelBad w x ≠ 0 then 4
    else match spanReason spill x l.excl with
      | some r => r
      | none => l.whole
  let dens := if reason ≠ 0 then [] else
    (List.range 8).map fun k =>
      let n := (levels.getD k 0).toNat * max 1 l.glb
      let d := (whiteAt w k x).toNat * (if l.glb = 0 then 1 else l.eff)
      if n * 4096 ≤ d then density 1 4096 else if 8 * d ≤ n then density 8 1 else density n d
  { reason := reason, levels := levels, dens := dens }

/-- Count the exclusions of a line by reason; INS_EXCLUDED at most once per second, with the most frequent reason of
the last second and its count. -/
def countExcl (w : World) (reasons : List Nat) : World :=
  let per := (List.range 9).filterMap fun r =>
    let n := (reasons.filter (· == r)).length
    if r = 0 ∨ n = 0 then none else some (w.clk, r, n)
  if per = [] then w
  else
    let w := addO w Obj.INS_EXCL_LINES 64 (reasons.filter (· != 0)).length
    let l := (w.ins.excl ++ per).filter fun e => w.clk < e.1 + secClk 1
    let w := updIns w fun i => { i with excl := l }
    if stampOk w w.ins.exclStamp (secClk 1) then
      let sums : List Nat := (List.range 9).map fun r => ((l.filter fun e => e.2.1 == r).map (·.2.2)).foldl (· + ·) 0
      let best := (List.range 9).foldl (fun (b r : Nat) => if sums.getD b 0 < sums.getD r 0 then r else b) 0
      raise (updIns w fun i => { i with exclStamp := some w.clk }) Ev.INS_EXCLUDED 0 (best * 268435456 + sums.getD best 0 % 268435456)
    else w

/-- Add the densities of a line to the open window (R286); a count stops at 65,535. -/
def addWindow (w : World) (l : SpecLine) (px : KMap (Nat × List Int)) : World :=
  match w.ins.win with
  | none => w
  | some win =>
    let join := fun (a b : Nat × List Int) => if 65535 ≤ b.1 then b else (a.1 + b.1, (a.2.zip b.2).map fun e => e.1 + e.2)
    -- The scan at a step point was lit under the previous settings (R290).
    let seen := if l.whole = 8 then win.eff else some l.eff
    let win :=
      { win with spec := win.spec + 1, px := mapUnion join px win.px, half := win.half || w.ins.half, eff := seen
                 cur := win.cur || (win.eff.isSome && win.eff != seen) }
    updIns w fun i => { i with win := some win }

/-- Add the levels of a line to a capture (R284), at VOI_I_GLB; 1,024 lines complete it. -/
def addCapture (w : World) (l : SpecLine) (outs : List (Nat × PixelOut)) : World :=
  match w.ins.cap with
  | none => w
  | some cap =>
    if l.whole ≠ 0 ∨ 1024 ≤ cap.lines then w
    else
      let px : KMap (Nat × List Int) := (outs.filter fun e => e.2.reason != 2).map fun e =>
        (e.1, (1, e.2.levels.map fun v => if l.eff = 0 then v else roundDiv (v * l.glb) l.eff))
      let join := fun (a b : Nat × List Int) => (a.1 + b.1, (a.2.zip b.2).map fun e => e.1 + e.2)
      updIns w fun i => { i with cap := some { cap with lines := cap.lines + 1, px := mapUnion join cap.px px } }

/-- A spectral line whose camera lines are all settled. -/
def spectralLine (mode : DevState) (w : World) (l : SpecLine) : World :=
  let bits := getN w Obj.YQL_CPF_BITS
  let spill := getN w Obj.INS_SPILL
  let bands := (List.range 8).map fun c => (List.range 8).map fun k => (mapGet l.got (16 * c + k)).map (·.toArray)
  let outs := (List.range webPixels).filterMap fun x =>
    match pixelOwner w l.cams (getN w Obj.YQL_CPF_PIXELS) x with
    | some (c, j) => some (x, correctPixel w l bits spill x j (bands.getD c []))
    | none => none
  let w := bump64 w Obj.INS_SPEC_LINES
  let w := addCapture w l outs
  if inPrint mode then
    let w := moveWindow w (asr l.pos 16)
    if w.ins.win.isNone then w
    else
      let w := countExcl w (outs.map (·.2.reason))
      addWindow w l ((outs.filter fun e => e.2.reason == 0).map fun e => (e.1, (1, e.2.dens)))
  else w

/-- Whether every line of a scan is settled. -/
def specDone (l : SpecLine) : Bool :=
  l.latched && (List.range 8).all fun c => !bitOf l.cams c ||
    (List.range 8).all fun k => (mapGet l.got (16 * c + k)).isSome || l.lost.contains (16 * c + k)

/-- Take the settled scans, oldest first; the scan in progress stays until its last slot has begun. -/
def takeSettled (mode : DevState) : Nat → World → World
  | 0, w => w
  | n + 1, w =>
    match w.ins.lines with
    | [] => w
    | l :: rest =>
      if specDone l && !(l.scan == w.ins.scan && w.ins.slot < 8) then
        takeSettled mode n (spectralLine mode (updIns w fun i => { i with lines := rest }) l)
      else w

/-! ### The slot -/

/-- The clocks of a slot: T_L, doubled while the governor sheds inspection rate (R267). -/
def slotClocks (w : World) : Nat := lineClocks (insN w Obj.INS_LINE_HZ) * (if w.ins.half then 2 else 1)

/-- The TRIG of slot `k` of scan `m`, which begins one slot from now, to each camera of `cams` (R262, R268): ARG is that
instant in link time, to the nearest tick; a CLK_TS clock is 2.5 ticks. -/
def sendTrigs (cams m k : Nat) (w : World) : World :=
  let t := slotClocks w
  let at_ := (w.tim.halfTicks + 5 * t + 1) / 2 % 281474976710656
  (List.range 8).foldl (fun w c =>
    if bitOf cams c then
      let n := ((linkAt w (16 + c)).trigCount + 1) % 16777216
      let trig : Trig := { scan := m, slot := k, count := n, time := at_, due := w.clk + 3 * t }
      let w := updLink w (16 + c) fun l => { l with trigCount := n, trigs := l.trigs ++ [trig] }
      emitCmd w (16 + c) 1 14 (n % 256) (at_ % 4294967296) []
    else w) w

/-- A scan begins: the duty rises after a low sample. -/
def beginScan (w : World) : World :=
  let w := dutyBump w
  let every := getN w Obj.INS_DARK_EVERY
  let l : SpecLine :=
    { scan := w.ins.scan, pos := 0, et := 0, whole := 0, latched := false, cams := w.ins.cams
      dark := every != 0 && w.ins.scan % every == 0, got := [], lost := [], excl := []
      eff := getN w Obj.VOI_I_GLB_EFF, glb := insN w Obj.VOI_I_GLB }
  let w := updVoi w fun v => { v with low := false, energy := 0 }
  updIns w fun i => { i with lines := i.lines ++ [l], upl := i.upl.map fun u =>
    if u.first.isNone then { u with first := some i.scan, ringAt := i.ringLine, et := nowEt w } else u }

/-- d_ins as a raw position (R269). -/
def inspRaw (w : World) : Int := rowD64Now w 0 * 1024 + getO w Obj.INS_POS

/-- Slot 4: position, ET and validity of the spectral line, and whether the scan is a step point (R269, R290). -/
def latchScan (mode : DevState) (w : World) : World :=
  let pos := wrapSigned 64 (webPos w - inspRaw w)
  let bad := w.web.trk != .forward || !w.web.valid
  let bound := (w.job.frames.filter fun f => 0 ≤ posDiff pos (linePos f.wB)).getLast?.map (·.wB)
  let step := !inPrint mode || (bound.isSome && bound != w.ins.boundary)
  let change := step && stepPending w
  let frame := match frameAt w (asr pos 16) with | some f => f.no | none => 0
  updIns w fun i => { i with
    apply := i.apply || change
    boundary := if inPrint mode then bound else none
    lines := i.lines.modify (i.lines.length - 1) fun l =>
      { l with pos := pos, et := nowEt w, latched := true, whole := if bad then 1 else if change then 8 else 0 }
    upl := i.upl.map fun u => if u.first = some i.scan then { u with start := asr pos 16, frame := frame } else u }

/-- The end of a scan of `slots` slots: power, headroom and the next number. -/
def endScan (slots : Nat) (w : World) : World :=
  let w := hrScan (powerScan (slots * slotClocks w) w)
  updIns w fun i => { i with slot := 0, scan := (i.scan + 1) % 4294967296 }

/-- The scan stops (R295): the scan in progress is given up, and every row and sink is off. -/
def stopScan (w : World) : World :=
  let w := updVoi w fun v => { v with out := VoiOut.off, energy := 0 }
  updIns w fun i => { i with slot := 0, scan := if i.slot = 0 then i.scan else (i.scan + 1) % 4294967296, taken := false
                             lines := [], apply := false, boundary := none, win := none, prevDrops := none }

/-- Before changes take effect, the scans before the one at the step point are settled (a camera line of theirs that is
still under way is missing), and the window that the boundary ends is closed, all under the previous settings (R290;
DEDUCED, log 85). -/
def settleEarly (mode : DevState) (w : World) : World :=
  let early := w.ins.lines.dropLast
  let w := updIns w fun i => { i with lines := i.lines.drop early.length }
  let w := early.foldl (spectralLine mode) w
  match w.ins.boundary with
  | some b => if inPrint mode then closePast w b else w
  | none => w

/-- The dark slot of the scan in progress. -/
def scanDark (w : World) : Bool := match w.ins.lines.getLast? with | some l => l.dark | none => false

/-- A slot runs: the blank finds the offsets, the pulses their samples. -/
def runSlot (mode : DevState) (m : SlotMeas) (w : World) : World :=
  let k := w.ins.slot
  let w := if k = 0 then beginScan w else w
  let w := driveSlot k m.samples (sinksFail m.offs w)
  let w := if k = 4 then latchScan mode w else w
  let w := updIns w fun i => { i with ringLine := i.ringLine + 1, slot := k + 1 }
  let last := decide (k = 8) || (decide (k = 7) && !scanDark w)
  let w := if last then
      endScan (k + 1) (sendTrigs (if w.ins.apply then camsNow w else w.ins.cams) ((w.ins.scan + 1) % 4294967296) 0 w)
    else sendTrigs w.ins.cams w.ins.scan (k + 1) w
  takeSettled mode 4 w

/-- The scan begins to run: what waits takes effect, and the TRIG of its first slot goes out one slot before it (R268; log
85). -/
def leadIn (mode : DevState) (w : World) : World :=
  let w := dutyBump (takeOver w)
  if scanning mode w then sendTrigs w.ins.cams w.ins.scan 0 (updIns w fun i => { i with taken := true }) else w

/-- SCAN_SLOT: the next slot of the scan begins. -/
def scanSlot (mode : DevState) (m : SlotMeas) (w : World) : World :=
  if w.ins.taken = false then leadIn mode w
  else
    let w := if w.ins.slot = 0 ∧ w.ins.apply = true then takeOver (settleEarly mode w) else w
    if scanning mode w then runSlot mode m w else stopScan w

def execScanSlot (m : SlotMeas) (s : State) : Host.Outcome State Fault Refusal :=
  onWorld (fun c w => whenDo (scanning c.mode w) (scanSlot c.mode m) w) s

/-! ### Lines of the cameras -/

/-- Count a missing line; YQL_CAM_LINE_MISSING at most once per second (R263). -/
def missTrig (mode : DevState) (c : Nat) (t : Trig) (w : World) : World :=
  let w := bump w (Obj.YQL_CAM_MISSING c)
  let w := settleSlot w c t.scan t.slot none
  let w := if stampOk w (linkAt w (16 + c)).missStamp (secClk 1) then
      raise (updLink w (16 + c) fun l => { l with missStamp := some w.clk }) Ev.YQL_CAM_LINE_MISSING (16 + c) t.count
    else w
  takeSettled mode 4 w

/-- CAMERA_LINE_RX: the LINE field, the header and data words, and the CRC of LINE_END (R263). -/
def cameraLine (mode : DevState) (c line : Nat) (words : List Nat) (crc : Nat) (w : World) : World :=
  let i := 16 + c
  if (linkAt w i).st ≠ .up then w
  else
    let pixels := getN w Obj.YQL_CPF_PIXELS
    let bits := getN w Obj.YQL_CPF_BITS
    let h := words.headD 0
    let w := if crc = frameCrc words ∧ ((linkAt w i).trigs.any fun t => t.count == line) = true then
        ((linkAt w i).trigs.takeWhile fun t => t.count != line).foldl (fun w t => missTrig mode c t w)
          (updLink w i fun l => { l with trigs := l.trigs.dropWhile fun t => t.count != line })
      else w
    let open_ := (linkAt w i).trigs.head?
    let good := crc == frameCrc words && !(linkAt w i).badFrame && field h 48 16 == pixels && field h 40 8 == bits &&
      (match open_ with | some t => t.count == line | none => false)
    let w := updLink w i fun l => { l with badFrame := false }
    match good, open_ with
    | true, some t =>
      let s := unpackSamples bits pixels words.tail
      let w := bump64 (updLink w i fun l => { l with trigs := l.trigs.tail }) (Obj.YQL_CAM_LINES c)
      let w := feedUpload (noteWrite 4 393216 t.scan w) c t.scan t.slot s
      let w := if t.slot = 8 then takeDark w c t.scan s else settleSlot w c t.scan t.slot (some s)
      takeSettled mode 4 w
    | _, _ =>
      let w := bump w (Obj.YQL_CAM_CRC_ERR c)
      let w := updLink w i fun l => { l with crcAt := (l.crcAt.filter fun t => w.clk < t + secClk 1) ++ [w.clk] }
      if stampOk w (linkAt w i).crcStamp (secClk 1) then
        raise (updLink w i fun l => { l with crcStamp := some w.clk }) Ev.YQL_CAM_CRC i (linkAt w i).crcAt.length
      else w

def execCameraLineRx (c line : Nat) (words : List Nat) (crc : Nat) (s : State) : Host.Outcome State Fault Refusal :=
  onWorld (fun ctl w => whenDo (decide (c < 8)) (cameraLine ctl.mode c line words crc) w) s

/-- CAM_LINE_MISSING: the oldest open TRIG of a camera is two line periods past its exposure (R263). -/
def camLineMissing (mode : DevState) (c : Nat) (w : World) : World :=
  match (linkAt w (16 + c)).trigs with
  | t :: rest =>
    if t.due ≤ w.clk then missTrig mode c t (updLink w (16 + c) fun l => { l with trigs := rest }) else w
  | [] => w

def execCamLineMissing (c : Nat) (s : State) : Host.Outcome State Fault Refusal :=
  onWorld (fun ctl w => whenDo (decide (c < 8)) (camLineMissing ctl.mode c) w) s

/-! ### Dark and white -/

/-- INS_DARK: INS_DARK_N dark lines have arrived, and a new table is staged (R283). A first table that DISCOVER could not
take is that of the first 64 dark lines, applied at once (R294, R446). -/
def insDark (w : World) : World :=
  if !w.sys.darkDone then
    if w.ins.darkLines < 64 then w
    else
      let t := darkTable w w.ins.cams 64
      notePixels (tellDark t (getN w Obj.INS_DARK_VER + 1) (applyDark t (updIns w fun i => { i with darkLines := 0, darkScan := none })))
  else if w.ins.darkLines < getN w Obj.INS_DARK_N then w
  else
    let t := darkTable w w.ins.cams (getN w Obj.INS_DARK_N)
    tellDark t (getN w Obj.INS_DARK_VER + 1) (updIns w fun i => { i with stagedDark := some t, darkLines := 0 })

def execInsDark (s : State) : Host.Outcome State Fault Refusal := onWorld (fun _ w => insDark w) s

/-- An accepted write of INS_WHITE_CAPTURE (R284). -/
def whiteCapture (w : World) : World :=
  updIns w fun i => { i with cap := some { clk := w.clk, lines := 0, px := [] } }

/-- A capture is abandoned (R284): on its time, or when the device leaves IDLE and SERVICE. -/
def dropCapture (w : World) : World :=
  match w.ins.cap with
  | none => w
  | some _ => raise (updIns w fun i => { i with cap := none }) Ev.INS_WHITE 0 (3 * 1073741824)

/-- WHITE_CAPTURE_DONE: 1,024 lines are averaged; the table is set at the next step point. -/
def captureDone (w : World) : World :=
  match w.ins.cap with
  | none => w
  | some c =>
    if c.lines < 1024 then w
    else
      let entries := (List.range 8).flatMap fun k => (List.range webPixels).map fun x =>
        (webPixels * k + x, match mapGet c.px x with
          | some e => clampInt 0 65535 (roundDiv (e.2.getD k 0) e.1)
          | none => 0)
      let w := updIns w fun i => { i with cap := none, stagedWhite := some entries, refresh := 0, limited := 0 }
      raise w Ev.INS_WHITE 0 (2 * 1073741824 + c.px.length)

def execWhiteCaptureDone (s : State) : Host.Outcome State Fault Refusal := onWorld (fun _ w => captureDone w) s

def execWhiteCaptureTimeout (s : State) : Host.Outcome State Fault Refusal :=
  onWorld (fun _ w => match w.ins.cap with
    | some c => if c.clk + secClk 60 ≤ w.clk ∧ c.lines < 1024 then dropCapture w else w
    | none => w) s

/-- An accepted write of INS_WHITE_STORE (R284). -/
def whiteStore (w : World) : World := storeTableLater w 0x3700

/-- INS_STATUS. -/
def insStatus (m : DevState) (w : World) : Nat :=
  w.ins.cams * 256 + 128 * b2n w.ins.half + 64 * b2n w.ins.unitOk + 32 * b2n (w.dict.tbl.any fun e => inTable 0x3700 e.1) +
    16 * b2n w.ins.cap.isSome + 8 * b2n (match w.ins.last with | some r => bitOf r.flags 0 | none => false) +
    4 * b2n (inPrint m && w.ins.win.isSome) + 2 * b2n w.sys.darkDone + b2n (scanning m w)

end Sys2Proof.Machine
end

