-- ==== Sys2Proof/Machine/Loop.lean ====
section
/-! DEFINITION. The colour hold loop (chapter 11): taking windows, the estimator, trims and gain, detection, storing and
flushing its state. -/

namespace Sys2Proof.Machine

/-! ### The state of the loop -/

/-- CHL_STATE (R318). -/
def chlState (m : DevState) (w : World) : Nat :=
  let cfg := getN w Obj.CHL_CFG
  let st := insStatus m w
  if ¬ bitOf cfg 0 then 0
  else if ¬ inPrint m ∨ ¬ (bitOf st 5 ∧ bitOf st 1 ∧ bitOf st 6) ∨ (¬ bitOf cfg 1 ∧ ¬ bitOf cfg 2 ∧ ¬ bitOf cfg 3) then 1
  else if ¬ bitOf cfg 1 then 3 else 2

/-- Renew CHL_STATE; each change is raised. -/
def noteChl (m : DevState) (w : World) : World :=
  let v := chlState m w
  if getN w Obj.CHL_STATE = v then w else raise (setO w Obj.CHL_STATE v) Ev.CHL_STATE 0 v

/-! ### Taking a window -/

/-- 7.8 ms in clocks. -/
def loopClocks : Nat := 2437500

/-- Whether an engine serves: bars 0 to 3 and 4 to 7. -/
def engineServes (w : World) (e : Nat) : Bool := (w.sup.engines.getD e Engine.reset).serving

/-- Bars that a defect record excludes (R301). -/
def excludedBars (w : World) (r : WinRec) : List Nat :=
  if ¬ bitOf r.flags 3 then []
  else
    let rows := (w.job.defects.filter fun d => d.start < r.stop && r.start < d.stop).map (·.row)
    (List.range 8).filter fun b => rows.any fun q => q == 255 || q / 2 == b

/-- The loop takes a window record or skips it (R300). -/
def takeWindow (w : World) (r : WinRec) (slot : Option Nat) : World :=
  let st := getN w Obj.CHL_STATE
  let spaced := match w.loop.lastClose with | some c => decide (c + loopClocks ≤ r.closeClk) | none => true
  match slot with
  | some slot =>
    if (st = 2 ∨ st = 3) ∧ ¬ bitOf r.flags 0 ∧ spaced = true then
      let stripe := w.loop.taken % 64
      let w := if stripe = 0 then
          updLoop w fun l => { l with kStart := (List.range 8).map (kMean w), condN := List.replicate 8 (0, 0), told := [] }
        else w
      let excl := excludedBars w r
      let w := excl.foldl (fun w b => bump w (Obj.CHL_EXCLUDED b)) w
      let job : LoopJob :=
        { start := r.start, len := (r.stop - r.start).toNat, stripe := stripe
          px := r.px.filter fun e => e.1 / 768 == stripe
          tally := (w.mem.tally.filter fun e => e.1 / 1572864 == slot && e.1 % 98304 / 1536 == stripe).map fun e => (e.1 % 1572864, e.2)
          excl := excl, clk := w.clk, todo := [engineServes w 0, engineServes w 1] }
      let w := updLoop w fun l => { l with taken := l.taken + 1, lastClose := some r.closeClk, jobs := l.jobs ++ [job] }
      setO (bump w Obj.CHL_WIN_TAKEN) Obj.CHL_STRIPE stripe
    else bump w Obj.CHL_WIN_SKIPPED
  | none => bump w Obj.CHL_WIN_SKIPPED

/-! ### Linear algebra -/

/-- Place of S_ij in the ten words of R303. -/
def sIndex (i j : Nat) : Nat :=
  let (a, b) := if i ≤ j then (i, j) else (j, i)
  [0, 4, 7, 9].getD a 0 + (b - a)

def sVal (g : Group) (i j : Nat) : Frac := f32Val (g.s.getD (sIndex i j) 0)

/-- Elimination on rows with their right-hand side last: the product of the pivots and the solution; none where a pivot
is not positive. -/
def gauss : Nat → List (List Frac) → Option (Frac × List Frac)
  | 0, _ => some (fracI 1, [])
  | n + 1, rows =>
    match rows with
    | (p :: prow) :: rest =>
      if fracLe p (fracI 0) then none
      else
        let rest := rest.map fun r => match r with
          | q :: qs => (qs.zip prow).map fun e => fracSub e.1 (fracMul (fracDiv q p) e.2)
          | [] => []
        match gauss n rest with
        | some (det, xs) =>
          let rhs := (prow.getLast?).getD (fracI 0)
          let x := fracDiv (fracSub rhs (fracSum ((prow.zip xs).map fun e => fracMul e.1 e.2))) p
          some (fracMul p det, x :: xs)
        | none => none
    | _ => none

/-- A power of a fraction. -/
def fracPow (x : Frac) : Nat → Frac
  | 0 => fracI 1
  | n + 1 => fracMul x (fracPow x n)

/-- Whether r of R305 is at or above `c` / 65,536: det × 65,536^d ≥ (c × trace / d)^d. -/
def condAtLeast (det trace : Frac) (d c : Nat) : Bool :=
  fracLe (fracPow (fracDiv (fracScale trace c) (fracI d)) d) (fracScale det (65536 ^ d))

/-- r in 2^-16, rounded down, by bisection over 17 bits (CHL_SEL_R). -/
def condRatio (det trace : Frac) (d : Nat) : Nat → Nat → Nat
  | 0, acc => acc
  | k + 1, acc => condRatio det trace d k (if condAtLeast det trace d (acc + 2 ^ k) then acc + 2 ^ k else acc)

/-- S restricted to the active positions, with B as right-hand side. -/
def activeRows (g : Group) (act : List Nat) : List (List Frac) :=
  act.map fun i => act.map (sVal g i) ++ [f32Val (g.b.getD i 0)]
def traceOf (g : Group) (act : List Nat) : Frac := fracSum (act.map fun i => sVal g i i)

/-! ### One group -/

/-- The response table's entry (R298). -/
def respAt (w : World) (b j : Nat) : Int := getT w (0x3800 + b) j (64 * (j : Int))

/-- y of an absorbance (R298); none above entry 255. -/
def inverseResp (w : World) (b : Nat) (a : Int) : Option Frac :=
  if a ≤ respAt w b 0 then some (fracI 0)
  else
    match (List.range 256).find? fun j => a ≤ respAt w b j with
    | none => none
    | some j =>
      let lo := respAt w b (j - 1)
      let hi := respAt w b j
      some (fracAdd (fracI (2 * ((j : Int) - 1))) (frac (2 * (a - lo)) (hi - lo).toNat))

/-- Clear row and column `i` of S and entry `i` of B (R307). -/
def clearPos (g : Group) (i : Nat) : Group :=
  { g with s := (List.range 10).map fun e => if (List.range 4).any fun j => sIndex i j == e then 0 else g.s.getD e 0
           b := g.b.set i 0 }

/-- The activity of a group's positions as the column states give it (R307). -/
def activate (b x : Nat) (act : List Nat) (w : World) : World :=
  (List.range 4).foldl (fun w n =>
    let g := groupAt w b x
    let on := act.contains n
    if bitOf g.active n = on then w
    else
      let k := groupPos b x n
      let w := setGroup w b x { clearPos g n with active := setBit g.active n on }
      if on ∧ (mapGet w.loop.requal k).isSome = true then
        updLoop (setTheta w k 16384) fun l => { l with requal := mapDel l.requal k }
      else w) w

/-- Raise an event of the window that starts at `start` (R321). -/
def raiseWin (w : World) (start : Int) (code inst data : Nat) : World := raiseAt w code inst data (nowEt w) (linePos start)

/-- Raise a report of the loop at most once per cycle and bar (R312). -/
def tellOnce (w : World) (start : Int) (b kind code data : Nat) : World :=
  if w.loop.told.contains (b, kind) then w
  else raiseWin (updLoop w fun l => { l with told := (b, kind) :: l.told }) start code b data

/-- The band of a drop factor (R311). -/
def bandOf (w : World) (th : Nat) : Nat :=
  if th < getN w Obj.CHL_OUT_K then 0
  else if th < getN w Obj.CHL_WEAK_K then 1
  else if getN w Obj.CHL_WEAK_K + getN w Obj.CHL_OK_HYST ≤ th then 2 else 3

/-- The state that a detection gives a nozzle (R311); none where it changes nothing. -/
def detectTo (cfg band st : Nat) (loopset : Bool) : Option Nat :=
  match band with
  | 0 => if bitOf cfg 4 then (if st ≤ 1 then some 2 else none) else if st = 0 then some 1 else none
  | 1 => if st = 0 then some 1 else none
  | 2 => if st = 1 ∧ loopset then some 0 else none
  | _ => none

/-- Detection for position `n` at a conditioned update of the window at `start` (R311, R312). `nozzles` print its
column. -/
def detectPos (start : Int) (b x n : Nat) (nozzles : List NozEnt) (w : World) : World :=
  let g := groupAt w b x
  let k := groupPos b x n
  let place := n / 2 * 131072 + 2 * x + n % 2
  let th := thetaAt w k
  let band := bandOf w th
  let run := if band = g.band.getD n 0 then min 15 (g.run.getD n 0 + 1) else 1
  let reached := run == getN w Obj.CHL_DETECT_N && (band != g.band.getD n 0 || run != g.run.getD n 0)
  let w := setGroup w b x { g with band := g.band.set n band, run := g.run.set n run }
  let w := if getN w Obj.CHL_K_HIGH < th then tellOnce w start b 2 Ev.CHL_NOZ_HIGH place else w
  if ¬ reached then w
  else
    match nozzles with
    | [e] =>
      let st' := if bitOf (getN w Obj.CHL_CFG) 3 then
          detectTo (getN w Obj.CHL_CFG) band e.state (mapGetD w.loop.loopset k 0 == 1)
        else none
      match st' with
      | some v =>
        let w := changeNoz w b e.elem v
        let w := updLoop w fun l => { l with loopset := mapPutD l.loopset k (b2n (v != 0)) 0 }
        raiseWin w start Ev.CHL_NOZ_DETECT b (v * 1073741824 + place)
      | none => w
    | _ :: _ :: _ => if band ≤ 1 then tellOnce w start b 0 Ev.CHL_STITCH_LOW (band * 1073741824 + place) else w
    | [] => w

/-- The new uniformity factor (R309): toward `target` by at most u × step × 0.0001, all in Q2.14. -/
def stepU (u : Nat) (target : Frac) (step : Nat) : Nat :=
  let lim := frac (u * step : Nat) 10000
  let d := fracClamp (fracNeg lim) lim (fracSub target (fracI u))
  (clampInt 0 65535 (fracRound (fracAdd (fracI u) d))).toNat

/-- Trims of a group's active positions (R309); none in HOLD or while a new version is on its way (R310). -/
def trimGroup (b x : Nat) (act : List Nat) (w : World) : World :=
  if !trimsOn w b then w
  else
    act.foldl (fun w n =>
      let row := n / 2
      let c := 2 * x + n % 2
      let target := frac (16384 * (w.loop.kStart.getD b 16384) : Nat) (max 1 (thetaAt w (posKey b row c)))
      let u := stepU (uAt w b row c) target (getN w Obj.CHL_TRIM_STEP)
      writeTrim (setU w b row c u) b row c (trimValue w b u)) w

/-- S and B after an update, as binary32 words (R304). -/
def accumulate (w : World) (g : Group) (act : List Nat) (phi : List Frac) (y : Frac) : Group :=
  let lam := frac (getN w Obj.CHL_LAMBDA : Nat) 65536
  let p := fun i => phi.getD i (fracI 0)
  let pairs := (List.range 4).flatMap fun i => ((List.range 4).filter fun j => i ≤ j).map fun j => (i, j)
  { g with
    s := pairs.map fun e =>
      if act.contains e.1 && act.contains e.2 then f32Of (fracAdd (fracMul lam (sVal g e.1 e.2)) (fracMul (p e.1) (p e.2)))
      else g.s.getD (sIndex e.1 e.2) 0
    b := (List.range 4).map fun i =>
      if act.contains i then f32Of (fracAdd (fracMul lam (f32Val (g.b.getD i 0))) (fracMul (p i) y)) else g.b.getD i 0 }

/-- Limit a drop factor to 0.25 to 2.0 in Q2.14. -/
def limitTheta (x : Frac) : Nat := (clampInt 4096 32768 (fracRound (fracScale x 16384))).toNat

/-- The estimator of R304 on group (b, x) after its sums: whether the update is conditioned. -/
def estimate (start : Int) (b x : Nat) (act : List Nat) (cols : Nat → List NozEnt) (w : World) : Bool × World :=
  let g := groupAt w b x
  let tr := traceOf g act
  let d := act.length
  if fracLt tr (frac (getO w Obj.CHL_INFO_MIN) 65536) then (false, w)
  else
    match (gauss d (activeRows g act)).bind fun r => if condAtLeast r.1 tr d (getN w Obj.CHL_COND_MIN) then some r.2 else none with
    | some xs =>
      let w := (act.zip xs).foldl (fun w e => setTheta w (groupPos b x e.1) (limitTheta e.2)) w
      (true, act.foldl (fun w n => detectPos start b x n (cols n) w) w)
    | none =>
      let sums := fracSum (act.flatMap fun i => act.map (sVal g i))
      let kc := fracDiv (fracSum (act.map fun i => f32Val (g.b.getD i 0))) sums
      let mean := frac ((act.map fun n => thetaAt w (groupPos b x n)).foldl (· + ·) 0 : Nat) (16384 * d)
      let w := act.foldl (fun w n =>
        let th := frac (thetaAt w (groupPos b x n) : Nat) 16384
        setTheta w (groupPos b x n) (limitTheta (fracDiv (fracMul th kc) mean))) w
      let k14 := fracRound (fracScale kc 16384)
      (false, if k14 < getO w Obj.CHL_GROUP_LOW_K then
          tellOnce w start b 1 Ev.CHL_GROUP_LOW ((clampInt 0 65535 k14).toNat * 65536 + x)
        else w)

/-- One group of a stripe (R302, R304, R309). -/
def updateGroup (job : LoopJob) (b : Nat) (ents : List (List NozEnt)) (w : World) (x : Nat) : World :=
  let info := fun n => colInfo (ents.getD (n / 2) []) (2 * x + n % 2)
  let act := (List.range 4).filter fun n => (info n).1.usable
  match mapGet job.px x with
  | none => w
  | some (count, ab) =>
    let phi := (List.range 4).map fun n =>
      if act.contains n then frac (mapGetD job.tally (196608 * b + 98304 * (n / 2) + 2 * x + n % 2) 0 : Nat) (2 * job.len)
      else fracI 0
    match inverseResp w b (ab.getD b 0) with
    | none => w
    | some y =>
      if count < getN w Obj.CHL_COUNT_MIN ∨ act = [] ∨
          fracLt (fracSum phi) (frac (getO w Obj.CHL_PHI_MIN) 65536) = true then w
      else
        let w := activate b x act w
        let w := setGroup w b x (accumulate w (groupAt w b x) act phi y)
        let (cond, w) := estimate job.start b x act (fun n => (info n).2) w
        let g := groupAt w b x
        let w := setGroup w b x { g with updates := (g.updates + 1) % 4294967296 }
        let w := updLoop w fun l => { l with condN := l.condN.modify b fun e => (e.1 + 1, e.2 + b2n cond) }
        trimGroup b x act w

/-- Positions of a bar held at a trim limit (CHL_TRIM_AT_LIM). -/
def atLimit (w : World) (b : Nat) : Nat :=
  (w.loop.u.filter fun e => e.1 / 262144 == b &&
    (let v := roundDiv (getO w (Obj.CHL_GAIN b) * e.2) 16777216
     decide (v < getO w Obj.CHL_TRIM_MIN) || decide (getO w Obj.CHL_TRIM_MAX < v))).length

/-- The stripe of a bar is updated. -/
def updateStripe (job : LoopJob) (w : World) (b : Nat) : World :=
  let xs := (List.range 768).map fun i => 768 * job.stripe + i
  let w := if w.loop.fresh.contains (64 * b + job.stripe) then
      xs.foldl (fun w x =>
        let g := groupAt w b x
        setGroup w b x { g with s := List.replicate 10 0, b := List.replicate 4 0 })
        (updLoop w fun l => { l with fresh := l.fresh.filter (· != 64 * b + job.stripe) })
    else w
  let w := xs.foldl (updateGroup job b (loopEnts w b)) w
  let n := atLimit w b
  let w := setO w (Obj.CHL_TRIM_AT_LIM b) n
  if n ≠ 0 ∧ stampOk w (w.loop.limStamp.getD b none) (secClk 1) = true then
    raiseWin (updLoop w fun l => { l with limStamp := l.limStamp.set b (some w.clk) }) job.start Ev.CHL_TRIM_LIMIT b n
  else w

/-! ### The end of an update and of a cycle -/

/-- The global gain at the end of a cycle, with the window at `start` (R308, R310). -/
def moveGain (start : Int) (w : World) (b : Nat) : World :=
  let (n, k) := w.loop.condN.getD b (0, 0)
  let w := setO w (Obj.CHL_COND_PCT b) (if n = 0 then 0 else 100 * k / n : Nat)
  let cfg := getN w Obj.CHL_CFG
  if !trimsOn w b || !bitOf cfg 2 then w
  else
    let g := getO w (Obj.CHL_GAIN b)
    let target := roundDiv (getO w (Obj.CHL_KREF b) * 16777216) (max 1 (kMean w b))
    let lo := getO w Obj.CHL_GAIN_MIN
    let hi := getO w Obj.CHL_GAIN_MAX
    let w := if target < lo ∨ hi < target then raiseWin w start Ev.CHL_GAIN_LIMIT b (wrapInt 32 target) else w
    if 10000 * (target - g).natAbs ≤ g.toNat * getN w Obj.CHL_GAIN_DEAD then w
    else
      let step := g * getO w Obj.CHL_GAIN_STEP / 10000
      setO w (Obj.CHL_GAIN b) (clampInt lo hi (clampInt (g - step) (g + step) target))

/-- The oldest update is finished where no engine has still to make it. -/
def closeJob (w : World) : World :=
  match w.loop.jobs with
  | [] => w
  | j :: rest =>
    if j.todo.any id then w
    else
      let w := updLoop w fun l => { l with jobs := rest }
      if j.stripe = 63 then (List.range 8).foldl (moveGain j.start) w else w

/-- Every update in front that no engine has still to make is finished; one taken while both engines are out is (R318). -/
def closeJobs (w : World) : World := (List.range w.loop.jobs.length).foldl (fun w _ => closeJob w) w

/-- WINDOW_RECORD_DONE: the oldest record is complete (R288; late, a miss of deadline 4: R408), its tally slot is
released (R100), and the loop may take it. -/
def windowRecordDone (w : World) : World :=
  match w.ins.closing with
  | [] => w
  | r :: rest =>
    let age := w.clk - r.closeClk
    let late := msClk 2 < age
    let r := { r with flags := r.flags + b2n late }
    let w := updIns w fun i => { i with closing := rest, last := some r }
    let w := if late then
        raise (bump (bump w Obj.INS_WIN_LATE_CNT) (Obj.SUP_DL_MISS 3)) Ev.INS_WIN_LATE r.idx (clkUs (age - msClk 2))
      else w
    let slot := (w.mem.tallyWins.find? fun e => e.1 == r.start).bind (·.2)
    let (bad, w) := match slot with | some s => readPlace 3 s 0 w | none => (false, w)
    let (slot, w) := if bad then (none, bump w Obj.MEM_TALLY_SKIP) else (slot, w)
    let w := closeJobs (takeWindow w r slot)
    { w with mem := { w.mem with tallyWins := w.mem.tallyWins.filter fun e => e.1 != r.start } }

def execWindowRecordDone (s : State) : Host.Outcome State Fault Refusal := onWorld (fun _ w => windowRecordDone w) s

/-- LOOP_UPDATE_DONE of engine `e` (R309, R319): in time and while the engine serves, its bars that are not excluded are updated. -/
def loopUpdate (e : Nat) (w : World) : World :=
  match w.loop.jobs with
  | [] => w
  | j :: rest =>
    if j.todo.getD e false = false ∨ engineServes w e = false ∨ j.clk + loopClocks < w.clk then w
    else
      let bars := ((List.range 4).map fun i => 4 * e + i).filter fun b => !j.excl.contains b
      let w := bars.foldl (updateStripe j) w
      closeJobs (updLoop w fun l => { l with jobs := { j with todo := j.todo.set e false } :: rest })

def execLoopUpdateDone (e : Nat) (s : State) : Host.Outcome State Fault Refusal :=
  onWorld (fun _ w => whenDo (decide (e < 2)) (loopUpdate e) w) s

/-- CHL_LATE (R319): an update is not complete 7.8 ms after its record, a miss of deadline 5 (R408); it carries the
window's START. -/
def chlLate (w : World) : World :=
  match w.loop.jobs with
  | [] => w
  | j :: rest =>
    if w.clk ≤ j.clk + loopClocks ∨ j.todo.any id = false then w
    else
      let bars := (List.range 8).filter fun b => j.todo.getD (b / 4) false && !j.excl.contains b
      let w := raiseWin (bump (bump w Obj.CHL_LATE_CNT) (Obj.SUP_DL_MISS 4)) j.start Ev.CHL_LATE 0 bars.length
      closeJobs (updLoop w fun l => { l with jobs := { j with todo := [false, false] } :: rest })

def execChlLate (s : State) : Host.Outcome State Fault Refusal := onWorld (fun _ w => chlLate w) s

/-- Entry to ARMED: the stripe counter restarts (R300, R318). -/
def armLoop (w : World) : World :=
  updLoop w fun l => { l with taken := 0, lastClose := none, jobs := [], told := [] }

/-! ### Commands -/

/-- Requalify one position (R313). -/
def requalPos (w : World) (k : Nat) : World :=
  let b := k / 262144
  let row := k / 131072 % 2
  let c := k % 131072
  let w := ((rowNozzles w b row).filter fun e => e.col == c && e.state != 0).foldl (fun w e => changeNoz w b e.elem 0) w
  let n := 2 * row + c % 2
  let g := groupAt w b (c / 2)
  let w := setGroup w b (c / 2) { g with band := g.band.set n 0, run := g.run.set n 0 }
  updLoop (setTheta w k 16384) fun l =>
    { l with loopset := mapDel l.loopset k, requal := if bitOf g.active n then l.requal else mapPut l.requal k 1 }

/-- An accepted write of CHL_REQUAL (R313). -/
def chlRequal (mask : Nat) (w : World) : World :=
  let ks := (w.loop.loopset.map (·.1)).filter fun k => bitOf mask (k / 262144)
  raise (ks.foldl requalPos w) Ev.CHL_REQUAL 0 ks.length

/-- The record of an attached head as the loop stands (R314). -/
def loopRecNow (w : World) (p : Nat) (c : ChainHead) : LoopRec :=
  let b := p / 2
  let at_ := fun row j =>
    let e := 131072 * (p % 2) + 65536 * row + c.base + j
    posKey b row (field (mapEntry (rowSet w b row) b e) 15 17)
  let all := (List.range 2).flatMap fun row => (List.range c.n).map fun j => (4096 * row + j, at_ row j)
  { serial := c.head.serial, nozzles := c.n, valid := true, date := w.tim.sec % 4294967296
    theta := (all.map fun e => (e.1, thetaAt w e.2)).filter (·.2 != 16384)
    loopset := (all.map fun e => (e.1, mapGetD w.loop.loopset e.2 0)).filter (·.2 != 0) }

/-- CHL_STORE, and the automatic store (R314). -/
def chlStore (w : World) : World :=
  let (w, n) := (allHeads w).foldl (fun (a : World × Nat) e =>
    let w := a.1
    let l := w.loop.recs.map fun r => (r.1, r.2.serial, r.2.date)
    match tablePlace e.2.head.serial (attachedSerials w) l with
    | some i => (updLoop w fun s => { s with recs := mapPut s.recs i (loopRecNow w e.1 e.2) }, a.2 + 1)
    | none => a) (w, 0)
  let w := setO (updLoop w fun l => { l with storeClk := some w.clk }) Obj.CHL_HEAD_ENTRIES w.loop.recs.length
  raise (storeTableLater w 0x3810) Ev.CHL_STORED 0 n

/-- The automatic store when the device leaves PRINTING (R314). -/
def autoStore (w : World) : World :=
  let h := getN w Obj.CHL_STORE_MIN_H
  let due := match w.loop.storeClk with | some c => decide (c + secClk (3600 * h) ≤ w.clk) | none => true
  if h ≠ 0 ∧ due = true then chlStore w else w

/-- An accepted write of CHL_REF_TAKE (R320). -/
def chlRefTake (mask : Nat) (w : World) : World :=
  ((List.range 8).filter (bitOf mask)).foldl (fun w b =>
    let k := kMean w b
    raise (storeLater (setO w (Obj.CHL_KREF b) k) (Obj.CHL_KREF b) k) Ev.CHL_REF_TAKEN b k) w

/-- A write to CHL_RESP or CHL_VNOM of bar `b` (R320). -/
def restartBar (w : World) (b : Nat) : World :=
  updLoop w fun l => { l with fresh := (l.fresh.filter fun e => e / 64 != b) ++ (List.range 64).map fun s => 64 * b + s }

/-! ### FRAM image -/

/-- CRC-32C of a bar's stored JQ_TRIMS (R316). -/
def trimsCrc (w : World) (b : Nat) : Nat :=
  crc32c ((List.range 196608).flatMap fun e => leBytes 2 (mapGetD w.dict.nor (tblKey (0x3520 + b) e) 16384).toNat)

/-- The image of the loop as it stands. -/
def imageNow (w : World) : List LoopImage :=
  (List.range 8).map fun b =>
    { valid := true, crc := trimsCrc w b, g := getO w (Obj.CHL_GAIN b), u := mapFilter w.loop.u fun k => k / 262144 == b }

/-- LOOP_FLUSH_START (R316): one that falls due during a flush waits. -/
def flushStart (w : World) : World :=
  if w.loop.flush.isSome then updLoop w fun l => { l with flushWait := true }
  else updLoop w fun l => { l with flush := some (w.clk, imageNow w), flushWait := false }

def execLoopFlushStart (s : State) : Host.Outcome State Fault Refusal :=
  onWorld (fun c w => whenDo (powered c.mode && c.mode != .boot) flushStart w) s

/-- LOOP_FLUSH_DONE (R316). -/
def flushDone (w : World) : World :=
  match w.loop.flush with
  | none => w
  | some (clk, img) =>
    let w := setO (updLoop w fun l => { l with flush := none, img := img }) Obj.CHL_FLUSH_MS (min 65535 (clkMs (w.clk - clk)) : Nat)
    if w.loop.flushWait then flushStart w else w

def execLoopFlushDone (s : State) : Host.Outcome State Fault Refusal := onWorld (fun _ w => flushDone w) s

/-- Boot (R317): the image of each bar applies where it is valid and based on the stored trims. -/
def restoreImages (w : World) : World :=
  let good := (List.range 8).filter fun b => let i := w.loop.img.getD b LoopImage.reset; i.valid && i.crc == trimsCrc w b
  let w := good.foldl (fun w b =>
    let i := w.loop.img.getD b LoopImage.reset
    let w := setO (updLoop w fun l => { l with u := mapMerge l.u i.u }) (Obj.CHL_GAIN b) i.g
    (List.range 2).foldl (fun w row => (List.range 98304).foldl (fun w c =>
      writeTrim w b row c (trimValue w b (uAt w b row c))) w) w) w
  raise w Ev.CHL_RESTORED 0 (96 * good.length * 65536 + 96 * (8 - good.length))

/-- An uncorrectable error in the state record of a group (R317). -/
def groupError (w : World) (b x : Nat) : World :=
  let w := setGroup w b x { groupAt w b x with s := List.replicate 10 0, b := List.replicate 4 0 }
  (List.range 4).foldl (fun w n =>
    let row := n / 2
    let c := 2 * x + n % 2
    let vs := ((rowNozzles w b row).filter fun e => e.col == c).map fun e => (storedTheta w b row e.elem).1
    let w := if vs.isEmpty then w else setTheta w (posKey b row c) (roundDiv (vs.foldl (· + ·) 0 : Nat) vs.length).toNat
    let trim := trimOf w (rowSet w b row) b row c
    setU w b row c (clampInt 0 65535 (roundDiv (trim * 16777216) (max 1 (getN w (Obj.CHL_GAIN b))))).toNat) w

/-! ### What the objects show -/

/-- CHL_DET_WEAK and CHL_DET_OUT: positions whose state the loop set and that still have it. -/
def detCount (w : World) (b st : Nat) : Nat :=
  ((w.loop.loopset.map (·.1)).filter fun k => k / 262144 == b &&
    (rowNozzles w b (k / 131072 % 2)).any fun e => e.col == k % 131072 && e.state == st).length

/-- r of a group from its stored S (CHL_SEL_R). -/
def selRatio (w : World) (b x : Nat) : Nat :=
  let g := groupAt w b x
  let act := (List.range 4).filter (bitOf g.active)
  match gauss act.length (activeRows g act) with
  | some (det, _) => if act = [] then 0 else min 65535 (condRatio det (traceOf g act) act.length 17 0)
  | none => 0

/-- FLAGS of a group (R303). -/
def groupFlags (w : World) (b x : Nat) : Nat :=
  let g := groupAt w b x
  ((List.range 4).map fun n => g.run.getD n 0 * 2 ^ (16 + 4 * n) + g.band.getD n 0 * 2 ^ (8 + 2 * n) +
    mapGetD w.loop.loopset (groupPos b x n) 0 * 2 ^ (4 + n)).foldl (· + ·) 0 + g.active % 16

end Sys2Proof.Machine
end

