-- ==== Sys2Proof/Machine/Time.lean ====
section
/-! DEFINITION. Time (chapter 13): the timer, steps, the servo, holdover, the best master clock decision, the PTP
messages sent and received, anchors and oscillator compensation. -/

namespace Sys2Proof.Machine

/-! ### The timer -/

/-- The timer in units of 2^-28 ns. -/
def timerRaw (w : World) : Int := timerNs w * 268435456 + w.tim.fracNs

/-- Set the timer from a value in 2^-28 ns; seconds are 48 bits. -/
def setTimerRaw (w : World) (r : Int) : World :=
  let ns := asr r 28
  { w with tim := { w.tim with fracNs := (r % 268435456).toNat
                               ns := (ns % 1000000000).toNat
                               sec := ((ns / 1000000000) % 281474976710656).toNat } }

/-- One CLK_TS clock: the addend enters the timer, link time gains 2.5 ticks (R370, R238); a rollover of the
nanoseconds whose new second is due for an anchor is noted (R381). -/
def tickTimer (w : World) : World :=
  let acc := w.tim.fracNs + getN w Obj.TIM_ADDEND
  let ns := w.tim.ns + acc / 268435456
  let beyond := 1000000000 ≤ ns
  let sec := if beyond then (w.tim.sec + 1) % 281474976710656 else w.tim.sec
  let due := beyond && (sec % (max 1 (getN w Obj.TIM_ANCHOR_S)) == 0 || w.tim.stepSinceAnchor)
  { w with tim := { w.tim with fracNs := acc % 268435456
                               ns := if beyond then ns - 1000000000 else ns
                               sec := sec
                               halfTicks := w.tim.halfTicks + 5
                               rolled := due } }

/-- The addend of a rate in ppb (R370): round(858,993,459.2 × (1 + rate × 10^-9)), limited to ±1,000 ppm. -/
def addendOf (rate : Frac) : Int :=
  let base := frac 8589934592 10
  let x := fracMul base (fracAdd (fracI 1) (fracDiv rate (fracI 1000000000)))
  clampInt 858134466 859852452 (fracRound x)

/-- The rate in ppb that an addend stands for. -/
def rateOf (addend : Int) : Frac :=
  fracScale (fracSub (fracDiv (fracI addend) (frac 8589934592 10)) (fracI 1)) 1000000000

/-- Step the timer by `d` ns (R375): TIM_LAST_STEP, TIM_STEPS and TIM_STEP, whose record is of the instant just
after the step. -/
def stepTimer (w : World) (d : Frac) (software : Bool) : World :=
  let w := setTimerRaw w (timerRaw w + fracFloor (fracScale d 268435456))
  let n := fracFloor d
  let w := setO w Obj.TIM_LAST_STEP n
  let w := bump w Obj.TIM_STEPS
  let w := setO w Obj.TIM_DEFERRED_NS 0
  let w := { w with tim := { w.tim with p := fracI 0, pUntil := none, deferred := none, deferRaised := false
                                        stepSinceAnchor := true } }
  raiseInt w Ev.TIM_STEP (b2n software) (clampInt (-2147483648) 2147483647 n)

/-- On leaving the print states, a deferred step whose last offset is still at or above TIM_STEP_NS is taken. -/
def takeDeferredStep (w : World) : World :=
  match w.tim.deferred with
  | none => w
  | some o =>
    if getN w Obj.TIM_STEP_NS ≤ o.natAbs then stepTimer w (fracI (-o)) false
    else setO { w with tim := { w.tim with deferred := none, deferRaised := false } } Obj.TIM_DEFERRED_NS 0

/-! ### Servo state and port state -/

/-- Change TIM_SERVO (0 FREE, 1 ACQUIRING, 2 LOCKED, 3 HOLDOVER, 4 SOFTWARE); a change to or from LOCKED raises
TIM_LOCK, entry to and exit from HOLDOVER raise TIM_HOLDOVER (R377, R378). -/
def setServo (w : World) (v : Nat) : World :=
  let old := getN w Obj.TIM_SERVO
  if old = v then w
  else
    let w := setO w Obj.TIM_SERVO v
    let w := if v = 2 then raise w Ev.TIM_LOCK 0 1 else if old = 2 then raise w Ev.TIM_LOCK 0 0 else w
    if v = 3 then raise w Ev.TIM_HOLDOVER 0 1 else if old = 3 then raise w Ev.TIM_HOLDOVER 0 0 else w

/-- Change the PTP port's state and raise TIM_PORT_STATE (R367). -/
def setPort (w : World) (v : Nat) : World :=
  if getN w Obj.TIM_PORT_STATE = v then w
  else raise (setO w Obj.TIM_PORT_STATE v) Ev.TIM_PORT_STATE (getN w Obj.TIM_IFACE) v

/-- The physical port of interface `i` (R362). -/
def portOfIface (i : Nat) : Nat := if i < 4 then 0 else if i < 8 then 1 else 2

/-- Whether interface `i` exists in its port's present mode (R362). -/
def ifaceExists (w : World) (i : Nat) : Bool :=
  if i < 8 then i % 4 == 0 || getF w (Obj.NET_PORT_CFG (portOfIface i)) 1 3 == 3 else i == 8

/-- Whether interface `i` carries traffic: it exists, it and its port are enabled (R362). -/
def ifaceEnabled (w : World) (i : Nat) : Bool :=
  ifaceExists w i && getF w (Obj.NET_IF_CFG i) 0 1 == 1 && getF w (Obj.NET_PORT_CFG (portOfIface i)) 0 1 == 1

/-- Whether interface `i` has link. In standby the management port alone runs (R422, R424). -/
def ifaceLink (w : World) (i : Nat) : Bool := w.net.linkUp.getD i false && !(w.sys.standby && decide (i < 8))

/-- Whether interface `i` is enabled and has link. -/
def ifaceServes (w : World) (i : Nat) : Bool := ifaceEnabled w i && ifaceLink w i

/-- The servo without a master: HOLDOVER when it has been LOCKED since boot (R367, R378), otherwise at tc. -/
def servoLost (w : World) : World :=
  let m := getF w Obj.TIM_CFG 0 2
  if m ≠ 1 then w
  else if w.tim.everLocked then setServo w 3
  else setServo w 0

/-- Evaluate R367: DISABLED while the interface of TIM_IFACE does not serve, INITIALIZING as soon as it does. -/
def ptpEval (w : World) : World :=
  let st := getN w Obj.TIM_PORT_STATE
  if !ifaceServes w (getN w Obj.TIM_IFACE) then
    if st = 3 ∨ !w.sys.hostUp then w else servoLost (setPort w 3)
  else if st = 3 then setPort w 1 else w

/-- A write of R366 restarts the port from INITIALIZING; a LOCKED servo enters HOLDOVER. -/
def ptpRestart (w : World) : World :=
  let w := if getN w Obj.TIM_SERVO = 2 then setServo w 3 else w
  ptpEval (setPort { w with tim := { w.tim with twoStep := none, pdTwoStep := none, pendingDelay := none,
                                                 masters := [] } } 1)

/-! ### Rate -/

/-- The mean of y over the window (R377). -/
def yAvg (w : World) : Frac :=
  match w.tim.yHist with
  | [] => fracI 0
  | l => fracDiv (fracSum (l.map (·.2))) (fracI l.length)

/-- Whether the servo has a master's Syncs to work on (R373). -/
def servoHasInput (w : World) : Bool :=
  let st := getN w Obj.TIM_PORT_STATE
  st == 8 || st == 9

/-- The rate target (R373, R374, R378). -/
def rateTarget (w : World) : Frac :=
  match getF w Obj.TIM_CFG 0 2 with
  | 0 => w.tim.tc
  | 2 => rateOf (getO w Obj.TIM_ADDEND_SET)
  | _ =>
    if servoHasInput w && getN w Obj.TIM_SERVO != 3 then fracAdd (fracAdd w.tim.y w.tim.p) w.tim.tc
    else if w.tim.everLocked then fracAdd (yAvg w) w.tim.tc
    else w.tim.tc

/-- Put a rate in force: TIM_RATE_PPB and the addend. -/
def setRate (w : World) (r : Frac) : World :=
  let w := { w with tim := { w.tim with rate := r } }
  setO (setO w Obj.TIM_RATE_PPB (fracFloor r)) Obj.TIM_ADDEND (addendOf r)

/-- The oscillator compensation tc (R379) from the mean temperature of its sensor in 1/16 °C. -/
def tcOf (w : World) (t16 : Frac) : Frac :=
  let d := fracDiv (fracSub t16 (fracI (getO w Obj.TIM_TC_T0))) (fracI 16)
  let d2 := fracMul d d
  let s := fracAdd (fracAdd (fracScale d (getO w Obj.TIM_TC_C1)) (fracScale d2 (getO w Obj.TIM_TC_C2)))
    (fracScale (fracMul d2 d) (getO w Obj.TIM_TC_C3))
  fracClamp (fracI (-100000)) (fracI 100000) (fracDiv s (fracI 1000))

/-- Take the compensation from the mean temperature of the last 1 s; a broken sensor freezes it (R379, R380). -/
def updateTc (w : World) : World :=
  if getF w Obj.TIM_CFG 6 1 = 0 then
    setO { w with tim := { w.tim with tc := fracI 0 } } Obj.TIM_TC_PPB 0
  else if w.tim.tcFrozen then w
  else
    match w.tim.tempSamples with
    | [] => w
    | l =>
      let t := frac (l.foldl (· + ·) 0) l.length
      let tc := tcOf w t
      let w := setO { w with tim := { w.tim with tc := tc } } Obj.TIM_TC_TEMP (fracFloor t)
      setO w Obj.TIM_TC_PPB (fracFloor tc)

/-- The 1 ms step (R374, R376): the phase term lapses, the rate moves toward its target, by at most
TIM_DRIFT_PPB / 1,000 in the print states; a port whose interface serves leaves INITIALIZING for LISTENING. -/
def rateStep (c : Ctl) (w : World) : World :=
  let lapsed := match w.tim.pUntil with | some u => decide (u ≤ w.clk) | none => false
  let w := if lapsed then { w with tim := { w.tim with p := fracI 0, pUntil := none } } else w
  let w := updateTc w
  let tgt := rateTarget w
  let lim := frac (getO w Obj.TIM_DRIFT_PPB) 1000
  let r := if inPrint c.mode then fracClamp (fracSub w.tim.rate lim) (fracAdd w.tim.rate lim) tgt else tgt
  let w := setRate w r
  if getN w Obj.TIM_PORT_STATE = 1 && w.sys.hostUp && ifaceServes w (getN w Obj.TIM_IFACE) then
    setPort { w with tim := { w.tim with annClk := some w.clk } } 4
  else w

/-- Whether Serge restarts the host core or holds it out (R395, R397). -/
def hostDown (w : World) : Bool := getO w Obj.SUP_HOST_STATE == 1 || getO w Obj.SUP_HOST_STATE == 2

/-- RATE_STEP (R376); while the host core is down the timer runs at the rate in force (R396). -/
def execRateStep (s : State) : Host.Outcome State Fault Refusal :=
  onWorld (fun c w => whenDo (powered c.mode && !hostDown w) (rateStep c) w) s

/-! ### Stamps and messages -/

/-- The stamp of a message received now, referred to the land: ns with 16 fraction bits (R368). -/
def rxStamp (w : World) : Frac :=
  let x := fracSub (timerFrac w) (frac (getO w Obj.TIM_RX_LAT_PS) 1000)
  frac (fracFloor (fracScale x 65536)) 65536

/-- The stamp of a message sent now (R368). -/
def txStamp (w : World) : Frac :=
  let x := fracAdd (timerFrac w) (frac (getO w Obj.TIM_TX_LAT_PS) 1000)
  frac (fracFloor (fracScale x 65536)) 65536

/-- Whole ns of a stamp. -/
def stampNs (f : Frac) : Int := fracFloor f
/-- Fraction of a stamp in 2^-16 ns. -/
def stampFrac (f : Frac) : Int := fracFloor (fracScale (fracSub f (fracI (fracFloor f))) 65536)

/-- Whether the PTP port handles messages: it runs, and the host core serves (R364, R367, R396). -/
def ptpActive (w : World) : Bool :=
  let st := getN w Obj.TIM_PORT_STATE
  hostServing w && st != 1 && st != 2 && st != 3

/-- 2^n as a fraction, for an interval of 2^n s. -/
def pow2Frac (n : Int) : Frac := if 0 ≤ n then fracI (2 ^ n.toNat) else frac 1 (2 ^ (-n).toNat)

/-- The mean path delay takes a sample with weight 2^-TIM_DELAY_AVG (R374); it is held to 2^-16 ns. -/
def pathSample (w : World) (s : Frac) : World :=
  let p := if w.tim.pathValid then
      fracAdd w.tim.path (fracMul (fracSub s w.tim.path) (frac 1 (2 ^ getN w Obj.TIM_DELAY_AVG)))
    else s
  let p := frac (fracFloor (fracScale p 65536)) 65536
  let w := { w with tim := { w.tim with path := p, pathValid := true } }
  setO w Obj.TIM_PATH_PS (clampInt 0 4294967295 (fracFloor (fracScale p 1000)))

/-- Count the run of offsets for the lock decisions of R377. -/
def lockCount (w : World) (o : Frac) : World :=
  let lim := fracI (getO w Obj.TIM_LOCK_NS)
  let a := fracAbs o
  let lr := if fracLt a lim then w.tim.lockRun + 1 else 0
  let ur := if fracLt (fracScale lim 4) a then w.tim.unlockRun + 1 else 0
  let w := { w with tim := { w.tim with lockRun := lr, unlockRun := ur } }
  match getN w Obj.TIM_SERVO with
  | 1 =>
    if 16 ≤ lr then
      setPort (setServo { w with tim := { w.tim with everLocked := true, unlockRun := 0, yHist := [(w.clk, w.tim.y)] } } 2) 9
    else w
  | 2 => if 4 ≤ ur then setServo { w with tim := { w.tim with lockRun := 0 } } 1 else w
  | _ => w

/-- While LOCKED, y enters the mean over the last TIM_HOLD_AVG_S seconds. -/
def noteY (w : World) : World :=
  if getN w Obj.TIM_SERVO = 2 then
    let span := secClk (getN w Obj.TIM_HOLD_AVG_S)
    let l := (w.tim.yHist ++ [(w.clk, w.tim.y)]).filter fun e => w.clk < e.1 + span
    let w := { w with tim := { w.tim with yHist := l } }
    setO w Obj.TIM_FREQ_AVG_PPB (fracFloor (yAvg w))
  else w

/-- The frequency and phase terms of R374 for offset `o` and Sync interval `t` s. -/
def servoTerms (w : World) (o t : Frac) : World :=
  let ki := frac (getO w Obj.TIM_KI) 65536
  let kp := frac (getO w Obj.TIM_KP) 65536
  let y := fracClamp (fracI (-100000)) (fracI 100000) (fracSub w.tim.y (fracDiv (fracMul o ki) t))
  let sl := fracI (getO w Obj.TIM_SLEW_PPM * 1000)
  let p := fracClamp (fracNeg sl) sl (fracNeg (fracDiv (fracMul o kp) t))
  let until_ := w.clk + (fracCeil (fracScale t 312500000)).toNat
  let w := { w with tim := { w.tim with y := y, p := p, pUntil := some until_ } }
  setO w Obj.TIM_FREQ_PPB (fracFloor y)

/-- An offset of TIM_STEP_NS or more (R375): stepped outside the print states, deferred in them. The Boolean says
whether the step was taken. -/
def stepOrDefer (c : Ctl) (w : World) (o : Frac) : Bool × World :=
  if inPrint c.mode then
    let n := fracFloor o
    let w := setO { w with tim := { w.tim with deferred := some n } } Obj.TIM_DEFERRED_NS n
    if w.tim.deferRaised then (false, w)
    else
      (false, raiseInt { w with tim := { w.tim with deferRaised := true } } Ev.TIM_STEP_DEFERRED 0
        (clampInt (-2147483648) 2147483647 n))
  else (true, stepTimer w (fracNeg o) false)

/-- The servo on a Sync whose stamp less origin and corrections is `m` (R374, R377, R378). DEDUCED (log 89): the first
Sync of another master than the one LOCKED to makes it ACQUIRING too, and a Sync that is stepped counts in the runs of
R377. -/
def servoSync (c : Ctl) (w : World) (m : Frac) (logInt : Int) : World :=
  let w := bump w Obj.TIM_SYNC_RX
  let w := { w with tim := { w.tim with t2t1 := some m, lastSyncClk := some w.clk } }
  let w := if getN w Obj.TIM_SERVO ≠ 1 ∧ (getN w Obj.TIM_SERVO ≠ 2 ∨ getN w Obj.TIM_PORT_STATE = 8) then
      setServo { w with tim := { w.tim with lockRun := 0, unlockRun := 0 } } 1 else w
  let o := fracSub (fracSub m w.tim.path) (frac (getO w Obj.TIM_ASYM_PS) 1000)
  let w := setO w Obj.TIM_OFFSET_NS (fracFloor o)
  let big := fracLe (fracI (getO w Obj.TIM_STEP_NS)) (fracAbs o)
  let (stepped, w) :=
    if big then stepOrDefer c w o
    else (false, setO { w with tim := { w.tim with deferred := none, deferRaised := false } } Obj.TIM_DEFERRED_NS 0)
  if stepped then lockCount w o
  else noteY (lockCount (servoTerms w o (pow2Frac logInt)) o)

/-- Whether a message comes from the master that the port follows. PRESUMED (IEEE 1588, log 89): a slave works on the
messages of its parent alone. -/
def fromMaster (m : PtpMsg) (w : World) : Bool := m.sender == w.tim.parent

/-- A Sync received (R374): another domain's is ignored and counted; a two-step one waits for its Follow_Up. -/
def syncRx (c : Ctl) (m : PtpMsg) (w : World) : World :=
  if !ptpActive w then w
  else if m.domain ≠ getN w Obj.TIM_DOMAIN then bump w Obj.TIM_PTP_IGNORED
  else if !servoHasInput w ∨ getF w Obj.TIM_CFG 0 2 ≠ 1 ∨ !fromMaster m w then w
  else
    let t2 := rxStamp w
    if m.twoStep then { w with tim := { w.tim with twoStep := some (m.seq, t2, frac m.corr 65536, m.logInt) } }
    else servoSync c w (fracSub (fracSub t2 (fracI m.ns)) (frac m.corr 65536)) m.logInt

def execPtpSyncRx (m : PtpMsg) (s : State) : Host.Outcome State Fault Refusal :=
  onWorld (fun c w => whenDo (powered c.mode) (syncRx c m) w) s

/-- A Follow_Up carries the origin time of the two-step Sync before it (R364, R374). -/
def followUpRx (c : Ctl) (m : PtpMsg) (w : World) : World :=
  if !ptpActive w then w
  else if m.domain ≠ getN w Obj.TIM_DOMAIN then bump w Obj.TIM_PTP_IGNORED
  else
    match w.tim.twoStep with
    | some (seq, t2, corr, logInt) =>
      if seq = m.seq ∧ servoHasInput w ∧ fromMaster m w = true then
        let w := { w with tim := { w.tim with twoStep := none } }
        servoSync c w (fracSub (fracSub (fracSub t2 (fracI m.ns)) corr) (frac m.corr 65536)) logInt
      else w
    | none => w

def execPtpFollowUpRx (m : PtpMsg) (s : State) : Host.Outcome State Fault Refusal :=
  onWorld (fun c w => whenDo (powered c.mode) (followUpRx c m) w) s

/-- A PTP message of the port (R364): its interface, transport and domain. The logMessageInterval of a Sync and a
Delay_Resp is the object's; PRESUMED (IEEE 1588, log 89): 0x7F in the others. -/
def ptpMsg (w : World) (kind seq : Nat) (logInt stamp corr : Int) (target : Nat) : OutMsg :=
  .ptp (getN w Obj.TIM_IFACE) (getF w Obj.TIM_CFG 4 2) (getN w Obj.TIM_DOMAIN) kind seq logInt stamp corr target

/-- A Delay_Req received as master is answered with its receive stamp, the fraction added to the correction field
(R369). -/
def delayReqRx (m : PtpMsg) (w : World) : World :=
  if !ptpActive w then w
  else if m.domain ≠ getN w Obj.TIM_DOMAIN then bump w Obj.TIM_PTP_IGNORED
  else if getN w Obj.TIM_PORT_STATE = 6 ∧ getF w Obj.TIM_CFG 3 1 = 0 then
    let t := rxStamp w
    send w (ptpMsg w 9 m.seq (getO w Obj.TIM_LOG_DELAY) (stampNs t) (stampFrac t + m.corr) m.sender)
  else w

def execPtpDelayReqRx (m : PtpMsg) (s : State) : Host.Outcome State Fault Refusal :=
  onWorld (fun c w => whenDo (powered c.mode) (delayReqRx m) w) s

/-- A Delay_Resp answers the Delay_Req sent last: with t3 its departure and t4 the time it carries, the end-to-end
delay sample is ((t2 − t1) + (t4 − t3)) / 2 less corrections (R374). -/
def delayRespRx (m : PtpMsg) (w : World) : World :=
  if !ptpActive w then w
  else if m.domain ≠ getN w Obj.TIM_DOMAIN then bump w Obj.TIM_PTP_IGNORED
  else
    match w.tim.pendingDelay, w.tim.t2t1 with
    | some (seq, t3), some d21 =>
      if seq = m.seq ∧ getF w Obj.TIM_CFG 3 1 = 0 ∧ fromMaster m w = true then
        let d43 := fracSub (fracSub (fracI m.ns) t3) (frac m.corr 65536)
        pathSample { w with tim := { w.tim with pendingDelay := none } } (fracDiv (fracAdd d21 d43) (fracI 2))
      else w
    | _, _ => w

def execPtpDelayRespRx (m : PtpMsg) (s : State) : Host.Outcome State Fault Refusal :=
  onWorld (fun c w => whenDo (powered c.mode) (delayRespRx m) w) s

/-- A Pdelay_Req is answered one-step: requestReceiptTimestamp 0 and the turnaround time in the correction field
(R369). `turn` is the turnaround in 2^-16 ns. -/
def pdelayReqRx (m : PtpMsg) (turn : Nat) (w : World) : World :=
  if !ptpActive w then w
  else if m.domain ≠ getN w Obj.TIM_DOMAIN then bump w Obj.TIM_PTP_IGNORED
  else if getF w Obj.TIM_CFG 3 1 = 1 then send w (ptpMsg w 3 m.seq 127 0 (m.corr + turn) m.sender)
  else w

def execPtpPdelayReqRx (m : PtpMsg) (turn : Nat) (s : State) : Host.Outcome State Fault Refusal :=
  onWorld (fun c w => whenDo (powered c.mode) (pdelayReqRx m turn) w) s

/-- A Pdelay_Resp: with t1 the departure of the request and t4 its own receipt, a one-step response gives
meanLinkDelay = (t4 − t1 − corrections) / 2; a two-step one waits for its Follow_Up (R374). -/
def pdelayRespRx (m : PtpMsg) (w : World) : World :=
  if !ptpActive w then w
  else if m.domain ≠ getN w Obj.TIM_DOMAIN then bump w Obj.TIM_PTP_IGNORED
  else
    match w.tim.pendingDelay with
    | some (seq, t1) =>
      if seq = m.seq ∧ getF w Obj.TIM_CFG 3 1 = 1 then
        let d := fracSub (fracSub (rxStamp w) t1) (frac m.corr 65536)
        if m.twoStep then { w with tim := { w.tim with pdTwoStep := some (seq, d, fracI m.ns) } }
        else pathSample { w with tim := { w.tim with pendingDelay := none } } (fracDiv d (fracI 2))
      else w
    | none => w

def execPtpPdelayRespRx (m : PtpMsg) (s : State) : Host.Outcome State Fault Refusal :=
  onWorld (fun c w => whenDo (powered c.mode) (pdelayRespRx m) w) s

/-- A Pdelay_Resp_Follow_Up completes the two-step exchange: the turnaround t3 − t2 leaves the round trip (R364). -/
def pdelayFollowRx (m : PtpMsg) (w : World) : World :=
  if !ptpActive w then w
  else if m.domain ≠ getN w Obj.TIM_DOMAIN then bump w Obj.TIM_PTP_IGNORED
  else
    match w.tim.pdTwoStep with
    | some (seq, d, t2) =>
      if seq = m.seq then
        let x := fracSub (fracSub d (fracSub (fracI m.ns) t2)) (frac m.corr 65536)
        pathSample { w with tim := { w.tim with pendingDelay := none, pdTwoStep := none } } (fracDiv x (fracI 2))
      else w
    | none => w

def execPtpPdelayRespFollowUpRx (m : PtpMsg) (s : State) : Host.Outcome State Fault Refusal :=
  onWorld (fun c w => whenDo (powered c.mode) (pdelayFollowRx m) w) s

/-- Management, Signaling and messages of other domains are ignored and counted (R364). -/
def execPtpIgnoredRx (s : State) : Host.Outcome State Fault Refusal :=
  onWorld (fun _ w => whenDo (ptpActive w) (fun w => bump w Obj.TIM_PTP_IGNORED) w) s

/-! ### The best master clock decision -/

/-- The own clock's identity: the EUI-64 of the MAC of TIM_IFACE (R365). -/
def clockId (w : World) : Nat :=
  let mac := (Config.macBase.toNat + getN w Obj.TIM_IFACE) % 281474976710656
  (mac / 16777216) * 1099511627776 + 0xFFFE * 16777216 + mac % 16777216

/-- The values the device announces as a candidate master, in the order of comparison (R365). -/
def ownPrio (w : World) : List Nat :=
  [getN w Obj.TIM_PRIO1, if getF w Obj.TIM_CFG 2 1 = 1 then 255 else 248, 0xFE, 0xFFFF, getN w Obj.TIM_PRIO2,
   clockId w, 0]

/-- The values of an Announce in the order of comparison. -/
def annPrio (a : Announce) : List Nat := [a.prio1, a.cls, a.accuracy, a.variance, a.prio2, a.gm, a.steps + 1]

/-- Lexicographic order. -/
def lexLt : List Nat → List Nat → Bool
  | a :: as, b :: bs => if a = b then lexLt as bs else a < b
  | [], _ :: _ => true
  | _, [] => false

/-- TIM_ANN_TIMEOUT Announce intervals in clocks. -/
def annTimeout (w : World) : Nat := getN w Obj.TIM_ANN_TIMEOUT * secClk (2 ^ getN w Obj.TIM_LOG_ANNOUNCE)

/-- Keep the last Announce of each sender (R378). -/
def noteMaster (a : Announce) (w : World) : World :=
  { w with tim := { w.tim with masters := w.tim.masters.filter (·.sender ≠ a.sender) ++
      [{ sender := a.sender, prio := annPrio a, gm := a.gm, clk := w.clk }] } }

/-- The masters heard within the announce receipt timeout that may be followed: with SLAVE_ONLY at 1 each of them,
otherwise those better than the own clock (R378). PRESUMED (IEEE 1588, log 89): one Announce qualifies a master. -/
def qualified (w : World) : List Foreign :=
  w.tim.masters.filter fun f =>
    decide (w.clk < f.clk + annTimeout w) && (getF w Obj.TIM_CFG 2 1 == 1 || lexLt f.prio (ownPrio w))

/-- The best of some masters by the default best master clock comparison; the earlier of two that compare alike. -/
def bestOf : List Foreign → Option Foreign
  | [] => none
  | f :: l =>
    match bestOf l with
    | none => some f
    | some g => if lexLt g.prio f.prio then some g else some f

/-- Show a grandmaster and raise TIM_MASTER_CHANGE when it is another one (R384). -/
def setGm (w : World) (gm : Nat) : World :=
  if getN w Obj.TIM_GM_ID = gm then w else raise (setO w Obj.TIM_GM_ID gm) Ev.TIM_MASTER_CHANGE 0 (gm % 4294967296)

/-- Follow a master: another one than the one in use takes the port to UNCALIBRATED and begins its path delay anew
(R377, R378). -/
def follow (f : Foreign) (w : World) : World :=
  let st := getN w Obj.TIM_PORT_STATE
  let current := (st = 8 ∨ st = 9) ∧ w.tim.parent = f.sender
  let w := { w with tim := { w.tim with gmPrio := f.prio, annClk := some f.clk, annSeen := true, parent := f.sender } }
  let w := setGm w f.gm
  if current then w
  else setPort { w with tim := { w.tim with lockRun := 0, unlockRun := 0, pathValid := false, t2t1 := none, twoStep := none
                                            pdTwoStep := none, pendingDelay := none } } 8

/-- The port without a master to follow: a slave's servo loses its input, and the port waits in LISTENING with
SLAVE_ONLY at 1 and is MASTER otherwise (R373, R378). -/
def lead (w : World) : World :=
  let st := getN w Obj.TIM_PORT_STATE
  let w := if st = 8 ∨ st = 9 then servoLost w else w
  let w := { w with tim := { w.tim with annClk := some w.clk, gmPrio := [] } }
  if getF w Obj.TIM_CFG 2 1 = 1 then setPort w 4 else setPort (setGm w (clockId w)) 6

/-- An Announce received enters the best master clock decision (R378): the best qualified master is followed. Where
none is qualified the own clock is the best, and a port that is no MASTER yet becomes it (PRESUMED, IEEE 1588, log 89: the
decision M2, whose qualification takes no time). -/
def announceRx (a : Announce) (w : World) : World :=
  if !ptpActive w then w
  else if a.domain ≠ getN w Obj.TIM_DOMAIN then bump w Obj.TIM_PTP_IGNORED
  else
    let w := noteMaster a w
    match bestOf (qualified w) with
    | some f => follow f w
    | none => if getN w Obj.TIM_PORT_STATE = 6 then w else lead w

def execPtpAnnounceRx (a : Announce) (s : State) : Host.Outcome State Fault Refusal :=
  onWorld (fun c w => whenDo (powered c.mode) (announceRx a) w) s

/-- The announce receipt timeout (R378): the best other master still qualified is followed; with none, HOLDOVER when
the servo had been LOCKED since boot, and the port waits in LISTENING or becomes MASTER. -/
def announceTimeout (w : World) : World :=
  let st := getN w Obj.TIM_PORT_STATE
  let due := match w.tim.annClk with | some t => decide (t + annTimeout w ≤ w.clk) | none => false
  if hostServing w && due && (st == 4 || st == 7 || st == 8 || st == 9) then
    match bestOf (qualified w) with
    | some f => follow f w
    | none => lead w
  else w

def execAnnounceTimeout (s : State) : Host.Outcome State Fault Refusal :=
  onWorld (fun c w => whenDo (powered c.mode) announceTimeout w) s

/-! ### Messages sent -/

/-- A one-step Sync: originTimestamp and the fraction of the departure stamp (R369). -/
def syncSend (w : World) : World :=
  if getN w Obj.TIM_PORT_STATE = 6 ∧ hostServing w = true then
    let t := txStamp w
    let w := send w (ptpMsg w 0 w.tim.syncSeq (getO w Obj.TIM_LOG_SYNC) (stampNs t) (stampFrac t) 0)
    { w with tim := { w.tim with syncSeq := (w.tim.syncSeq + 1) % 65536 } }
  else w

def execPtpSyncSend (s : State) : Host.Outcome State Fault Refusal :=
  onWorld (fun c w => whenDo (powered c.mode) syncSend w) s

/-- The values of R365; the device is its own grandmaster, with no steps removed. -/
def ownAnnounce (w : World) : AnnounceBody :=
  { prio1 := getN w Obj.TIM_PRIO1, cls := if getF w Obj.TIM_CFG 2 1 = 1 then 255 else 248, accuracy := 0xFE
    variance := 0xFFFF, prio2 := getN w Obj.TIM_PRIO2, gm := clockId w, steps := 0, timeSource := 0xA0
    ptpTimescale := true, utcOffset := 37, utcValid := false }

/-- An Announce with the values of R365. -/
def announceSend (w : World) : World :=
  if getN w Obj.TIM_PORT_STATE = 6 ∧ hostServing w = true then
    let w := send w (.announce (getN w Obj.TIM_IFACE) (getF w Obj.TIM_CFG 4 2) (getN w Obj.TIM_DOMAIN) w.tim.annSeq (ownAnnounce w))
    { w with tim := { w.tim with annSeq := (w.tim.annSeq + 1) % 65536 } }
  else w

def execPtpAnnounceSend (s : State) : Host.Outcome State Fault Refusal :=
  onWorld (fun c w => whenDo (powered c.mode) announceSend w) s

/-- Send a request of the delay mechanism and keep its departure stamp (R374). -/
def delaySend (kind : Nat) (w : World) : World :=
  let t := txStamp w
  let w := send w (ptpMsg w kind w.tim.delaySeq 127 0 0 0)
  { w with tim := { w.tim with pendingDelay := some (w.tim.delaySeq, t), pdTwoStep := none
                               delaySeq := (w.tim.delaySeq + 1) % 65536 } }

def execPtpDelayReqSend (s : State) : Host.Outcome State Fault Refusal :=
  onWorld (fun c w =>
    whenDo (powered c.mode && hostServing w && servoHasInput w && getF w Obj.TIM_CFG 3 1 == 0) (delaySend 1) w) s

def execPtpPdelayReqSend (s : State) : Host.Outcome State Fault Refusal :=
  onWorld (fun c w =>
    whenDo (powered c.mode && ptpActive w && getF w Obj.TIM_CFG 3 1 == 1) (delaySend 2) w) s

/-! ### Anchors and the stored frequency -/

/-- Latch an anchor at the rollover (R381). -/
def anchor (w : World) : World :=
  let w := setO w Obj.TIM_ANCHOR_SEC w.tim.sec
  let w := setO w Obj.TIM_ANCHOR_NS w.tim.ns
  let w := setO w Obj.TIM_ANCHOR_ET (nowEt w)
  let w := setO w Obj.TIM_ANCHOR_LINK (linkTime w)
  let w := setO w Obj.TIM_ANCHOR_POS (webPos w)
  raise { w with tim := { w.tim with rolled := false, stepSinceAnchor := false } } Ev.TIM_ANCHOR 0
    (w.tim.sec % 4294967296)

def execTimAnchor (s : State) : Host.Outcome State Fault Refusal :=
  onWorld (fun c w => whenDo (powered c.mode && w.tim.rolled) anchor w) s

/-- While LOCKED, y_avg goes to FRAM every 600 s (R377). -/
def freqStore (w : World) : World :=
  let v := fracFloor (yAvg w)
  let w := setO { w with tim := { w.tim with freqClk := w.clk } } Obj.TIM_FREQ_STORED v
  { w with dict := { w.dict with fram := mapPut w.dict.fram Obj.TIM_FREQ_STORED v } }

def execTimFreqStore (s : State) : Host.Outcome State Fault Refusal :=
  onWorld (fun c w =>
    whenDo (powered c.mode && getN w Obj.TIM_SERVO == 2 && decide (w.tim.freqClk + secClk 600 ≤ w.clk)) freqStore w) s

/-- A read of TIM_NOW_SEC latches TIM_NOW_NS and TIM_NOW_ET at the same clock (R371). -/
def latchNow (w : World) : World :=
  setO (setO (setO w Obj.TIM_NOW_SEC w.tim.sec) Obj.TIM_NOW_NS w.tim.ns) Obj.TIM_NOW_ET (nowEt w)

def execTimNowSecRead (s : State) : Host.Outcome State Fault Refusal :=
  onWorld (fun c w => whenDo (powered c.mode) latchNow w) s

/-- A new TIM_CFG.MODE (R373): FREE and SOFTWARE show at once; SERVO begins without a master. -/
def timMode (w : World) : World :=
  match getF w Obj.TIM_CFG 0 2 with
  | 0 => setServo w 0
  | 2 => setServo w 4
  | _ => servoLost w

/-- The start of the time scales when the device leaves reset (R383): the timer and link time at 0, the addend
nominal, y from TIM_FREQ_STORED where it is valid. -/
def startTime (w : World) : World :=
  let y := match mapGet w.dict.fram Obj.TIM_FREQ_STORED with | some v => fracI v | none => fracI 0
  let t := { Tim.reset with y := y, freqClk := w.clk }
  let w := { w with tim := t }
  let w := setO w Obj.TIM_RATE_PPB 0
  let w := setO w Obj.TIM_ADDEND 858993459
  let w := setO w Obj.TIM_SERVO 0
  let w := setO w Obj.TIM_PORT_STATE 1
  setO w Obj.TIM_FREQ_STORED ((mapGet w.dict.fram Obj.TIM_FREQ_STORED).getD 0)

end Sys2Proof.Machine
end

