-- ==== Sys2Proof/Machine/Modes.lean ====
section
/-! DEFINITION. Changes of the device state and what they bring (R436 to R442): SYS_ARM_BLOCK, the entry to ARMED,
leaving the print states, SAFE, and the commands SYS_CMD and SYS_SERVICE. -/

namespace Sys2Proof.Machine

/-! ### SYS_ARM_BLOCK -/

/-- Whether bar `b` has a passing slice in service (R205, R403). -/
def barServed (w : World) (b : Nat) : Bool :=
  !(barAt w b).noSlice && bitOf (getN w Obj.JQ_SLICE_OK) (getN w (Obj.JQ_BAR_SLICE b))

/-- Whether the rows lie in order, each at least 1/64 line behind the one before it (R83). -/
def rowsInOrder (w : World) : Bool := (List.range 15).all fun r => decide (rowD64Now w r + 1 ≤ rowD64Now w (r + 1))

/-- Whether the alignment check of R72 passes. -/
def alignOk (w : World) : Bool := alignInvalid w == 0 || getO w Obj.LCK_ALIGN_OVERRIDE == 1

/-- SYS_ARM_BLOCK (R442). -/
def armBlock (w : World) : Nat :=
  ofBits
    [!alignOk w,
     !(spanFits w && rowsInOrder w),
     getO w Obj.JOB_ORIGIN_SRC == 1 && !(encAt w w.web.active).refValid,
     !((w.mem.unitOk.take 7).all id),
     !w.cal.pathOk,
     !((List.range 8).all (barServed w)),
     (List.range 16).any fun p => !(portAt w p).unitOk && !(attachedHeads w p).isEmpty,
     (List.range 16).any (portBlocks w),
     !(w.sup.voters.all id),
     getN w Obj.SUP_STOP_SRC != 0,
     getO w Obj.JOB_FRAME_SRC == 1 && (frameStartProbe w).isNone]

/-! ### Entry to ARMED -/

/-- L as R18 makes it of MEM_LOOKAHEAD (R107). -/
def armLook (w : World) : World :=
  let l := clampLook w
  let v := getN w Obj.MEM_LOOKAHEAD
  let w := if l = v then w else adjust w Obj.MEM_LOOKAHEAD (if v < l then 1 else 2) 0 v l
  { w with lck := { w.lck with look := l, hl600 := false } }

/-- A bar on entry to ARMED: one set in its queue, the one in force (R206). -/
def armBar (w : World) (b : Nat) : World :=
  let s := makeSet w b 0 (-4611686018427387904)
  let w := updBar w b fun q =>
    { BarJq.reset with sets := [s], freq := q.freq, noSlice := q.noSlice, lineClk := [w.clk, w.clk] }
  setO (setO (setO w (Obj.JQ_TAG_A b) 0) (Obj.JQ_TAG_B b) 0) (Obj.JQ_LOAD_US b) 0

/-- The passes of a bar start at their rows' first lines (R206), and checkpoint 1 is written (R400). -/
def armPasses (w : World) (b : Nat) : World :=
  let w := (List.range 2).foldl (fun w row =>
    let x := (rowAt w (2 * b + row)).next
    updPass w b row fun _ =>
      { Pass.reset with front := x, start := x, setB := -4611686018427387904, decNext := -4611686018427387904, done := [x, x] }) w
  takeCkpt w b

/-- Entry to ARMED from IDLE. -/
def armWorld (w : World) : World :=
  let w := armLook (armProfiles w)
  let w := (List.range 8).foldl armBar w
  let w := armClock w
  let w := (List.range 8).foldl armPasses w
  let w := armPorts (armFrames w)
  let w := armLoop (armCompose w)
  let w := { w with mem := { w.mem with tally := [], tallyWins := [] }
                    ins := { w.ins with win := none, winIdx := 0, boundary := none, prevDrops := none }
                    sys := { w.sys with pausePending := false } }
  (List.range 16).foldl (fun w p => sendPhases w p (fun row => nextSet w (2 * (p / 2) + row)) true) w

/-! ### Leaving states -/

/-- Leaving ARMED, PRINTING and PAUSED (R78, R82, R95, R106, R162, R227, R375). -/
def leavePrint (w : World) : World :=
  let w := (List.range 16).foldl (fun w r => endShift (endSkips w r) r) w
  let w := leaveCompose (leavePorts (leaveFrames w))
  let w := (List.range 8).foldl (fun w b => flushTrims (updBar w b fun q => { q with sets := [] }) b) w
  takeDeferredStep { w with sys := { w.sys with pausePending := false }, lck := { w.lck with hlWant := none, hlAfter := none } }

/-- SYS_DEBUG_EN returns to 0 on leaving SERVICE (R456). -/
def leaveService (w : World) : World :=
  if getO w Obj.SYS_DEBUG_EN = 0 then w else raise (setO w Obj.SYS_DEBUG_EN 0) Ev.DBG_ACCESS 0 0

/-- What a change from `old` to `new` brings beyond SYS_STATE. -/
def changeFx (old new : DevState) (w : World) : World :=
  let w := if old = .printing ∧ new ≠ .printing then autoStore (stopSrc w 3 false) else w
  let w := if inPrint old && !inPrint new then leavePrint w else w
  let w := if old = .service then leaveService w else w
  let w := if (old = .idle ∨ old = .service) ∧ new ≠ .idle ∧ new ≠ .service then dropCapture w else w
  let w := if scanStates old && !scanStates new then stopScan w else w
  let w := if new = .idle then webIdle w else w
  let w := if new = .calibrate then { w with thm := { w.thm with avsOn := true } } else w
  if plugState new then heldArrivals w else w

/-- Change the device state with all that it brings. -/
def goTo (cause : Nat) (new : DevState) (s : State) : State :=
  let old := s.ctl.mode
  let s := setMode cause new s
  { s with w := noteChl new (changeFx old new s.w) }

/-- Entry to PAUSED or ARMED with an arrival kept from PRINTING: it is handled, and the device returns to IDLE
(R260). -/
def settleArrivals (s : State) : State :=
  if (s.ctl.mode = .armed ∨ s.ctl.mode = .paused) ∧ getO s.w Obj.YQL_HOTPLUG_EN ≠ 0 ∧
      s.w.links.any (·.arrival.isSome) = true then
    goTo 4 .idle { s with w := heldArrivals s.w }
  else s

/-- PAUSED when a pending pause is complete (R440). -/
def pauseCheck (s : State) : State :=
  if inPrint s.ctl.mode ∧ s.ctl.mode ≠ .paused ∧ pauseComplete s.w = true then
    settleArrivals (goTo 5 .paused { s with w := { s.w with sys := { s.w.sys with pausePending := false } } })
  else s

/-! ### SETUP_INSTANT and LINE_COMMIT -/

def execSetupInstant (s : State) : Host.Outcome State Fault Refusal :=
  onState (fun s =>
    if inPrint s.ctl.mode then pauseCheck { s with w := setupInstant s.ctl.mode s.w } else s) s

/-- What a committed line does to the device state: ARMED to PRINTING with the first line of a frame (R437), PAUSED
when a pending pause is complete (R440). -/
def afterCommit (x : Option Int) (s : State) : State :=
  let s := match x with
    | some x => if s.ctl.mode = .armed ∧ (frameAt s.w x).isSome = true then goTo 6 .printing s else s
    | none => s
  pauseCheck s

def execLineCommit (r : Nat) (s : State) : Host.Outcome State Fault Refusal :=
  onState (fun s =>
    if r < 16 ∧ inPrint s.ctl.mode = true then
      let (w, x) := lineCommit r s.w
      afterCommit x { s with w := fillCheck w (s.ctl.mode == .printing) r }
    else s) s

/-! ### SAFE -/

/-- The states from which a cause of SAFE acts at once (R437). -/
def safeFrom : DevState → Bool
  | .idle => true | .armed => true | .printing => true | .paused => true | .service => true | .thermalHold => true
  | _ => false
/-- The start-up states, in which a cause of SAFE waits (R438). -/
def startUp : DevState → Bool
  | .boot => true | .selftest => true | .calibrate => true | .discover => true
  | _ => false

/-- A cause of SAFE. -/
def enterSafe (s : State) : State :=
  if safeFrom s.ctl.mode then goTo 3 .safe s
  else if startUp s.ctl.mode then { s with w := { s.w with sup := { s.w.sup with safePending := true } } }
  else s

/-- SUP_SAFE with its cause, kept in SUP_LAST_CAUSE (R410). -/
def supSafe (w : World) (cause : Nat) : World := raise (setO w Obj.SUP_LAST_CAUSE cause) Ev.SUP_SAFE 0 cause

/-- Serge cores in service. -/
def votingCores (w : World) : Nat := (w.sup.cores.filter fun c => c.st == .voting).length

/-- RELEASE_OK: the conditions of R439 hold in SAFE. -/
def releaseOk (m : DevState) (w : World) : Bool :=
  m == .safe && !w.sup.stopLow && decide (2 ≤ (w.sup.cores.filter fun c => c.st == .voting && decide (1024 ≤ c.agree)).length) &&
    w.sup.voters.all id && !w.sys.railHold

/-- Leaving SAFE (R387, R391, R392, R439): latch and forces end, bits 5 to 7 are released. -/
def leaveSafe (w : World) : World :=
  let forced := w.sup.latch || w.sup.force
  let w := { w with sup := { w.sup with latch := false, force := false } }
  let w := stopSrc (stopSrc (stopSrc w 5 false) 6 false) 7 false
  if forced then supSafe w 0 else w

/-- R259 and R260 return the device to IDLE from ARMED and PAUSED. -/
def plugIdle (s : State) : State :=
  if s.ctl.mode = .armed ∨ s.ctl.mode = .paused then goTo 4 .idle s else s

/-! ### SYS_CMD and SYS_SERVICE -/

/-- A SYS_CMD that the state does not allow (R437). -/
def cmdRefused (source v : Nat) (s : State) : State := { s with w := adjust s.w Obj.SYS_CMD 6 source v 0 }

/-- SYS_CMD = ARM (R442). -/
def cmdArm (source : Nat) (s : State) : State :=
  if s.ctl.mode ≠ .idle then cmdRefused source 1 s
  else
    let b := armBlock s.w
    if b ≠ 0 then
      cmdRefused source 1 { s with w := raise s.w Ev.SYS_ARM_REFUSED 0 b }
    else settleArrivals (goTo 1 .armed { s with w := armWorld s.w })

/-- SYS_CMD = PAUSE (R440). -/
def cmdPause (source : Nat) (s : State) : State :=
  match s.ctl.mode with
  | .armed => settleArrivals (goTo 1 .paused s)
  | .printing => pauseCheck { s with w := { s.w with sys := { s.w.sys with pausePending := true } } }
  | _ => cmdRefused source 2 s

/-- SYS_CMD = RESUME (R440, R441). -/
def cmdResume (source : Nat) (s : State) : State :=
  if s.ctl.mode = .paused then goTo 1 .armed { s with w := resumeFrames .paused s.w }
  else if s.ctl.mode = .printing ∧ s.w.sys.pausePending = true then { s with w := resumeFrames .printing s.w }
  else cmdRefused source 3 s

/-- SYS_CMD = STOP (R437). -/
def cmdStop (source : Nat) (s : State) : State :=
  if inPrint s.ctl.mode ∨ s.ctl.mode = .service then goTo 1 .idle s else cmdRefused source 4 s

/-- SYS_CMD = RELEASE (R439). -/
def cmdRelease (source : Nat) (s : State) : State :=
  if releaseOk s.ctl.mode s.w then
    goTo 1 (if s.w.sys.holdFlag then .thermalHold else .idle) { s with w := leaveSafe s.w }
  else cmdRefused source 5 s

/-- An accepted write of SYS_CMD: 1 ARM, 2 PAUSE, 3 RESUME, 4 STOP, 5 RELEASE. -/
def sysCmd (source v : Nat) (s : State) : State :=
  match v with
  | 1 => cmdArm source s
  | 2 => cmdPause source s
  | 3 => cmdResume source s
  | 4 => cmdStop source s
  | _ => cmdRelease source s

/-- An accepted write of SYS_SERVICE (R437). -/
def sysService (source v : Nat) (s : State) : State :=
  if v = 1 ∧ s.ctl.mode = .idle then goTo 1 .service s
  else if v = 0 ∧ s.ctl.mode = .service then goTo 1 .idle s
  else { s with w := adjust s.w Obj.SYS_SERVICE 6 source v 0 }

/-! ### Links that bring a change of state -/

/-- RECOVERY_TIMEOUT of link `i` (R259, R260, R261). -/
def recoveryTimeout (i : Nat) (s : State) : State :=
  if recoveryOver s.w i then
    let s := { s with w := recoveryFailed s.ctl.mode i s.w }
    plugIdle s
  else s

def execRecoveryTimeout (i : Nat) (s : State) : Host.Outcome State Fault Refusal :=
  onState (fun s => if i < 24 then recoveryTimeout i s else s) s

/-- HOTPLUG_ARRIVAL at link `i` (R260). -/
def hotplug (i serial : Nat) (s : State) : State :=
  if ¬ arrivalPossible s.w i ∨ getO s.w Obj.YQL_HOTPLUG_EN = 0 then s
  else if s.ctl.mode = .printing then { s with w := refuseArrival s.w i serial }
  else if plugState s.ctl.mode ∨ inPrint s.ctl.mode then plugIdle { s with w := discoverArrival s.w i }
  else s

def execHotplugArrival (i serial : Nat) (s : State) : Host.Outcome State Fault Refusal :=
  onState (fun s => if i < 24 then hotplug i serial s else s) s

/-! ### WEB_STANDSTILL -/

/-- A bar without a slice and a web at standstill: the device enters SAFE (R403). -/
def noSliceSafe (s : State) : State :=
  if inPrint s.ctl.mode && s.w.web.standstill && s.w.jq.bars.any (·.noSlice) then enterSafe s else s

/-- WEB_STANDSTILL (R47). -/
def webStandstill (s : State) : State :=
  if powered s.ctl.mode ∧ standstillDue s.w = true then noSliceSafe { s with w := standstill s.w } else s

def execWebStandstill (s : State) : Host.Outcome State Fault Refusal := onState webStandstill s

/-! ### Slice failures -/

def execSliceInternalFault (b : Nat) (tables : Bool) (s : State) : Host.Outcome State Fault Refusal :=
  onState (fun s =>
    if b < 8 ∧ inPrint s.ctl.mode = true then noSliceSafe { s with w := sliceInternalFault b tables s.w } else s) s

/-- SLICE_STALL of bar `b` (R399): also a miss of deadline 7. -/
def execSliceStall (b : Nat) (s : State) : Host.Outcome State Fault Refusal :=
  onState (fun s =>
    if b < 8 ∧ inPrint s.ctl.mode = true ∧ stalled s.w b = true then
      noSliceSafe { s with w := sliceFail (bump s.w (Obj.SUP_DL_MISS 6)) b 1 }
    else s) s

end Sys2Proof.Machine
end

