-- ==== Sys2Proof/Machine/Reset.lean ====
section
/-! DEFINITION. What a stop of the device keeps: the FRAM event log (R454), the journal (R430, R431), and the state
after a reset (R394, R421, R437), with the thermal shutdown and its entry to THERMAL_HOLD. -/

namespace Sys2Proof.Machine

/-! ### The event log -/

/-- Slots of the event log. -/
def logSlots : Nat := 144896

/-- Write a record behind the newest of the log. -/
def logPut (w : World) (r : EvRec) : World :=
  let slot := if w.evt.log.isEmpty then 0 else (w.evt.head + 1) % logSlots
  { w with evt := { w.evt with log := mapPut w.evt.log slot r, head := slot } }

/-- The staging buffer goes to FRAM; records dropped meanwhile are reported (R454). -/
def drainLog (w : World) : World :=
  let w := w.evt.staging.foldl logPut { noteWrite 0 0 0 w with evt := { w.evt with staging := [] } }
  let n := w.evt.dropRun
  if n = 0 then w else raise { w with evt := { w.evt with dropRun := 0 } } Ev.EVT_OVERFLOW 0 n

/-! ### The journal -/

/-- The coordinate that stands for "none since ARMED" in LAST_FIRED. -/
def noLine : Int := -9223372036854775808

/-- The reading in use of sensor `n`, 1/16 °C. -/
def tempOf (w : World) (n : Nat) : Int := getO w (Obj.THM_TEMP n)

/-- The frame of a row's next unfired line, where the device prints and the frame is not done. -/
def rowFrame (m : DevState) (w : World) (r : Nat) : Option FrameRec :=
  if inPrint m then (frameAt w (rowAt w r).next).filter (!·.done) else none

/-- Lifetime counters as they stand: powered hours and lines fired. -/
def lifeHours (w : World) : Nat := getN w Obj.THM_LIFE_HOURS + (w.clk - w.thm.hourClk) / secClk 3600
def lifeLines (w : World) : Nat := wrapBits 64 (getN w Obj.THM_LIFE_LINES + w.thm.lines)

/-- A journal record as the device stands (R430). -/
def journalRec (m : DevState) (w : World) (kind sensor reason : Nat) : JrnRec :=
  let open_ := w.job.frames.filter (!·.done)
  { seq := w.thm.jrnSeq + 1, kind := kind, state := modeCode m, sensor := sensor
    flags := 2 * b2n w.loop.flush.isSome, ptpSec := w.tim.sec, ptpNs := w.tim.ns, et := nowEt w, pos := webPos w
    temps := (List.range 26).map (tempOf w), vin := w.thm.vin, pin := getN w Obj.THM_P_IN
    lastFired := (List.range 16).map fun r => (lastFired w r).getD noLine
    rowFrame := (List.range 16).map fun r => ((rowFrame m w r).map FrameRec.no).getD 0
    rowEnd := (List.range 16).map fun r => ((rowFrame m w r).map FrameRec.wEnd).getD 0
    oldest := if inPrint m then ((open_.head?).map FrameRec.no).getD 0 else 0
    newest := if inPrint m then ((w.job.frames.getLast?).map FrameRec.no).getD 0 else 0
    lifeLines := lifeLines w, lifeHours := lifeHours w, lifePf := getN w Obj.THM_LIFE_PF
    lifeShut := getN w Obj.THM_LIFE_SHUT, defects := getN w Obj.JOB_DEFECT_COUNT, reason := reason
    valid := true, tail := true, tailEvt := 0 }

/-- The journal's objects: the newest valid record and how many are valid (R433). -/
def noteJournal (w : World) : World :=
  let l := w.thm.journal.filter (·.valid)
  setO (setO w Obj.THM_JRN_SEQ ((l.head?).elim 0 fun r => (r.seq : Int))) Obj.THM_JRN_VALID l.length

/-- Write a journal record: the newest first, the ring holds 64. -/
def putJournal (w : World) (r : JrnRec) : World :=
  noteJournal { w with thm := { w.thm with journal := (r :: w.thm.journal).take 64, jrnSeq := r.seq } }

/-- Set an object that lives in FRAM at once. -/
def setNv (w : World) (k : Nat) (v : Int) : World :=
  let w := setO w k v
  { w with dict := { w.dict with fram := mapPut w.dict.fram k v } }

/-! ### The state after a reset -/

/-- The world after a reset: everything at its default but what NVM, the pins and the power stage hold. `keep` is
what waits for FRAM. BOOT_HOLD holds (R390), and with the hold flag the request of the thermal shutdown (R392). -/
def bootWorld (w : World) (keep : List (Nat × Int × Nat)) (staging : List EvRec) : World :=
  let d := { Dict.reset with fram := w.dict.fram, nor := w.dict.nor, hostNameNv := w.dict.hostNameNv, framWait := keep }
  let t := { Thm.reset with journal := w.thm.journal, jrnSeq := w.thm.jrnSeq, jrnBoot := w.thm.jrnBoot, vin := w.thm.vin
                            saving := w.thm.saving, saveMode := w.thm.saveMode, armed := w.thm.armed }
  let boot := if w.sys.holdFlag then setO { World.reset with dict := d } Obj.SUP_STOP_SRC 0x500 else { World.reset with dict := d }
  let pin := ((mapGet w.dict.fram Obj.SYS_BGEN_PIN).getD 0).toNat
  startTime (setO { boot with
    free := w.free, out := w.out, thm := t, nvm := w.nvm
    evt := { Evt.reset with log := w.evt.log, head := w.evt.head, staging := staging }
    loop := { Loop.reset with img := w.loop.img }
    sup := { Sup.reset with stopLow := w.sup.stopLow }
    sys := { Sys.reset with holdFlag := w.sys.holdFlag, refclk := w.sys.refclk, bgenPin := pin } } Obj.SUP_HOST_STATE 3)

/-- A stored value reaches FRAM (R329); the host name lives beside the numeric values. -/
def framPut (w : World) (k : Nat) (v : Int) : World :=
  if k = Obj.NET_HOST_NAME then { w with dict := { w.dict with hostNameNv := w.dict.hostName } }
  else { w with dict := { w.dict with fram := mapPut w.dict.fram k v } }

/-- The authentication block over a reset: times remaining count on (R349). -/
def bootSec (clk : Nat) (s : Sec) : Sec :=
  { s with fails := (s.fails.filter fun e => clk < e).map (· - clk)
           blockEnd := match s.blockEnd with | some e => if clk < e then some (e - clk) else none | none => none }

/-- Reset the device into BOOT with SYS_RESET_CAUSE `why` (R394, R421): what is staged goes to the event log first. -/
def resetDevice (cause why : Nat) (s : State) : State :=
  let w := settle (drainLog (settle s.w))
  let w := setO (bootWorld w [] []) Obj.SYS_RESET_CAUSE why
  setMode cause .boot { s with ctl := { s.ctl with sec := bootSec s.w.clk s.ctl.sec }, w := w }

/-! ### Thermal shutdown -/

/-- Count a shutdown and keep its cause: THM_LAST_SHUT, THM_LIFE_SHUT (R421). -/
def noteShutdown (w : World) (reason sensor : Nat) (reading : Int) : World :=
  let w := setNv w Obj.THM_LAST_SHUT (reason * 268435456 + sensor * 65536 + wrapInt 16 reading : Nat)
  setNv w Obj.THM_LIFE_SHUT (wrapBits 32 (getN w Obj.THM_LIFE_SHUT + 1) : Nat)

/-- A thermal shutdown (R421): 1 a sensor at SHUTDOWN, 2 a lost zone, 3 the governor's floor. In THERMAL_HOLD a second
record and standby follow (R422); in standby nothing more can be shed. -/
def thermalShutdown (reason sensor : Nat) (reading : Int) (s : State) : State :=
  if s.w.sys.standby then s
  else if s.ctl.mode = .thermalHold then
    let w := noteShutdown s.w reason sensor reading
    let w := putJournal w (journalRec s.ctl.mode w 2 sensor reason)
    { s with w := raise { w with sys := { w.sys with standby := true } } Ev.PWR_STANDBY 0 1 }
  else
    let w := supSafe (stopSrc { s.w with sup := { s.w.sup with outs := 0 } } 8 true) 4
    let w := raise w Ev.THM_SHUTDOWN sensor (reason * 268435456 + wrapInt 16 reading)
    let w := noteShutdown w reason sensor reading
    let w := putJournal w (journalRec s.ctl.mode w 2 sensor reason)
    resetDevice 3 2 { s with w := { w with sys := { w.sys with holdFlag := true } } }

end Sys2Proof.Machine
end

