-- ==== Sys2Proof/Machine/Serge.lean ====
section
/-! DEFINITION. Serge (chapter 14): lockstep cycles and voting, STOP_IN_N, the host core and the analysis engines,
deadlines, and the resets of R394. -/

namespace Sys2Proof.Machine

def updSup (w : World) (f : Sup → Sup) : World := { w with sup := f w.sup }
def coreAt (w : World) (c : Nat) : Core := w.sup.cores.getD c Core.reset
def updCore (w : World) (c : Nat) (f : Core → Core) : World := updSup w fun s => { s with cores := s.cores.modify c f }

/-! ### The safety outputs -/

/-- HP_FEN[p] may run (R246, R258, R389). -/
def fenRun (m : DevState) (w : World) (p : Nat) : Bool :=
  let l := linkAt w p
  (m == .armed || m == .printing) && (l.st == .up || l.st == .recovering) && !l.fenOff && !(barAt w (p / 2)).noSlice
/-- HV_EN[b] may run (R389). -/
def hvRun (m : DevState) (w : World) (b : Nat) : Bool := inPrint m || (m == .service && bitOf (getN w Obj.SUP_SVC_HV) b)
/-- A cause of R391 or R387 holds every output safe. -/
def outForced (w : World) : Bool := w.sup.latch || w.sup.force

/-- What a core demands (R389), bits as in SUP_OUTPUTS. In the start-up states no output may run (R436, R438). -/
def demand (m : DevState) (w : World) : Nat :=
  ofBits (((List.range 16).map fun p => fenRun m w p && !outForced w) ++
    ((List.range 8).map fun b => hvRun m w b && !outForced w) ++
    [getN w Obj.SUP_STOP_SRC == 0 && !w.sup.latch && !startUp m])

/-- The bits that the voters let through: those decided in the last cycle, without what a force of R391 or a failed
read-back (R409) holds safe. -/
def outputs (m : DevState) (w : World) : Nat :=
  let web := !w.sup.latch && !(w.sup.force && getF w Obj.SUP_CFG 0 1 == 0)
  ofBits ((List.range 25).map fun i =>
    powered m && w.sys.voted && bitOf w.sup.outs i && w.sup.voters.getD i true &&
      (if i = 24 then web else !outForced w))

/-- SUP_STATUS. -/
def supStatus (w : World) : Nat :=
  let st := fun (s : CoreSt) => ofBits (w.sup.cores.map fun c => c.st == s)
  let eng := ofBits (w.sup.engines.map (·.serving))
  let spare := getN w Obj.JQ_SPARE
  ofBits (w.jq.bars.map (·.halt)) * 65536 + (if spare ≤ 8 then spare else 15) * 4096 + b2n (outForced w) * 2048 +
    b2n w.sup.stopLow * 1024 + eng * 256 + st .probation * 8 + st .voting

/-! ### SERGE_CYCLE -/

/-- Two results agree: both written, with the same demands and the same digest. A result is what it differs by from
what a sound core writes: demand bits and digest (R385). -/
def agrees (a b : Option (Nat × Nat)) : Bool := a.isSome && a == b

/-- The result on which two cores in service agree. -/
def agreedPair (w : World) (res : List (Option (Nat × Nat))) : Option (Nat × Nat) :=
  let on := fun c => (coreAt w c).st == .voting
  match [(0, 1), (0, 2), (1, 2)].find? fun e => on e.1 && on e.2 && agrees (res.getD e.1 none) (res.getD e.2 none) with
  | some e => res.getD e.1 none
  | none => none

/-- Why a core is outvoted (R387): 1 demands, 2 digest, 3 no result; 0: it agrees. -/
def outReason (pair : Nat × Nat) (r : Option (Nat × Nat)) : Nat :=
  match r with
  | none => 3
  | some x => if x.1 % 33554432 ≠ pair.1 % 33554432 then 1 else if x.2 ≠ pair.2 then 2 else 0

/-- Core `c` is outvoted (R387, R388): out from the next cycle; a result not written is a miss of deadline 9 (R408);
more than SUP_OUTVOTE_MAX times in an hour, until the next boot. -/
def outvote (w : World) (c reason : Nat) : World :=
  let at_ := (coreAt w c).outAt.filter (fun t => w.clk < t + secClk 3600) ++ [w.clk]
  let n := at_.length
  let w := if reason = 3 then bump w (Obj.SUP_DL_MISS 8) else w
  let w := raise (bump w Obj.SUP_OUTVOTES) Ev.SUP_OUTVOTE c (reason * 16777216 + n % 16777216)
  if getN w Obj.SUP_OUTVOTE_MAX < n then
    raise (updCore w c fun x => { x with st := .out, agree := 0, outAt := at_ }) Ev.SUP_CORE_RETURN c 0
  else updCore w c fun x => { x with st := .reloading, agree := 0, outAt := at_ }

/-- A core after a cycle with an agreeing pair. -/
def cycleCore (pair : Nat × Nat) (res : List (Option (Nat × Nat))) (w : World) (c : Nat) : World :=
  let reason := outReason pair (res.getD c none)
  match (coreAt w c).st with
  | .voting => if reason = 0 then updCore w c fun x => { x with agree := min 1024 (x.agree + 1) } else outvote w c reason
  | .probation => updCore w c fun x => { x with agree := if reason = 0 then min 1024 (x.agree + 1) else 0 }
  | _ => w

/-- No agreeing pair (R387): the voters latch, and the cores restart. -/
def noPair (s : State) : State :=
  let w := updSup s.w fun x => { x with latch := true, outs := 0, restart := true }
  let w := updSup w fun x => { x with cores := x.cores.map fun c =>
    if c.st = .out then c else { c with st := .reloading, agree := 0 } }
  enterSafe { s with w := supSafe (stopSrc w 7 true) 2 }

/-- SERGE_CYCLE: the three results of a cycle, each as its difference from a sound core's (none: no result). The voters
run an output while two cores in service demand it (R386). -/
def sergeCycle (res : List (Option (Nat × Nat))) (s : State) : State :=
  if ¬ s.w.sys.voted ∨ s.w.sup.restart = true then s
  else if votingCores s.w < 2 then { s with w := updSup s.w fun x => { x with outs := 0 } }
  else match agreedPair s.w res with
    | none => noPair s
    | some pair =>
      let d := demand s.ctl.mode s.w
      let wants := fun i c => (coreAt s.w c).st == .voting && match res.getD c none with
        | some r => bitOf d i != bitOf r.1 i
        | none => false
      let outs := ofBits ((List.range 25).map fun i => decide (2 ≤ ((List.range 3).filter (wants i)).length))
      let w := (List.range 3).foldl (cycleCore pair res) s.w
      { s with w := updSup w fun x => { x with outs := outs } }

def execSergeCycle (res : List (Option (Nat × Nat))) (s : State) : Host.Outcome State Fault Refusal :=
  onState (fun s => if powered s.ctl.mode then sergeCycle res s else s) s

/-- CORE_RELOAD_DONE: probation begins (R388). -/
def coreReload (c : Nat) (w : World) : World :=
  if (coreAt w c).st = .reloading ∧ w.sup.restart = false then
    updCore w c fun x => { x with st := .probation, agree := 0 } else w

def execCoreReloadDone (c : Nat) (s : State) : Host.Outcome State Fault Refusal :=
  onWorld (fun _ w => whenDo (decide (c < 3)) (coreReload c) w) s

/-- CORE_PROBATION_END: 1,024 cycles in agreement (R388). -/
def probationEnd (c : Nat) (w : World) : World :=
  if (coreAt w c).st = .probation ∧ 1024 ≤ (coreAt w c).agree then
    raise (updCore w c fun x => { x with st := .voting }) Ev.SUP_CORE_RETURN c 1 else w

def execCoreProbationEnd (c : Nat) (s : State) : Host.Outcome State Fault Refusal :=
  onWorld (fun _ w => whenDo (decide (c < 3)) (probationEnd c) w) s

/-- SERGE_RESTART_DONE: the cores vote again; the latch holds (R387). -/
def sergeRestart (w : World) : World :=
  if ¬ w.sup.restart then w
  else updSup w fun x => { x with restart := false, cores := x.cores.map fun c =>
    if c.st = .out then c else { c with st := .voting, agree := 0 } }

def execSergeRestartDone (s : State) : Host.Outcome State Fault Refusal := onWorld (fun _ w => sergeRestart w) s

/-! ### STOP_IN_N -/

/-- STOP_IN_N has been low for its filter time (R391). -/
def stopInLow (s : State) : State :=
  let w := updSup s.w fun x => { x with stopLow := true }
  if ¬ powered s.ctl.mode ∨ w.sys.voted = false then { s with w := w }
  else
    let w := updSup w fun x => { x with force := true }
    let w := if getF w Obj.SUP_CFG 0 1 = 1 then w else stopSrc w 5 true
    enterSafe { s with w := supSafe w 1 }

def execStopInLow (s : State) : Host.Outcome State Fault Refusal :=
  onState (fun s => if s.w.sup.stopLow then s else stopInLow s) s

/-- STOP_IN_HIGH (R391): the force goes on until the device has left SAFE. -/
def execStopInHigh (s : State) : Host.Outcome State Fault Refusal :=
  onWorld (fun _ w => updSup w fun x => { x with stopLow := false }) s

/-! ### Host core -/

/-- Host failures that count: those of the last 600 s (R397). -/
def recent600 (w : World) (l : List Nat) : List Nat := l.filter fun t => w.clk < t + secClk 600

/-- A restart of the host core begins (R395, R396). -/
def hostRestart (w : World) (n : Nat) : World :=
  let w := setO (bump w Obj.SUP_HOST_RESTARTS) Obj.SUP_HOST_STATE 1
  raise (updSup w fun x => { x with hostClk := w.clk }) Ev.SUP_RESTART 0 (1073741824 + n % 65536)

/-- A host failure (R395): restart, or hold out after SUP_HOST_RESTART_MAX failures in 600 s (R397). -/
def hostFail (w : World) : World :=
  if ¬ hostServing w then w
  else
    let l := recent600 w w.sup.hostFails ++ [w.clk]
    let n := l.length
    let w := updSup w fun x => { x with hostFails := l }
    if getN w Obj.SUP_HOST_RESTART_MAX ≤ n then
      let w := stopSrc (setO w Obj.SUP_HOST_STATE 2) 9 true
      raise w Ev.SUP_RESTART 0 (3221225472 + n % 65536)
    else hostRestart w n

/-- HOST_WD_SIGNAL: earlier than a quarter of the window is a failure (R395). -/
def hostSignal (w : World) : World :=
  if ¬ hostServing w then w
  else if 4 * (w.clk - w.sup.hostClk) < msClk (getN w Obj.SUP_HOST_WD_MS) then hostFail w
  else updSup w fun x => { x with hostClk := w.clk }

def execHostWdSignal (s : State) : Host.Outcome State Fault Refusal := onWorld (fun _ w => hostSignal w) s

/-- HOST_WD_TIMEOUT: no signal by the end of the window; a miss of deadline 7 (R395, R408). -/
def hostTimeout (w : World) : World :=
  let stop := w.sup.hostClk + msClk (getN w Obj.SUP_HOST_WD_MS)
  if hostServing w ∧ stop ≤ w.clk then hostFail (dlMiss w 7 (clkUs (w.clk - stop))) else w

def execHostWdTimeout (s : State) : Host.Outcome State Fault Refusal := onWorld (fun _ w => hostTimeout w) s
def execHostTrap (s : State) : Host.Outcome State Fault Refusal := onWorld (fun _ w => hostFail w) s

/-- HOST_RESTART_DONE: the host core serves again (R395). -/
def hostRestarted (w : World) : World :=
  if getO w Obj.SUP_HOST_STATE ≠ 1 then w
  else
    let n := (recent600 w w.sup.hostFails).length
    let w := updSup (setO w Obj.SUP_HOST_STATE 0) fun x => { x with hostClk := w.clk }
    raise w Ev.SUP_RESTART 0 (2147483648 + n % 65536)

/-- SUP_RESET = 1 (R394): the host core restarts under R395, even when it was held out; bit 9 waits for a device
reset (R392). -/
def resetHost (w : World) : World :=
  if w.sys.hostUp then hostRestart w (recent600 w w.sup.hostFails).length else w

/-- SUP_RESET = 2 (R394): outputs safe, a journal record of kind 3, reset. -/
def resetRemote (s : State) : State :=
  let w := updSup s.w fun x => { x with outs := 0 }
  resetDevice 1 1 { s with w := putJournal w (journalRec s.ctl.mode w 3 255 0) }

/-! ### Analysis engines -/

/-- ENGINE_WD_TIMEOUT of engine `e` (R398, R408). -/
def engineTimeout (e : Nat) (m : DevState) (w : World) : World :=
  let x := w.sup.engines.getD e Engine.reset
  if ¬ x.serving then w
  else
    let l := recent600 w x.fails ++ [w.clk]
    let n := l.length
    let held := decide (3 ≤ n)
    let w := updSup (bump w (Obj.SUP_DL_MISS 6)) fun y => { y with engines := y.engines.modify e fun g =>
      { g with serving := false, out := held, fails := l, clk := w.clk } }
    let w := if held then w else bump w Obj.SUP_ENG_RESTARTS
    noteChl m (raise w Ev.SUP_RESTART (e + 1) ((if held then 3221225472 else 1073741824) + n % 65536))

def execEngineWdTimeout (e : Nat) (s : State) : Host.Outcome State Fault Refusal :=
  onWorld (fun c w => whenDo (decide (e < 2) && powered c.mode) (engineTimeout e c.mode) w) s

/-- ENGINE_RESTART_DONE of engine `e` (R398). -/
def engineRestarted (e : Nat) (m : DevState) (w : World) : World :=
  let x := w.sup.engines.getD e Engine.reset
  if x.serving ∨ x.out then w
  else
    let w := updSup w fun y => { y with engines := y.engines.modify e fun g => { g with serving := true, clk := w.clk } }
    noteChl m (raise w Ev.SUP_RESTART (e + 1) (2147483648 + (recent600 w x.fails).length % 65536))

def execEngineRestartDone (e : Nat) (s : State) : Host.Outcome State Fault Refusal :=
  onWorld (fun c w => whenDo (decide (e < 2) && powered c.mode) (engineRestarted e c.mode) w) s

/-! ### Deadlines -/

/-- SUP_DEADLINE: deadline `n` passes unmet by `us` µs (R408): 3 a checkpoint (R401), 6 a Sync not processed within
1 ms, 7 the host watchdog, 8 a journal flush of more than 1 s. -/
def deadline (n us : Nat) (w : World) : World :=
  match n with
  | 3 => dlMiss (bump w Obj.SUP_CKPT_LATE) 3 us
  | 6 => dlMiss w 6 us
  | 7 => hostTimeout w
  | 8 => match w.loop.flush with
    | some (c, _) => if c + secClk 1 ≤ w.clk then dlMiss w 8 us else w
    | none => w
  | _ => w

def execSupDeadline (n us : Nat) (s : State) : Host.Outcome State Fault Refusal :=
  onWorld (fun c w => whenDo (powered c.mode) (deadline n us) w) s

/-- SUP_STOP_CMD (R392 bit 12). -/
def stopCmd (v : Nat) (w : World) : World := stopSrc w 12 (v != 0)

/-! ### What the objects show -/

/-- SUP_LAST_FIRED: the lowest last fired position. -/
def supLastFired (w : World) : Int :=
  let l := (List.range 16).map fun r => (lastFired w r).elim (getO w (Obj.LCK_ROW_LAST r)) linePos
  l.foldl min (l.headD 0)

/-- SUP_CKPT_DIST of bar `b`. -/
def ckptDist (w : World) (b : Nat) : Int :=
  match newestCkpt (barAt w b) with
  | none => 0
  | some c =>
    let y := fun row => let x := c.fronts.getD row 0; printIndex (setFor w b x) x
    clampInt 0 128 (lowerFront w b - min (y 0) (y 1))

end Sys2Proof.Machine
end

