-- ==== Sys2Proof/Machine/Memory.lean ====
section
/-! DEFINITION. The memory system's own commands (R97 to R99, R112 to R118): the plan, deletion of images, ECC errors
and the scrub. -/

namespace Sys2Proof.Machine

/-! ### The plan -/

/-- The layer store that a plan leaves, in MiB (R97). -/
def planStore (tally ins : Nat) : Int := 52428 - 1024 - 32256 - 6 * (tally : Int) - ins

/-- Clamp an object of the plan (R99): reason 7, stored. -/
def clampPlan (w : World) (k : Nat) (old new : Int) : World :=
  if old = new then w else storeLater (adjust (setO w k new) k 7 0 old new) k new

/-- The pending plan held to a layer store of at least 1,024 MiB: first MEM_INS_MIB, then MEM_TALLY_WIN (R99). -/
def clampPlanNow (w : World) : World :=
  let t := getN w Obj.MEM_TALLY_WIN
  let i := getN w Obj.MEM_INS_MIB
  let short := 1024 - planStore t i
  if short ≤ 0 then w
  else
    let i' := max 512 ((i : Int) - short - ((i : Int) - short) % 4)
    let w := clampPlan w Obj.MEM_INS_MIB i i'
    let short := 1024 - planStore t i'.toNat
    if short ≤ 0 then w else clampPlan w Obj.MEM_TALLY_WIN t ((t : Int) - ceilDivInt short 6)

/-- The plan takes effect (R98): layer store and tallies are empty. DEDUCED (log 79): transfers in progress to the store
end with it, without IMG_INCOMPLETE. -/
def planApply (w : World) : World :=
  let w := clampPlanNow w
  let t := getN w Obj.MEM_TALLY_WIN
  let i := getN w Obj.MEM_INS_MIB
  let w := { w with mem := { w.mem with tallyWin := t, insMib := i, items := [], tally := [], tallyWins := [] }
                    net := { w.net with bulkIn := w.net.bulkIn.filter fun b => b.target != 1 } }
  raise (setO w Obj.MEM_LS_MIB (planStore t i)) Ev.MEM_PLAN_APPLIED 0 (planStore t i).toNat

/-- MEM_PLAN_APPLY written 1 (R98). -/
def planWrite (m : DevState) (source : Nat) (w : World) : World :=
  if m = .idle ∨ m = .service then planApply w else adjust w Obj.MEM_PLAN_APPLY 6 source 1 0

/-! ### Deleting images -/

/-- MEM_LS_DELETE of an ID (R112). -/
def lsDelete (source id : Nat) (w : World) : World :=
  if imageInUse w id then adjust w Obj.MEM_LS_DELETE 6 source id 0
  else { w with mem := { w.mem with items := w.mem.items.filter fun e =>
    !(e.2.ty ≤ 3 && e.2.id == id && e.2.state != 1) } }

/-- MEM_LS_CLEAR: every image that is not in use (R112). -/
def lsClear (w : World) : World :=
  { w with mem := { w.mem with items := w.mem.items.filter fun e =>
    !(e.2.ty ≤ 3 && e.2.state != 1) || imageInUse w e.2.id } }

/-! ### ECC -/

/-- MEM_ECC_INJECT (R118): an error waits for the next write to its area. -/
def eccInject (m : DevState) (source v : Nat) (w : World) : World :=
  if m = .service then { w with mem := { w.mem with inject := w.mem.inject ++ [(field v 5 3, bitOf v 0)] } }
  else adjust w Obj.MEM_ECC_INJECT 6 source v 0

/-- An error that is met is no longer waiting in its area. -/
def dropStruck (area : Nat) (double : Bool) (w : World) : World :=
  match w.mem.struck.find? fun e => e.area == area && e.double == double with
  | some e => { w with mem := { w.mem with struck := w.mem.struck.erase e } }
  | none => w

/-- MEM_CE: a corrected error (R114). -/
def memCe (area addr : Nat) (w : World) : World := countCe area addr (dropStruck area false w)

def execMemCe (area addr : Nat) (s : State) : Host.Outcome State Fault Refusal :=
  onWorld (fun c w => whenDo (decide (area ≤ 6) && powered c.mode) (memCe area addr) w) s

/-- A loop window whose tally slot is spoilt is left out (R116). -/
def spoilTally (w : World) (slot : Nat) : World :=
  if w.mem.tallyWins.any fun e => e.2 == some slot then
    bump { w with mem := { w.mem with tallyWins := w.mem.tallyWins.map fun e => if e.2 == some slot then (e.1, none) else e } }
      Obj.MEM_TALLY_SKIP
  else w

/-- The response to an uncorrectable error by area (R116). `unit` and `line` say what it hits: the section's key of a
web-buffer slot; an item and its source line; a tally slot; a group (below 393,216) or the scan `line`; a FIFO
(2 × port + row) and its fire line; a bar. -/
def ueResponse (m : DevState) (area unit : Nat) (line : Int) (w : World) : World :=
  match area with
  | 0 => hostFail w
  | 1 => match mapGet w.mem.wb unit with
    | some x => { w with mem := { w.mem with wb := mapPut w.mem.wb unit { x with ue := true } } }
    | none => w
  | 2 => spoilLine w unit line.toNat
  | 3 => spoilTally w unit
  | 4 =>
    if unit < 393216 then groupError w (unit / 49152) (unit % 49152)
    else { w with ins := { w.ins with lines := w.ins.lines.map fun l =>
      if (l.scan : Int) = line then { l with whole := if l.whole = 0 then 2 else l.whole } else l } }
  | 5 => setFifo w (unit / 2) (unit % 2) ((fifoOf w (unit / 2) (unit % 2)).map fun e =>
      if e.x = line then { e with bad := true } else e)
  | _ => if inPrint m && decide (unit < 8) then sliceFail w unit 3 else w

/-- MEM_UE: an uncorrectable error (R116). -/
def memUe (m : DevState) (area addr unit : Nat) (line : Int) (w : World) : World :=
  ueResponse m area unit line (countUe area addr (dropStruck area true w))

def execMemUe (area addr unit : Nat) (line : Int) (s : State) : Host.Outcome State Fault Refusal :=
  onState (fun s =>
    if area ≤ 6 ∧ powered s.ctl.mode = true then noSliceSafe { s with w := memUe s.ctl.mode area addr unit line s.w } else s) s

/-- A struck word that the scrub finds uncorrectable: the response of its area (R116). A word of the layer store lies in a
line that the spec leaves open. -/
def scrubError (m : DevState) (w : World) (e : Struck) : World :=
  if e.area = 2 then
    match itemAt w e.unit with
    | some it => spoilLine w e.unit (e.addr % max 1 it.height)
    | none => w
  else ueResponse m e.area e.unit e.line w

/-- The patrol scrub reads and corrects every word of the system, layer-store, tally and inspection areas (R115): the web
buffer (area 1) is left out, and SRAM is no area of it. -/
def scrub (m : DevState) (w : World) : World :=
  [0, 2, 3, 4].foldl (fun w a =>
    let (l, w) := readStruck a (fun _ => true) w
    l.foldl (scrubError m) w) w

/-- SCRUB_PASS_DONE (R115): a pass takes MEM_SCRUB_HOURS, and the next begins. -/
def scrubPass (m : DevState) (w : World) : World :=
  if w.clk < w.mem.scrubClk + secClk (3600 * getN w Obj.MEM_SCRUB_HOURS) then w
  else bump { scrub m w with mem := { (scrub m w).mem with scrubClk := w.clk } } Obj.MEM_SCRUB_PASSES

def execScrubPassDone (s : State) : Host.Outcome State Fault Refusal :=
  onState (fun s => if powered s.ctl.mode then noSliceSafe { s with w := scrubPass s.ctl.mode s.w } else s) s

end Sys2Proof.Machine
end

