-- ==== Sys2Proof/Machine/Thermal.lean ====
section
/-! DEFINITION. Thermal management and the power governor (R411 to R422), and the core voltage, the rails and the
reference (R423, R425, R426). -/

namespace Sys2Proof.Machine

def updThm (w : World) (f : Thm → Thm) : World := { w with thm := f w.thm }
def sensorAt (w : World) (n : Nat) : Sensor := w.thm.sensors.getD n Sensor.reset
def updSensor (w : World) (n : Nat) (f : Sensor → Sensor) : World := updThm w fun t => { t with sensors := t.sensors.modify n f }

/-! ### Readings -/

/-- The reading in use (R411, R415): raw plus cross-offset, and THROTTLE + 1 °C of a broken sensor. -/
def inUse (w : World) (n : Nat) : Int :=
  if (sensorAt w n).broken ≠ 0 then getO w (Obj.THM_THROTTLE n) + 16 else (sensorAt w n).raw + getO w (Obj.THM_XOFS n)

/-- The sensors of a zone. -/
def zoneSensors (z : Nat) : List Nat := (List.range 26).filter fun n => thmZone n == z

/-- The mean of a list of readings as a fraction. -/
def meanOf (l : List Int) : Frac := frac (l.foldl (· + ·) 0) l.length

/-- Whether sensor `n` is stuck (R415 kind 4): it has not changed in 60 s while the mean of the others of its zone has
changed by 4 °C, by readings kept each second. -/
def stuck (w : World) (raw : List Int) (n : Nat) : Bool :=
  let m := w.thm.minute
  let others := (zoneSensors (thmZone n)).filter (· != n)
  let mean := fun (l : List Int) => meanOf (others.map fun k => l.getD k 0)
  decide (61 ≤ m.length) && decide ((sensorAt w n).sameClk + secClk 60 ≤ w.clk) &&
    fracLe (fracI 64) (fracAbs (fracSub (mean raw) (mean (m.getLastD raw))))

/-- Why a reading makes its sensor broken: 1 open, 2 short, 3 outside −40 °C to 150 °C (R415). -/
def brokenKind (raw : Int) (diag : Nat) : Nat :=
  if diag = 1 ∨ diag = 2 then diag else if raw < -640 ∨ 2400 < raw then 3 else 0

/-- Broken state of sensor `n` after a reading (R415). -/
def judgeSensor (raws : List Int) (diags : List Nat) (w : World) (n : Nat) : World :=
  let s := sensorAt w n
  let raw := raws.getD n 0
  let k := brokenKind raw (diags.getD n 0)
  let w := updSensor w n fun s => { s with raw := raw, hist := (raw :: s.hist).take 1001
                                           sameClk := if raw = s.raw then s.sameClk else w.clk
                                           goodClk := if k = 0 then some (s.goodClk.getD w.clk) else none }
  if k ≠ 0 ∧ (s.broken = 0 ∨ s.broken = 4) then raise (updSensor w n fun s => { s with broken := k }) Ev.THM_SENSOR_BROKEN n k
  else if s.broken = 0 then
    if stuck w raws n then
      raise (updSensor w n fun s => { s with broken := 4, stuckAt := raw }) Ev.THM_SENSOR_BROKEN n 4
    else w
  else
    let good := match (sensorAt w n).goodClk with | some c => decide (c + secClk 10 ≤ w.clk) | none => false
    let back := if s.broken ≤ 3 then good else if s.broken = 4 then decide (8 ≤ (raw - s.stuckAt).natAbs) else false
    if back then raise (updSensor w n fun s => { s with broken := 0, hist := [raw] }) Ev.THM_SENSOR_BROKEN n 0 else w

/-- THM_WARN of sensor `n` (R412). -/
def judgeWarn (w : World) (n : Nat) : World :=
  let u := inUse w n
  let s := sensorAt w n
  let on := if s.warn then decide (getO w (Obj.THM_WARN n) - getO w Obj.THM_HYST ≤ u) else decide (getO w (Obj.THM_WARN n) ≤ u)
  let w := setO w (Obj.THM_TEMP n) u
  if on = s.warn then w
  else raise (updSensor w n fun s => { s with warn := on }) Ev.THM_WARN n (b2n on * 2147483648 + wrapInt 16 u)

/-- The throttle condition of sensor `n` (R412): 1 threshold, 2 rate, 0 none. -/
def throttleKind (w : World) (n : Nat) : Nat :=
  let u := inUse w n
  let s := sensorAt w n
  if getO w (Obj.THM_THROTTLE n) ≤ u then 1
  else if getF w Obj.THM_CFG 0 1 = 1 ∧ 1001 ≤ s.hist.length ∧
      getO w (Obj.THM_RATE n) < s.raw - s.hist.getLastD s.raw ∧
      getO w (Obj.THM_WARN n) - getO w Obj.THM_RATE_BAND ≤ u then 2
  else 0

/-! ### The power limit -/

/-- A thermal shutdown by the governor (R418 to R420). -/
def govShutdown (s : State) : State := thermalShutdown 3 255 0 s

/-- Set the limit in force and raise GOV_LIMIT (R418). -/
def setLimit (w : World) (v : Int) : World :=
  raise (updThm (setO w Obj.THM_PLIM_EFF v) fun t => { t with stepClk := w.clk }) Ev.GOV_LIMIT 0 v.toNat

/-- A throttle condition that only broken sensors hold. -/
def onlyBroken (w : World) : Bool := w.thm.sensors.all fun s => s.thr == 0 || s.broken != 0

/-- One step down from `start` (R416, R418). -/
def limitStep (start : Int) (s : State) : State :=
  let w := s.w
  let b := onlyBroken w
  if b ∧ getN w Obj.THM_BROKEN_STEPS ≤ w.thm.brokenSteps then { s with w := updThm w fun t => { t with stepClk := w.clk } }
  else
    let v := start - 10 * getO w Obj.THM_STEP_W
    if v < 240 then govShutdown s
    else { s with w := setLimit (updThm w fun t => { t with brokenSteps := t.brokenSteps + b2n b }) v }

/-- The throttle conditions after a poll (R412, R418). -/
def pollThrottle (s : State) : State :=
  let kinds := (List.range 26).map (throttleKind s.w)
  let was := s.w.thm.throttle
  let old := s.w.thm.sensors.map (·.thr)
  let w := (List.range 26).foldl (fun w n => updSensor w n fun x => { x with thr := kinds.getD n 0 }) s.w
  match (List.range 26).find? fun n => kinds.getD n 0 != 0 with
  | some n =>
    if was then { s with w := w }
    else
      let w := raise (updThm w fun t => { t with throttle := true, brokenSteps := 0 }) Ev.THM_THROTTLE n
        (kinds.getD n 0 * 1073741824 + wrapInt 16 (inUse w n))
      limitStep (min (getO w Obj.THM_PLIM_EFF) (getO w Obj.THM_P_IN)) { s with w := w }
  | none =>
    if was then
      let n := ((List.range 26).find? fun n => old.getD n 0 != 0).getD 0
      { s with w := raise (updThm w fun t => { t with throttle := false }) Ev.THM_THROTTLE n 0 }
    else { s with w := w }

/-! ### THM_SENSOR_POLL -/

/-- Zones that are lost for the first time (R416). -/
def newLost (w : World) : List Nat :=
  (List.range 6).filter fun z => !w.thm.zoneLost.contains z && (zoneSensors z).all fun n => (sensorAt w n).broken != 0

/-- Whether every sensor that is not broken reads below WARN − THM_HYST (R418, R422). -/
def allCool (w : World) : Bool :=
  (List.range 26).all fun n =>
    (sensorAt w n).broken != 0 || decide (inUse w n < getO w (Obj.THM_WARN n) - getO w Obj.THM_HYST)

/-- The reference and the oscillator compensation follow their sensors (R379, R380, R426). -/
def noteSensors (old w : World) : World :=
  let bg := (sensorAt w 0).broken != 0
  let w := if bg = old.thm.bgFrozen then w else raise (updThm w fun t => { t with bgFrozen := bg }) Ev.BG_FREEZE 0 (b2n bg)
  let n := getN w Obj.TIM_TC_SENSOR
  let fr := (sensorAt w n).broken != 0
  let w := if fr = w.tim.tcFrozen then w
    else raise { w with tim := { w.tim with tcFrozen := fr } } Ev.TIM_TC_FAULT n (b2n fr)
  { w with tim := { w.tim with tempSamples := (inUse w n :: w.tim.tempSamples).take 1000 } }

/-- A voltage reading corrected for the reference (R423, R426). -/
def bgCorrect (w : World) (mv : Nat) : Int := clampInt 0 65535 (roundDiv ((mv : Int) * (1000000 + getO w Obj.THM_BG_CORR)) 1000000)

/-- The rail voltages of a poll (R423). -/
def noteRails (mv : List Nat) (w : World) : World :=
  let w := (List.range (min 14 mv.length)).foldl (fun w r => setO w (Obj.VMON_MV r) (bgCorrect w (mv.getD r 0))) w
  updThm w fun t => { t with vin := mv.getD 0 t.vin }

/-- THM_SENSOR_POLL: raw readings and diagnostics of the 26 sensors, and the rail voltages in mV (R411 to R416,
R421). -/
def sensorPoll (raws : List Int) (diags mv : List Nat) (s : State) : State :=
  let old := s.w
  let w := noteRails mv ((List.range 26).foldl (judgeSensor raws diags) s.w)
  let w := setO w Obj.THM_BROKEN (ofBits (w.thm.sensors.map fun x => x.broken != 0) : Nat)
  let w := (List.range 26).foldl judgeWarn w
  let w := noteSensors old w
  let p := w.thm.polls + 1
  let w := updThm w fun t => { t with polls := if p = 1000 then 0 else p
                                      minute := if p = 1000 then (raws :: t.minute).take 61 else t.minute
                                      coolClk := if allCool w then some (t.coolClk.getD w.clk) else none }
  let lost := newLost w
  let w := lost.foldl (fun w z => raise (updThm w fun t => { t with zoneLost := t.zoneLost ++ [z] }) Ev.THM_ZONE_LOST z
    (zoneSensors z).length) w
  let s := pollThrottle { s with w := w }
  match (List.range 26).find? fun n => getO s.w (Obj.THM_SHUTDOWN n) ≤ inUse s.w n with
  | some n => thermalShutdown 1 n (inUse s.w n) s
  | none => if lost = [] then s else thermalShutdown 2 255 0 s

def execThmSensorPoll (raws : List Int) (diags mv : List Nat) (s : State) : Host.Outcome State Fault Refusal :=
  onState (fun s => if powered s.ctl.mode then sensorPoll raws diags mv s else s) s

/-- GOV_LIMIT_STEP: a throttle condition has held for THM_STEP_S since the last step (R418). -/
def govLimitStep (s : State) : State :=
  if s.w.thm.throttle ∧ s.w.thm.stepClk + secClk (getN s.w Obj.THM_STEP_S) ≤ s.w.clk then
    limitStep (getO s.w Obj.THM_PLIM_EFF) s
  else s

def execGovLimitStep (s : State) : Host.Outcome State Fault Refusal :=
  onState (fun s => if powered s.ctl.mode then govLimitStep s else s) s

/-- GOV_LIMIT_RECOVER: THM_RECOVER_S with the sensors cool, and again after each further one (R418). -/
def govRecover (w : World) : World :=
  let eff := getO w Obj.THM_PLIM_EFF
  let max_ := getO w Obj.THM_PLIM_W
  match w.thm.coolClk with
  | some c =>
    if w.thm.throttle = false ∧ eff < max_ ∧ max c w.thm.riseClk + secClk (getN w Obj.THM_RECOVER_S) ≤ w.clk then
      setLimit (updThm w fun t => { t with riseClk := w.clk }) (min max_ (eff + 10 * getO w Obj.THM_STEP_W))
    else w
  | none => w

def execGovLimitRecover (s : State) : Host.Outcome State Fault Refusal :=
  onWorld (fun c w => whenDo (powered c.mode) govRecover w) s

/-! ### Shedding -/

/-- LCK_FROW_HZ: the highest demanded row frequency. -/
def frowHz (w : World) : Nat := ((List.range 16).map fun r => (fracFloor (rowDemand w r)).toNat).foldl max 0

/-- The web speed at which the most restrictive row reaches its limit, in lines per second. -/
def vmaxLps (w : World) : Nat :=
  let l := (List.range 8).map fun b => fMax w b * (setSpacing (setFor w b (rowAt w (2 * b)).next)).toNat
  l.foldl min (l.headD 0)

/-- Set the governor's ceiling; LCK_CEILING carries the new maximum in 0.01 m/min. -/
def setCeiling (w : World) (v : Nat) : World :=
  if getN w Obj.LCK_CEIL_HZ = v then w
  else
    let w := setO w Obj.LCK_CEIL_HZ v
    raise w Ev.LCK_CEILING 0 (roundDiv (vmaxLps w * 127 : Nat) 1000).toNat

/-- General codec units: 0 both serve, 1 one, 2 none (R137). -/
def genState (w : World) : Nat :=
  if 1 ≤ getN w Obj.THM_SHED_LEVEL then 2
  else (((w.mem.unitOk.drop 16).take 2).filter (!·)).length

/-- Renew MUS_GEN_STATE; MUS_GEN_SHED as the last unit goes or one comes back (R137). -/
def noteGen (w : World) : World :=
  let old := getN w Obj.MUS_GEN_STATE
  let new := genState w
  let w := setO w Obj.MUS_GEN_STATE new
  if old ≠ 2 ∧ new = 2 then raise w Ev.MUS_GEN_SHED 0 1
  else if old = 2 ∧ new ≠ 2 then raise w Ev.MUS_GEN_SHED 0 0
  else w

/-- Move to a shedding level (R419). -/
def setLevel (w : World) (l : Nat) : World :=
  let w := updThm (setO w Obj.THM_SHED_LEVEL l) fun t => { t with levelClk := w.clk }
  noteGen (raise w Ev.GOV_SHED 0 (l * 268435456 + getN w Obj.THM_P_IN % 65536))

/-- Lower the ceiling (R420). -/
def lowerCeiling (w : World) : World :=
  let c := min (getN w Obj.LCK_CEIL_HZ) (frowHz w)
  let v := max (getN w Obj.THM_CEIL_MIN_HZ) (c * (100 - getN w Obj.THM_CEIL_STEP_PCT) / 100)
  setCeiling (updThm w fun t => { t with lowerClk := w.clk, underClk := none }) v

/-- Keep the times of R419 and R420: within the margin, above the limit, LCK_FROW_HZ at or below the ceiling. -/
def noteGov (w : World) : World :=
  let p := getO w Obj.THM_P_IN
  let eff := getO w Obj.THM_PLIM_EFF
  let since := fun (on : Bool) (t : Option Nat) => if on then some (t.getD w.clk) else none
  updThm w fun t => { t with marginClk := since (decide (p ≤ eff - 10 * getO w Obj.THM_STEP_W)) t.marginClk
                             overClk := since (decide (eff < p)) t.overClk
                             underClk := since (decide (frowHz w ≤ getN w Obj.LCK_CEIL_HZ)) t.underClk }

/-- Whether a clock since which something holds lies `n` clocks back. -/
def heldFor (w : World) (t : Option Nat) (n : Nat) : Bool := match t with | some c => decide (c + n ≤ w.clk) | none => false

/-- GOV_EVAL: the input power of the last 100 ms, in 0.1 W (R417, R419, R420). -/
def govEval (pin : Nat) (s : State) : State :=
  let w := noteGov (setO s.w Obj.THM_P_IN (min 65535 pin : Nat))
  let l := getN w Obj.THM_SHED_LEVEL
  if getO w Obj.THM_P_IN ≤ getO w Obj.THM_PLIM_EFF then { s with w := w }
  else if l < 4 then
    if w.thm.levelClk + msClk 500 ≤ w.clk then
      let w := setLevel w (l + 1)
      { s with w := if l + 1 = 4 then lowerCeiling w else w }
    else { s with w := w }
  else if getN w Obj.LCK_CEIL_HZ ≤ getN w Obj.THM_CEIL_MIN_HZ then
    if heldFor w w.thm.overClk (secClk 10) then govShutdown { s with w := w } else { s with w := w }
  else if heldFor w w.thm.underClk (secClk 1) ∨ w.thm.lowerClk + secClk (getN w Obj.THM_CEIL_WAIT_S) ≤ w.clk then
    { s with w := lowerCeiling w }
  else { s with w := w }

def execGovEval (pin : Nat) (s : State) : Host.Outcome State Fault Refusal :=
  onState (fun s => if powered s.ctl.mode then govEval pin s else s) s

/-- GOV_UNSHED: 10 s within the margin (R419). -/
def govUnshed (w : World) : World :=
  let l := getN w Obj.THM_SHED_LEVEL
  if l = 0 ∨ heldFor w w.thm.marginClk (secClk 10) = false then w
  else if l = 4 then
    if w.thm.raiseClk + secClk 1 ≤ w.clk then
      let c := getN w Obj.LCK_CEIL_HZ
      let v := min 80000 (c * (100 + getN w Obj.THM_CEIL_STEP_PCT) / 100)
      let w := setCeiling (updThm w fun t => { t with raiseClk := w.clk }) v
      if v = 80000 then setLevel (updThm w fun t => { t with undoClk := w.clk }) 3 else w
    else w
  else if w.thm.undoClk + secClk 10 ≤ w.clk then setLevel (updThm w fun t => { t with undoClk := w.clk }) (l - 1)
  else w

def execGovUnshed (s : State) : Host.Outcome State Fault Refusal :=
  onWorld (fun c w => whenDo (powered c.mode) govUnshed w) s

/-! ### Leaving THERMAL_HOLD -/

/-- THERMAL_HOLD is left for CALIBRATE (R422, R437): the hold flag and bit 8 end. -/
def leaveHold (code cause : Nat) (s : State) : State :=
  let w := { s.w with sys := { s.w.sys with holdFlag := false, standby := false, calFrom := true } }
  goTo cause .calibrate { s with w := raise (stopSrc w 8 false) Ev.THM_ACK 0 code }

/-- An accepted write of 1 to THM_ACK (R422). -/
def thmAck (source : Nat) (s : State) : State :=
  if s.ctl.mode = .thermalHold ∧ allCool s.w = true then leaveHold 1 1 s
  else { s with w := adjust s.w Obj.THM_ACK 6 source 1 0 }

/-- THM_AUTO_RESUME_EXIT (R422). -/
def autoResume (s : State) : State :=
  let w := s.w
  if s.ctl.mode = .thermalHold ∧ getO w Obj.THM_AUTO_RESUME = 1 ∧ (w.thm.sensors.all fun x => x.broken == 0) = true ∧
      heldFor w w.thm.coolClk (secClk (getN w Obj.THM_RECOVER_S)) = true then leaveHold 2 3 s
  else s

def execThmAutoResumeExit (s : State) : Host.Outcome State Fault Refusal := onState autoResume s

/-! ### Core voltage and reference -/

/-- The oscillator with the least slack among those whose count lies within ±30 % of its target (R425). -/
def leastSlack (slack : List Int) : Option (Nat × Int) :=
  (((List.range 16).map fun i => (i, slack.getD i 0)).filter fun e => e.2.natAbs ≤ 300).foldl
    (fun acc e => match acc with
      | none => some e
      | some a => if e.2 < a.2 then some e else some a) none

/-- Set VCORE. -/
def setVcore (w : World) (v : Int) : World :=
  if getO w Obj.THM_VCORE_MV = v then w
  else updThm (bump (setO w Obj.THM_VCORE_MV v) Obj.THM_AVS_STEPS) fun t => { t with vcoreClk := w.clk }

/-- AVS_STEP: the slack of the 16 oscillators in 0.1 % (R425). From power-up until CALIBRATE VCORE holds at 800 mV. -/
def avsStep (slack : List Int) (w : World) : World :=
  let w := (List.range 16).foldl (fun w i => setO w (Obj.THM_RO_SLACK i) (clampInt (-32768) 32767 (slack.getD i 0))) w
  let v := getO w Obj.THM_VCORE_MV
  let hold := !w.thm.avsOn || getF w Obj.THM_CFG 2 1 == 0
  let w := match leastSlack slack with
    | none => setVcore w 800
    | some (_, x) =>
      if hold then setVcore w 800
      else if x < getO w Obj.THM_AVS_MARGIN then setVcore w (min 800 (v + 5))
      else if getO w Obj.THM_AVS_MARGIN + 20 < x then setVcore w (max 700 (v - 5))
      else w
  match leastSlack slack with
  | some (i, x) =>
    if x < 0 ∧ getO w Obj.THM_VCORE_MV = 800 ∧ stampOk w w.thm.slowClk (secClk 3600) = true then
      raiseInt (updThm w fun t => { t with slowClk := some w.clk }) Ev.PROC_SLOW i x
    else w
  | none => w

def execAvsStep (slack : List Int) (s : State) : Host.Outcome State Fault Refusal :=
  onWorld (fun c w => whenDo (powered c.mode) (avsStep slack) w) s

/-- V_bg at a temperature in °C: the quadratic through the three factory points (R426). -/
def bgVolt (t : Frac) : Frac :=
  let d := fun (x : Int) => fracSub t (fracI x)
  let term := fun (v : Nat) (a b : Int) (den : Int) =>
    fracDiv (fracScale (fracMul (d a) (d b)) v) (fracI den)
  fracAdd (fracAdd (term Config.bgCold.toNat 40 110 7800) (term Config.bgMid.toNat (-20) 110 (-4200)))
    (term Config.bgHot.toNat (-20) 40 9100)

/-- The correction that the reference asks for at the mean reading of sensor 0 over 1 s, in ppm. -/
def bgTarget (w : World) : Int :=
  let h := (sensorAt w 0).hist.take 1000
  let t := fracDiv (meanOf (h.map (· + getO w (Obj.THM_XOFS 0)))) (fracI 16)
  let r := fracDiv (fracI Config.bgMid.toNat) (bgVolt t)
  clampInt (-5000) 5000 (fracRound (fracScale (fracSub r (fracI 1)) 1000000))

/-- BG_RENEW (R426); before sensor 0 was read the correction stands. -/
def bgRenew (w : World) : World :=
  let c := getO w Obj.THM_BG_CORR
  if getF w Obj.THM_CFG 1 1 = 0 then setO w Obj.THM_BG_CORR 0
  else if w.thm.bgFrozen ∨ (sensorAt w 0).hist = [] then w
  else setO w Obj.THM_BG_CORR (clampInt (c - 50) (c + 50) (bgTarget w))

def execBgRenew (s : State) : Host.Outcome State Fault Refusal :=
  onWorld (fun c w => whenDo (powered c.mode) bgRenew w) s

/-! ### Cross-offsets -/

/-- Twice the median of a zone's sums of eight readings. -/
def median2 (l : List Int) : Int :=
  let s := l.foldl (fun acc x => (acc.filter (· < x)) ++ [x] ++ acc.filter (x ≤ ·)) ([] : List Int)
  let n := s.length
  if n % 2 = 1 then 2 * s.getD (n / 2) 0 else s.getD (n / 2 - 1) 0 + s.getD (n / 2) 0

/-- Cross-offsets of zone `z` from the sums of eight raw readings of each sensor (R414). -/
def crossZone (sums : List Int) (w : World) (z : Nat) : World :=
  let l := zoneSensors z
  let v := l.map fun n => sums.getD n 0
  let lo := v.foldl min (v.headD 0)
  let hi := v.foldl max (v.headD 0)
  if 768 < hi - lo then w
  else
    l.foldl (fun w n =>
      let d := median2 v - 2 * sums.getD n 0
      if 768 < d.natAbs then raise (updSensor w n fun s => { s with broken := 5 }) Ev.THM_SENSOR_BROKEN n 5
      else setNv w (Obj.THM_XOFS n) (roundDiv d 16)) w

/-- The cross-offsets of the start-up (R414): the stored ones, then those of the zones that meet the condition. -/
def crossOffsets (sums : List Int) (w : World) : World :=
  let w := (List.range 26).foldl (fun w n =>
    setO w (Obj.THM_XOFS n) ((mapGet w.dict.fram (Obj.THM_XOFS n)).getD 0)) w
  let w := (List.range 5).foldl (crossZone sums) w
  setO w Obj.THM_BROKEN (ofBits (w.thm.sensors.map fun x => x.broken != 0) : Nat)

/-! ### What the objects show -/

/-- THM_STATUS. -/
def thmStatus (m : DevState) (w : World) : Nat :=
  let slow := match leastSlack ((List.range 16).map fun i => getO w (Obj.THM_RO_SLACK i)) with
    | some (_, x) => decide (x < 0) && getO w Obj.THM_VCORE_MV == 800
    | none => false
  ofBits ((List.range 6).map fun z => w.thm.zoneLost.contains z) * 16777216 + getN w Obj.THM_SHED_LEVEL % 8 * 65536 +
    ofBits [w.thm.armed, w.thm.bgFrozen, slow, w.thm.sensors.any (fun x => x.broken != 0), (List.range 26).any (fun n => getO w (Obj.THM_WARN n) ≤ inUse w n),
      w.thm.throttle, decide (getN w Obj.LCK_CEIL_HZ < 80000), m == .thermalHold]

/-- VMON_STATUS. -/
def vmonStatus (w : World) : Nat := (w.thm.rails.zip (List.range 14)).foldl (fun acc e => acc + e.1 % 4 * 4 ^ e.2) 0

/-- SUP_TEMP_SENSOR and SUP_TEMP_MAX: the hottest reading, of the lowest-numbered sensor. -/
def hottest (w : World) : Nat × Int :=
  (List.range 26).foldl (fun acc n => if acc.2 < tempOf w n then (n, tempOf w n) else acc) (0, tempOf w 0)

end Sys2Proof.Machine
end

