-- ==== Sys2Proof/Machine/Power.lean ====
section
/-! DEFINITION. Rails, power failure, save mode and the reference clock (R423, R424, R427 to R432, R466), and the
lifetime counters (R430). -/

namespace Sys2Proof.Machine

/-! ### Power failure -/

/-- A power failure is detected (R428, R429 step 1): VIN below the threshold (kind 1, instance 0), a rail fault or the
loss of the reference (kind 4 with its REASON). What is staged and what waits for FRAM is kept for POWER_SAVE_DONE. -/
def powerFail (kind inst mv : Nat) (s : State) : State :=
  let w := { s.w with sup := { s.w.sup with outs := 0 } }
  let w := raise (supSafe (stopSrc w 11 true) 3) Ev.PWR_FAIL inst mv
  let w := if kind = 1 then setNv w Obj.THM_LIFE_PF (wrapBits 32 (getN w Obj.THM_LIFE_PF + 1) : Nat) else w
  let w := putJournal w { journalRec s.ctl.mode w kind 255 (if kind = 1 then 0 else inst) with tail := false }
  let t := setMode 3 .off { s with w := updThm w fun t => { t with saving := true, saveMode := true, armed := false } }
  let w := settle t.w
  let b := setO (bootWorld w w.dict.framWait w.evt.staging) Obj.SUP_STOP_SRC 0x800
  -- VHR_CTL holds its duty (R295).
  let b := setO { b with voi := { b.voi with vhr := w.voi.vhr } } Obj.VOI_HR_DUTY (getO w Obj.VOI_HR_DUTY)
  { t with ctl := { t.ctl with sec := bootSec w.clk t.ctl.sec }, w := b }

/-- POWER_FAIL: VIN has been below the threshold in use for 2 µs (R427, R428). -/
def powerLoss (mv : Nat) (s : State) : State :=
  if s.w.thm.armed ∧ powered s.ctl.mode ∧ (mv : Int) < getO s.w Obj.THM_PF_ACT then
    powerFail 1 0 mv { s with w := updThm s.w fun t => { t with vin := mv } }
  else s

def execPowerFail (mv : Nat) (s : State) : Host.Outcome State Fault Refusal := onState (powerLoss mv) s

/-! ### Rails -/

/-- The code of a rail in VMON_STATUS: 0 OK, 1 low warning, 2 high warning, 3 fault. -/
def railCode (level : Nat) (high : Bool) : Nat := match level with | 0 => 0 | 1 => if high then 2 else 1 | _ => 3

/-- VMON_CROSSING of rail `r` (R423, R424): it lies within its thresholds (0), beyond a warning (1) or a fault
threshold (2). VIN has no low fault. In standby the monitors run on, and a fault is no power failure any more. -/
def railCross (r level : Nat) (high : Bool) (mv : Nat) (s : State) : State :=
  let old := s.w.thm.rails.getD r 0
  let new := railCode level high
  if 14 ≤ r ∨ old = new ∨ powered s.ctl.mode = false ∨ (r = 0 ∧ new = 3 ∧ high = false) then s
  else
    let w := updThm s.w fun t => { t with rails := t.rails.set r new }
    if new = 3 then
      let w := raise (bump w Obj.VMON_FAULTS) Ev.VMON_FAULT r (b2n high * 1073741824 + mv % 65536)
      -- PWR_FAIL shows VIN for every rail.
      let w := if r = 0 then updThm w fun t => { t with vin := mv } else w
      if w.thm.armed then powerFail 4 r w.thm.vin { s with w := w } else { s with w := w }
    else if new = 0 then
      { s with w := raise w Ev.VMON_WARN r (b2n (old == 2) * 1073741824 + mv % 65536) }
    else { s with w := raise w Ev.VMON_WARN r (2147483648 + b2n high * 1073741824 + mv % 65536) }

def execVmonCrossing (r level : Nat) (high : Bool) (mv : Nat) (s : State) : Host.Outcome State Fault Refusal :=
  onState (railCross r level high mv) s

/-! ### The reference clock -/

/-- REFCLK_FAIL (R466): before power-up the reference is only absent; later its loss is a rail fault with REASON 14. -/
def refFail (s : State) : State :=
  let t := { s with w := { s.w with sys := { s.w.sys with refclk := false } } }
  if s.w.sys.refclk ∧ powered s.ctl.mode ∧ s.w.thm.armed ∧ s.w.sys.railHold = false then powerFail 4 14 s.w.thm.vin t
  else t

def execRefclkFail (s : State) : Host.Outcome State Fault Refusal := onState refFail s

/-- REFCLK_RETURN (R466). -/
def execRefclkReturn (s : State) : Host.Outcome State Fault Refusal :=
  onWorld (fun _ w => { w with sys := { w.sys with refclk := true } }) s

/-! ### The save and its end -/

/-- Kind 4 records within 600 s of the newest one, by their PTP seconds (R424). -/
def railFaults (j : List JrnRec) : Nat :=
  match j.head? with
  | some n => (j.filter fun r => r.kind == 4 && r.valid &&
      decide (r.ptpSec ≤ n.ptpSec + 600) && decide (n.ptpSec ≤ r.ptpSec + 600)).length
  | none => 0

/-- Steps 2 to 4 of R429: pending values and staged events are in FRAM, the record's tail follows. -/
def saveTail (w : World) : World :=
  let n := w.evt.staging.length
  let w := w.dict.framWait.foldl (fun w e => framPut w e.1 e.2.1) { w with dict := { w.dict with framWait := [] } }
  let w := w.evt.staging.foldl logPut { w with evt := { w.evt with staging := [] } }
  updThm w fun t => { t with saving := false, journal := t.journal.modifyHead fun r => { r with tail := true, tailEvt := n } }

/-- POWER_SAVE_DONE: save mode, or the standby of R424 on the third rail fault within 600 s. -/
def saveDone (s : State) : State :=
  if s.w.thm.saving ∧ s.ctl.mode = .off then
    let w := saveTail s.w
    let third := ((w.thm.journal.head?).any fun r => r.kind == 4) && decide (3 ≤ railFaults w.thm.journal)
    if third then
      let w := { w with sys := { w.sys with voted := true, standby := true, railHold := true } }
      setMode 3 .safe { s with w := raise w Ev.PWR_STANDBY 0 2 }
    else { s with w := w }
  else s

def execPowerSaveDone (s : State) : Host.Outcome State Fault Refusal := onState saveDone s

/-- VIN_OFF: VIN falls below 6 V in save mode or in the standby of R424; a save not complete stays torn. -/
def vinOff (s : State) : State :=
  if (s.ctl.mode = .off ∧ s.w.thm.saveMode) ∨ s.w.sys.railHold then
    let w := bootWorld s.w [] []
    { s with ctl := { s.ctl with mode := .off, sec := bootSec s.w.clk s.ctl.sec }
             w := updThm w fun t => { t with vin := 0, saving := false, saveMode := false } }
  else s

def execVinOff (s : State) : Host.Outcome State Fault Refusal := onState vinOff s

/-! ### Power-up -/

/-- The stored power-fail threshold. -/
def storedPf (w : World) : Int := (mapGet w.dict.fram Obj.THM_PF_MV).getD (objDefault Obj.THM_PF_MV)

/-- OFF to BOOT with the threshold `act` (R427, R437). -/
def powerUp (act : Int) (low : Bool) (mv : Nat) (s : State) : State :=
  let why := if s.w.thm.saveMode then 3 else 0
  let w := setO (setO (bootWorld s.w [] []) Obj.SYS_RESET_CAUSE why) Obj.THM_PF_ACT act
  let w := updThm w fun t => { t with vin := mv, armed := true, saveMode := false, pfLow := low }
  let w := if low then raise w Ev.PWR_PF_LOW 0 (storedPf s.w).toNat else w
  setMode 2 .boot { s with ctl := { s.ctl with sec := bootSec s.w.clk s.ctl.sec }, w := w }

/-- VIN_VALID: VIN has been above the stored threshold + 500 mV for 10 ms (R427, R432). -/
def vinValid (mv : Nat) (s : State) : State :=
  if s.ctl.mode = .off ∧ s.w.thm.saving = false ∧ storedPf s.w + 500 < mv then powerUp (storedPf s.w) false mv s else s

def execVinValid (mv : Nat) (s : State) : Host.Outcome State Fault Refusal := onState (vinValid mv) s

/-- PWR_PF_LOW: VIN has been between 6.5 V and a stored threshold above it for 5 s (R427). -/
def pfLow (mv : Nat) (s : State) : State :=
  if s.ctl.mode = .off ∧ s.w.thm.saving = false ∧ 6500 ≤ mv ∧ (mv : Int) < storedPf s.w then powerUp 6500 true mv s else s

def execPwrPfLow (mv : Nat) (s : State) : Host.Outcome State Fault Refusal := onState (pfLow mv) s

/-! ### Lifetime counters -/

/-- LIFE_COUNTER_RENEW (R430): powered hours and fired lines are renewed in FRAM. -/
def lifeRenew (w : World) : World :=
  let h := (w.clk - w.thm.hourClk) / secClk 3600
  let lines := lifeLines w
  let w := setNv (setNv w Obj.THM_LIFE_HOURS (wrapBits 32 (lifeHours w) : Nat)) Obj.THM_LIFE_LINES lines
  updThm w fun t => { t with hourClk := t.hourClk + h * secClk 3600, lines := 0 }

def execLifeCounterRenew (s : State) : Host.Outcome State Fault Refusal :=
  onWorld (fun c w => whenDo (powered c.mode) lifeRenew w) s

end Sys2Proof.Machine
end

