-- ==== Sys2Proof/Machine/Startup.lean ====
section
/-! DEFINITION. Start-up (R443 to R447): the phases from VIN-valid to IDLE, the debug port (R456), the event log's own
commands (R453 to R455), and the end of stores (R329). -/

namespace Sys2Proof.Machine

/-! ### BOOT -/

/-- FIRST_VOTED_CYCLE (R390, R414): the cross-offsets from the sums of eight readings of each sensor; BOOT_HOLD ends,
and what STOP_IN_N asks for acts. -/
def firstVoted (sums : List Int) (s : State) : State :=
  if s.ctl.mode = .boot ∧ s.w.sys.voted = false then
    let w := crossOffsets sums s.w
    let w := stopSrc { w with sys := { w.sys with voted := true } } 10 false
    let w := updSup w fun x => { x with outs := demand s.ctl.mode w }
    if w.sup.stopLow then stopInLow { s with w := w } else { s with w := w }
  else s

def execFirstVotedCycle (sums : List Int) (s : State) : Host.Outcome State Fault Refusal := onState (firstVoted sums) s

/-- HOST_BOOT_DONE (R444): `image` 0 newest, 1 previous (with why: 1 signature, 2 compatibility), 2 none accepted. -/
def hostBoot (image why : Nat) (w : World) : World :=
  if image = 2 then raise { w with sys := { w.sys with bootFail := true } } Ev.SYS_BOOT_FAIL 0 0
  else
    let w := if image = 0 then w else raise (setO w Obj.SYS_BOOT_IMAGE 1) Ev.SYS_FW_FALLBACK 0 why
    let w := updSup (setO { w with sys := { w.sys with hostUp := true } } Obj.SUP_HOST_STATE 0) fun x => { x with hostClk := w.clk }
    raise w Ev.SYS_BOOT 0 (getN w Obj.SYS_RESET_CAUSE * 268435456 + (Config.fwMajor image).toNat * 65536 +
      (Config.fwMinor image).toNat * 256 + (Config.fwPatch image).toNat)

def execHostBootDone (image why : Nat) (s : State) : Host.Outcome State Fault Refusal :=
  onWorld (fun c w => whenDo (c.mode == .boot && w.sys.voted && w.sys.refclk && !w.sys.hostUp && !w.sys.bootFail &&
    decide (image ≤ 2)) (hostBoot image why) w) s

/-- DRAM_INIT_DONE (R117): every location holds 0. -/
def dramInit (w : World) : World :=
  { w with sys := { w.sys with dramDone := true }
           mem := { w.mem with ready := true, scrubClk := w.clk, struck := [], items := [], wb := [], tally := [], tallyWins := [] } }

def execDramInitDone (s : State) : Host.Outcome State Fault Refusal :=
  onWorld (fun c w => whenDo (c.mode == .boot && w.sys.hostUp) dramInit w) s

/-! ### Stored values -/

/-- One stored value: in force, and in the shadow of a C object; a damaged one takes its default (R444). -/
def loadValue (damaged : List Nat) (w : World) (e : Nat × Int) : World :=
  if damaged.contains e.1 then
    let d := objDefault e.1
    let w := { w with dict := { w.dict with fram := mapDel w.dict.fram e.1 } }
    raise (setSh (setO w e.1 d) e.1 d) Ev.SYS_NVM_DEFAULT 0 (e.1 / 256 * 65536 + e.1 % 256 * 256)
  else
    let w := setO w e.1 e.2
    if isC e.1 then setSh w e.1 e.2 else w

/-- The stored tables: in force, shadows and records (R71, R198, R206, R314). -/
def loadTables (w : World) : World :=
  { w with dict := { w.dict with tbl := mapMerge w.dict.tbl w.dict.nor
                                 tblShadow := mapMerge w.dict.tblShadow (mapFilter w.dict.nor isCTbl)
                                 hostName := w.dict.hostNameNv }
           lck := { w.lck with align := w.nvm.align }
           jq := { w.jq with recs := w.nvm.heads }
           loop := { w.loop with recs := w.nvm.loops } }

/-- The plan that the stored values make (R98, R99). -/
def loadPlan (w : World) : World :=
  let w := clampPlanNow w
  let t := getN w Obj.MEM_TALLY_WIN
  let i := getN w Obj.MEM_INS_MIB
  setO { w with mem := { w.mem with tallyWin := t, insMib := i } } Obj.MEM_LS_MIB (planStore t i)

/-- The heartbeat's and the boot-up message's identifier is 0x700 + node (R354). -/
def canSendNmt (v : Nat) (w : World) : World := send w (.can (0x700 + w.can.node) [v] false)

/-- Communication objects with a stored value, by their keys: EMCY, heartbeat, TPDO parameters and mappings (R354). -/
def canKeys : List Nat :=
  [Obj.NET_CAN_EMCY_COB, Obj.NET_CAN_EMCY_INH, Obj.NET_CAN_HB_PROD] ++ (List.range 4).map Obj.NET_CAN_HB_CONS ++
    (List.range 4).flatMap fun t => [0, 1, 2, 4].map (Obj.NET_CAN_TPDO_COMM t) ++ (List.range 17).map (Obj.NET_CAN_TPDO_MAP t)

/-- The default of a communication object with a node ID: the COB-IDs of CiA 301 (R354, R358). -/
def canDefault (node k : Nat) : Int :=
  if k = Obj.NET_CAN_EMCY_COB then (0x80 + node : Nat)
  else if (List.range 4).any (fun t => k == Obj.NET_CAN_TPDO_COMM t 0) then objDefault k - 32 + (node : Nat)
  else objDefault k

/-- The bit timing of P, N and a sample point in per cent (R353). -/
def bitTiming (p n sp : Nat) : BitTiming :=
  let s := (roundDiv (n * sp : Nat) 100).toNat
  { p := p, n := n, sample := s, seg2 := n - s, sjw := n - s }

/-- The timing of the arbitration phase and of the data phase for the rates of NET_CAN_CFG, and whether transmitter delay
compensation is on (R352, R353). -/
def canTiming (w : World) (cfg : Nat) : BitTiming × BitTiming × Bool :=
  let sp := getN w Obj.NET_CAN_SP_DATA
  (bitTiming ([8, 4, 2, 1].getD (field cfg 3 2) 8) 125 (getN w Obj.NET_CAN_SP_ARB),
   match field cfg 5 2 with | 1 => bitTiming 1 50 sp | 2 => bitTiming 1 25 sp | _ => bitTiming 1 125 sp,
   field cfg 5 2 == 1 || field cfg 5 2 == 2)

/-- INITIALISATION (R353, R354): the configuration and node ID in force, the communication objects at their stored
values, and PRE-OPERATIONAL with its boot-up message where the port is enabled. -/
def canStart (w : World) : World :=
  let node := getN w Obj.NET_CAN_NODE
  let cfg := getO w Obj.NET_CAN_CFG
  let w := canKeys.foldl (fun w k => setO w k ((mapGet w.dict.fram k).getD (canDefault node k))) w
  let on := bitOf cfg.toNat 0
  let (arb, fast, tdc) := canTiming w cfg.toNat
  let w := { w with can := { w.can with arb := arb, fast := fast, tdc := tdc, nmt := b2n on, cfg := cfg, node := node, hbClk := w.clk, hb := [], sdo := none
                                        tpdoClk := List.replicate 4 w.clk, tpdoLast := List.replicate 4 0 } }
  let w := stopSrc w 4 false
  if on then canSendNmt 0 w else w

/-- SYS_BGEN_ACTIVE from the pin that the boot found (R13, R15); a pin whose stored value is damaged is 0 (R444). -/
def loadBgen (damaged : List Nat) (w : World) : World :=
  let pin := if damaged.contains Obj.SYS_BGEN_PIN then 0 else w.sys.bgenPin
  let native := Config.bgenNative (runImage w)
  setO w Obj.SYS_BGEN_ACTIVE (if pin = 0 then native else min pin native : Nat)

/-- What follows the stored values: the power limit (R417), inspection and Voile. -/
def loadSettings (w : World) : World :=
  let w := setO w Obj.THM_PLIM_EFF (getO w Obj.THM_PLIM_W)
  let w := rateClamp (setO w Obj.VOI_I_GLB_EFF (getO w Obj.VOI_I_GLB))
  let w := updIns w fun i => { i with set := liveSet w }
  setO (setDuty w (getO w Obj.VOI_HR_INIT)) Obj.CHL_HEAD_ENTRIES w.loop.recs.length

/-- The lifetime counters of a newer journal record (R430). -/
def loadLife (w : World) (r : JrnRec) : World :=
  setNv (setNv (setNv (setNv w Obj.THM_LIFE_LINES r.lifeLines) Obj.THM_LIFE_HOURS r.lifeHours)
    Obj.THM_LIFE_PF r.lifePf) Obj.THM_LIFE_SHUT r.lifeShut

/-- Cause 14 for the rows that a power failure interrupted (R431). -/
def loadDefects (w : World) (r : JrnRec) : World :=
  (List.range 16).foldl (fun w i =>
    if r.rowFrame.getD i 0 = 0 then w
    else newDefect w { frame := r.rowFrame.getD i 0, start := r.lastFired.getD i 0 + 1, stop := r.rowEnd.getD i 0, row := i
                       cause := 14, et := r.et, lines := 0, isOpen := true }) w

/-- The journal at boot (R430, R431, R433). -/
def loadJournal (w : World) : World :=
  let w := noteJournal w
  match w.thm.journal.head? with
  | none => w
  | some n =>
    if n.seq ≤ w.thm.jrnBoot then w
    else
      let w := match w.thm.journal.find? fun r => r.valid && decide (w.thm.jrnBoot < r.seq) with
        | some r =>
          let w := loadLife w r
          let w := if r.kind = 1 ∨ r.kind = 4 then loadDefects w r else w
          raise w Ev.PWR_JOURNAL 0 (r.kind * 268435456 + b2n r.tail * 134217728 + r.seq % 16777216)
        | none => w
      let w := if n.valid ∧ n.tail then w else raise w Ev.PWR_TORN 0 n.seq
      updThm w fun t => { t with jrnBoot := n.seq }

/-- STORED_VALUES_LOADED (R443): `damaged` names the stored values whose FRAM check fails. -/
def storedLoaded (damaged : List Nat) (s : State) : State :=
  let y := s.w.sys
  if s.ctl.mode = .boot ∧ y.voted ∧ y.hostUp ∧ y.dramDone then
    let w := s.w.dict.fram.foldl (loadValue damaged) s.w
    let w := canStart (timMode (loadJournal (loadSettings (loadBgen damaged (loadPlan (loadTables w))))))
    let w := ptpEval (prbAfresh (webSelftest (restoreImages w)))
    goTo 2 .selftest { s with w := { w with sys := { w.sys with loaded := true } } }
  else s

/-! ### SELFTEST -/

/-- Serge cores that fail their test (R409). -/
def testCores (f : Nat) (w : World) : World :=
  (List.range 3).foldl (fun w c =>
    if bitOf f c then
      raise (updCore (bump w Obj.SUP_OUTVOTES) c fun x => { x with st := .out, agree := 0 }) Ev.SUP_OUTVOTE c
        (2 * 16777216 + ((coreAt w c).outAt.length + 1) % 16777216)
    else w) w

/-- Voters whose read-back fails (R409). -/
def testVoters (f : Nat) (w : World) : World :=
  if f % 33554432 = 0 then w
  else supSafe (updSup w fun x => { x with voters := (List.range 25).map fun i => x.voters.getD i true && !bitOf f i }) 6

/-- A unit that failed raises its event with the test step that failed. -/
def testFail (t : SelfTest) (code : Nat) (w : World) (inst : Nat) : World :=
  let step := match t.steps.find? fun e => e.1 == code && e.2.1 == inst with | some e => e.2.2 | none => 0
  raise w code inst step

/-- The units of a mask that failed, in increasing order. -/
def testFails (t : SelfTest) (code n f : Nat) (w : World) : World :=
  ((List.range n).filter (bitOf f)).foldl (testFail t code) w

/-- Codec units (R145), with the slices whose decode unit failed. -/
def testMuslin (t : SelfTest) (f : Nat) (w : World) : World :=
  let w := testFails t Ev.MUS_UNIT_FAULT 18 f w
  let w := { w with mem := { w.mem with unitOk := (List.range 18).map fun u => w.mem.unitOk.getD u true && !bitOf f u } }
  noteGen (setO w Obj.MUS_UNIT_OK (ofBits w.mem.unitOk : Nat))

/-- Calico's paths (R173). -/
def testCalico (t : SelfTest) (f : Nat) (w : World) : World :=
  let w := testFails t Ev.CAL_PATH_FAULT 13 f w
  { w with cal := { w.cal with pathOk := f % 8192 == 0 } }

/-- Bar slices (R205): the spare takes the first bar whose slice failed. -/
def testSlices (t : SelfTest) (f : Nat) (w : World) : World :=
  let w := testFails t Ev.JQ_SLICE_FAULT 9 f w
  let w := setO w Obj.JQ_SLICE_OK (ofBits ((List.range 9).map fun i => bitOf (getN w Obj.JQ_SLICE_OK) i && !bitOf f i) : Nat)
  match (List.range 8).find? fun b => !bitOf (getN w Obj.JQ_SLICE_OK) (getN w (Obj.JQ_BAR_SLICE b)) with
  | some b => if spareOk w then swapSlice w b else w
  | none => w

/-- Fire schedulers (R228). -/
def testFire (t : SelfTest) (f : Nat) (w : World) : World :=
  (List.range 16).foldl (fun w p =>
    let w := updPort w p fun x => { x with unitOk := !bitOf f p }
    if bitOf f p then testFail t Ev.FIR_UNIT_FAULT w p else w) w

/-- Inspection units 0 to 2 and Voile's sinks (R293). -/
def testInspect (t : SelfTest) (f sinks : Nat) (w : World) : World :=
  let w := testFails t Ev.INS_UNIT_FAULT 3 f w
  let w := ((List.range 32).filter (bitOf sinks)).foldl (fun w c => testFail t Ev.INS_UNIT_FAULT w (32 + c)) w
  let w := updIns w fun i => { i with unitOk := f % 8 == 0 }
  updVoi w fun v => { v with unitOk := true, sinkOk := (List.range 32).map fun c => !bitOf sinks c }

/-- SELFTEST_DONE (R447) with what failed. A unit whose SRAM failed is named with its kind; a slice whose decode unit
failed is failed (R145). -/
def selftestDone (t : SelfTest) (s : State) : State :=
  if s.ctl.mode = .selftest then
    let mus := t.muslin % 262144
    let slices := (t.slices % 512) ||| (mus / 128 % 512)
    let mask := ofBits [t.cores % 8 != 0, t.voters % 33554432 != 0, t.sram, mus != 0, t.calico % 8192 != 0, t.slices % 512 != 0,
      t.fire % 65536 != 0, t.links % 16777216 != 0, t.ins % 8 != 0 || t.sinks % 4294967296 != 0]
    let w := testSlices t slices (testCalico t t.calico (testMuslin t mus (testVoters t.voters (testCores t.cores s.w))))
    let w := testInspect t t.ins t.sinks (linkSelftest (testFire t t.fire w) ((List.range 24).map fun i => !bitOf t.links i) t.delays)
    let few := decide (votingCores w < 2)
    let w := updSup w fun x => { x with safePending := x.safePending || few }
    let w := raise (setO w Obj.SYS_SELFTEST_FAIL mask) Ev.SYS_SELFTEST 0 mask
    goTo 2 (if w.sys.holdFlag then .thermalHold else .calibrate) { s with w := w }
  else s

def execSelftestDone (t : SelfTest) (s : State) : Host.Outcome State Fault Refusal := onState (selftestDone t) s

/-! ### CALIBRATE -/

/-- The pulses of row k in the first scan of CALIBRATE: every pair in use is stretched (R294). -/
def calPulses (w : World) (k : Nat) : List (Nat × Nat × Bool) :=
  (List.range 32).map fun c =>
    (c, if pairInUse w k c then (max (pulseClocks w.ins.set w.ins.scan k c) 469, true) else (0, false))

/-- Before that scan: its one measurement decides the status of each pair, so that every pair leaves UNVERIFIED (R294;
DEDUCED, log 85). -/
def calPairs (w : World) : World :=
  updVoi w fun v => { v with pairs := v.pairs.map fun p => { p with st := 3, opens := 1, shorts := 1, cleans := 0 } }

/-- A scan without cameras (R294), its samples by row; `first` says that it is the first one. -/
def calScan (first : Bool) (meas : List (List (Nat × Nat))) (w : World) : World :=
  let w := updVoi (dutyBump w) fun v => { v with low := false, energy := 0 }
  let w := (List.range 8).foldl (fun w k =>
    rowPulses k (if first then calPulses w k else slotPulses w k) (meas.getD k []) w) w
  let every := getN w Obj.INS_DARK_EVERY
  hrPeriodEnd (endScan (if every ≠ 0 ∧ w.ins.scan % every = 0 then 9 else 8) w)

/-- The scans of 200 ms (R294). -/
def calScans (w : World) : Nat := msClk 200 / (8 * slotClocks w)

/-- The Voile scan of CALIBRATE: the loop starts from VOI_HR_INIT, and the samples come by scan and row. The first scan
decides the status of the pairs; of the later ones those count that 200 ms hold. -/
def calVoile (first : List (List (Nat × Nat))) (later : List (List (List (Nat × Nat)))) (w : World) : World :=
  let w := takeSettings w
  let w := updVoi w fun v => { v with vMin := none, hrScans := 0, low := false, lowPeriod := false, bump := false }
  let w := setDuty w (getO w Obj.VOI_HR_INIT)
  (later.take (calScans w - 1)).foldl (fun w m => calScan false m w) (calScan true first (calPairs w))

/-- CALIBRATE_DONE (R445): `done` says that steps 1 to 3 have ended; VCORE must have stood for 1 s. After 5.5 s
CALIBRATE ends anyway. -/
def calibrateDone (done : Bool) (sinks : Nat) (first : List (List (Nat × Nat))) (later : List (List (List (Nat × Nat))))
    (s : State) : State :=
  let w := s.w
  let stable := done && decide (w.thm.vcoreClk + secClk 1 ≤ w.clk)
  let limit := decide (w.sys.enterClk + msClk 5500 ≤ w.clk)
  if s.ctl.mode = .calibrate ∧ (stable ∨ limit) then
    let ms := clkMs (w.clk - w.sys.enterClk)
    let w := setO (calVoile first later (sinksFail sinks w)) Obj.SYS_CAL_MS ms
    let w := raise w Ev.SYS_CAL_DONE 0 (b2n (!stable) * 2147483648 + ms % 2147483648)
    let s := goTo 2 .discover { s with w := w }
    { s with w := discoverAll s.w }
  else s

def execCalibrateDone (done : Bool) (sinks : Nat) (first : List (List (Nat × Nat)))
    (later : List (List (List (Nat × Nat)))) (s : State) : Host.Outcome State Fault Refusal :=
  onState (calibrateDone done sinks first later) s

/-! ### DISCOVER -/

/-- Whether a link has ended its discovery. -/
def linkSettled (w : World) (i : Nat) : Bool :=
  let st := (linkAt w i).st
  !linkEn w i || st == .up || st == .down || st == .failed

/-- The first dark table (R294): 64 dark lines of each camera in use, taken with Voile off. `dark` holds the lines, each
with its camera; where a camera has not given its 64, no table is applied (log 85). -/
def firstDark (dark : List (Nat × List Nat)) (w : World) : World :=
  let cams := camsNow w
  if cams = 0 ∨ ((List.range 8).any fun c => bitOf cams c && decide ((dark.filter fun e => e.1 == c).length < 64)) = true then w
  else
    let w := updIns w fun i => { i with cams := cams, darks := [] }
    let w := dark.foldl (fun w e => takeDark w e.1 0 e.2) w
    let t := darkTable w cams 64
    let w := applyDark t (updIns w fun i => { i with darkLines := 0, darkScan := none })
    notePixels (tellDark t (getN w Obj.INS_DARK_VER) w)

/-- DISCOVER_DONE (R446): every enabled link has settled, or 2.0 s have passed. -/
def discoverDone (dark : List (Nat × List Nat)) (s : State) : State :=
  let all := (List.range 24).all (linkSettled s.w)
  if s.ctl.mode = .discover ∧ (all ∨ s.w.sys.enterClk + secClk 2 ≤ s.w.clk) then
    let w := firstDark dark s.w
    let up := ofBits ((List.range 24).map fun i => (linkAt w i).st == .up)
    let w := raise w Ev.SYS_DISCOVERED 0 (up % 65536 * 256 + up / 65536)
    if w.sup.safePending then
      goTo 3 .safe { s with w := { w with sup := { w.sup with safePending := false } } }
    else
      let w := if w.sys.calFrom then w else setO w Obj.SYS_STARTUP_MS (clkMs (w.clk - w.sys.vinClk))
      goTo 2 .idle { s with w := { w with sys := { w.sys with calFrom := false } } }
  else s

def execDiscoverDone (dark : List (Nat × List Nat)) (s : State) : Host.Outcome State Fault Refusal :=
  onState (discoverDone dark) s

/-! ### The debug port -/

/-- An authenticated write of SYS_DEBUG_EN (R456): only in SERVICE. -/
def debugEn (m : DevState) (source : Nat) (v : Int) (w : World) : World :=
  if m ≠ .service then adjust w Obj.SYS_DEBUG_EN 6 source v (getO w Obj.SYS_DEBUG_EN)
  else if getO w Obj.SYS_DEBUG_EN = v then w
  else raise (setO w Obj.SYS_DEBUG_EN v) Ev.DBG_ACCESS 0 v.toNat

/-- BOUNDARY_SCAN_INSTRUCTION (R456): it moves no safety output, and the model has no other state behind the port. -/
def execBoundaryScanInstruction (s : State) : Host.Outcome State Fault Refusal := onWorld (fun _ w => w) s

/-! ### Events and stores -/

/-- EVT_STAGING_DRAIN (R454). -/
def execEvtStagingDrain (s : State) : Host.Outcome State Fault Refusal :=
  onWorld (fun c w => whenDo (powered c.mode && w.sys.voted) drainLog w) s

/-- EVT_OUT_PULSE_END of output `n` (R453). -/
def pulseEnd (n : Nat) (w : World) : World :=
  match w.evt.outEnd.getD n none with
  | some c =>
    if c ≤ w.clk then
      { w with evt := { w.evt with outLevel := w.evt.outLevel.set n false, outEnd := w.evt.outEnd.set n none } }
    else w
  | none => w

def execEvtOutPulseEnd (n : Nat) (s : State) : Host.Outcome State Fault Refusal := onWorld (fun _ w => pulseEnd n w) s

/-- EVT_LOG_CLEAR written 1 (R455): the log and what is staged for it are emptied. -/
def logClear (m : DevState) (source : Nat) (w : World) : World :=
  if m = .idle ∨ m = .service then
    let n := w.evt.log.length + w.evt.staging.length
    raise { w with evt := { w.evt with log := [], head := 0, staging := [] } } Ev.EVT_LOG_CLEARED 0 n
  else adjust w Obj.EVT_LOG_CLEAR 6 source 1 0

/-- FRAM_VALUE_STORE_DONE (R329): the oldest pending value is in FRAM. -/
def framDone (w : World) : World :=
  match w.dict.framWait with
  | [] => w
  | e :: r => framPut { w with dict := { w.dict with framWait := r } } e.1 e.2.1

def execFramValueStoreDone (s : State) : Host.Outcome State Fault Refusal :=
  onWorld (fun c w => whenDo (powered c.mode) framDone w) s

/-- Write table `ix` to NOR: a shadowed table's shadow, or the table in force; record tables are copied whole. -/
def norPut (w : World) (ix : Nat) : World :=
  let src := if isC (ix * 256) then w.dict.tblShadow else w.dict.tbl
  let w := { w with dict := { w.dict with nor := mapReplace w.dict.nor src (inTable ix) } }
  if ix = Obj.LCK_ALIGN_TABLE / 256 then { w with nvm := { w.nvm with align := w.lck.align } }
  else if ix = Obj.JQ_HEAD_STATE / 256 then { w with nvm := { w.nvm with heads := w.jq.recs } }
  else if ix = Obj.CHL_HEAD_LOOP / 256 then { w with nvm := { w.nvm with loops := w.loop.recs } }
  else w

/-- NOR_TABLE_STORE_DONE (R329): the oldest pending table is in NOR. -/
def norDone (w : World) : World :=
  match w.dict.norWait with
  | [] => w
  | e :: r => norPut { w with dict := { w.dict with norWait := r } } e.1

def execNorTableStoreDone (s : State) : Host.Outcome State Fault Refusal :=
  onWorld (fun c w => whenDo (powered c.mode) norDone w) s

end Sys2Proof.Machine
end

