-- ==== Sys2Proof/Machine/Tables.lean ====
section
/-! DEFINITION. The DOMAIN tables: their sizes, entries and defaults, their bytes as a reader sees them, and the bulk
writes with the checks of their chapters (R71, R153, R159, R184, R185, R189, R191, R194 to R196, R198, R298, R314,
R327, R452). -/

namespace Sys2Proof.Machine

/-! ### Tables of numbers -/

/-- A table of numbers: bytes per number, how many, and whether they are signed. -/
structure NumTable where
  size : Nat
  count : Nat
  signed : Bool
  deriving DecidableEq, Repr

/-- The tables of numbers but JQ_VOL, by index. -/
def numTable (ix : Nat) : Option NumTable :=
  if 0x3310 ≤ ix ∧ ix < 0x331A then some ⟨2, 1024, true⟩
  else if ix = 0x3340 then some ⟨2, 32768, false⟩
  else if 0x3500 ≤ ix ∧ ix < 0x3508 then some ⟨2, 458752, false⟩
  else if 0x3510 ≤ ix ∧ ix < 0x3518 then some ⟨4, 262144, false⟩
  else if 0x3520 ≤ ix ∧ ix < 0x3528 then some ⟨2, 196608, false⟩
  else if 0x3540 ≤ ix ∧ ix < 0x3548 then some ⟨2, 512, true⟩
  else if 0x3550 ≤ ix ∧ ix < 0x3558 then some ⟨4, 512, true⟩
  else if ix = 0x3700 then some ⟨2, 393216, false⟩
  else if ix = 0x3701 then some ⟨2, 49152, false⟩
  else if ix = 0x3741 ∨ ix = 0x3742 then some ⟨2, 256, false⟩
  else if 0x3800 ≤ ix ∧ ix < 0x3808 then some ⟨2, 256, true⟩
  else if ix = 0x3C01 then some ⟨2, 256, false⟩
  else none

/-- Number `e` of a table by default. -/
def numDefault (ix e : Nat) : Int :=
  if 0x3310 ≤ ix ∧ ix < 0x331A then layCoefDefault e
  else if ix = 0x3340 then (e % 4096 : Nat)
  else if 0x3500 ≤ ix ∧ ix < 0x3508 then threshDefault e
  else if 0x3510 ≤ ix ∧ ix < 0x3518 then (mapDefault e : Nat)
  else if 0x3520 ≤ ix ∧ ix < 0x3528 then 16384
  else if 0x3530 ≤ ix ∧ ix < 0x3538 then volDefault e
  else if 0x3540 ≤ ix ∧ ix < 0x3548 then coefDefault (e % 256)
  else if 0x3800 ≤ ix ∧ ix < 0x3808 then 64 * (e : Int)
  else if ix = 0x3C01 then (routeDefault e : Nat)
  else 0

/-- Number `e` of a table, in force or in the shadow of a C table (R324). -/
def numRead (w : World) (sh : Bool) (ix e : Nat) : Int :=
  mapGetD (if sh && isC (ix * 256) then w.dict.tblShadow else w.dict.tbl) (tblKey ix e) (numDefault ix e)

/-- Write number `e` of a table: to the shadow of a C table. -/
def numWrite (w : World) (ix e : Nat) (v : Int) : World :=
  if isC (ix * 256) then
    { w with dict := { w.dict with tblShadow := mapPutD w.dict.tblShadow (tblKey ix e) v (numDefault ix e) } }
  else { w with dict := { w.dict with tbl := mapPutD w.dict.tbl (tblKey ix e) v (numDefault ix e) } }

/-- Bytes of number `e` of JQ_VOL: 16 frequencies of 4 bytes, then multipliers of 2. -/
def volBytes (e : Nat) : Nat := if e < 16 then 4 else 2
/-- The number of JQ_VOL that begins at byte `off`. -/
def volAt (off : Nat) : Option Nat :=
  if off < 64 then (if off % 4 = 0 then some (off / 4) else none)
  else if off ≤ 288 ∧ off % 2 = 0 then some (16 + (off - 64) / 2) else none

/-! ### Bytes of records -/

/-- The bytes from `off` on, `len` of them, of a table whose entry `i` has `size` bytes. -/
def spanBytes (size : Nat) (entry : Nat → List Nat) (off len : Nat) : List Nat :=
  let first := off / size
  let n := ceilDiv (off + len) size - first
  (((List.range n).flatMap fun i => entry (first + i)).drop (off % size)).take len

/-- Bytes with their CRC-32C behind them. -/
def withCrc (l : List Nat) : List Nat := l ++ leBytes 4 (crc32c l)

def zeroBytes (n : Nat) : List Nat := List.replicate n 0

/-- An event record (R450) with a COUNT. -/
def evBytes (r : EvRec) (count : Nat) : List Nat :=
  withCrc ([r.code, b2n r.serge] ++ leBytes 2 r.inst ++ leBytes 4 r.et ++ leBytesInt 8 r.pos ++ leBytes 4 r.data ++
    leBytes 4 r.seq ++ leBytes 4 count)

/-- An adjustment record (R328). -/
def adjBytes (r : AdjRec) : List Nat :=
  leBytes 2 r.index ++ [r.sub, r.reason, r.source, 0, 0, 0] ++ leBytesInt 8 r.request ++ leBytesInt 8 r.applied ++
    leBytes 4 r.et ++ leBytes 4 r.seq

/-- An alignment record (R71). -/
def alignBytes (a : AlignRec) : List Nat :=
  withCrc (leBytes 8 a.serial ++ leBytesInt 2 a.phA ++ leBytesInt 2 a.phB ++ leBytes 4 (b2n a.valid + 2 * b2n a.entered) ++
    leBytes 4 a.date)

/-- A head record (R198). -/
def headBytes (h : HeadRecord) : List Nat :=
  withCrc (leBytes 8 h.serial ++ leBytes 2 h.nozzles ++ leBytes 2 (b2n h.valid) ++ leBytes 4 h.date ++
    (List.range 2048).map fun i => ((List.range 4).map fun j => mapGetD h.states (4 * i + j) 0 % 4 * 4 ^ j).foldl (· + ·) 0)

/-- A head loop record (R314). -/
def loopBytes (r : LoopRec) : List Nat :=
  withCrc (leBytes 8 r.serial ++ leBytes 2 r.nozzles ++ leBytes 2 (b2n r.valid) ++ leBytes 4 r.date ++
    ((List.range 8192).flatMap fun i => leBytes 2 (mapGetD r.theta i 16384)) ++
    (List.range 1024).map fun i => ofBits ((List.range 8).map fun j => (mapGet r.loopset (8 * i + j)).isSome))

/-- A defect record (R93). -/
def defectBytes (d : DefectRec) : List Nat :=
  leBytes 4 d.frame ++ leBytesInt 8 d.start ++ leBytesInt 8 d.stop ++ [d.row, d.cause, 0, 0] ++ leBytes 4 d.et ++
    leBytes 4 d.lines

/-- Bytes [27:0] of an item header (R108). -/
def itemHeader (i : Item) : List Nat :=
  leBytes 2 i.id ++ [i.ty, i.format] ++ leBytes 2 i.dpiX ++ leBytes 2 i.dpiY ++ leBytes 4 i.width ++ leBytes 4 i.height ++
    leBytes 4 i.seq ++ leBytes 8 i.length

/-- A directory entry of the layer store: the image under ID `e` + 1. -/
def dirBytes (w : World) (e : Nat) : List Nat :=
  match (imageKey w (e + 1)).bind (itemAt w) with
  | some i => itemHeader i ++ [i.state, b2n (imageInUse w (e + 1)), 0, 0]
  | none => zeroBytes 32

/-- An entry of YQL_CHAIN: address `a` + 1. -/
def chainBytes (w : World) (p a : Nat) : List Nat :=
  match (linkAt w p).drivers.drop a with
  | [] => zeroBytes 128
  | d :: _ =>
    let l := leBytes 8 d.serial ++ leBytes 2 d.vendor ++ leBytes 2 d.type ++ [d.heads.length, d.version] ++ leBytes 2 1 ++
      leBytes 2 d.tFwd ++ leBytes 2 d.tRet ++ leBytes 2 d.tTurn ++ leBytes 2 d.tProc ++ leBytes 4 (d.rtt.getD 0) ++
      leBytesInt 4 d.lat ++ leBytes 4 d.base ++ leBytes 4 d.status ++
      d.heads.flatMap fun h => leBytes 8 h.serial ++ leBytes 2 h.code ++ [(slotOf w h.code).getD 255]
    (l ++ zeroBytes 128).take 128

/-- The header of a window record (R287). -/
def winHeader (r : WinRec) : List Nat :=
  withCrc (leBytes 4 r.idx ++ leBytesInt 8 r.start ++ leBytesInt 8 r.stop ++ leBytes 4 r.frame ++ leBytes 4 r.et ++
    leBytes 2 (satNat 65535 r.spec) ++ leBytes 2 r.flags ++ leBytes 4 r.darkVer ++ leBytes 4 r.whiteVer ++
    leBytes 4 r.voiVer ++ [r.cams] ++ zeroBytes 15)

/-- The last window record: piece 0 to 63 are its header bytes, then 18 bytes per pixel; here by byte. -/
def winByte (r : WinRec) (i : Nat) : Nat :=
  if i < 64 then (winHeader r).getD i 0
  else
    let x := (i - 64) / 18
    let o := (i - 64) % 18
    match mapGet r.px x with
    | none => 0
    | some e => if o < 16 then (leBytesInt 2 (e.2.getD (o / 2) 0)).getD (o % 2) 0 else (leBytes 2 e.1).getD (o - 16) 0

/-- CRC-32C of a part of a bar-side set: `n` numbers of `size` bytes from number `lo` on. -/
def setCrc (s : BarSet) (ix lo n size : Nat) : Nat :=
  crc32c ((List.range n).flatMap fun i => leBytesInt size (setTbl s ix (lo + i) (numDefault ix (lo + i))))

/-- The entry of a queued set in a checkpoint of bar `b` (R400). -/
def ckptSet (b : Nat) (s : BarSet) : List Nat :=
  let maps := (List.range 2).map fun r => crc32c ((List.range 2).flatMap fun side => (List.range 65536).flatMap fun i =>
    leBytes 4 (mapEntry s b (131072 * side + 65536 * r + i)))
  let crcs := [setCrc s (0x3500 + b) 0 458752 2] ++ maps ++ ((List.range 2).map fun r => setCrc s (0x3520 + b) (98304 * r) 98304 2)
  leBytes 4 s.tag ++ leBytesInt 8 s.wB ++ crcs.flatMap (leBytes 4)

/-- A checkpoint slot (R400). -/
def ckptBytes (w : World) (b slot : Nat) : List Nat :=
  match (barAt w b).ckpts.getD slot none with
  | none => zeroBytes 1024
  | some c =>
    let head := leBytes 4 c.seq ++ [b, c.slice, 0, 0] ++ leBytesInt 8 (c.fronts.getD 0 0) ++ leBytesInt 8 (c.fronts.getD 1 0) ++
      leBytes 4 (c.tags.getD 0 0) ++ leBytes 4 (c.tags.getD 1 0) ++ leBytes 4 (c.frames.getD 0 0) ++
      leBytes 4 (c.frames.getD 1 0) ++ leBytes 4 c.et ++ leBytes 4 c.flags
    let sets := ((c.sets.flatMap (ckptSet b)) ++ zeroBytes 256).take 256
    let live := ((c.live.flatMap fun e => leBytesInt 4 e.2.1 ++ leBytesInt 4 e.2.2) ++ zeroBytes 512).take 512
    let n := c.live.length
    withCrc (head ++ sets ++ live ++ leBytes 2 0 ++ leBytes 2 (n % 64) ++ leBytes 2 n ++ zeroBytes 194 ++ leBytes 4 c.seq)

/-- A journal record (R430). -/
def jrnBytes (r : JrnRec) : List Nat :=
  let body := leBytes 4 r.seq ++ [r.kind, r.state, r.sensor, r.flags] ++ leBytes 8 r.ptpSec ++ leBytes 4 r.ptpNs ++
    leBytes 4 r.et ++ leBytesInt 8 r.pos ++ r.temps.flatMap (leBytesInt 2) ++ leBytes 2 r.vin ++ leBytes 2 r.pin ++
    r.lastFired.flatMap (leBytesInt 8) ++ r.rowFrame.flatMap (leBytes 4) ++ r.rowEnd.flatMap (leBytesInt 8) ++
    leBytes 4 r.oldest ++ leBytes 4 r.newest ++ leBytes 8 r.lifeLines ++ leBytes 4 r.lifeHours ++ leBytes 4 r.lifePf ++
    leBytes 4 r.lifeShut ++ leBytes 4 r.defects ++ leBytes 4 r.reason ++ zeroBytes 564
  withCrc (body ++ leBytes 4 (if r.valid then r.seq else 0)) ++ leBytes 4 (if r.tail then r.seq else 0) ++ leBytes 4 r.tailEvt

/-- An entry of the partner table (R344): network peers, head drivers, cameras. -/
def partnerBytes (w : World) (n : Nat) : List Nat :=
  let entry := fun (kind state role iface product serial : Nat) (a : Addr) (arr last rev vendor : Nat) =>
    [kind, state, role, iface] ++ leBytes 4 product ++ leBytes 8 serial ++ leBytes 4 (if a.v6 then 0 else a.ip) ++
      leBytes 16 (if a.v6 then a.ip else 0) ++ leBytes 2 a.udp ++ [0, 0] ++ leBytes 4 arr ++ leBytes 4 last ++
      leBytes 4 rev ++ leBytes 4 vendor ++ zeroBytes 8
  let no : Addr := { iface := 0, v6 := false, ip := 0, udp := 0 }
  if n < 64 then
    match mapGet w.net.partners n with
    | none => zeroBytes 64
    | some p => entry 1 (if p.present then 1 else if p.departed then 2 else 0) p.role p.addr.iface p.product p.serial
        p.addr p.arriveS p.lastS p.revision p.vendor
  else if n < 200 then
    let i := if n < 192 then (n - 64) / 8 else n - 192 + 16
    let a := if n < 192 then (n - 64) % 8 else 0
    match (linkAt w i).drivers.drop a with
    | [] => zeroBytes 64
    | d :: _ => entry (if n < 192 then 2 else 3) (if (linkAt w i).st = .down ∨ (linkAt w i).st = .failed then 2 else 1) 255
        (if n < 192 then i else i - 16) d.type d.serial no 0 0 0 d.vendor
  else zeroBytes 64

/-! ### Reading a DOMAIN -/

/-- Slot of the newest-first list of a ring of `size` whose newest record has number `newest`: the record in it. -/
def ringSlot {α : Type} (l : List α) (size newest s : Nat) : Option α :=
  (l.drop ((newest + 2 * size - 1 - s) % size)).head?

/-- Entry size and entries of a DOMAIN that is not a table of numbers. -/
def recTable (w : World) (ix : Nat) : Option (Nat × Nat × (Nat → List Nat)) :=
  let opt := fun (n : Nat) (l : Option (List Nat)) => l.getD (zeroBytes n)
  if ix = 0x3220 then some (24, 1024, fun i => opt 24 ((mapGet w.lck.align i).map alignBytes))
  else if ix = 0x3400 then some (32, 65536, fun i => opt 32 ((ringSlot w.job.defects 65536 (getN w Obj.JOB_DEFECT_COUNT) i).map defectBytes))
  else if ix = 0x3410 then some (32, 4095, dirBytes w)
  else if ix = 0x3580 then some (2068, 1024, fun i => opt 2068 ((mapGet w.jq.recs i).map headBytes))
  else if 0x3690 ≤ ix ∧ ix < 0x36A0 then some (128, 8, chainBytes w (ix - 0x3690))
  else if ix = 0x3710 then some (1, 884800, fun i => [match w.ins.last with | some r => winByte r i | none => 0])
  else if ix = 0x3740 then some (1, 256, fun i => [voiDiag w (i / 32) (i % 32)])
  else if ix = 0x3810 then some (17428, 1024, fun i => opt 17428 ((mapGet w.loop.recs i).map loopBytes))
  else if 0x3A30 ≤ ix ∧ ix < 0x3A38 then some (1024, 2, ckptBytes w (ix - 0x3A30))
  else if ix = 0x3B40 then some (1024, 64, fun i => opt 1024 ((ringSlot w.thm.journal 64 w.thm.jrnSeq i).map jrnBytes))
  else if ix = 0x3C00 then some (32, logSlots, fun i => opt 32 ((mapGet w.evt.log i).map fun r => evBytes r 0))
  else if ix = 0x3C02 then some (32, 1, fun _ => opt 32 ((mapGet w.evt.log (getN w Obj.EVT_REC_SEL)).map fun r => evBytes r 0))
  else if ix = 0x3C03 then some (32, 256, fun i => opt 32 ((mapGet w.evt.last i).map fun r => evBytes r (mapGetD w.evt.counts i 0)))
  else if ix = 0x3C40 then some (32, 256, fun i => opt 32 ((ringSlot w.dict.adj.reverse 256 (getN w Obj.CFG_ADJ_COUNT) i).map adjBytes))
  else if ix = 0x3E00 then some (64, 256, partnerBytes w)
  else none

/-- The size of a DOMAIN in bytes; SEC_KEY_PROGRAM has 20. -/
def domainSize (w : World) (ix : Nat) : Nat :=
  match numTable ix with
  | some t => t.size * t.count
  | none =>
    if 0x3530 ≤ ix ∧ ix < 0x3538 then 288
    else if ix = 0x3D00 then 20
    else match recTable w ix with | some (s, n, _) => s * n | none => 0

/-- Whether `off` is the start of an entry, or the table's end. -/
def entryBound (w : World) (ix off : Nat) : Bool :=
  off ≤ domainSize w ix &&
  match numTable ix with
  | some t => off % (if 0x3550 ≤ ix ∧ ix < 0x3558 then 8 else t.size) == 0
  | none =>
    if 0x3530 ≤ ix ∧ ix < 0x3538 then (volAt off).isSome
    else match recTable w ix with | some (s, _, _) => off % s == 0 | none => off == 0

/-- Bytes [off, off + len) of a DOMAIN; `sh` asks for the shadow of a C table. -/
def domainBytes (w : World) (sh : Bool) (ix off len : Nat) : List Nat :=
  match numTable ix with
  | some t => spanBytes t.size (fun e => leBytesInt t.size (numRead w sh ix e)) off len
  | none =>
    if 0x3530 ≤ ix ∧ ix < 0x3538 then
      (((List.range 128).flatMap fun e => leBytesInt (volBytes e) (numRead w sh ix e)).drop off).take len
    else match recTable w ix with
      | some (s, _, f) => spanBytes s f off len
      | none => []

/-! ### Writing a DOMAIN -/

/-- Put the numbers of a byte run into a table, from number `e` on. -/
def putNums (ix : Nat) (size : Nat → Nat) (signed : Bool) : Nat → Nat → List Nat → World → World
  | 0, _, _, w => w
  | k + 1, e, bytes, w =>
    if bytes.isEmpty then w
    else
      let n := size e
      let v := ofLe (bytes.take n)
      putNums ix size signed k (e + 1) (bytes.drop n) (numWrite w ix e (if signed then sextBits (8 * n) v else v))

/-- Replace the numbers whose check gives another value: how many, and the world. -/
def fixNums (ix : Nat) (fix : Nat → Int → Int) (l : List Nat) (w : World) : Nat × World :=
  l.foldl (fun a e =>
    let v := numRead a.2 true ix e
    let v' := fix e v
    if v = v' then a else (a.1 + 1, numWrite a.2 ix e v')) (0, w)

/-- Replace the taps of phases: `taps` is how many a phase has, `fix` gives the corrected taps or none. -/
def fixPhases (ix taps : Nat) (fix : Nat → List Int → Option (List Int)) (w : World) : Nat × World :=
  (List.range 128).foldl (fun a p =>
    let cur := (List.range taps).map fun t => numRead a.2 true ix (taps * p + t)
    match fix (p % 64) cur with
    | none => a
    | some l => (a.1 + 1, (l.zip (List.range taps)).foldl (fun w e => numWrite w ix (taps * p + e.2) e.1) a.2)) (0, w)

/-- The check of a phase of LAY_COEF (R153). -/
def fixLayPhase (f : Nat) (t : List Int) : Option (List Int) :=
  let d := 16384 - t.foldl (· + ·) 0
  if d = 0 then none
  else
    let i := if f < 32 then 3 else 4
    let v := t.getD i 0 + d
    if v < -32768 ∨ 32767 < v then some (layTaps 1 f) else some (t.set i v)

/-- CHL_RESP rises strictly, up to 32,767 (R298). -/
def fixResp (ix : Nat) (w : World) : Nat × World :=
  (List.range 255).foldl (fun a j =>
    let prev := numRead a.2 false ix j
    let v := numRead a.2 false ix (j + 1)
    let v' := if v ≤ prev then min 32767 (prev + 1) else v
    if v = v' then a else (a.1 + 1, numWrite a.2 ix (j + 1) v')) (0, w)

/-- The route word a code may have (R452). -/
def fixRoute (c : Nat) (v : Int) : Int :=
  if reservedCode c then 0
  else
    let x := v.toNat - v.toNat / 4096 % 16 * 4096 - field v.toNat 5 3 * 32
    (if c = Ev.TIM_ANCHOR then setBit x 0 true else x : Nat)

/-- Records of a table from bytes: entry size, and how a record is put; the entries that were changed are counted. -/
def putRecs (size : Nat) (put : Nat → List Nat → World → Bool × World) : Nat → Nat → List Nat → World → Nat × World
  | 0, _, _, w => (0, w)
  | k + 1, i, bytes, w =>
    if bytes.isEmpty then (0, w)
    else
      let (bad, w) := put i (bytes.take size) w
      let (n, w) := putRecs size put k (i + 1) (bytes.drop size) w
      (n + b2n bad, w)

/-- Whether the CRC at the end of a record is right. -/
def crcOk (r : List Nat) : Bool := leAt r (r.length - 4) 4 == crc32c (r.take (r.length - 4))

/-- Put an alignment record (R71). DEDUCED (log 78): an empty entry (SERIAL 0) is deleted unchecked and does not count as
clamped. -/
def putAlign (i : Nat) (r : List Nat) (w : World) : Bool × World :=
  let serial := leAt r 0 8
  if serial = 0 then (false, { w with lck := { w.lck with align := mapDel w.lck.align i } })
  else
    let bad := !crcOk r || decide (4 ≤ leAt r 12 4)
    let a : AlignRec := { serial := serial, phA := sextBits 16 (leAt r 8 2), phB := sextBits 16 (leAt r 10 2)
                          valid := !bad && bitOf (leAt r 12 4) 0, entered := bitOf (leAt r 12 4) 1, date := leAt r 16 4 }
    (bad, { w with lck := { w.lck with align := mapPut w.lck.align i a } })

/-- Put a head record (R198). -/
def putHead (i : Nat) (r : List Nat) (w : World) : Bool × World :=
  let serial := leAt r 0 8
  if serial = 0 then (false, { w with jq := { w.jq with recs := mapDel w.jq.recs i } })
  else
    let n := leAt r 8 2
    let bad := !crcOk r || decide (n = 0 ∨ 4096 < n)
    let states : KMap Nat := (List.range 8192).filterMap fun k =>
      let v := field (r.getD (16 + k / 4) 0) (2 * (k % 4)) 2
      if v = 0 then none else some (k, v)
    let h : HeadRecord := { serial := serial, nozzles := n, valid := !bad && bitOf (leAt r 10 2) 0, date := leAt r 12 4, states := states }
    (bad, { w with jq := { w.jq with recs := mapPut w.jq.recs i h } })

/-- Put a head loop record (R314). -/
def putLoop (i : Nat) (r : List Nat) (w : World) : Bool × World :=
  let serial := leAt r 0 8
  if serial = 0 then (false, { w with loop := { w.loop with recs := mapDel w.loop.recs i } })
  else
    let n := leAt r 8 2
    let bad := !crcOk r || decide (n = 0 ∨ 4096 < n)
    let theta : KMap Nat := (List.range 8192).filterMap fun k =>
      let v := leAt r (16 + 2 * k) 2
      if v = 16384 then none else some (k, v)
    let set : KMap Nat := (List.range 8192).filterMap fun k => if bitOf (r.getD (16400 + k / 8) 0) (k % 8) then some (k, 1) else none
    let h : LoopRec := { serial := serial, nozzles := n, valid := !bad && bitOf (leAt r 10 2) 0, date := leAt r 12 4
                         theta := theta, loopset := set }
    (bad, { w with loop := { w.loop with recs := mapPut w.loop.recs i h } })

/-- Note a table's clamp count in its object, and raise its event where entries were changed. -/
def noteClamp (obj code inst n : Nat) (w : World) : World :=
  let w := setO w obj n
  if n = 0 then w else raise w code inst n

/-- The clamp count of a small table of bar `b`, and JQ_TABLE_CLAMPED with its kind: 1 volume, 2 coefficients, 3 profile
(R208). -/
def noteTable (kind obj b n : Nat) (w : World) : World :=
  let w := setO w obj n
  if n = 0 then w else raise w Ev.JQ_TABLE_CLAMPED b (kind * 268435456 + n)

/-- The checks of a table of numbers after its numbers are put (R327): entries changed, and the world. -/
def checkNums (ix : Nat) (range : List Nat) (w : World) : Nat × World :=
  let b := ix % 16
  if 0x3310 ≤ ix ∧ ix < 0x331A then
    let (n, w) := fixPhases ix 8 fixLayPhase w
    (n, noteClamp (Obj.LAY_COEF_CLAMPED b) Ev.COEF_CLAMPED b n w)
  else if ix = 0x3340 then
    let (n, w) := fixNums ix (fun _ v => min 4095 v) range w
    (n, noteClamp Obj.JOB_CRV_CLAMPED Ev.CRV_CLAMPED 0 n w)
  else if 0x3510 ≤ ix ∧ ix < 0x3518 then
    let (l, n) := mapCheck (fun e => (numRead w true ix e).toNat) 262144 0 []
    let w := l.foldl (fun w e => numWrite w ix e.1 (e.2 : Nat)) w
    (n, noteClamp (Obj.JQ_MAP_CLAMPED b) Ev.JQ_MAP_CLAMPED b n w)
  else if 0x3520 ≤ ix ∧ ix < 0x3528 then
    (0, numWrite w ix 4294967295 ((numRead w true ix 4294967295 - 16384 + 1) % 4294967296 + 16384))
  else if 0x3530 ≤ ix ∧ ix < 0x3538 then
    let fs := (List.range 16).map fun e => numRead w true ix e
    let good := fixFreqs none fs
    let n := ((fs.zip good).filter fun e => e.1 != e.2).length
    let w := (good.zip (List.range 16)).foldl (fun w e => numWrite w ix e.2 e.1) w
    let (m, w) := fixNums ix (fun _ v => clampInt 8192 32768 v) ((List.range 112).map (· + 16)) w
    (n + m, noteTable 1 (Obj.JQ_VOL_CLAMPED b) b (n + m) w)
  else if 0x3540 ≤ ix ∧ ix < 0x3548 then
    let (n, w) := fixPhases ix 4 (fun f t => if (fixTaps f t).2 then some (fixTaps f t).1 else none) w
    (n, noteTable 2 (Obj.JQ_STR_CLAMPED b) b n w)
  else if 0x3550 ≤ ix ∧ ix < 0x3558 then
    let bad := fun (j : Nat) => (List.range 2).any fun k => decide (503316 < (numRead w true ix (2 * j + k)).natAbs)
    let n := ((List.range 256).filter bad).length
    (n, noteTable 3 (Obj.JQ_STR_CLAMPED b) b n (fixNums ix (fun _ v => clampInt (-503316) 503316 v) range w).2)
  else if 0x3800 ≤ ix ∧ ix < 0x3808 then
    let (n, w) := fixResp ix w
    let w := if n = 0 then w else raise w Ev.CHL_RESP_CLAMPED b n
    (n, restartBar w b)
  else if ix = 0x3C01 then fixNums ix fixRoute range w
  else (0, w)

/-- A bulk write of a DOMAIN at its close (R327, R329, R343): the bytes from `off` on. Answers the entries changed.
INS_WHITE waits for the next step point (R290) and is stored on command only (R284). -/
def domainWrite (source ix off : Nat) (bytes : List Nat) (w : World) : Nat × World :=
  let (checked, n, w) :=
    match numTable ix with
    | some t =>
      let first := off / t.size
      let cnt := bytes.length / t.size
      if ix = 0x3700 then
        let t' : KMap Int := (List.range cnt).map fun i => (first + i, (leAt bytes (2 * i) 2 : Int))
        (cnt, 0, updIns w fun i => { i with stagedWhite := some (mapMerge (i.stagedWhite.getD []) t') })
      else
        let w := putNums ix (fun _ => t.size) t.signed cnt first bytes w
        let (n, w) := checkNums ix ((List.range cnt).map (· + first)) w
        (cnt, n, storeTableLater w ix)
    | none =>
      if 0x3530 ≤ ix ∧ ix < 0x3538 then
        let w := putNums ix volBytes false 128 ((volAt off).getD 0) bytes w
        let (n, w) := checkNums ix [] w
        (128, n, storeTableLater w ix)
      else
        let size := if ix = 0x3220 then 24 else if ix = 0x3580 then 2068 else 17428
        let put := if ix = 0x3220 then putAlign else if ix = 0x3580 then putHead else putLoop
        let cnt := bytes.length / size
        let (n, w) := putRecs size put cnt (off / size) bytes w
        let w := if ix = 0x3810 then setO w Obj.CHL_HEAD_ENTRIES w.loop.recs.length else w
        (cnt, n, storeTableLater w ix)
  if n = 0 then (0, w) else (n, adjust w (ix * 256) 8 source checked n)

end Sys2Proof.Machine
end

