-- ==== Sys2Proof/Machine/Values.lean ====
section
/-! DEFINITION. What a read of an object returns (R323, R324): the values that the device computes from its state, the
strings, and the shadow of a C object. -/

namespace Sys2Proof.Machine

/-! ### Strings -/

/-- The decimal digits of a number as characters; `k` bounds how many. -/
def digits : Nat → Nat → List Nat
  | 0, _ => []
  | k + 1, n => if n < 10 then [48 + n] else digits k (n / 10) ++ [48 + n % 10]

/-- A STRING object (R6, R7, chapter 12). -/
def strRead (w : World) (k : Nat) : List Nat :=
  if k = Obj.SYS_NAME then [0x54, 0x56, 0x2D, 0x32, 0x30, 0x38, 0x30]
  else if k = Obj.SYS_STEPPING then (64 + Config.stepping.toNat / 256 % 32) :: digits 3 (Config.stepping.toNat % 256)
  else if k = Obj.SYS_FW_RELEASE then
    digits 3 (Config.fwMajor (runImage w)).toNat ++ [46] ++ digits 3 (Config.fwMinor (runImage w)).toNat ++ [46] ++
      digits 3 (Config.fwPatch (runImage w)).toNat
  else if k = Obj.NET_HOST_NAME then w.dict.hostName
  else []

/-! ### Values of each chapter -/

def sum (l : List Nat) : Nat := l.foldl (· + ·) 0

/-- A fraction as a raw Q value with 16 fraction bits, to the nearest. -/
def fracQ16 (f : Frac) : Int := fracRound (fracScale f 65536)

/-- The speed with its sign, in lines per second (R47). -/
def speedSigned (w : World) : Frac := if w.web.back then fracNeg (speedLps w) else speedLps w

/-- Objects of the web position. -/
def webRead (w : World) (k : Nat) : Option Int :=
  let ix := k / 256
  let sub := k % 256
  if 0x2100 ≤ ix ∧ ix ≤ 0x2130 ∧ ix % 16 = 0 then
    let n := (ix - 0x2100) / 16
    if sub = 5 then some (wrapSigned 48 (encAt w n).count)
    else if sub = 8 then some (encStatus w n)
    else none
  else if 0x2140 ≤ ix ∧ ix < 0x2148 then
    if 3 ≤ sub ∧ sub ≤ 5 then some (winRead w (ix - 0x2140) (sub - 3)) else none
  else if 0x2150 ≤ ix ∧ ix < 0x2152 then
    if sub = 3 then some (ssiClk (getN w (Obj.WEB_SSI_CLK_HZ (ix - 0x2150)))) else none
  else if k = Obj.WEB_POS then some (webPos w)
  else if k = Obj.WEB_HWM then some (posReport w.web.hwm)
  else if k = Obj.WEB_TRK_STATE then some (match w.web.trk with | .forward => 0 | .behind => 1 | .reversed => 2)
  else if k = Obj.WEB_ACTIVE_ENC then some w.web.active
  else if k = Obj.WEB_SPEED_LPS then some (fracQ16 (speedSigned w))
  else if k = Obj.WEB_SPEED_MMIN then some (fracQ16 (fracMul (speedSigned w) (frac 127 100000)))
  else if k = Obj.WEB_SPD_VALID then some (b2n w.web.valid)
  else if k = Obj.WEB_EDGE_ET then some w.web.etLast
  else none

/-- LCK_STATUS. -/
def lckStatus (w : World) : Nat :=
  let front := fun (b : Nat) => setFor w b (rowAt w (2 * b)).next
  let sat := fun (b : Nat) => (rowAt w (2 * b)).sat || (rowAt w (2 * b + 1)).sat
  let pending := match w.lck.hlLast with | some x => decide ((rowAt w 15).next < x) | none => false
  ofBits ((List.range 8).map fun b => (front b).res600) * 65536 + ofBits ((List.range 8).map sat) * 256 +
    32 * b2n pending + 16 * b2n w.lck.stopReq + 8 * b2n w.lck.overRow.isSome + 4 * b2n w.lck.warnRow.isSome +
    2 * b2n (w.lck.rows.any fun r => r.inhibited != 0) + b2n (alignOk w)

/-- Objects of the line clock. -/
def lckRead (w : World) (k : Nat) : Option Int :=
  let ix := k / 256
  let sub := k % 256
  if 0x2210 ≤ ix ∧ ix < 0x2220 then
    let r := ix - 0x2210
    if sub = 4 then some (wrapSigned 64 (rowD64 w r (setFor w (r / 2) (rowAt w r).next) * 1024))
    else if sub = 7 then some (fMax w (r / 2))
    else if sub = 8 then some (leadNs w (r / 2))
    else none
  else if k = Obj.LCK_STATUS then some (lckStatus w)
  else if k = Obj.LCK_FMAX_HZ then some (((List.range 8).map (fMax w)).foldl min 80000 : Nat)
  else if k = Obj.LCK_FROW_HZ then some (satNat 4294967295 (frowHz w))
  else if k = Obj.LCK_VMAX_MMIN then some (fracQ16 (frac (vmaxLps w * 127) 100000))
  else if k = Obj.LCK_ALIGN_INVALID then some (alignInvalid w)
  else if k = Obj.LCK_ALIGN_ENTRIES then some w.lck.align.length
  else none

/-- The frame at the composition point, and the boundary of a pending commit (R86). -/
def frameHere (w : World) : Nat := match frameAt w (posFloor w) with | some f => f.no | none => 0
def commitBoundary (w : World) : Int :=
  if w.job.commit then match w.job.bounds.find? fun b => !b.isSetUp with | some b => linePos b.w | none => 0 else 0

/-- Objects of jobs, memory and Muslin. -/
def memRead (c : Ctl) (w : World) (k : Nat) : Option Int :=
  if k = Obj.MEM_PLAN_PENDING then
    some (b2n (decide (getN w Obj.MEM_TALLY_WIN ≠ w.mem.tallyWin ∨ getN w Obj.MEM_INS_MIB ≠ w.mem.insMib)))
  else if k = Obj.MEM_LA_ACTUAL then some (lookNow (inPrint c.mode) w)
  else if k = Obj.MEM_LA_MIN then some (if inPrint c.mode then min (getO w k) (lookNow true w) else getO w k)
  else if k = Obj.MEM_LS_FREE_MIB then some (freeBlocks w / 16 : Nat)
  else if k = Obj.MEM_LS_ITEMS then
    some (((List.range 4095).filter fun i => match (imageKey w (i + 1)).bind (itemAt w) with
      | some x => x.state == 2 | none => false).length)
  else if k = Obj.JOB_FRAME_NO then some (frameHere w)
  else if k = Obj.JOB_FRAMES_LEFT then some (w.job.count.getD 0)
  else if k = Obj.JOB_NEXT_BOUNDARY then
    some (match w.job.bounds.find? fun b => !b.virt with | some b => wrapSigned 64 (linePos b.w) | none => 0)
  else if k = Obj.JOB_COMMIT_BOUNDARY then some (wrapSigned 64 (commitBoundary w))
  else none

/-- JQ_STATUS of bar `b`. -/
def jqStatus (w : World) (b : Nat) : Nat :=
  let q := barAt w b
  let loading := q.passes.any (·.load.isSome)
  let front := (passAt w b 0).front
  let lim := match frameAt w front with | some f => q.limFrames.contains f.no | none => false
  let unknown := (allHeads w).any fun e => e.1 / 2 == b && !e.2.head.known
  getN w (Obj.JQ_BAR_SLICE b) % 16 * 4096 + 2048 * b2n loading + 1024 * b2n (w.job.deferred && (fullBars w).contains b) +
    512 * b2n lim + 256 * b2n (setFor w b front).res600 + 32 * b2n (getN w (Obj.JQ_UNCOVERED b) != 0) + 16 * b2n unknown +
    b2n (!loading && barServed w b)

/-- Columns of a row of bar `b` in a state (R193). -/
def colsIn (w : World) (b row : Nat) (st : ColSt) : Nat :=
  let ents := rowNozzles w b row
  ((List.range 98304).filter fun c => (colInfo ents c).1 == st).length

/-- Objects of the bars, by bar. -/
def jqRead (m : DevState) (w : World) (k : Nat) : Option Int :=
  let ix := k / 256
  let sub := k % 256
  if 0x2500 ≤ ix ∧ ix < 0x2580 then
    let b := (ix - 0x2500) / 16
    if ix % 16 = 1 then
      if sub = 1 then some (jqStatus w b)
      else if sub = 4 then some ((setQueue w b).length - 1 : Nat)
      else if sub = 5 then some (colsIn w b 0 .out)
      else if sub = 6 then some (colsIn w b 1 .out)
      else if sub = 7 then some (colsIn w b 0 .weak + colsIn w b 1 .weak : Nat)
      else none
    else if ix % 16 = 2 then
      let e := selNoz (inPrint m) w b
      if sub = 2 then some (nozState w (b * 262144 + e.1)) else if sub = 3 then some e.2 else none
    else none
  else if k = Obj.JQ_HEAD_ENTRIES then some w.jq.recs.length
  else if k = Obj.JQ_HEAD_UNKNOWN then some (headUnknown w)
  else none

/-- FIR_STATUS of port `p`: DG, SPLIT and OVERLAP of the last line, and what stands now. -/
def fireStatus (m : DevState) (w : World) (p : Nat) : Nat :=
  let x := portAt w p
  let low := fun row => m == .printing && portNozzles w p != 0 && decide (fifoFill w p row < getN w (Obj.FIR_FIFO_LOW_WM p))
  let q := barAt w (p / 2)
  (getN w (Obj.FIR_STATUS p) &&& 19) + 4 * b2n (low 0) + 8 * b2n (low 1) + 32 * b2n q.halt + 256 * b2n x.idle + 512 * b2n x.unitOk

/-- Objects of the fire schedulers and links, by port. -/
def portRead (m : DevState) (w : World) (k : Nat) : Option Int :=
  let ix := k / 256
  let sub := k % 256
  if 0x2600 ≤ ix ∧ ix < 0x2680 then
    let p := (ix - 0x2600) / 8
    let x := portAt w p
    if ix % 8 = 1 then
      if sub = 1 then some (fireStatus m w p)
      else if sub = 5 then some (((lastSecond w.clk x.peaks).map (·.2)).foldl max 0)
      else if sub = 12 then some (satNat 100 (sum ((lastSecond w.clk x.loads).map (·.2)) / 360000000))
      else if sub = 14 then
        let now := if x.idle then w.clk - max x.idleClk (w.clk - secClk 1) else 0
        some (satNat 100 ((sum ((lastSecond w.clk x.idles).map (·.2)) + now) / 3125000))
      else none
    else if ix % 8 = 2 then
      if sub = 1 then some (fifoFill w p 0) else if sub = 2 then some (fifoFill w p 1) else none
    else none
  else if 0x2680 ≤ ix ∧ ix < 0x2690 then if sub = 17 then some (profHeads w (ix - 0x2680)) else none
  else if 0x2690 ≤ ix ∧ ix < 0x26A0 then
    let p := ix - 0x2690
    if sub = 2 then some (portStatus w p) else if sub = 10 then some (marginMin w p)
    else if sub = 11 then some (portPreset w p) else none
  else if 0x26A0 ≤ ix ∧ ix < 0x26A8 then if sub = 2 then some (portStatus w (ix - 0x26A0 + 16)) else none
  else if k = Obj.YQL_LINK_TIME then some (linkTime w)
  else none

/-- Objects of inspection, Voile and the colour hold loop. -/
def insRead (m : DevState) (w : World) (k : Nat) : Option Int :=
  let ix := k / 256
  let sub := k % 256
  let sel := getN w Obj.CHL_SEL
  let b := field sel 16 3
  let x := field sel 0 16
  let four := fun (f : Nat → Nat) => some (sum ((List.range 4).map fun n => f n % 65536 * 65536 ^ n) : Int)
  if k = Obj.INS_STATUS then some (insStatus m w)
  else if k = Obj.INS_RING_LINES then some ((w.mem.insMib - 320) * 1048576 / 73728 : Nat)
  else if k = Obj.VOI_STATUS then some (voiStatus m w)
  else if k = Obj.VOI_CNT_OPEN then some (pairsIn w 1).length
  else if k = Obj.VOI_CNT_SHORT then some (pairsIn w 2).length
  else if k = Obj.VOI_CNT_UNVER then some (pairsIn w 3).length
  else if k = Obj.CHL_SEL_THETA then four fun n => thetaAt w (groupPos b x n)
  else if k = Obj.CHL_SEL_U then four fun n => uAt w b (n / 2) (2 * x + n % 2)
  else if k = Obj.CHL_SEL_R then some (selRatio w b x)
  else if k = Obj.CHL_SEL_FLAGS then some (groupFlags w b x)
  else if 0x2810 ≤ ix ∧ ix < 0x2818 then
    if sub = 9 then some (kMean w (ix - 0x2810))
    else if sub = 13 then some (detCount w (ix - 0x2810) 1)
    else if sub = 14 then some (detCount w (ix - 0x2810) 2)
    else none
  else none

/-! ### CAN, security and network -/

/-- NET_CAN_ERR_REG (R356). -/
def canErrReg (m : DevState) (w : World) : Nat :=
  b2n (m == .safe || m == .thermalHold) + 4 * b2n (w.thm.rails.contains 3) +
    8 * b2n (decide (getO w Obj.THM_PLIM_EFF < getO w Obj.THM_PLIM_W)) + 16 * b2n (w.can.bus == 1 || w.can.hb.any (·.2.2))

/-- SEC_SLOT_STATE. -/
def slotCode : KeySlot → Nat
  | .empty => 0
  | .programmed _ => 1
  | .revoked => 2
def slotStates (s : Sec) : Nat := sum ((s.slots.zip (List.range 4)).map fun e => slotCode e.1 * 4 ^ e.2)

/-- Whether authenticated writes are blocked (R349), and SEC_LOCKOUT_S: the seconds that remain, a part counting as a
whole. -/
def lockedOut (s : Sec) (clk : Nat) : Bool := match s.blockEnd with | some e => decide (clk < e) | none => false
def lockoutS (s : Sec) (clk : Nat) : Nat :=
  match s.blockEnd with | some e => ceilDiv (e - clk) (secClk 1) | none => 0

/-- The IPv4 address in use of interface `i` (R362). -/
def ipv4Act (w : World) (i : Nat) : Nat :=
  let cfg := getN w (Obj.NET_IF_CFG i)
  if !ifaceEnabled w i || !bitOf cfg 1 then 0
  else if bitOf cfg 5 then mapGetD w.net.dhcp i 0
  else getN w (Obj.NET_IF_IPV4 i)

/-- NET_PORT_STATE. -/
def netPortState (w : World) (p : Nat) : Nat :=
  b2n (getF w (Obj.NET_PORT_CFG p) 0 1 == 1 &&
    ((List.range 9).any fun i => portOfIface i == p && ifaceExists w i && ifaceLink w i))

/-- Objects of the network, the CAN FD port and authentication. -/
def netRead (c : Ctl) (w : World) (k : Nat) : Option Int :=
  let ix := k / 256
  let sub := k % 256
  if k = Obj.NET_CAN_ERR_REG then some (canErrReg c.mode w)
  else if ix = 0x1200 ∧ sub ≠ 0 then some ((if sub = 1 then 0x600 else 0x580) + w.can.node : Nat)
  else if k = Obj.SEC_SLOT_STATE then some (slotStates c.sec)
  else if ix = 0x2D00 ∧ 3 ≤ sub ∧ sub ≤ 6 then some (c.sec.ctr.getD (sub - 3) 0)
  else if k = Obj.SEC_LOCKOUT_S then some (lockoutS c.sec w.clk)
  else if 0x2E00 ≤ ix ∧ ix ≤ 0x2E02 ∧ sub = 2 then some (netPortState w (ix - 0x2E00))
  else if 0x2E10 ≤ ix ∧ ix ≤ 0x2E18 ∧ sub = 7 then some ((Config.macBase.toNat + (ix - 0x2E10)) % 281474976710656 : Nat)
  else if 0x2E10 ≤ ix ∧ ix ≤ 0x2E18 ∧ sub = 10 then some (ipv4Act w (ix - 0x2E10))
  else if k = Obj.NET_CAN_STATE then some (if w.can.bus = 2 then 4 else w.can.nmt)
  else if k = Obj.TIM_CLOCK_ID then some (clockId w)
  else if k = Obj.SYS_REVISION then some (Config.revision (runImage w))
  else none

/-- Objects of the platform, Serge, power and events. -/
def sysRead (c : Ctl) (w : World) (k : Nat) : Option Int :=
  let ix := k / 256
  let sub := k % 256
  if k = Obj.SYS_STATE ∨ k = Obj.SUP_DEV_STATE then some (modeCode c.mode)
  else if k = Obj.SYS_PREV_STATE then some (modeCode c.prev)
  else if k = Obj.SYS_BGEN_NATIVE then some (Config.bgenNative (runImage w))
  else if k = Obj.SYS_ARM_BLOCK then some (armBlock w)
  else if k = Obj.SYS_STATUS then
    some (ofBits [w.sys.pausePending, w.sys.standby, releaseOk c.mode w, w.sys.holdFlag])
  else if k = Obj.SUP_STATUS then some (supStatus w)
  else if k = Obj.SUP_OUTPUTS then some (outputs c.mode w)
  else if k = Obj.SUP_TEMP_MAX then some (hottest w).2
  else if k = Obj.SUP_TEMP_SENSOR then some (hottest w).1
  else if k = Obj.SUP_VIN_MV then some w.thm.vin
  else if k = Obj.SUP_LAST_FIRED then some (supLastFired w)
  else if k = Obj.SUP_UPTIME_S then some ((w.clk - w.sys.vinClk) / secClk 1 : Nat)
  else if 0x2A30 ≤ ix ∧ ix < 0x2A38 then
    if sub = 1 then some (barAt w (ix - 0x2A30)).ckptSeq else if sub = 2 then some (ckptDist w (ix - 0x2A30)) else none
  else if k = Obj.THM_STATUS then some (thmStatus c.mode w)
  else if k = Obj.VMON_STATUS then some (vmonStatus w)
  else if k = Obj.EVT_SEQ then some w.evt.seq
  else if k = Obj.EVT_LOG_HEAD then some w.evt.head
  else if k = Obj.EVT_LOG_RECORDS then some w.evt.log.length
  else if k = Obj.EVT_ROUTE then some (routeOf w (getN w Obj.EVT_ROUTE_SEL))
  else none

/-! ### A read -/

/-- Values that nothing in the state gives: the loads of the codec units (chapter 5), the FEC counters of the ports
(R361), and what an endpoint answers to the READ that a read of YQL_RW_DATA sends. A read of one is a free value. -/
def isOpen (k : Nat) : Bool :=
  k / 256 == 0x2401 || k == Obj.YQL_RW_DATA || (0x2E00 ≤ k / 256 && k / 256 ≤ 0x2E02 && (k % 256 == 3 || k % 256 == 4))
def openRead (w : World) (k : Nat) : Int :=
  let v := (Config.freeValue w.free).toNat
  if k / 256 = 0x2401 then (v % 101 : Nat) else if k % 256 = 4 ∨ k = Obj.YQL_RW_DATA then (v % 4294967296 : Nat) else v

/-- The type of key `k` under row `r`: that of the row, or of CiA 301 for the TPDO parameters (chapter 12). -/
def keyTy (r : ObjDesc) (k : Nat) : ObjTy :=
  let ix := k / 256
  if 0x1800 ≤ ix ∧ ix < 0x1804 then
    (match k % 256 with | 2 => .u8 | 3 => .u16 | 5 => .u16 | _ => .u32)
  else if 0x1A00 ≤ ix ∧ ix < 0x1A04 then if k % 256 = 0 then .u8 else .u32
  else r.ty

/-- The value of an object that the device computes. -/
def computed (c : Ctl) (w : World) (k : Nat) : Option Int :=
  let ix := k / 256
  if ix < 0x2000 then netRead c w k
  else if ix < 0x2010 then sysRead c w k
  else if ix < 0x2100 then memRead c w k
  else if ix < 0x2200 then webRead w k
  else if ix < 0x2300 then lckRead w k
  else if ix < 0x2500 then memRead c w k
  else if ix < 0x2600 then jqRead c.mode w k
  else if ix < 0x2700 then portRead c.mode w k
  else if ix < 0x2900 then insRead c.mode w k
  else if ix < 0x2A00 then netRead c w k
  else if ix < 0x2D00 then sysRead c w k
  else netRead c w k

/-- The value that a read returns: of a C object the shadow, unless the value in force is asked for (R324). -/
def objRead (c : Ctl) (w : World) (k : Nat) (inForce : Bool) : Int :=
  if isOpen k then openRead w k
  else match computed c w k with
    | some v => v
    | none => if isC k && !inForce then getSh w k else getO w k

/-- The data bytes that a read of a scalar, STRING or small DOMAIN returns. -/
def objBytes (c : Ctl) (w : World) (r : ObjDesc) (k : Nat) (inForce : Bool) : List Nat :=
  match r.ty with
  | .str => strRead w k
  | .dom => domainBytes w (!inForce) (k / 256) 0 (domainSize w (k / 256))
  | _ => tyEncode (keyTy r k) (objRead c w k inForce)

/-- What a read does beside returning a value: TIM_NOW_SEC latches (R371), YQL_RW_DATA sends READ (chapter 9), and an
open value is taken. -/
def readFx (k : Nat) (w : World) : World :=
  if k = Obj.TIM_NOW_SEC then latchNow w
  else if k = Obj.YQL_RW_DATA then rwRead { w with free := w.free + 1 }
  else if isOpen k then { w with free := w.free + 1 }
  else w

end Sys2Proof.Machine
end

