-- ==== Sys2Proof/Machine/Auth.lean ====
section
/-! DEFINITION. Authenticated writes (R346 to R351): AES-CMAC-128 after the standards that R346 names, the checks of
R347, the counter of R348, the block of R349, and the key slots of R350. -/

namespace Sys2Proof.Machine

/-! ### AES-128 (FIPS 197) -/

/-- The substitution table. -/
def sboxTable : List Nat :=
  [99, 124, 119, 123, 242, 107, 111, 197, 48, 1, 103, 43, 254, 215, 171, 118] ++
  [202, 130, 201, 125, 250, 89, 71, 240, 173, 212, 162, 175, 156, 164, 114, 192] ++
  [183, 253, 147, 38, 54, 63, 247, 204, 52, 165, 229, 241, 113, 216, 49, 21] ++
  [4, 199, 35, 195, 24, 150, 5, 154, 7, 18, 128, 226, 235, 39, 178, 117] ++
  [9, 131, 44, 26, 27, 110, 90, 160, 82, 59, 214, 179, 41, 227, 47, 132] ++
  [83, 209, 0, 237, 32, 252, 177, 91, 106, 203, 190, 57, 74, 76, 88, 207] ++
  [208, 239, 170, 251, 67, 77, 51, 133, 69, 249, 2, 127, 80, 60, 159, 168] ++
  [81, 163, 64, 143, 146, 157, 56, 245, 188, 182, 218, 33, 16, 255, 243, 210] ++
  [205, 12, 19, 236, 95, 151, 68, 23, 196, 167, 126, 61, 100, 93, 25, 115] ++
  [96, 129, 79, 220, 34, 42, 144, 136, 70, 238, 184, 20, 222, 94, 11, 219] ++
  [224, 50, 58, 10, 73, 6, 36, 92, 194, 211, 172, 98, 145, 149, 228, 121] ++
  [231, 200, 55, 109, 141, 213, 78, 169, 108, 86, 244, 234, 101, 122, 174, 8] ++
  [186, 120, 37, 46, 28, 166, 180, 198, 232, 221, 116, 31, 75, 189, 139, 138] ++
  [112, 62, 181, 102, 72, 3, 246, 14, 97, 53, 87, 185, 134, 193, 29, 158] ++
  [225, 248, 152, 17, 105, 217, 142, 148, 155, 30, 135, 233, 206, 85, 40, 223] ++
  [140, 161, 137, 13, 191, 230, 66, 104, 65, 153, 45, 15, 176, 84, 187, 22]

def subByte (b : Nat) : Nat := sboxTable.getD b 0
/-- Multiplication by x in the field. -/
def xtime (b : Nat) : Nat := if b < 128 then 2 * b else (2 * b - 256) ^^^ 0x1B

def xorBytes (a b : List Nat) : List Nat := (a.zip b).map fun p => p.1 ^^^ p.2

/-- The next round key from the one before it. -/
def nextKey (rcon : Nat) (k : List Nat) : List Nat :=
  let t := [subByte (k.getD 13 0) ^^^ rcon, subByte (k.getD 14 0), subByte (k.getD 15 0), subByte (k.getD 12 0)]
  let w0 := xorBytes (k.take 4) t
  let w1 := xorBytes ((k.drop 4).take 4) w0
  let w2 := xorBytes ((k.drop 8).take 4) w1
  w0 ++ w1 ++ w2 ++ xorBytes (k.drop 12) w2

/-- SubBytes and ShiftRows on the 16 bytes of the state, column by column. -/
def subShift (s : List Nat) : List Nat := (List.range 16).map fun i => subByte (s.getD ((i + 4 * (i % 4)) % 16) 0)

/-- MixColumns on one column. -/
def mixColumn : List Nat → List Nat
  | [a, b, c, d] =>
    let t := a ^^^ b ^^^ c ^^^ d
    [a ^^^ t ^^^ xtime (a ^^^ b), b ^^^ t ^^^ xtime (b ^^^ c), c ^^^ t ^^^ xtime (c ^^^ d), d ^^^ t ^^^ xtime (d ^^^ a)]
  | l => l
def mixColumns (s : List Nat) : List Nat :=
  mixColumn (s.take 4) ++ mixColumn ((s.drop 4).take 4) ++ mixColumn ((s.drop 8).take 4) ++ mixColumn (s.drop 12)

/-- The rounds behind the first key addition; the last has no MixColumns. -/
def aesRounds : Nat → Nat → List Nat → List Nat → List Nat
  | 0, _, _, s => s
  | n + 1, rcon, k, s =>
    let k := nextKey rcon k
    let s := subShift s
    aesRounds n (xtime rcon) k (xorBytes (if n = 0 then s else mixColumns s) k)

/-- One block under a key. -/
def aes (key block : List Nat) : List Nat := aesRounds 10 1 key (xorBytes block key)

/-! ### CMAC (SP 800-38B) -/

/-- Bytes as a number, most significant first, and back. -/
def ofBe (l : List Nat) : Nat := l.foldl (fun acc b => 256 * acc + b) 0
def beBytes (k n : Nat) : List Nat := (leBytes k n).reverse

/-- Doubling in the field of 128 bits. -/
def cmacDouble (l : List Nat) : List Nat :=
  let n := ofBe l
  beBytes 16 (if n < 2 ^ 127 then 2 * n else (2 * n - 2 ^ 128) ^^^ 0x87)

/-- The chain over the message; the last block is masked with a subkey. -/
def cmacChain (key k1 : List Nat) : Nat → List Nat → List Nat → List Nat
  | 0, _, c => c
  | n + 1, m, c =>
    if m.length ≤ 16 then
      let last := if m.length = 16 then xorBytes m k1
        else xorBytes ((m ++ 128 :: List.replicate 15 0).take 16) (cmacDouble k1)
      aes key (xorBytes last c)
    else cmacChain key k1 n (m.drop 16) (aes key (xorBytes (m.take 16) c))

/-- AES-CMAC-128 of a message. -/
def cmac (key m : List Nat) : List Nat :=
  cmacChain key (cmacDouble (aes key (List.replicate 16 0))) (m.length / 16 + 1) m (List.replicate 16 0)

/-- The TAG field of R346: 12 bytes over SERIAL, INDEX, SUB, COUNTER and the data. -/
def authTag (key : List Nat) (ix sub counter : Nat) (data : List Nat) : List Nat :=
  (cmac key (leBytes 4 Config.serial ++ leBytes 2 ix ++ [sub] ++ leBytes 4 counter ++ data)).take 12

/-! ### The checks of R347 and the block of R349 -/

/-- Open a state's authentication block. -/
def setSec (s : State) (f : Sec → Sec) : State := { s with ctl := { s.ctl with sec := f s.ctl.sec } }

/-- The end of a block: the failure history is cleared and AUTH_LOCKOUT is raised with data 0 (R349). -/
def lockoutEnd (s : State) : State :=
  match s.ctl.sec.blockEnd with
  | none => s
  | some e =>
    if s.w.clk < e then s
    else { setSec s (fun x => { x with blockEnd := none, fails := [] }) with w := raise s.w Ev.AUTH_LOCKOUT 0 0 }

def execAuthLockoutEnd (s : State) : Host.Outcome State Fault Refusal := onState lockoutEnd s

/-- Failures that count still (R349). -/
def dropFails (s : State) : State := setSec s fun x => { x with fails := x.fails.filter fun e => s.w.clk < e }

def execAuthFailureExpire (s : State) : Host.Outcome State Fault Refusal := onState dropFails s

/-- A failed check: AUTH_FAIL, the failure counts for 10 s, and the eighth begins a block of 60 s (R347, R349). -/
def authFail (source ix slot reason : Nat) (s : State) : State :=
  let s := dropFails s
  let w := bump s.w Obj.SEC_FAILS
  let w := setO w Obj.SEC_LAST_FAIL (ix * 65536 + source * 256 + reason * 16 + slot : Nat)
  let w := raise w Ev.AUTH_FAIL source (ix * 65536 + reason * 16 + slot)
  let now := w.clk
  let lock := decide (7 ≤ s.ctl.sec.fails.length)
  let w := if lock then raise w Ev.AUTH_LOCKOUT 0 1 else w
  { setSec s (fun x => { x with fails := x.fails ++ [now + secClk 10]
                                blockEnd := if lock then some (now + secClk 60) else x.blockEnd }) with w := w }

/-- The status codes of R335. -/
abbrev St.ok : Nat := 0
abbrev St.clamped : Nat := 1
abbrev St.noObject : Nat := 2
abbrev St.noSub : Nat := 3
abbrev St.readOnly : Nat := 4
abbrev St.writeOnly : Nat := 5
abbrev St.type : Nat := 6
abbrev St.domain : Nat := 7
abbrev St.authRequired : Nat := 8
abbrev St.authFailed : Nat := 9
abbrev St.lockedOut : Nat := 10
abbrev St.busy : Nat := 11
abbrev St.access : Nat := 12
abbrev St.refused : Nat := 13
abbrev St.hostDown : Nat := 14

/-- The checks of R347 on a trailer, and the counter of R348. Answers a status: OK lets the write proceed. -/
def authCheck (source ix sub : Nat) (data : List Nat) (t : Trailer) (s : State) : Nat × State :=
  if 3 < t.slot ∨ t.pad ≠ 0 then (St.type, s)
  else
    let s := lockoutEnd s
    if lockedOut s.ctl.sec s.w.clk then (St.lockedOut, s)
    else match s.ctl.sec.slots.getD t.slot .empty with
      | .programmed key =>
        if t.tag ≠ authTag key ix sub t.counter data then (St.authFailed, authFail source ix t.slot 2 s)
        else if t.counter ≤ s.ctl.sec.ctr.getD t.slot 0 then (St.authFailed, authFail source ix t.slot 3 s)
        else (St.ok, setSec s fun x => { x with ctr := x.ctr.set t.slot t.counter })
      | _ => (St.authFailed, authFail source ix t.slot 1 s)

/-- Whether a write needs a trailer (R325 step 5, R350, R351): an object with A, or any under ALL_AUTH but a write over
CAN FD to 0x1000 to 0x1FFF. A key needs none while every slot is empty. -/
def authNeeded (s : State) (a : Bool) (ix : Nat) (p : Path) : Bool :=
  if ix = 0x3D00 then !(s.ctl.sec.slots.all fun x => x == .empty) || getO s.w Obj.SEC_CFG == 1
  else a || (getO s.w Obj.SEC_CFG == 1 && !(p == .can && 0x1000 ≤ ix && ix ≤ 0x1FFF))

/-- Step 5 of R325. -/
def authStep (a : Bool) (source ix sub : Nat) (data : List Nat) (e : WriteEnv) (s : State) : Nat × State :=
  match e.auth with
  | some t => authCheck source ix sub data t s
  | none => if authNeeded s a ix e.path then (St.authRequired, s) else (St.ok, s)

/-! ### Key slots (R350) -/

/-- Whether a key can be programmed into a slot: only in SERVICE, only an empty one. -/
def keyAllowed (s : State) (data : List Nat) : Bool :=
  s.ctl.mode == .service && decide (data.getD 0 0 < 4) && leAt data 1 3 == 0 &&
    s.ctl.sec.slots.getD (data.getD 0 0) .empty == .empty

/-- Program a key. -/
def keyProgram (data : List Nat) (s : State) : State :=
  setSec s fun x => { x with slots := x.slots.set (data.getD 0 0) (.programmed (slice data 4 16)) }

def isProgrammed : KeySlot → Bool
  | .programmed _ => true
  | _ => false

/-- Whether a slot can be revoked: an empty one always, a programmed one while another stays programmed. -/
def revokeAllowed (s : State) (slot : Nat) : Bool :=
  match s.ctl.sec.slots.getD slot .revoked with
  | .empty => true
  | .revoked => false
  | .programmed _ => decide (2 ≤ (s.ctl.sec.slots.filter isProgrammed).length)

/-- Revoke a slot for good. -/
def keyRevoke (slot : Nat) (s : State) : State := setSec s fun x => { x with slots := x.slots.set slot .revoked }

end Sys2Proof.Machine
end

