-- ==== Sys2Proof/Machine/Send.lean ====
section
/-! DEFINITION. Bulk streams that the device sends (R340 to R343), and what it sends in them of its own: the preview
(R170 to R172) and the inspection upload (R291, R292). -/

namespace Sys2Proof.Machine

/-! ### Streams out -/

def updNet (w : World) (f : Net → Net) : World := { w with net := f w.net }
def updCal (w : World) (f : Cal → Cal) : World := { w with cal := f w.cal }

/-- The address of a bulk destination: a present network entry of the partner table (R344). -/
def partnerAddr (w : World) (n : Nat) : Option Addr :=
  if n < 64 then
    match mapGet w.net.partners n with
    | some p => if p.present then some p.addr else none
    | none => none
  else none

def outIs (a : Addr) (stream : Nat) (b : BulkOut) : Bool := b.addr == a && b.stream == stream
def findOut (w : World) (a : Addr) (stream : Nat) : Option BulkOut := w.net.bulkOut.find? (outIs a stream)
def putOut (w : World) (b : BulkOut) : World :=
  updNet w fun n => { n with bulkOut := n.bulkOut.map fun x => if outIs b.addr b.stream x then b else x }
def dropOut (w : World) (b : BulkOut) : World :=
  updNet w fun n => { n with bulkOut := n.bulkOut.filter fun x => !outIs b.addr b.stream x }

/-- Blocks of a stream of `len` bytes (R341). -/
def blockCount (len : Nat) : Nat := ceilDiv len 8192
/-- Bytes of block `k` of a stream. -/
def blockBytes (data : List Nat) (k : Nat) : List Nat := (data.drop (8192 * k)).take 8192

/-- Send block `k`, for the first time or again. -/
def sendBlock (b : BulkOut) (w : World) (k : Nat) : BulkOut × World :=
  let first := match mapGet b.times k with | some t => t.1 | none => w.clk
  ({ b with times := mapPut b.times k (first, w.clk) }, send w (.bulkData b.addr b.stream k (blockBytes b.data k)))

/-- Send a list of blocks. -/
def sendBlocks (l : List Nat) (b : BulkOut) (w : World) : BulkOut × World :=
  l.foldl (fun x k => sendBlock x.1 x.2 k) (b, w)

/-- Send what the window takes; when every block is acknowledged, close (R342, R343). -/
def pumpOut (b : BulkOut) (w : World) : World :=
  if !b.opened || b.closed then putOut w b
  else if blockCount b.data.length ≤ b.next then
    send (putOut w { b with closed := true, openClk := w.clk, times := [] }) (.bulkClose b.addr b.stream 0 b.data.length)
  else
    let lim := min (b.next + b.window) (blockCount b.data.length)
    let new := ((List.range (lim - b.next)).map (· + b.next)).filter fun k => (mapGet b.times k).isNone && !b.acked.contains k
    let (b, w) := sendBlocks new b w
    putOut w b

/-- Open a stream of the device's own to a partner. -/
def openOut (w : World) (a : Addr) (purpose target : Nat) (pre data : List Nat) : World :=
  let n := w.net.nextStream
  let b : BulkOut := { addr := a, stream := n, target := target, purpose := purpose, offset := 0, pre := pre, data := data
                       window := 0, next := 0, acked := [], times := [], openClk := w.clk, opened := false, closed := false }
  let w := updNet w fun x => { x with bulkOut := x.bulkOut ++ [b], nextStream := n % 4294967295 + 1 }
  send w (.bulkOpen a n target data.length pre)

/-! ### Preview -/

/-- Count a dropped preview block; PRV_DROPPED at most once per frame (R172). -/
def prvDrop (frame : Nat) (w : World) : World :=
  let w := bump w Obj.JOB_PRV_DROPPED
  if w.cal.prvDropFrames.contains frame then w
  else raise (updCal w fun c => { c with prvDropFrames := lastN 16 (c.prvDropFrames ++ [frame]) }) Ev.PRV_DROPPED 0 frame

/-- Begin the transfer of the oldest queued block. -/
def prvPump (w : World) : World :=
  if w.net.bulkOut.any (·.purpose == 2) || decide (8 ≤ w.net.bulkOut.length) then w
  else match w.cal.prvQueue, partnerAddr w (getN w Obj.JOB_PRV_PARTNER) with
    | d :: _, some a => openOut w a 2 2 (d.take 32) (d.drop 32)
    | _, _ => w

/-- A coded block: into the queue of two, or dropped (R172). -/
def prvPut (frame : Nat) (d : List Nat) (w : World) : World :=
  if 2 ≤ w.cal.prvQueue.length then prvDrop frame w
  else prvPump (updCal w fun c => { c with prvQueue := c.prvQueue ++ [d] })

/-- Plane lines of a stream whose code is not smaller than the raw line (R136). -/
def noGainLines (bits key segLog : Nat) : Nat → List (List Nat) → List (List (List Nat)) → Nat
  | _, _, [] => 0
  | ln, prev, planes :: rest =>
    let n := ((planes.zip (prev ++ List.replicate planes.length [])).filter fun p =>
      noGain (encodeLine bits segLog 31 (ln % key == 0) p.1 p.2).1 p.1.length bits).length
    n + noGainLines bits key segLog (ln + 1) planes rest

/-- Code lines as one stream with KEY 16 and segments of 1,024 samples; lines without gain are counted. -/
def codeLines (bits : Nat) (lines : List (List (List Nat))) (w : World) : List Nat × World :=
  (encodeStream bits 16 2 lines, addO w Obj.MUS_NO_GAIN 32 (noGainLines bits 16 2 0 [] lines))

/-- A preview line from up to SCALE composed lines: the averages of one ink, in 8 bits (R170). -/
def prvRow (scale : Nat) (lines : List (List Nat)) : List Nat :=
  let arrs := lines.map (·.toArray)
  (List.range (wbCols / scale)).map fun i =>
    let t := sum (arrs.map fun a => sum ((List.range scale).map fun j => a.getD (i * scale + j) 0))
    min 255 (((roundDiv t (scale * lines.length)).toNat + 8) / 16)

/-- The preview lines of a block: groups of SCALE lines, by ink. -/
def prvRows (scale inks : Nat) : Nat → List (List (List Nat)) → List (List (List Nat))
  | 0, _ => []
  | k + 1, ls =>
    if ls.isEmpty then []
    else ((List.range inks).map fun i => prvRow scale ((ls.take scale).map fun l => l.getD i [])) ::
      prvRows scale inks k (ls.drop scale)

/-- Code a block and queue it with its header (R171). -/
def prvEmit (b : PrvBlock) (w : World) : World :=
  if b.lines.isEmpty then w
  else
    let rows := prvRows b.scale ((b.lines.headD []).length) 16 b.lines
    let (d, w) := codeLines 8 rows w
    let h := leBytes 4 b.frame ++ leBytesInt 8 b.start ++ [b.scale, b.inks, b.layers, 0] ++ leBytes 4 b.block ++
      leBytes 4 b.et ++ leBytes 4 d.length
    prvPut b.frame (withCrc h ++ d) w

/-- Whether preview runs: enabled, a general unit serves, and the partner is present. -/
def prvOn (w : World) : Bool :=
  getF w Obj.JOB_PRV_CFG 0 1 == 1 && getN w Obj.MUS_GEN_STATE != 2 && (partnerAddr w (getN w Obj.JOB_PRV_PARTNER)).isSome

/-- The block that line `n` of a frame joins: the one being built, or block 0 at the first line of the frame. -/
def prvBlock (w : World) (n : Int) (f : CompFrame) (s : CalSet) : Option PrvBlock :=
  match w.cal.prv with
  | some b => if b.frame = f.no then some b else none
  | none =>
    let cfg := getN w Obj.JOB_PRV_CFG
    let inks := field cfg 8 8 &&& (calV s Obj.JOB_INK_MASK).toNat
    let lay := fun (l : Nat) => bitOf cfg (l - 6) && (s.layers.getD l none).isSome
    if 2 * (n - 1) < f.wB ∧ inks ≠ 0 then
      some { frame := f.no, start := 2 * n, scale := if bitOf cfg 1 then 8 else 16, inks := inks
             layers := b2n (lay 8) + 2 * b2n (lay 9), block := 0, et := nowEt w, lines := [] }
    else none

/-- The included ink planes of a line with layers 8 and 9 laid over them (R170). -/
def prvLine (b : PrvBlock) (n : Int) (f : CompFrame) (s : CalSet) (planes : List (Option (List Nat))) (w : World) :
    List (List Nat) × World :=
  let ks := (List.range 8).filter (bitOf b.inks)
  let zeros := List.replicate wbCols 0
  if b.layers = 0 then (ks.map fun k => (planes.getD k none).getD zeros, w)
  else
    let (ls, w') := layerLines f n s ([8, 9].filter fun l => bitOf b.layers (l - 8)) w
    let arrs := (List.range 8).map fun k => ((planes.getD k none).getD zeros).toArray
    let px := (List.range wbCols).map fun x => ls.foldl (blendLayer 4095 4 x) (arrs.map fun a => a.getD x 0)
    (ks.map fun k => px.map fun cs => cs.getD k 0, { w' with job := w.job })

/-- Preview of line `n`: what was composed, or a gap line. A block ends after 16 preview lines or with its frame, also
with one that a new boundary cuts (R91). -/
def prvStep (n : Int) (r : Option (CompFrame × CalSet × List (Option (List Nat)))) (w : World) : World :=
  let stop := fun (w : World) => updCal w fun c => { c with prv := none }
  match r with
  | none => match w.cal.prv with | some b => prvEmit b (stop w) | none => w
  | some (f, s, planes) =>
    let w := match w.cal.prv with
      | some b => if b.frame = f.no then w else prvEmit b (stop w)
      | none => w
    if !prvOn w then stop w
    else match prvBlock w n f s with
      | none => stop w
      | some b =>
        let b := if b.lines.isEmpty then { b with start := 2 * n, et := nowEt w } else b
        let (l, w) := prvLine b n f s planes w
        let b := { b with lines := b.lines ++ [l] }
        let last := match compFrame w (n + 1) with | some g => g.no != f.no | none => true
        if last then prvEmit b (stop w)
        else if 16 * b.scale ≤ b.lines.length then
          prvEmit b (updCal w fun c => { c with prv := some { b with block := b.block + 1, lines := [] } })
        else updCal w fun c => { c with prv := some b }

/-- COMPOSE_LINE_DONE (R105): the front line is written, the preview takes it, and the front advances. -/
def composeDone (w : World) : World :=
  if w.mem.lineOpen then
    let n := w.mem.front
    let (r, w) := composeLine n w
    advanceFront (prvStep n r w)
  else w

def execComposeLineDone (s : State) : Host.Outcome State Fault Refusal :=
  onWorld (fun c w => whenDo (inPrint c.mode) composeDone w) s

/-- The preview's partner leaves the table: the blocks that wait are dropped (R172). -/
def prvGone (n : Nat) (w : World) : World :=
  if n = getN w Obj.JOB_PRV_PARTNER ∧ getF w Obj.JOB_PRV_CFG 0 1 = 1 then
    let w := w.cal.prvQueue.foldl (fun w d => prvDrop (leAt d 0 4) w) w
    let w := updNet w fun x => { x with bulkOut := x.bulkOut.filter fun b => b.purpose != 2 }
    raise (updCal w fun c => { c with prv := none, prvQueue := [], prvPartnerLost := true }) Ev.PRV_PARTNER n 1
  else w

/-- The preview's partner is back. -/
def prvBack (n : Nat) (w : World) : World :=
  if n = getN w Obj.JOB_PRV_PARTNER ∧ w.cal.prvPartnerLost = true then
    raise (updCal w fun c => { c with prvPartnerLost := false }) Ev.PRV_PARTNER n 0
  else w

/-! ### Inspection upload -/

/-- Count a dropped block of camera `c`; INS_UPL_DROPPED at most once per second (R292). -/
def uplDrop (c block : Nat) (w : World) : World :=
  let w := bump w Obj.INS_UPL_DROPPED
  if stampOk w w.ins.uplStamp (secClk 1) then
    raise (updIns w fun i => { i with uplStamp := some w.clk }) Ev.INS_UPL_DROPPED c block
  else w

/-- A trigger for camera `c`: a block with the next number, dropped while an earlier one waits (R292). -/
def uplTrigger (w : World) (c : Nat) : World :=
  let n := w.ins.uplNo.getD c 0
  let w := updIns w fun i => { i with uplNo := i.uplNo.set c ((n + 1) % 4294967296) }
  if w.ins.upl.any (·.cam == c) then uplDrop c n w
  else updIns w fun i => { i with upl := i.upl ++ [{ cam := c, first := none, frame := 0, start := 0, et := 0, block := n
                                                     scans := getN w Obj.INS_UPL_SCANS, lines := [], ringAt := 0, ready := none }] }

/-- Triggers for the cameras of a mask that are in use, in increasing order (R291). -/
def uplTriggers (mask : Nat) (w : World) : World :=
  ((List.range 8).filter fun c => bitOf mask c && bitOf w.ins.cams c).foldl uplTrigger w

/-- INS_UPL_PERIOD (R291). -/
def uplPeriod (w : World) : World :=
  if getF w Obj.INS_UPL_CFG 0 2 = 1 ∧ w.ins.uplClk + msClk (getN w Obj.INS_UPL_PERIOD_MS) ≤ w.clk then
    uplTriggers (getF w Obj.INS_UPL_CFG 8 8) (updIns w fun i => { i with uplClk := w.clk })
  else w

def execInsUplPeriod (s : State) : Host.Outcome State Fault Refusal := onWorld (fun _ w => uplPeriod w) s

/-- A write of INS_UPL_NOW: triggers in MODE 2 (R291). -/
def uplNow (mask : Nat) (w : World) : World := if getF w Obj.INS_UPL_CFG 0 2 = 2 then uplTriggers mask w else w

/-- Whether every scan of a block has been read. -/
def uplRead (w : World) (u : UplBlock) : Bool :=
  match u.first with
  | none => false
  | some f =>
    let at_ := fun (k : Nat) => (k + 4294967296 - f) % 4294967296
    decide (u.scans ≤ at_ w.ins.scan) && w.ins.lines.all fun l => decide (u.scans ≤ at_ l.scan)

/-- The lines of a block; a line that never arrived is a free value per pixel. -/
def uplLines (u : UplBlock) (pixels bits free : Nat) : List (List (List Nat)) :=
  (List.range u.scans).map fun d => (List.range 8).map fun k =>
    match mapGet u.lines (8 * d + k) with
    | some s => s
    | none => (List.range pixels).map fun x => (Config.freeValue (free + (8 * d + k) * pixels + x)).toNat % 2 ^ bits

/-- Code a block and open its transfer (R291). -/
def uplSend (u : UplBlock) (a : Addr) (w : World) : World :=
  let pixels := getN w Obj.YQL_CPF_PIXELS
  let bits := getN w Obj.YQL_CPF_BITS
  let lines := uplLines u pixels bits w.free
  let w := if u.lines.length = 8 * u.scans then w else { w with free := w.free + 8 * u.scans * pixels }
  let (d, w) := codeLines (if bits ≤ 8 then 8 else if bits ≤ 12 then 12 else 16) lines w
  let h := leBytes 4 u.frame ++ leBytesInt 8 u.start ++ [u.cam, 0] ++ leBytes 2 u.scans ++ leBytes 4 u.block ++
    leBytes 4 u.et ++ leBytes 4 d.length
  let w := updIns w fun i => { i with upl := i.upl.drop 1
                                      uplBytes := lastSecond w.clk i.uplBytes ++ [(w.clk, 8 * u.scans * ceilDiv (pixels * bits) 8)] }
  openOut w a 3 3 (withCrc h) d

/-- UPLOAD_BLOCK_READY (R291, R292): the oldest block's scans have been read. It is dropped when the ring has overwritten
them, or when its partner has not taken it within 1 s; it waits while another block is on its way, while the general
units are shed, and while the mean read rate is above 0.5 Gb/s. -/
def uplReady (w : World) : World :=
  match w.ins.upl with
  | [] => w
  | u :: r =>
    if !uplRead w u then w
    else
      let drop := fun (w : World) => uplDrop u.cam u.block (updIns w fun i => { i with upl := r })
      let ready := u.ready.getD w.clk
      let w := updIns w fun i => { i with upl := { u with ready := some ready } :: r }
      if (getN w Obj.MEM_INS_MIB - 320) * 1048576 / 73728 < w.ins.ringLine - u.ringAt then drop w
      else if getN w Obj.MUS_GEN_STATE = 2 ∨ 62500000 < sum ((lastSecond w.clk w.ins.uplBytes).map (·.2)) ∨
          (w.net.bulkOut.any (·.purpose == 3)) = true then w
      else match partnerAddr w (getN w Obj.INS_UPL_PARTNER) with
        | some a => if w.net.bulkOut.length < 8 then uplSend u a w else if ready + secClk 1 ≤ w.clk then drop w else w
        | none => if ready + secClk 1 ≤ w.clk then drop w else w

def execUploadBlockReady (s : State) : Host.Outcome State Fault Refusal := onWorld (fun _ w => uplReady w) s

/-! ### Acknowledgements -/

/-- A stream of the device's ends: `ok` when the partner took it. -/
def endOut (b : BulkOut) (ok : Bool) (w : World) : World :=
  let w := dropOut w b
  let w := if b.purpose = 2 then
      let w := updCal w fun c => { c with prvQueue := c.prvQueue.drop 1 }
      if ok then bump w Obj.JOB_PRV_BLOCKS else prvDrop (leAt b.pre 0 4) w
    else if b.purpose = 3 then
      if ok then bump w Obj.INS_UPL_BLOCKS else uplDrop (b.pre.getD 12 0) (leAt b.pre 16 4) w
    else w
  prvPump w

/-- The blocks that a SACK names. -/
def sackBlocks (next sack : Nat) : List Nat := ((List.range 64).filter (bitOf sack)).map fun i => next + 1 + i

/-- An acknowledgement in a stream: the window moves, and a block that is missing from SACK while a later one has been
acknowledged is sent again (R342). -/
def ackOpen (b : BulkOut) (window next sack : Nat) (w : World) : World :=
  let next := max b.next (min next (blockCount b.data.length))
  let acked := (sackBlocks next sack).filter fun k => decide (k < blockCount b.data.length)
  let top := acked.foldl max 0
  let new := decide (b.acked.foldl max 0 < top)
  let gone := fun (k : Nat) => decide (k < next) || acked.contains k
  let b := { b with window := window, next := next, acked := acked, openClk := w.clk, times := mapFilter b.times fun k => !gone k }
  let again := if new then (b.times.map (·.1)).filter fun k => decide (k < top) else []
  let (b, w) := sendBlocks again b w
  pumpOut b w

/-- BULK_ACK_RX (R342): the answer to an opening, an acknowledgement in the stream, or the answer to the close. -/
def bulkAck (a : Addr) (stream status window next sack : Nat) (w : World) : World :=
  match findOut w a stream with
  | none => w
  | some b =>
    if b.closed then endOut b (decide (status ≤ 1)) w
    else if status ≠ 0 then endOut b false w
    else if !b.opened then
      if b.purpose = 2 ∧ window = 0 then endOut b false w
      else pumpOut { b with opened := true, window := window, openClk := w.clk } w
    else ackOpen b window next sack w

def execBulkAckRx (a : Addr) (stream status window next sack : Nat) (s : State) : Host.Outcome State Fault Refusal :=
  onWorld (fun _ w => whenDo (ifaceServes w a.iface) (bulkAck a stream status window next sack) w) s

/-- BULK_RESEND_TIMEOUT (R342): blocks not acknowledged for 1 ms are sent again. -/
def bulkResend (a : Addr) (stream : Nat) (w : World) : World :=
  match findOut w a stream with
  | none => w
  | some b =>
    let l := (b.times.filter fun e => decide (e.2.2 + msClk 1 ≤ w.clk)).map (·.1)
    let (b, w) := sendBlocks l b w
    putOut w b

def execBulkResendTimeout (a : Addr) (stream : Nat) (s : State) : Host.Outcome State Fault Refusal :=
  onWorld (fun _ w => whenDo (ifaceServes w a.iface) (bulkResend a stream) w) s

/-- BULK_SEND_ABANDON (R342): a block, the opening or the close has waited for its acknowledgement for 1 s. A window that
takes nothing for 1 s ends an upload too (R292). -/
def bulkAbandon (a : Addr) (stream : Nat) (w : World) : World :=
  match findOut w a stream with
  | none => w
  | some b =>
    let late := b.times.any (fun e => decide (e.2.1 + secClk 1 ≤ w.clk)) ||
      ((!b.opened || b.closed || (b.times.isEmpty && b.purpose != 0)) && decide (b.openClk + secClk 1 ≤ w.clk))
    if late then
      endOut b false (if b.opened && !b.closed then send w (.bulkClose b.addr b.stream 1 b.data.length) else w)
    else w

def execBulkSendAbandon (a : Addr) (stream : Nat) (s : State) : Host.Outcome State Fault Refusal :=
  onWorld (fun _ w => bulkAbandon a stream w) s

end Sys2Proof.Machine
end

