-- ==== Sys2Proof/Machine/Net.lean ====
section
/-! DEFINITION. The network: the partner table (R344, R345), HELLO (R339), NOTIFY (R338), link changes (R361, R362)
and reads over KOA (R332 to R335, R337). -/

namespace Sys2Proof.Machine

/-! ### Which objects answer -/

/-- Objects that Serge serves with no help from the host core (R337, R360, R393): the CAN FD profile's, 0x2A00 to 0x2A0F,
and the others of chapter 14's table, which R337 names without their indices (DEDUCED, log 88). -/
def sergeServed (ix : Nat) : Bool :=
  (0x1000 ≤ ix && ix ≤ 0x1FFF) || (0x2A00 ≤ ix && ix ≤ 0x2A37) || (0x3A30 ≤ ix && ix ≤ 0x3A37)

/-- Whether an object answers now; otherwise HOST_DOWN. -/
def answers (w : World) (ix : Nat) : Bool := hostServing w || (w.sys.voted && sergeServed ix)

/-- Whether anything answers a message on interface `i` at all. -/
def koaUp (w : World) (i : Nat) : Bool := ifaceServes w i && (w.sys.voted || hostServing w)

/-- Whether a sub-index exists under an index that exists: a row or the count of sub-indices. 0x1800 to 0x1803 have no
sub-index 4. -/
def subExists (ix sub : Nat) : Bool :=
  let k := ix * 256 + sub
  if 0x1800 ≤ ix ∧ ix < 0x1804 ∧ sub = 4 then false else (objRow k).isSome || isCountSub k

/-! ### The partner table -/

/-- A configured address of entry `n` (R345): the IPv6 address where no IPv4 address is given. -/
def fixedAddr (w : World) (n : Nat) : Addr :=
  let v4 := getN w (Obj.NET_PEER_IPV4 n)
  let v6 := getN w (Obj.NET_PEER_IPV6_HI n) * 18446744073709551616 + getN w (Obj.NET_PEER_IPV6_LO n)
  let i := getN w (Obj.NET_PEER_IFACE n)
  let i := if i = 255 then ((List.range 9).find? (ifaceServes w)).getD 0 else i
  { iface := i, v6 := v4 == 0 && v6 != 0, ip := if v4 = 0 ∧ v6 ≠ 0 then v6 else v4, udp := getN w (Obj.NET_PEER_UDP n) }

/-- Fields of NET_PEER_CFG. -/
def peerStatic (w : World) (n : Nat) : Bool := getF w (Obj.NET_PEER_CFG n) 0 1 == 1
def peerFixed (w : World) (n : Nat) : Bool := getF w (Obj.NET_PEER_CFG n) 2 1 == 1

/-- Whether the interface of an ADDR_FIXED entry has link. -/
def fixedLink (w : World) (n : Nat) : Bool :=
  let i := getN w (Obj.NET_PEER_IFACE n)
  if i = 255 then (List.range 9).any (ifaceServes w) else ifaceServes w i

def setPartner (w : World) (n : Nat) (p : Partner) : World :=
  updNet w fun x => { x with partners := mapPut x.partners n p }

/-- An entry becomes present: PARTNER_ARRIVE (R345). -/
def arrive (n : Nat) (p : Partner) (w : World) : World :=
  let old := mapGet w.net.partners n
  let seq := match old with | some q => if q.serial = p.serial then q.notifySeq else 0 | none => 0
  let s := w.tim.sec % 4294967296
  let p := { p with present := true, departed := false, arriveS := s, lastS := s, lastClk := w.clk, notifyQ := []
                    notifySince := 0, notifySeq := seq }
  prvBack n (raise (setPartner w n p) Ev.PARTNER_ARRIVE n (p.serial % 4294967296))

/-- An entry becomes departed: PARTNER_DEPART; it keeps its number (R345). -/
def depart (n : Nat) (w : World) : World :=
  match mapGet w.net.partners n with
  | none => w
  | some p =>
    if !p.present then w
    else
      let w := setPartner w n { p with present := false, departed := true, notifyQ := [] }
      prvGone n (raise w Ev.PARTNER_DEPART n (p.serial % 4294967296))

/-- Bring the ADDR_FIXED entry `n` in line with its interface (R345). -/
def fixedEval (w : World) (n : Nat) : World :=
  if !peerFixed w n then w
  else
    let here := match mapGet w.net.partners n with | some p => p.present | none => false
    if fixedLink w n then
      if here then w
      else
        arrive n { present := true, departed := false, role := 4, addr := fixedAddr w n, product := 0
                   serial := getN w (Obj.NET_PEER_SERIAL n), revision := 0, vendor := 0, arriveS := 0, lastS := 0, lastClk := 0
                   notifyQ := [], notifySince := 0, notifySeq := 0 } w
    else depart n w
def fixedEvalAll (w : World) : World := (List.range 64).foldl fixedEval w

/-- The present entry of a serial. -/
def presentEntry (w : World) (serial : Nat) : Option (Nat × Partner) :=
  w.net.partners.find? fun e => e.2.present && e.2.serial == serial

/-- The departed entry without STATIC with the oldest LAST_S. -/
def oldestDeparted (w : World) : Option Nat :=
  (w.net.partners.foldl (fun acc e =>
    if !e.2.departed || peerStatic w e.1 then acc
    else match acc with
      | none => some (e.1, e.2.lastS)
      | some a => if e.2.lastS < a.2 then some (e.1, e.2.lastS) else acc) none).map (·.1)

/-- The entry that a HELLO from a serial without a present entry takes (R345): one reserved for it, the departed one it
had, the lowest empty one, or the oldest departed one. -/
def freeEntry (w : World) (serial : Nat) : Option Nat :=
  let ns := List.range 64
  match ns.find? fun n => peerStatic w n && getN w (Obj.NET_PEER_SERIAL n) == serial with
  | some n => some n
  | none =>
    match w.net.partners.find? fun e => e.2.departed && e.2.serial == serial && !peerStatic w e.1 with
    | some e => some e.1
    | none =>
      match ns.find? fun n => !peerStatic w n && !peerFixed w n && (mapGet w.net.partners n).isNone with
      | some n => some n
      | none => oldestDeparted w

/-- What a HELLO tells of its sender (R339). -/
def helloEntry (p : Partner) (vendor product revision role : Nat) : Partner :=
  { p with vendor := vendor, product := product, revision := revision, role := role }

/-- A HELLO from a present serial (R345): at its address it refreshes the entry; at another it is a second address while
the sender's period since the last HELLO from the entry's address has not passed, and a move after that. -/
def helloPresent (n : Nat) (p : Partner) (a : Addr) (vendor product revision role period : Nat) (leaving : Bool) (w : World) :
    World :=
  let fresh := { helloEntry p vendor product revision role with lastS := w.tim.sec % 4294967296, lastClk := w.clk }
  if p.addr = a ∨ peerFixed w n = true then
    if leaving then depart n (setPartner w n fresh) else setPartner w n fresh
  else if w.clk < p.lastClk + msClk period then bump w Obj.NET_PARTNER_CONFLICTS
  else
    let w := bump (setPartner w n { fresh with addr := a }) Obj.NET_PARTNER_MOVES
    if leaving then depart n w else w

/-- HELLO_RX (R345). -/
def helloRx (a : Addr) (serial vendor product revision role period : Nat) (leaving : Bool) (w : World) : World :=
  match presentEntry w serial with
  | some (n, p) => helloPresent n p a vendor product revision role period leaving w
  | none =>
    if leaving then w
    else match freeEntry w serial with
      | none => bump w Obj.NET_PARTNER_FULL
      | some n =>
        arrive n { present := true, departed := false, role := role, addr := if peerFixed w n then fixedAddr w n else a
                   product := product, serial := serial, revision := revision, vendor := vendor, arriveS := 0, lastS := 0
                   lastClk := 0, notifyQ := [], notifySince := 0, notifySeq := 0 } w

def execHelloRx (a : Addr) (serial vendor product revision role period : Nat) (leaving : Bool) (s : State) :
    Host.Outcome State Fault Refusal :=
  onWorld (fun _ w => whenDo (hostServing w && ifaceServes w a.iface && getF w (Obj.NET_IF_CFG a.iface) 4 1 == 1)
    (helloRx a serial vendor product revision role period leaving) w) s

/-- PARTNER_TIMEOUT of entry `n` (R345). -/
def partnerTimeout (n : Nat) (w : World) : World :=
  match mapGet w.net.partners n with
  | none => w
  | some p =>
    if !peerFixed w n ∧ p.present = true ∧ p.lastClk + msClk (getN w Obj.NET_PARTNER_TO_MS) ≤ w.clk then depart n w else w

def execPartnerTimeout (n : Nat) (s : State) : Host.Outcome State Fault Refusal :=
  onWorld (fun _ w => whenDo (hostServing w) (partnerTimeout n) w) s

/-! ### HELLO and NOTIFY -/

/-- The body of a HELLO on interface `i` (R339). -/
def helloBody (w : World) (i : Nat) (leaving : Bool) : List Nat :=
  leBytes 4 Config.serial ++ leBytes 4 0x4D56 ++ leBytes 4 0x2080 ++ leBytes 4 (Config.revision (runImage w)) ++ [0, i] ++
    leBytes 2 (getN w Obj.NET_HELLO_MS) ++ leBytes 2 (getN w Obj.NET_BULK_WINDOW) ++
    leBytes 2 (b2n (decide (i < 8)) + 2 * b2n leaving) ++ zeroBytes 8 ++ (w.dict.hostName ++ zeroBytes 32).take 32

/-- Send a HELLO on interface `i`. -/
def sendHello (i : Nat) (leaving : Bool) (w : World) : World :=
  let n := w.net.helloSeq.getD i 0
  let body := helloBody w i leaving
  send (updNet w fun x => { x with helloSeq := x.helloSeq.set i ((n + 1) % 4294967296), helloClk := x.helloClk.set i w.clk })
    (.hello i n body)

/-- HELLO_SEND on interface `i` (R339). -/
def helloSend (i : Nat) (w : World) : World :=
  if ifaceServes w i ∧ getF w (Obj.NET_IF_CFG i) 4 1 = 1 ∧
      w.net.helloClk.getD i 0 + msClk (getN w Obj.NET_HELLO_MS) ≤ w.clk then sendHello i false w
  else w

def execHelloSend (i : Nat) (s : State) : Host.Outcome State Fault Refusal :=
  onWorld (fun _ w => whenDo (hostServing w) (helloSend i) w) s

/-- Interfaces that carried traffic in `old` and carry none now say that they leave (R339). -/
def sayLeaving (old : World) (w : World) : World :=
  (List.range 9).foldl (fun w i =>
    if ifaceServes old i && !ifaceEnabled w i && getF old (Obj.NET_IF_CFG i) 4 1 == 1 && hostServing w then sendHello i true w
    else w) w

/-- NOTIFY_SEND to entry `n` (R338): 32 records, or what is pending 1 ms after the first. -/
def notifySend (n : Nat) (w : World) : World :=
  match mapGet w.net.partners n with
  | none => w
  | some p =>
    let l := p.notifyQ
    if notifiable w n p && (decide (32 ≤ l.length) || (!l.isEmpty && decide (p.notifySince + msClk 1 ≤ w.clk))) then
      let out := l.take 32
      let q := (p.notifySeq + 1) % 4294967296
      let w := setPartner w n { p with notifyQ := l.drop 32, notifySince := w.clk, notifySeq := q }
      send w (.notify p.addr (leBytes 4 q ++ leBytes 2 out.length ++ [0, 0] ++ out.flatMap fun r => evBytes r 0))
    else w

def execNotifySend (n : Nat) (s : State) : Host.Outcome State Fault Refusal :=
  onWorld (fun _ w => whenDo (hostServing w) (notifySend n) w) s

/-! ### Links -/

/-- A DHCP lease comes with the link (R362); the address that the server gives is a free value. -/
def dhcpLink (i : Nat) (up : Bool) (w : World) : World :=
  if i < 9 ∧ up = true ∧ getF w (Obj.NET_IF_CFG i) 5 1 = 1 then
    let (v, w) := takeFree w
    updNet w fun x => { x with dhcp := mapPutD x.dhcp i (v % 4294967296) 0 }
  else updNet w fun x => { x with dhcp := mapDel x.dhcp i }

/-- What depends on which interfaces serve: the PTP port (R367) and the ADDR_FIXED entries. -/
def linkEval (w : World) : World := fixedEvalAll (ptpEval w)

/-- STORED_VALUES_LOADED, with the ADDR_FIXED entries of links that are up already (R345). -/
def execStoredValuesLoaded (damaged : List Nat) (s : State) : Host.Outcome State Fault Refusal :=
  onState (fun s =>
    let t := storedLoaded damaged s
    if t.w.sys.loaded && !s.w.sys.loaded then { t with w := fixedEvalAll t.w } else t) s

/-- NET_LINK (R361): the link of interface `i`, or of the CAN FD port (9), goes up or down. -/
def netLink (i : Nat) (up : Bool) (w : World) : World :=
  if w.net.linkUp.getD i false = up then w
  else
    let w := updNet w fun x => { x with linkUp := x.linkUp.set i up }
    linkEval (raise (dhcpLink i up w) Ev.NET_LINK i (b2n up))

def execNetLink (i : Nat) (up : Bool) (s : State) : Host.Outcome State Fault Refusal :=
  onWorld (fun c w => whenDo (powered c.mode && decide (i < 10)) (netLink i up) w) s

/-! ### Reads over KOA -/

/-- One item of a READ: its status, type code, data and effect (R334, R335). -/
def readItem (c : Ctl) (ix sub : Nat) (inForce : Bool) (w : World) : Nat × Nat × List Nat × World :=
  let k := ix * 256 + sub
  if !answers w ix then (St.hostDown, 0, [], w)
  else if !indexExists ix then (St.noObject, 0, [], w)
  else if !subExists ix sub then (St.noSub, 0, [], w)
  else match objRow k with
    | none => (St.ok, 0x05, [highestSub ix], w)
    | some (r, _, _) =>
      let code := tyCode (keyTy r k)
      if r.acc = .wo then (St.writeOnly, code, [], w)
      else if r.ty = .dom ∧ 256 < domainSize w ix then (St.domain, code, [], w)
      else (St.ok, code, objBytes c w r k inForce, readFx k w)

/-- Data padded with 0 to a multiple of 4 bytes. -/
def pad4 (l : List Nat) : List Nat := l ++ zeroBytes ((4 - l.length % 4) % 4)

/-- The items of a READ that fit: their bytes, how many, and the world after them. -/
def readItems (c : Ctl) : List (Nat × Nat × Bool) → Nat → World → List Nat × Nat × World
  | [], _, w => ([], 0, w)
  | (ix, sub, f) :: r, used, w =>
    let (st, code, data, w') := readItem c ix sub f w
    let b := leBytes 2 ix ++ [sub, st, code, 0, 0, 0] ++ leBytes 4 data.length ++ pad4 data
    if 8192 < used + b.length then ([], 0, w)
    else
      let (bs, n, w) := readItems c r (used + b.length) w'
      (b ++ bs, n + 1, w)

/-- KOA_READ: `items` are index, sub-index and IN_FORCE. A body of no item, or of more than 64, is discarded (R332). -/
def koaRead (a : Addr) (reqId : Nat) (items : List (Nat × Nat × Bool)) (c : Ctl) (w : World) : World :=
  if items.length = 0 ∨ 64 < items.length then bump w Obj.NET_KOA_BAD
  else
    let (b, n, w) := readItems c items 4 w
    send w (.koa a 0x81 0 reqId (leBytes 2 n ++ [0, 0] ++ b))

def execKoaRead (a : Addr) (reqId : Nat) (items : List (Nat × Nat × Bool)) (s : State) : Host.Outcome State Fault Refusal :=
  onWorld (fun c w => whenDo (koaUp w a.iface) (koaRead a reqId items c) w) s

/-- KOA_MESSAGE_DISCARD (R332): a message on interface `i` that is malformed or not for this device. -/
def execKoaMessageDiscard (i : Nat) (s : State) : Host.Outcome State Fault Refusal :=
  onWorld (fun _ w => whenDo (koaUp w i) (fun w => bump w Obj.NET_KOA_BAD) w) s

end Sys2Proof.Machine
end

