-- ==== Sys2Proof/Machine/Write.lean ====
section
/-! DEFINITION. The object engine's writes (R322 to R330, R475): the steps of R325, the value checks of R326, the actions,
and what a value changes as it is put in force. -/

namespace Sys2Proof.Machine

/-! ### Value checks (R326) -/

/-- One rule of R326: where it changes the value, an adjustment. -/
def noteRule (k reason source : Nat) (old new : Int) (w : World) : World :=
  if old = new then w else adjust w k reason source old new

/-- A field that falls back. -/
def fallField (v : Nat) (f : FieldFall) : Nat :=
  let x := field v f.lsb f.width
  if f.lo ≤ x ∧ x ≤ f.hi then setField v f.lsb f.width f.val else v

/-- NET_PORT_CFG of port `p`: reserved modes fall back to 0, and a FEC value that the mode does not allow to RS-FEC
(R361). -/
def fixPortCfg (p v : Nat) : Nat :=
  let v := v &&& 0xFEF
  let v := if (if p = 2 then 2 else 4) ≤ field v 1 3 then setField v 1 3 0 else v
  let top := if p = 2 then 0 else match field v 1 3 with | 2 => 1 | 3 => 2 | _ => 0
  if top < field v 6 2 then setField v 6 2 0 else v

/-- Rule 1: reserved bits and fallbacks. -/
def ruleBits (w : World) (r : ObjDesc) (n : Nat) (v : Int) : Int :=
  match r.chk with
  | .bits mask falls =>
    let x := falls.foldl fallField (v.toNat &&& mask)
    if r.key = Obj.MUS_WB_PRED ∧ x = 0 then 31 else (x : Nat)
  | _ =>
    if r.key = Obj.WEB_SSI_CFG 0 then (v.toNat &&& 0xFF07 : Nat)
    else if r.key = Obj.NET_PORT_CFG 0 then (fixPortCfg n v.toNat : Nat)
    else if r.key = Obj.NET_PEER_CFG 0 then (v.toNat &&& 7 : Nat)
    else if r.key = Obj.EVT_ROUTE then fixRoute (getN w Obj.EVT_ROUTE_SEL) v
    else if r.key = Obj.JOB_INK_MASK ∧ v = 0 then 255
    else v

/-- Whether a value lies in one of the parts of a range. -/
def inParts (l : List (Int × Int)) (v : Int) : Bool := l.any fun p => p.1 ≤ v && v ≤ p.2

/-- Rule 2: an ENUM8 value outside the list takes the default. -/
def ruleEnum (r : ObjDesc) (k : Nat) (v : Int) : Int :=
  match r.ty, r.chk with
  | .enum8, .parts l => if inParts l v then v else objDefault k
  | _, _ => v

/-- Rule 3: down onto the step. -/
def ruleStep (r : ObjDesc) (v : Int) : Int := v - v % (max 1 r.step : Nat)

/-- The parts of a range, with the bounds that other objects give. -/
def partsOf (w : World) (r : ObjDesc) (n o : Nat) : List (Int × Int) :=
  if r.key = Obj.SYS_BGEN_PIN then [(0, Config.bgenNative (runImage w))]
  else if r.key = Obj.THM_WARN 0 then [(-640, getO w (Obj.THM_THROTTLE o) - 16)]
  else if r.key = Obj.THM_THROTTLE 0 then [(getO w (Obj.THM_WARN o) + 16, getO w (Obj.THM_SHUTDOWN o) - 32)]
  else if r.key = Obj.LCK_ROW_POS 0 then [(0, linePos 110464)]
  else if r.key = Obj.WEB_PRB_WIN_PERIOD 0 ∧ winEt w n = true then [(0, 2147483648)]
  else if r.key = Obj.WEB_SSI_PERIOD 0 then [(max 10 (ssiMinPeriod w n : Nat), 1000000)]
  else if r.key = Obj.NET_CAN_ERR_HIST 0 then [(0, 0)]
  else match r.chk with
    | .parts l => l
    | _ => []

/-- Rule 4: the value and its reason, 0 where it stays. -/
def clampParts : List (Int × Int) → Int → Int × Nat
  | [], v => (v, 0)
  | (lo, hi) :: l, v =>
    if v < lo then (lo, 1)
    else if v ≤ hi then (v, 0)
    else match l with
      | [] => (hi, 2)
      | _ => clampParts l v

/-- Rule 4 for a whole value; BITS of WEB_SSI_CFG is a range of its own. -/
def ruleRange (w : World) (r : ObjDesc) (n o : Nat) (v : Int) : Int × Nat :=
  if r.key = Obj.WEB_SSI_CFG 0 then
    let (b, why) := clampParts [(8, 48)] (field v.toNat 8 8 : Nat)
    ((setField v.toNat 8 8 b.toNat : Nat), why)
  else
    let (x, why) := clampParts (partsOf w r n o) v
    (x, if why = 2 ∧ r.key = Obj.SYS_BGEN_PIN then 10 else why)

/-- The other object of a pair of R320, and whether the value must stay below it. -/
def pairOf (k : Nat) : Option (Nat × Bool) :=
  if k = Obj.CHL_TRIM_MIN then some (Obj.CHL_TRIM_MAX, true)
  else if k = Obj.CHL_TRIM_MAX then some (Obj.CHL_TRIM_MIN, false)
  else if k = Obj.CHL_OUT_K then some (Obj.CHL_WEAK_K, true)
  else if k = Obj.CHL_WEAK_K then some (Obj.CHL_OUT_K, false)
  else if k = Obj.CHL_GAIN_MIN then some (Obj.CHL_GAIN_MAX, true)
  else if k = Obj.CHL_GAIN_MAX then some (Obj.CHL_GAIN_MIN, false)
  else none

/-- One unit short of the other object of its pair (R320). -/
def rulePair (w : World) (k : Nat) (v : Int) : Int :=
  match pairOf k with
  | some (o, true) => min v (getO w o - 1)
  | some (o, false) => max v (getO w o + 1)
  | none => v

/-- Whether a mapping entry names an object that a TPDO can carry (R358). -/
def mapOk (v : Nat) : Bool :=
  v == 0 || (subExists (v / 65536) (v / 256 % 256) && decide (v % 256 ≤ 64) &&
    match objRow (v / 256) with
    | none => true
    | some (r, _, _) => r.acc != .wo && r.ty != .str && r.ty != .dom)

/-- Bytes of a mapping's first `c` entries. -/
def mapBytes (w : World) (t c : Nat) : Nat :=
  sum ((List.range c).map fun i => ceilDiv (getN w (Obj.NET_CAN_TPDO_MAP t (i + 1)) % 256) 8)

/-- The checks of R358: the largest count that fits, an entry that a TPDO cannot carry, the transmission type. -/
def ruleTpdo (w : World) (r : ObjDesc) (t o : Nat) (v : Int) : Int × Nat :=
  if r.key = Obj.NET_CAN_TPDO_MAP 0 0 then
    if o = 0 then
      let lim := if bitOf (getN w Obj.NET_CAN_TPDO_FD) t then 64 else 8
      let c := min 16 v.toNat
      ((((List.range (c + 1)).filter fun k => decide (mapBytes w t k ≤ lim)).getLast?.getD 0 : Nat), if v.toNat ≤ 16 then 7 else 2)
    else (if mapOk v.toNat then v else 0, 7)
  else if r.key = Obj.NET_CAN_TPDO_COMM 0 0 ∧ o = 1 ∧ v ≠ 0xFE ∧ v ≠ 0xFF then (0xFF, 3)
  else (v, 0)

/-- STATIC stands only beside a serial (chapter 12, NET_PEER_CFG). -/
def ruleStatic (w : World) (r : ObjDesc) (n : Nat) (v : Int) : Int :=
  if r.key = Obj.NET_PEER_CFG 0 ∧ getO w (Obj.NET_PEER_SERIAL n) = 0 then (setBit v.toNat 0 false : Nat) else v

/-- A SEC equal to PRI forces SEC_MODE to NONE (R44). -/
def ruleRoles (r : ObjDesc) (v : Int) : Int :=
  if r.key = Obj.WEB_SRC ∧ field v.toNat 0 2 = field v.toNat 4 2 then (setField v.toNat 8 2 0 : Nat) else v

/-- The value checks in order, each change recorded. -/
def valueChecks (source : Nat) (r : ObjDesc) (n o k : Nat) (v : Int) (w : World) : Int × World :=
  let v1 := ruleBits w r n v
  let w := noteRule k 4 source v v1 w
  let v2 := ruleEnum r k v1
  let w := noteRule k 3 source v1 v2 w
  let v3 := ruleStep r v2
  let w := noteRule k 5 source v2 v3 w
  let (v4, why) := ruleRange w r n o v3
  let w := noteRule k why source v3 v4 w
  let v5 := rulePair w k v4
  let w := noteRule k 7 source v4 v5 w
  let (v6, why) := ruleTpdo w r n o v5
  let w := noteRule k why source v5 v6 w
  let v7 := ruleStatic w r n v6
  let w := noteRule k 7 source v6 v7 w
  let v8 := ruleRoles r v7
  (v8, noteRule k 7 source v7 v8 w)

/-! ### State checks (R325 step 6) -/

/-- The applied value of a write that the state does not allow: the value in force. -/
def stateRefuses (m : DevState) (w : World) (r : ObjDesc) (n k : Nat) : Option Int :=
  if r.key = Obj.WEB_POS_SET then
    if m = .idle ∨ m = .service ∨ m = .safe ∨ m = .thermalHold then none else some (webPos w)
  else if r.key = Obj.WEB_SRC then if inPrint m then some (getO w k) else none
  else if r.key = Obj.SYS_DEBUG_EN then if m = .service then none else some (getO w k)
  else if r.key = Obj.MEM_ECC_INJECT then if m = .service then none else some 0
  else if r.key = Obj.TIM_STEP_SET then if getF w Obj.TIM_CFG 0 2 = 2 ∧ inPrint m = false then none else some 0
  else if r.key = Obj.YQL_RW_DATA then if inPrint m then some (getO w k) else none
  else if r.key / 256 = 0x2680 ∨ r.key / 256 = 0x26B0 then if inPrint m then some (getO w k) else none
  else if r.key = Obj.JQ_NOZ_STATE 0 then
    let e := selNoz (inPrint m) w n
    if field e.2 12 2 = 3 then some (nozState w (n * 262144 + e.1)) else none
  else if r.key = Obj.NET_CAN_TPDO_MAP 0 0 then
    if bitOf (getN w (Obj.NET_CAN_TPDO_COMM n 0)) 31 then none else some (getO w k)
  else none

/-! ### Putting a value in force -/

/-- Store a checked value: to the shadow (C), or in force; S objects wait for FRAM (R329). -/
def putValue (r : ObjDesc) (k : Nat) (v : Int) (w : World) : World :=
  let w := if r.c then setSh w k v else setO w k v
  if r.s then storeLater w k v else w

/-- The SSI period is checked again when what bounds it changes (R59). -/
def ssiRecheck (source n : Nat) (w : World) : World :=
  let k := Obj.WEB_SSI_PERIOD n
  let lim := (ssiMinPeriod w n : Int)
  if getO w k < lim then storeLater (adjust (setO w k lim) k 7 source (getO w k) lim) k lim else w

/-- Objects of the web position. -/
def hookWeb (source : Nat) (r : ObjDesc) (n : Nat) (w : World) : World :=
  if r.key = Obj.WEB_SRC then rolesWritten w
  else if r.key = Obj.WEB_SSI_CFG 0 ∨ r.key = Obj.WEB_SSI_CLK_HZ 0 ∨ r.key = Obj.WEB_SSI_MONOFLOP 0 then ssiRecheck source n w
  else w

/-- Objects of time keeping (R366, R373); T of R379 is the mean of the sensor named alone. -/
def hookTime (r : ObjDesc) (old new : Int) (w : World) : World :=
  if r.key = Obj.TIM_IFACE ∨ r.key = Obj.TIM_DOMAIN then ptpRestart w
  else if r.key = Obj.TIM_CFG then
    let w := if field old.toNat 3 3 = field new.toNat 3 3 then w else ptpRestart w
    if field old.toNat 0 2 = field new.toNat 0 2 then w else timMode w
  else if r.key = Obj.TIM_TC_SENSOR then { w with tim := { w.tim with tempSamples := [] } }
  else w

/-- Objects of the interfaces and the partner table (R339, R345, R362, R367). -/
def hookNet (before : World) (r : ObjDesc) (n : Nat) (w : World) : World :=
  if r.key = Obj.NET_PORT_CFG 0 then linkEval (sayLeaving before w)
  else if r.key = Obj.NET_IF_CFG 0 then
    let w := if getF before (Obj.NET_IF_CFG n) 5 1 = getF w (Obj.NET_IF_CFG n) 5 1 then w
      else dhcpLink n (w.net.linkUp.getD n false) w
    linkEval (sayLeaving before w)
  else if r.key / 256 = 0x2E40 then
    let w := match mapGet w.net.partners n with
      | some p => if p.present ∧ peerFixed w n = true ∧ peerFixed before n = true then
          setPartner w n { p with addr := fixedAddr w n } else w
      | none => w
    fixedEval w n
  else w

/-- STATIC of an entry goes with its serial (chapter 12). -/
def dropStatic (source n : Nat) (w : World) : World :=
  let k := Obj.NET_PEER_CFG n
  let v := getO w k
  let v' : Int := (setBit v.toNat 0 false : Nat)
  if v = v' then w else storeLater (adjust (setO w k v') k 7 source v v') k v'

/-- The levels of the outputs in LEVEL mode (R453). -/
def evtRefresh (w : World) : World :=
  if !w.sys.voted then w
  else (List.range 4).foldl (fun w n =>
    if 2 ≤ getF w (Obj.EVT_OUT_CFG n) 0 2 then
      { w with evt := { w.evt with outLevel := w.evt.outLevel.set n (levelActive w n), outEnd := w.evt.outEnd.set n none } }
    else w) w

/-- Objects of power, inspection, Voile, the loop, the supervisor and events. -/
def hookRest (m : DevState) (r : ObjDesc) (n : Nat) (old new : Int) (w : World) : World :=
  if r.key = Obj.THM_PLIM_W then
    let v := if getO w Obj.THM_PLIM_EFF = old then new else min new (getO w Obj.THM_PLIM_EFF)
    if getO w Obj.THM_PLIM_EFF = v then w else raise (setO w Obj.THM_PLIM_EFF v) Ev.GOV_LIMIT 0 v.toNat
  else if r.key = Obj.THM_PF_MV then if w.thm.pfLow then w else setO w Obj.THM_PF_ACT new
  else if r.key = Obj.VOI_HR_INIT ∨ r.key = Obj.VOI_HR_MAX then if scanning m w then setDuty w (getO w Obj.VOI_HR_DUTY) else w
  else if r.key = Obj.INS_CFG ∧ bitOf new.toNat 0 = false then stopScan w
  else if r.key = Obj.CHL_CFG then noteChl m w
  else if r.key = Obj.CHL_VNOM 0 0 then restartBar w n
  else if r.key = Obj.SUP_STOP_CMD then stopCmd new.toNat w
  else if r.key = Obj.EVT_OUT_CFG 0 then evtRefresh w
  else if r.key = Obj.LCK_ALIGN_SERIAL then alignSelect w
  else if r.key / 256 = 0x2680 then recheckPorts { w with sys := { w.sys with profNew := w.sys.profNew.set n true } }
  else w

/-- The window values of a probe (R51). -/
def putWindow (source n part : Nat) (v : Int) (w : World) : World :=
  let isOpen := winOpen w n
  let w := winWrite w n part source v
  if isOpen then w else storeLater w (winKey n part) (getO w (winKey n part))

/-- The fault history of 0x1003 is cleared (R356). -/
def clearHist (w : World) : World := (List.range 9).foldl (fun w i => setO w (Obj.NET_CAN_ERR_HIST i) 0) w

/-- A watched node of the heartbeat consumer is written: the watch begins anew, and a lost heartbeat that is watched no
longer releases its web stop (R355, R392). -/
def dropWatch (i : Nat) (w : World) : World :=
  let w := { w with can := { w.can with hb := mapDel w.can.hb i } }
  if w.can.hb.any (·.2.2) then w else stopSrc w 4 false

/-- EVT_ROUTE writes the route word of the code selected (R452, R455). -/
def putRoute (v : Int) (w : World) : World :=
  evtRefresh (storeTableLater (numWrite w 0x3C01 (getN w Obj.EVT_ROUTE_SEL) v) 0x3C01)

/-- Put a checked value in force with everything it changes. -/
def applyValue (m : DevState) (source : Nat) (r : ObjDesc) (n o k : Nat) (v : Int) (w : World) : World :=
  if r.key = Obj.WEB_POS_SET then prbAfresh (setPosition w v)
  else if r.key = Obj.SYS_DEBUG_EN then debugEn m source v w
  else if r.key = Obj.MEM_ECC_INJECT then eccInject m source v.toNat w
  else if r.key = Obj.TIM_STEP_SET then stepTimer w (fracI v) true
  else if r.key = Obj.YQL_RW_DATA then rwWrite m source v.toNat w
  else if r.key = Obj.JQ_NOZ_STATE 0 then nozWrite (inPrint m) n v.toNat source w
  else if r.key = Obj.SYS_BGEN_PIN then setNv w k v
  else if r.key = Obj.EVT_ROUTE then putRoute v w
  else if r.key = Obj.NET_CAN_ERR_HIST 0 then clearHist w
  else if r.key = Obj.WEB_PRB_WIN_START 0 then putWindow source n 0 v w
  else if r.key = Obj.WEB_PRB_WIN_END 0 then putWindow source n 1 v w
  else if r.key = Obj.WEB_PRB_WIN_PERIOD 0 then putWindow source n 2 v w
  else
    let old := getO w k
    let before := w
    let w := putValue r k v w
    let w := if r.key = Obj.JOB_VD_SEQ_START then { w with job := { w.job with vdWritten := true } } else w
    let w := if r.key = Obj.NET_CAN_HB_CONS 0 then dropWatch o w else w
    let w := if r.key = Obj.NET_PEER_SERIAL 0 ∧ v = 0 then dropStatic source n w else w
    hookRest m r n old v (hookNet before r n (hookTime r old v (hookWeb source r n w)))

/-! ### Actions (R475) -/

/-- The range of an action's value. -/
def actionParts (r : ObjDesc) : List (Int × Int) := match r.chk with | .parts l => l | _ => [(0, 255)]

/-- What a value of an action object does. -/
def actionFx (source : Nat) (r : ObjDesc) (v : Nat) (s : State) : State :=
  let m := s.ctl.mode
  let onW := fun (f : World → World) => { s with w := f s.w }
  if r.key = Obj.SYS_CMD then sysCmd source v s
  else if r.key = Obj.SYS_SERVICE then sysService source v s
  else if r.key = Obj.JOB_COMMIT then if v = 0 then s else onW (jobCommit m)
  else if r.key = Obj.LCK_ALIGN_STORE then if v = 0 then s else onW (alignStore source)
  else if r.key = Obj.MEM_PLAN_APPLY then onW (planWrite m source)
  else if r.key = Obj.MEM_LS_DELETE then onW (lsDelete source v)
  else if r.key = Obj.MEM_LS_CLEAR then onW lsClear
  else if r.key = Obj.JQ_HEAD_STORE then if v = 0 then s else onW headStore
  else if r.key = Obj.JQ_SLICE_SWAP then onW (sliceSwap m v source)
  else if r.key = Obj.YQL_DISCOVER then onW (discoverWrite m source)
  else if r.key = Obj.INS_WHITE_CAPTURE then
    if m = .idle ∨ m = .service then onW whiteCapture else onW fun w => adjust w r.key 6 source v 0
  else if r.key = Obj.INS_WHITE_STORE then onW whiteStore
  else if r.key = Obj.INS_UPL_NOW then onW (uplNow v)
  else if r.key = Obj.CHL_REQUAL then onW (chlRequal v)
  else if r.key = Obj.CHL_STORE then onW chlStore
  else if r.key = Obj.CHL_REF_TAKE then onW (chlRefTake v)
  else if r.key = Obj.SEC_KEY_REVOKE then
    if revokeAllowed s v then keyRevoke v s else onW fun w => adjust w r.key 6 source v 0
  else if r.key = Obj.SUP_RESET then if v = 1 then onW resetHost else resetRemote s
  else if r.key = Obj.THM_ACK then thmAck source s
  else onW (logClear m source)

/-- A write of an action object: a value that names no action has no effect (reason 11). -/
def actionWrite (source : Nat) (r : ObjDesc) (v : Int) (s : State) : State :=
  if inParts (actionParts r) v then actionFx source r v.toNat s
  else { s with w := adjust s.w r.key 11 source v 0 }

/-! ### The engine (R325) -/

/-- Steps 6 to 8 for a numeric object. -/
def numberWrite (source : Nat) (r : ObjDesc) (n o k : Nat) (v : Int) (s : State) : State :=
  let m := s.ctl.mode
  match stateRefuses m s.w r n k with
  | some a => { s with w := adjust s.w k 6 source v a }
  | none =>
    let (v, w) := valueChecks source r n o k v s.w
    { s with w := applyValue m source r n o k v w }

/-- NET_HOST_NAME: cut to 32 bytes (rule 5). REQUEST and APPLIED are the first 8 bytes. -/
def nameWrite (source k : Nat) (bytes : List Nat) (w : World) : World :=
  let cut := bytes.take 32
  let first := fun (l : List Nat) => (ofLe (l.take 8) : Int)
  let w := if cut = bytes then w else adjust w k 9 source (first bytes) (first cut)
  storeLater { w with dict := { w.dict with hostName := cut } } k 0

/-- SEC_KEY_PROGRAM (R350). -/
def keyWrite (source : Nat) (bytes : List Nat) (s : State) : State :=
  if keyAllowed s bytes then keyProgram bytes s
  else { s with w := adjust s.w Obj.SEC_KEY_PROGRAM 6 source (ofLe (bytes.take 4)) 0 }

/-- Steps 6 to 8. -/
def applyWrite (source : Nat) (r : ObjDesc) (n o k : Nat) (bytes : List Nat) (s : State) : State :=
  if r.action then actionWrite source r (tyDecode r.ty bytes) s
  else match r.ty with
    | .str => { s with w := nameWrite source k bytes s.w }
    | .dom => keyWrite source bytes s
    | _ => numberWrite source r n o k (tyDecode (keyTy r k) bytes) s

/-- Step 2: whether an object can be written. -/
def writable (r : ObjDesc) (o : Nat) : Bool :=
  r.acc != .ro && !(r.key == Obj.NET_CAN_ERR_HIST 0 && o != 0)

/-- Step 3: type code (not carried over CAN FD) and length; the characters of a STRING. -/
def typeStatus (p : Path) (w : World) (r : ObjDesc) (ix k ty : Nat) (bytes : List Nat) : Nat :=
  let t := keyTy r k
  if (p == .can) = false ∧ ty ≠ tyCode t then St.type
  else match t with
    | .str => if bytes.length ≤ 64 ∧ (bytes.all fun b => 0x20 ≤ b && b ≤ 0x7E) = true then St.ok else St.type
    | .dom =>
      if 256 < domainSize w ix then St.domain else if bytes.length = domainSize w ix then St.ok else St.type
    | t => if bytes.length = tyBytes t then St.ok else St.type

/-- Step 4: whether the interface accepts writes (R362). -/
def accessOk (p : Path) (w : World) : Bool :=
  match p with
  | .koa a _ => getF w (Obj.NET_IF_CFG a.iface) 3 1 == 1
  | _ => true

/-- Whether a write with this source changed or refused the value: its last adjustment of this key. -/
def lastAdj (before after : World) (ix sub source : Nat) : Option AdjRec :=
  let n := (getN after Obj.CFG_ADJ_COUNT + 4294967296 - getN before Obj.CFG_ADJ_COUNT) % 4294967296
  ((lastN n after.dict.adj).filter fun a => a.index == ix && a.sub == sub && a.source == source).getLast?

/-- Steps 1 to 5 of R325: the status of a write that fails one of them, or the state on which steps 6 to 8 act, with the
object's row. -/
def gate (e : WriteEnv) (ix sub ty : Nat) (bytes : List Nat) (s : State) :
    Except (Nat × State) (State × ObjDesc × Nat × Nat) :=
  let k := ix * 256 + sub
  if !answers s.w ix then .error (St.hostDown, s)
  else if !indexExists ix then .error (St.noObject, s)
  else if !subExists ix sub then .error (St.noSub, s)
  else match objRow k with
    | none => .error (St.readOnly, s)
    | some (r, n, o) =>
      if !writable r o ∨ (r.key = Obj.LCK_ROW_POS 0 ∧ n = 0) then .error (St.readOnly, s)
      else
        let st := typeStatus e.path s.w r ix k ty bytes
        if st ≠ St.ok then .error (st, s)
        else if !accessOk e.path s.w then .error (St.access, s)
        else
          let a := authStep r.a (pathSource e.path) ix sub bytes e s
          if a.1 ≠ St.ok then .error a else .ok (a.2, r, n, o)

/-- The engine on one write: its status and the state after it. -/
def engine (e : WriteEnv) (ix sub ty : Nat) (bytes : List Nat) (s : State) : Nat × State :=
  match gate e ix sub ty bytes s with
  | .error x => x
  | .ok (s, r, n, o) =>
    let source := pathSource e.path
    let t := applyWrite source r n o (ix * 256 + sub) bytes s
    (if (lastAdj s.w t.w ix sub source).isSome then St.clamped else St.ok, t)

/-! ### Answers -/

/-- The value applied, as a response carries it; none for a key and for a write that failed. -/
def appliedBytes (status : Nat) (ix sub source : Nat) (bytes : List Nat) (before after : World) : List Nat :=
  if 1 < status then []
  else match objRow (ix * 256 + sub) with
    | none => []
    | some (r, _, _) =>
      match r.ty with
      | .dom => []
      | .str => after.dict.hostName
      | _ =>
        let t := keyTy r (ix * 256 + sub)
        match lastAdj before after ix sub source with
        | some a => leBytesInt (tyBytes t) a.applied
        | none => tyEncode t (tyDecode t bytes)

/-- The type code of an object, or the one the request carries. -/
def codeOf (ix sub ty : Nat) : Nat :=
  match objRow (ix * 256 + sub) with | some (r, _, _) => tyCode (keyTy r (ix * 256 + sub)) | none => ty

/-- The body of a WRITE_RSP (R334). -/
def writeRsp (ix sub ty status : Nat) (data : List Nat) : List Nat :=
  leBytes 2 ix ++ [sub, status, codeOf ix sub ty, 0, 0, 0] ++ leBytes 4 data.length ++ pad4 data

/-- The bytes that make a WRITE the same request (R336). -/
def requestBytes (e : WriteEnv) (ix sub ty : Nat) (bytes : List Nat) : List Nat :=
  leBytes 2 ix ++ [sub, ty] ++ leBytes 4 bytes.length ++ bytes ++
    match e.auth with
    | some t => t.slot :: leBytes 3 t.pad ++ leBytes 4 t.counter ++ t.tag
    | none => []

/-- Keep the answer of a WRITE: the last 16 of its sender, for 1 s (R336). -/
def keepAnswer (r : KoaStored) (w : World) : World :=
  updNet w fun n =>
    let mine := n.replay.filter fun x => x.addr == r.addr
    { n with replay := (n.replay.filter fun x => x.addr != r.addr) ++ lastN 16 (mine ++ [r]) }

/-- Answers older than 1 s are forgotten (R336). -/
def dropOld (w : World) : World :=
  updNet w fun n => { n with replay := n.replay.filter fun x => decide (w.clk < x.clk + secClk 1) }

/-- The kept answer of the same WRITE (R336). -/
def keptAnswer (w : World) (a : Addr) (reqId : Nat) (req : List Nat) : Option KoaStored :=
  w.net.replay.find? fun x => x.addr == a && x.reqId == reqId && x.bytes == req

/-- A WRITE over KOA: answered from the store, or by the engine (R334, R336). -/
def koaWrite (a : Addr) (reqId : Nat) (e : WriteEnv) (ix sub ty : Nat) (bytes : List Nat) (s : State) : State :=
  let w := dropOld s.w
  let req := requestBytes e ix sub ty bytes
  match keptAnswer w a reqId req with
  | some x => { s with w := send w (.koa a 0x82 x.status reqId x.rsp) }
  | none =>
    let (st, t) := engine e ix sub ty bytes { s with w := w }
    let body := writeRsp ix sub ty st (appliedBytes st ix sub (1 + a.iface) bytes w t.w)
    let w := send t.w (.koa a 0x82 st reqId body)
    { t with w := if w.sys.voted then
      keepAnswer { addr := a, reqId := reqId, bytes := req, rsp := body, status := st, clk := w.clk } w else w }

/-- Whether the CAN FD port takes SDO requests now (R354, R357). -/
def sdoUp (w : World) : Bool := w.sys.voted && (w.can.nmt == 1 || w.can.nmt == 2) && w.can.bus != 2

/-- An SDO response of the server. -/
def sdoSend (data : List Nat) (w : World) : World := send w (.can (0x580 + w.can.node) ((data ++ zeroBytes 8).take 8) false)

/-- The abort code of a status (R357). -/
def abortCode (st : Nat) : Nat :=
  if st = St.noObject then 0x06020000
  else if st = St.noSub then 0x06090011
  else if st = St.readOnly then 0x06010002
  else if st = St.writeOnly then 0x06010001
  else if st = St.type then 0x06070010
  else if st = St.domain then 0x06010000
  else if st = St.authRequired ∨ st = St.authFailed then 0x08000020
  else 0x08000022

/-- Abort a transfer. -/
def sdoAbort (ix sub code : Nat) (w : World) : World := sdoSend (0x80 :: leBytes 2 ix ++ [sub] ++ leBytes 4 code) w

/-- A write over CAN FD: the download's confirmation, or an abort (R357). -/
def canWrite (e : WriteEnv) (ix sub : Nat) (bytes : List Nat) (s : State) : State :=
  let (st, t) := engine e ix sub 0 bytes s
  if st ≤ 1 then { t with w := sdoSend (0x60 :: leBytes 2 ix ++ [sub]) t.w }
  else { t with w := sdoAbort ix sub (abortCode st) t.w }

/-- A write from any path. -/
def writeObj (e : WriteEnv) (ix sub ty : Nat) (bytes : List Nat) (s : State) : State :=
  match e.path with
  | .koa a reqId => if koaUp s.w a.iface then koaWrite a reqId e ix sub ty bytes s else s
  | .can => if sdoUp s.w then canWrite e ix sub bytes s else s
  | .host => if hostServing s.w then (engine e ix sub ty bytes s).2 else s
  | .serge => if s.w.sys.voted then (engine e ix sub ty bytes s).2 else s

/-- A write of value `v` to the object of key `k`. -/
def writeKey (e : WriteEnv) (k : Nat) (v : Int) (s : State) : State :=
  match objRow k with
  | some (r, _, _) => writeObj e (k / 256) (k % 256) (tyCode (keyTy r k)) (tyEncode (keyTy r k) v) s
  | none => s

end Sys2Proof.Machine
end

