-- ==== Sys2Proof/Machine/Access.lean ====
section
/-! DEFINITION. The commands that write an object: OBJECT_WRITE, and the objects with a row of their own, each the engine
of R325 on that object. -/

namespace Sys2Proof.Machine

/-- A write as a command. -/
def runWrite (e : WriteEnv) (k : Nat) (v : Int) (s : State) : Host.Outcome State Fault Refusal := onState (writeKey e k v) s

/-- OBJECT_WRITE (R325): any object, by index, sub-index, type code and data bytes. -/
def execObjectWrite (e : WriteEnv) (ix sub ty : Nat) (bytes : List Nat) (s : State) : Host.Outcome State Fault Refusal :=
  onState (writeObj e ix sub ty bytes) s

/-! ### Device state and platform -/

def execSysCmdArm (e : WriteEnv) (s : State) : Host.Outcome State Fault Refusal := runWrite e Obj.SYS_CMD 1 s
def execSysCmdPause (e : WriteEnv) (s : State) : Host.Outcome State Fault Refusal := runWrite e Obj.SYS_CMD 2 s
def execSysCmdResume (e : WriteEnv) (s : State) : Host.Outcome State Fault Refusal := runWrite e Obj.SYS_CMD 3 s
def execSysCmdStop (e : WriteEnv) (s : State) : Host.Outcome State Fault Refusal := runWrite e Obj.SYS_CMD 4 s
def execSysCmdRelease (e : WriteEnv) (s : State) : Host.Outcome State Fault Refusal := runWrite e Obj.SYS_CMD 5 s
def execSysServiceEnter (e : WriteEnv) (s : State) : Host.Outcome State Fault Refusal := runWrite e Obj.SYS_SERVICE 1 s
def execSysServiceLeave (e : WriteEnv) (s : State) : Host.Outcome State Fault Refusal := runWrite e Obj.SYS_SERVICE 0 s
def execSysDebugEnWrite (e : WriteEnv) (v : Int) (s : State) : Host.Outcome State Fault Refusal :=
  runWrite e Obj.SYS_DEBUG_EN v s
def execSysBgenPinWrite (e : WriteEnv) (v : Int) (s : State) : Host.Outcome State Fault Refusal :=
  runWrite e Obj.SYS_BGEN_PIN v s

/-! ### Authentication -/

/-- SEC_KEY_PROGRAM (R350): 20 bytes, slot, three bytes of 0 and the key. -/
def execSecKeyProgram (e : WriteEnv) (bytes : List Nat) (s : State) : Host.Outcome State Fault Refusal :=
  onState (writeObj e 0x3D00 0 0x0F bytes) s
def execSecKeyRevoke (e : WriteEnv) (slot : Nat) (s : State) : Host.Outcome State Fault Refusal :=
  runWrite e Obj.SEC_KEY_REVOKE slot s

/-! ### Time, web position and line clock -/

def execTimStepSet (e : WriteEnv) (v : Int) (s : State) : Host.Outcome State Fault Refusal := runWrite e Obj.TIM_STEP_SET v s
def execTimIfaceWrite (e : WriteEnv) (v : Nat) (s : State) : Host.Outcome State Fault Refusal := runWrite e Obj.TIM_IFACE v s
def execTimDomainWrite (e : WriteEnv) (v : Nat) (s : State) : Host.Outcome State Fault Refusal := runWrite e Obj.TIM_DOMAIN v s
def execTimCfgWrite (e : WriteEnv) (v : Nat) (s : State) : Host.Outcome State Fault Refusal := runWrite e Obj.TIM_CFG v s
def execWebPosSet (e : WriteEnv) (v : Int) (s : State) : Host.Outcome State Fault Refusal := runWrite e Obj.WEB_POS_SET v s

/-- PRB_WINDOW_WRITE (R51): WEB_PRB_WIN_START, END or PERIOD (part 0, 1, 2) of probe `n`. -/
def execPrbWindowWrite (e : WriteEnv) (n part : Nat) (v : Int) (s : State) : Host.Outcome State Fault Refusal :=
  onState (fun s => if n < 8 ∧ part < 3 then writeKey e (winKey n part) v s else s) s

def execLckAlignStore (e : WriteEnv) (s : State) : Host.Outcome State Fault Refusal := runWrite e Obj.LCK_ALIGN_STORE 1 s

/-! ### Jobs and memory -/

def execJobCommit (e : WriteEnv) (s : State) : Host.Outcome State Fault Refusal := runWrite e Obj.JOB_COMMIT 1 s
def execMemPlanApply (e : WriteEnv) (s : State) : Host.Outcome State Fault Refusal := runWrite e Obj.MEM_PLAN_APPLY 1 s
def execMemLsDelete (e : WriteEnv) (id : Nat) (s : State) : Host.Outcome State Fault Refusal :=
  runWrite e Obj.MEM_LS_DELETE id s
def execMemLsClear (e : WriteEnv) (s : State) : Host.Outcome State Fault Refusal := runWrite e Obj.MEM_LS_CLEAR 1 s
def execMemEccInject (e : WriteEnv) (v : Nat) (s : State) : Host.Outcome State Fault Refusal :=
  runWrite e Obj.MEM_ECC_INJECT v s

/-! ### Bars and links -/

def execJqNozStateWrite (e : WriteEnv) (b v : Nat) (s : State) : Host.Outcome State Fault Refusal :=
  onState (fun s => if b < 8 then writeKey e (Obj.JQ_NOZ_STATE b) v s else s) s
def execJqHeadStore (e : WriteEnv) (s : State) : Host.Outcome State Fault Refusal := runWrite e Obj.JQ_HEAD_STORE 1 s
def execJqSliceSwap (e : WriteEnv) (b : Nat) (s : State) : Host.Outcome State Fault Refusal := runWrite e Obj.JQ_SLICE_SWAP b s
def execYqlDiscover (e : WriteEnv) (s : State) : Host.Outcome State Fault Refusal := runWrite e Obj.YQL_DISCOVER 1 s
def execYqlRwDataWrite (e : WriteEnv) (v : Nat) (s : State) : Host.Outcome State Fault Refusal := runWrite e Obj.YQL_RW_DATA v s

/-! ### Inspection and the colour hold loop -/

def execInsWhiteCapture (e : WriteEnv) (s : State) : Host.Outcome State Fault Refusal := runWrite e Obj.INS_WHITE_CAPTURE 1 s
def execInsWhiteStore (e : WriteEnv) (s : State) : Host.Outcome State Fault Refusal := runWrite e Obj.INS_WHITE_STORE 1 s
def execInsUplNow (e : WriteEnv) (mask : Nat) (s : State) : Host.Outcome State Fault Refusal := runWrite e Obj.INS_UPL_NOW mask s
def execChlRequal (e : WriteEnv) (mask : Nat) (s : State) : Host.Outcome State Fault Refusal := runWrite e Obj.CHL_REQUAL mask s
def execChlStore (e : WriteEnv) (s : State) : Host.Outcome State Fault Refusal := runWrite e Obj.CHL_STORE 1 s
def execChlRefTake (e : WriteEnv) (mask : Nat) (s : State) : Host.Outcome State Fault Refusal :=
  runWrite e Obj.CHL_REF_TAKE mask s

/-! ### Serge, power and events -/

def execSupResetHost (e : WriteEnv) (s : State) : Host.Outcome State Fault Refusal := runWrite e Obj.SUP_RESET 1 s
def execSupResetDevice (e : WriteEnv) (s : State) : Host.Outcome State Fault Refusal := runWrite e Obj.SUP_RESET 2 s
def execSupStopCmdWrite (e : WriteEnv) (v : Nat) (s : State) : Host.Outcome State Fault Refusal := runWrite e Obj.SUP_STOP_CMD v s
def execThmAck (e : WriteEnv) (s : State) : Host.Outcome State Fault Refusal := runWrite e Obj.THM_ACK 1 s
def execEvtLogClear (e : WriteEnv) (s : State) : Host.Outcome State Fault Refusal := runWrite e Obj.EVT_LOG_CLEAR 1 s
def execCanErrHistClear (e : WriteEnv) (s : State) : Host.Outcome State Fault Refusal :=
  runWrite e (Obj.NET_CAN_ERR_HIST 0) 0 s

end Sys2Proof.Machine
end

