-- ==== Sys2Proof/Machine/Bulk.lean ====
section
/-! DEFINITION. Bulk streams into the device and streams that a peer reads (R340 to R343): the layer store's items
(R96, R108 to R111, R133) and the DOMAIN tables. -/

namespace Sys2Proof.Machine

/-! ### Item headers -/

/-- The fields of an item header (R108). -/
def headerItem (h : List Nat) : Item :=
  { id := leAt h 0 2, ty := h.getD 2 0, format := h.getD 3 0, dpiX := leAt h 4 2, dpiY := leAt h 6 2, width := leAt h 8 4
    height := leAt h 12 4, seq := leAt h 16 4, length := leAt h 20 8, crc := leAt h 28 4, state := 1, blocks := 0
    packed := h.getD 2 0 == 2, coded := 0, stored := 0, data := [], bad := [] }

/-- The ranges of R108. -/
def headerOk (i : Item) : Bool :=
  let image := i.ty ≤ 3
  1 ≤ i.ty && i.ty ≤ 5 && (if image then 1 ≤ i.id && i.id ≤ 4095 && i.seq == 0 else i.id ≤ 7) &&
    i.format % 8 == 0 && i.format < 128 && 150 ≤ i.dpiX && i.dpiX ≤ 1200 && 150 ≤ i.dpiY && i.dpiY ≤ 1200 &&
    1 ≤ i.width && i.width ≤ 98304 && 1 ≤ i.height && i.height ≤ 2147483648

/-- The reservation in blocks of 64 KiB (R110). -/
def reserveBlocks (i : Item) : Nat := ceilDiv (if itemMuslin i then i.length else itemRaw i) 65536

/-- SEQ of a record less the frame sequence now expected, modulo 2^32, read as signed (R96). -/
def seqAhead (w : World) (seq : Nat) : Int := sextBits 32 ((seq + 4294967296 - getN w Obj.JOB_VD_SEQ_NEXT) % 4294967296)

/-- Why the layer store refuses an item (R109): 0, or the reason. -/
def itemRefusal (w : World) (h : List Nat) (i : Item) : Nat :=
  if i.crc ≠ crc32c (h.take 28) then 1
  else if !headerOk i then 2
  else if !itemMuslin i ∧ i.length ≠ itemRaw i then 3
  else if freeBlocks w < reserveBlocks i then 4
  else if i.ty ≤ 3 ∧ imageInUse w i.id = true then 5
  else if 4 ≤ i.ty ∧ (seqAhead w i.seq < 0 ∨ (getN w Obj.MEM_LS_VD_DEPTH : Int) ≤ seqAhead w i.seq) then 6
  else 0

/-! ### Receiving -/

def inIs (a : Addr) (stream : Nat) (b : BulkIn) : Bool := b.addr == a && b.stream == stream
def findIn (w : World) (a : Addr) (stream : Nat) : Option BulkIn := w.net.bulkIn.find? (inIs a stream)
def putIn (w : World) (b : BulkIn) : World :=
  updNet w fun n => { n with bulkIn := n.bulkIn.map fun x => if inIs b.addr b.stream x then b else x }
def dropIn (w : World) (b : BulkIn) : World :=
  updNet w fun n => { n with bulkIn := n.bulkIn.filter fun x => !inIs b.addr b.stream x }

/-- The lowest block not yet received, looking at `k` blocks from `i` on. -/
def firstGap (m : KMap (List Nat)) : Nat → Nat → Nat
  | 0, i => i
  | k + 1, i => if (mapGet m i).isSome then firstGap m k (i + 1) else i
def nextBlock (b : BulkIn) : Nat := firstGap b.blocks b.blocks.length 0

/-- The window offered: none to the layer store while DRAM gives ingest no share (R342). -/
def offered (w : World) (target : Nat) : Nat :=
  if target = 1 ∧ w.net.ingestShare = 0 then 0 else getN w Obj.NET_BULK_WINDOW

/-- Bytes received. -/
def gotBytes (b : BulkIn) : Nat := sum (b.blocks.map (·.2.length))

/-- Acknowledge what a stream has received (R342). -/
def sendAck (b : BulkIn) (status detail value : Nat) (w : World) : World :=
  let n := nextBlock b
  let sack := ofBits ((List.range 64).map fun i => (mapGet b.blocks (n + 1 + i)).isSome)
  send w (.bulkAck b.addr b.stream status detail (offered w b.target) n sack value)

/-- Refuse an opening. -/
def refuseOpen (a : Addr) (stream status detail : Nat) (w : World) : World :=
  send w (.bulkAck a stream status detail 0 0 0 0)

/-- Accept a stream into the device. -/
def acceptIn (a : Addr) (stream target offset length item : Nat) (pre : List Nat) (w : World) : World :=
  let b : BulkIn := { addr := a, stream := stream, target := target, offset := offset, length := length, pre := pre
                      blocks := [], item := item, lastClk := w.clk, closing := none }
  sendAck b 0 0 0 (updNet w fun n => { n with bulkIn := n.bulkIn ++ [b] })

/-- An item for the layer store (R109, R110): refused with its reason, or reserved and accepted. DEDUCED (log 79): the
shortfall of LS_FULL is rounded up to whole MiB. -/
def openItem (a : Addr) (stream length : Nat) (pre : List Nat) (w : World) : World :=
  let i := headerItem pre
  let why := itemRefusal w pre i
  if why ≠ 0 then
    let w := raise (bump w Obj.MEM_ING_REFUSED) Ev.IMG_REFUSED i.id why
    let w := if why = 4 then raise w Ev.LS_FULL 0 (ceilDiv (reserveBlocks i - freeBlocks w) 16) else w
    refuseOpen a stream St.refused why w
  else if length ≠ i.length then refuseOpen a stream St.refused 0x82 (bump w Obj.MEM_ING_REFUSED)
  else
    let k := w.mem.nextItem
    let w := setItem w k { i with blocks := reserveBlocks i }
    acceptIn a stream 1 0 length k pre { w with mem := { w.mem with nextItem := k + 1 } }

/-- Whether a run of a table is whole entries within it (R325 step 3, R340). -/
def runOk (w : World) (ix off len : Nat) : Bool :=
  decide (0 < len) && entryBound w ix off && entryBound w ix (off + len)

/-- The row of a DOMAIN target. -/
def domRow (ix : Nat) : Option ObjDesc :=
  match objRow (ix * 256) with
  | some (r, _, _) => if 0x3000 ≤ ix ∧ ix ≤ 0x3FFF ∧ r.ty = .dom then some r else none
  | none => none

/-- A peer sends into the device (DIR 0). -/
def openIn (a : Addr) (stream target off len : Nat) (pre : List Nat) (w : World) : World :=
  if getF w (Obj.NET_IF_CFG a.iface) 3 1 = 0 then refuseOpen a stream St.access 0 w
  else if target = 1 then
    if off ≠ 0 then refuseOpen a stream St.refused 0x82 w
    else if 32 ≤ w.net.bulkIn.length then refuseOpen a stream St.busy 0 w
    else openItem a stream len pre w
  else match domRow target with
    | none => refuseOpen a stream St.refused 0x80 w
    | some r =>
      if r.a then refuseOpen a stream St.refused 0x81 w
      else if r.acc = .ro then refuseOpen a stream St.refused 0x80 w
      else if getO w Obj.SEC_CFG = 1 then refuseOpen a stream St.authRequired 0 w
      else if !runOk w target off len then refuseOpen a stream St.refused 0x82 w
      else if 32 ≤ w.net.bulkIn.length then refuseOpen a stream St.busy 0 w
      else acceptIn a stream target off len 0 pre w

/-- A peer reads a table (DIR 1): one value sampled at one instant, shadows first (R324). -/
def openRead_ (a : Addr) (stream target off len window : Nat) (w : World) : World :=
  match domRow target with
  | none => refuseOpen a stream St.refused 0x80 w
  | some r =>
    let len := if len = 0 then domainSize w target - off else len
    if r.a then refuseOpen a stream St.refused 0x81 w
    else if !runOk w target off len then refuseOpen a stream St.refused 0x82 w
    else if 8 ≤ w.net.bulkOut.length then refuseOpen a stream St.busy 0 w
    else
      let b : BulkOut := { addr := a, stream := stream, target := target, purpose := 0, offset := off, pre := []
                           data := domainBytes w true target off len, window := window, next := 0, acked := [], times := []
                           openClk := w.clk, opened := true, closed := false }
      pumpOut b (refuseOpen a stream St.ok 0 (updNet w fun n => { n with bulkOut := n.bulkOut ++ [b] }))

/-- BULK_OPEN_RX (R340). A repeated opening is answered again; stream number 0 is malformed. -/
def bulkOpen (a : Addr) (target : Nat) (read : Bool) (stream off len window : Nat) (pre : List Nat) (w : World) : World :=
  if stream = 0 then bump w Obj.NET_KOA_BAD
  else if !hostServing w then refuseOpen a stream St.hostDown 0 w
  else match findIn w a stream with
    | some b => sendAck b 0 0 (gotBytes b) w
    | none =>
      if (findOut w a stream).isSome then refuseOpen a stream St.ok 0 w
      else if read then openRead_ a stream target off len window w
      else openIn a stream target off len pre w

def execBulkOpenRx (a : Addr) (target : Nat) (read : Bool) (stream off len window : Nat) (pre : List Nat) (s : State) :
    Host.Outcome State Fault Refusal :=
  onWorld (fun _ w => whenDo (koaUp w a.iface) (bulkOpen a target read stream off len window pre) w) s

/-! ### Data -/

/-- Code line `m` of an IMAGE_PACK item (R110, R135, R136): the bytes it takes in the store and its plane lines without
gain, which are stored raw. The key interval and the segment length are the implementation's. -/
def packLine (it : Item) (data : List Nat) (m : Nat) : Nat × Nat :=
  let bits := 8 * itemBps it
  let key := max 1 Config.packKey.toNat
  let ps := rawPlanes it data m
  let prev := if m = 0 then ps.map fun _ => [] else rawPlanes it data (m - 1)
  (ps.zip prev).foldl (fun acc e =>
    let d := (encodeLine bits (Config.packSegLog.toNat % 5) 31 (m % key == 0) e.1 e.2).1
    if noGain d it.width bits then (acc.1 + ceilDiv (it.width * bits) 8, acc.2 + 1) else (acc.1 + d.length, acc.2)) (0, 0)

/-- The general units code the lines of an IMAGE_PACK item that have arrived in full (R110). Once they are shed the whole
item is stored raw. -/
def packMore (it : Item) (data : List Nat) (w : World) : Item × World :=
  if !it.packed then (it, w)
  else if getN w Obj.MUS_GEN_STATE = 2 then ({ it with packed := false }, w)
  else
    let n := data.length / max 1 (it.width * itemChannels it * itemBps it)
    let (stored, none_) := ((List.range (n - it.coded)).map (· + it.coded)).foldl (fun acc m =>
      let (d, g) := packLine it data m
      (acc.1 + d, acc.2 + g)) (it.stored, 0)
    ({ it with coded := n, stored := stored }, addO w Obj.MUS_NO_GAIN 32 none_)

/-- The data of a stream that has arrived without a gap. -/
def prefixData (b : BulkIn) : List Nat :=
  (List.range (nextBlock b)).flatMap fun k => (mapGet b.blocks k).getD []

/-- A block of a layer-store item has arrived. -/
def itemBlock (b : BulkIn) (len : Nat) (w : World) : World :=
  let w := noteWrite 2 b.item 0 (addO w Obj.MEM_ING_BYTES 64 len)
  match itemAt w b.item with
  | some it => let (it, w) := packMore it (if it.packed then prefixData b else []) w; setItem w b.item it
  | none => w

/-- Whether the hardware of interface `i` carries bulk data now: the offload of interfaces 0 to 7, the host core on the
management interface (R361, R396). -/
def bulkUp (w : World) (i : Nat) : Bool := koaUp w i && (i < 8 || hostServing w)

/-- The bytes that block `k` of a stream carries. -/
def blockLen (b : BulkIn) (k : Nat) : Nat := min 8192 (b.length - 8192 * k)

/-- BULK_DATA_RX (R341): a block with its CRC; `share` says whether DRAM gives ingest a share (R26). Every block taken is
acknowledged at once. -/
def bulkData (a : Addr) (stream k : Nat) (data : List Nat) (crc : Nat) (share : Bool) (w : World) : World :=
  let w := updNet w fun n => { n with ingestShare := b2n share }
  match findIn w a stream with
  | none => w
  | some b =>
    if crc ≠ crc32c data then bump w Obj.NET_BULK_CRC
    else if data.length ≠ blockLen b k ∨ data.length = 0 then bump w Obj.NET_KOA_BAD
    else if nextBlock b + offered w b.target ≤ k ∨ (mapGet b.blocks k).isSome = true then w
    else
      let b := { b with blocks := mapPut b.blocks k data, lastClk := w.clk }
      let w := if b.target = 1 then itemBlock b data.length w else w
      sendAck b 0 0 (gotBytes b) (putIn w b)

def execBulkDataRx (a : Addr) (stream k : Nat) (data : List Nat) (crc : Nat) (share : Bool) (s : State) :
    Host.Outcome State Fault Refusal :=
  onWorld (fun _ w => whenDo (bulkUp w a.iface) (bulkData a stream k data crc share) w) s

/-- BULK_WINDOW_REOPEN (R342): ingest has a share of DRAM again. -/
def windowReopen (w : World) : World :=
  let w := updNet w fun n => { n with ingestShare := 1 }
  (w.net.bulkIn.filter (·.target == 1)).foldl (fun w b => sendAck b 0 0 (gotBytes b) w) w

def execBulkWindowReopen (s : State) : Host.Outcome State Fault Refusal :=
  onWorld (fun _ w => whenDo (w.sys.voted && w.net.ingestShare == 0) windowReopen w) s

/-! ### The close -/

/-- The data of a stream whose blocks have all arrived. -/
def streamData (b : BulkIn) : List Nat := b.blocks.flatMap (·.2)
def allBlocks (b : BulkIn) : Bool := b.blocks.length == blockCount b.length

/-- Whether two items stand under one name: an image's ID, or a record's stream and SEQ. -/
def sameName (i j : Item) : Bool := decide (i.ty ≤ 3) == decide (j.ty ≤ 3) && i.id == j.id && i.seq == j.seq

/-- Whether another item stands under the name of item `k` (R111). -/
def hasOlder (w : World) (k : Nat) (i : Item) : Bool :=
  w.mem.items.any fun e => e.1 != k && e.2.state != 1 && sameName e.2 i

/-- Put a finished item in place: it replaces the older one (R111). -/
def placeItem (w : World) (k : Nat) (i : Item) : World :=
  setItem { w with mem := { w.mem with items := w.mem.items.filter fun e => e.1 == k || e.2.state == 1 || !sameName e.2 i } } k i

/-- A transfer that failed: its item stays as incomplete or damaged, or is discarded beside an older one (R111). -/
def failItem (w : World) (k : Nat) (i : Item) : World := if hasOlder w k i then dropItem w k else setItem w k i

/-- The blocks that a complete item takes: what its coded lines leave unused is freed (R110). -/
def packItem (i : Item) : Item :=
  if i.packed then { i with blocks := min i.blocks (ceilDiv i.stored 65536) } else i

/-- An item whose blocks have all arrived (R96, R111, R133). -/
def itemDone (b : BulkIn) (i : Item) (w : World) : World :=
  let i := { i with data := streamData b, state := 2 }
  let bad := if itemMuslin i then
      streamCheck i.data (itemChannels i) i.width i.height (itemBps i == 2) i.length
    else 0
  if bad ≠ 0 then
    sendAck b St.refused 0x83 (gotBytes b) (raise (failItem w b.item { i with state := 4 }) Ev.MUS_STREAM_HDR i.id bad)
  else if 4 ≤ i.ty ∧ seqAhead w i.seq < 0 then
    sendAck b St.ok 0 (gotBytes b) (raise (dropItem w b.item) Ev.VD_STALE i.id i.seq)
  else
    sendAck b St.ok 0 (gotBytes b) (raise (placeItem w b.item (packItem i)) Ev.IMG_COMPLETE i.id (ceilDiv i.length 65536))

/-- A transfer that ends short (R111): unused blocks are freed. -/
def itemShort (b : BulkIn) (i : Item) (w : World) : World :=
  let w := failItem w b.item { i with state := 3, blocks := ceilDiv (gotBytes b) 65536 }
  raise w Ev.IMG_INCOMPLETE i.id b.blocks.length

/-- The close of a stream (R343). -/
def closeIn (b : BulkIn) (reason len : Nat) (w : World) : World :=
  let w := dropIn w b
  let whole := reason == 0 && len == b.length && allBlocks b
  if b.target = 1 then
    match itemAt w b.item with
    | none => sendAck b St.refused 0x84 (gotBytes b) w
    | some i => if whole then itemDone b i w else sendAck b St.refused 0x84 (gotBytes b) (itemShort b i w)
  else if whole then
    let (n, w) := domainWrite (1 + b.addr.iface) b.target b.offset (streamData b) w
    sendAck b (if n = 0 then St.ok else St.clamped) 0 n (if b.target = 0x3C01 then evtRefresh w else w)
  else sendAck b St.refused 0x84 0 w

/-- BULK_CLOSE_RX (R343). While the host core is down the close waits for it (R396). -/
def bulkClose (a : Addr) (stream reason len : Nat) (w : World) : World :=
  match findIn w a stream with
  | none => w
  | some b => if hostServing w then closeIn b reason len w else putIn w { b with closing := some (reason, len) }

def execBulkCloseRx (a : Addr) (stream reason len : Nat) (s : State) : Host.Outcome State Fault Refusal :=
  onWorld (fun _ w => whenDo (koaUp w a.iface) (bulkClose a stream reason len) w) s

/-- HOST_RESTART_DONE (R395), with the closes that have waited for the host core (R396). -/
def restartCloses (w : World) : World :=
  let w := hostRestarted w
  if hostServing w then
    w.net.bulkIn.foldl (fun w b => match b.closing with | some c => closeIn b c.1 c.2 w | none => w) w
  else w

def execHostRestartDone (s : State) : Host.Outcome State Fault Refusal := onWorld (fun _ w => restartCloses w) s

/-- BULK_IDLE_TIMEOUT (R343): no block and no close for NET_BULK_IDLE_MS. -/
def bulkIdle (a : Addr) (stream : Nat) (w : World) : World :=
  match findIn w a stream with
  | none => w
  | some b =>
    if b.closing.isSome ∨ w.clk < b.lastClk + msClk (getN w Obj.NET_BULK_IDLE_MS) then w
    else
      let w := dropIn w b
      if b.target = 1 then match itemAt w b.item with | some i => itemShort b i w | none => w else w

def execBulkIdleTimeout (a : Addr) (stream : Nat) (s : State) : Host.Outcome State Fault Refusal :=
  onWorld (fun _ w => bulkIdle a stream w) s

end Sys2Proof.Machine
end

