-- ==== Sys2Proof/Machine/CanPort.lean ====
section
/-! DEFINITION. The CAN FD port (R352 to R360): NMT, heartbeat, EMCY, the SDO server, TPDOs and the error states. -/

namespace Sys2Proof.Machine

def updCan (w : World) (f : Can → Can) : World := { w with can := f w.can }

/-- Whether the port runs: Serge serves it, it is past INITIALISATION, and not in bus-off. -/
def canUp (w : World) : Bool := w.sys.voted && w.can.nmt != 0 && w.can.bus != 2

/-! ### NMT (R354) -/

/-- Whether an NMT command addresses this node: node 0 is all of them. -/
def nmtMine (w : World) (node : Nat) : Bool := canUp w && (node == 0 || node == w.can.node)

/-- Change the NMT state. A stopped node serves no SDO, so a transfer ends. -/
def setNmt (v : Nat) (w : World) : World := updCan w fun c => { c with nmt := v, sdo := if v = 3 then none else c.sdo }

def execNmtStart (node : Nat) (s : State) : Host.Outcome State Fault Refusal :=
  onWorld (fun _ w => whenDo (nmtMine w node) (setNmt 2) w) s
def execNmtStop (node : Nat) (s : State) : Host.Outcome State Fault Refusal :=
  onWorld (fun _ w => whenDo (nmtMine w node) (setNmt 3) w) s
def execNmtEnterPreOperational (node : Nat) (s : State) : Host.Outcome State Fault Refusal :=
  onWorld (fun _ w => whenDo (nmtMine w node) (setNmt 1) w) s
/-- Reset node: the communication objects only. -/
def execNmtResetNode (node : Nat) (s : State) : Host.Outcome State Fault Refusal :=
  onWorld (fun _ w => whenDo (nmtMine w node) canStart w) s
def execNmtResetCommunication (node : Nat) (s : State) : Host.Outcome State Fault Refusal :=
  onWorld (fun _ w => whenDo (nmtMine w node) canStart w) s

/-! ### Heartbeat (R355) -/

/-- HEARTBEAT_PRODUCE: the NMT state in the codes of CiA 301. -/
def heartbeat (w : World) : World :=
  let ms := getN w Obj.NET_CAN_HB_PROD
  if ms = 0 ∨ w.clk < w.can.hbClk + msClk ms then w
  else canSendNmt (match w.can.nmt with | 1 => 0x7F | 2 => 5 | _ => 4) (updCan w fun c => { c with hbClk := w.clk })

def execHeartbeatProduce (s : State) : Host.Outcome State Fault Refusal := onWorld (fun _ w => whenDo (canUp w) heartbeat w) s

/-- The node and the time of consumer `i`, where it watches one. -/
def watched (w : World) (i : Nat) : Option (Nat × Nat) :=
  let v := getN w (Obj.NET_CAN_HB_CONS i)
  if field v 16 8 = 0 ∨ field v 0 16 = 0 then none else some (field v 16 8, field v 0 16)

/-- A heartbeat of a watched node: its time begins anew, and a lost one is back. -/
def heardNode (node : Nat) (w : World) (i : Nat) : World :=
  match watched w i with
  | some (n, _) =>
    if n ≠ node then w
    else
      let lost := match mapGet w.can.hb i with | some e => e.2 | none => false
      let w := updCan w fun c => { c with hb := mapPut c.hb i (w.clk, false) }
      if lost then raise w Ev.CAN_HB_LOST node 0 else w
  | none => w

/-- HEARTBEAT_RX: the web stop of a lost heartbeat ends when none is lost any more. -/
def heartbeatRx (node : Nat) (w : World) : World :=
  let w := (List.range 4).foldl (heardNode node) w
  if w.can.hb.any (·.2.2) then w else stopSrc w 4 false

def execHeartbeatRx (node : Nat) (s : State) : Host.Outcome State Fault Refusal :=
  onWorld (fun _ w => whenDo (canUp w) (heartbeatRx node) w) s

/-- CAN_HB_LOST of consumer `i`: the node has missed its time; HB_ACT stops the web. -/
def hbLost (i : Nat) (w : World) : World :=
  match watched w i, mapGet w.can.hb i with
  | some (node, ms), some (c, false) =>
    if w.clk < c + msClk ms then w
    else
      let w := updCan w fun x => { x with hb := mapPut x.hb i (c, true) }
      let w := raise w Ev.CAN_HB_LOST node 1
      if bitOf w.can.cfg.toNat 7 then stopSrc w 4 true else w
  | _, _ => w

def execCanHbLost (i : Nat) (s : State) : Host.Outcome State Fault Refusal :=
  onWorld (fun _ w => whenDo (w.sys.voted && w.can.nmt != 0) (hbLost i) w) s

/-! ### EMCY (R356) -/

/-- A code into 0x1003: newest at .01, their number at .00. -/
def pushHist (code : Nat) (w : World) : World :=
  let old := (List.range 7).map fun i => getO w (Obj.NET_CAN_ERR_HIST (i + 1))
  let w := (((code : Int) :: old).zip (List.range 8)).foldl (fun w e => setO w (Obj.NET_CAN_ERR_HIST (e.2 + 1)) e.1) w
  setO w (Obj.NET_CAN_ERR_HIST 0) (min 8 (getO w (Obj.NET_CAN_ERR_HIST 0) + 1))

/-- Send an EMCY frame. -/
def emcyFrame (code reg inst data : Nat) (w : World) : World :=
  let w := updCan w fun c => { c with emcyClk := some w.clk, errReg := reg }
  send w (.can (getN w Obj.NET_CAN_EMCY_COB % 536870912) (leBytes 2 code ++ [reg, inst % 256] ++ leBytes 4 data) false)

/-- EMCY_SEND: the oldest queued event once the inhibit time has passed, or the frame that tells that the error register
is 0 again. -/
def emcySend (m : DevState) (w : World) : World :=
  let inh := usClk (100 * getN w Obj.NET_CAN_EMCY_INH)
  let free := match w.can.emcyClk with | some c => decide (c + inh ≤ w.clk) | none => true
  let reg := canErrReg m w
  if !free ∨ bitOf (getN w Obj.NET_CAN_EMCY_COB) 31 = true then w
  else match w.can.emcyQ with
    | r :: q => pushHist (0xFF00 + r.code) (emcyFrame (0xFF00 + r.code) reg r.inst r.data (updCan w fun c => { c with emcyQ := q }))
    | [] =>
      if w.can.errReg ≠ 0 ∧ reg = 0 then emcyFrame 0 0 0 0 w else updCan w fun c => { c with errReg := reg }

def execEmcySend (s : State) : Host.Outcome State Fault Refusal :=
  onWorld (fun c w => whenDo (canUp w) (emcySend c.mode) w) s

/-! ### TPDO (R358) -/

/-- A mapped object's data bytes. -/
def mapData (c : Ctl) (w : World) (v : Nat) : List Nat :=
  let k := v / 256
  let n := ceilDiv (v % 256) 8
  match objRow k with
  | some (r, _, _) => ((objBytes c w r k false) ++ zeroBytes 8).take n
  | none => ([highestSub (k / 256)] ++ zeroBytes 8).take n

/-- The mapping entries in use. -/
def mapEntries (w : World) (t : Nat) : List Nat :=
  ((List.range (getN w (Obj.NET_CAN_TPDO_MAP t 0))).map fun i => getN w (Obj.NET_CAN_TPDO_MAP t (i + 1))).filter (· != 0)

/-- The length of a CAN FD frame that holds `n` bytes. -/
def fdLen (n : Nat) : Nat := ([12, 16, 20, 24, 32, 48, 64].find? fun l => decide (n ≤ l)).getD 64

/-- TPDO_SEND of TPDO `t` + 1: its event timer has run out, or its first mapped object has changed and the inhibit time
has passed. -/
def tpdoSend (c : Ctl) (t : Nat) (w : World) : World :=
  let cob := getN w (Obj.NET_CAN_TPDO_COMM t 0)
  let es := mapEntries w t
  if bitOf cob 31 ∨ es = [] then w
  else
    let last := w.can.tpdoClk.getD t 0
    let now := (ofLe (mapData c w (es.headD 0)) : Int)
    let timer := getN w (Obj.NET_CAN_TPDO_COMM t 4)
    let timed := timer != 0 && decide (last + msClk timer ≤ w.clk)
    let changed := decide (now ≠ w.can.tpdoLast.getD t 0) &&
      decide (last + usClk (100 * getN w (Obj.NET_CAN_TPDO_COMM t 2)) ≤ w.clk)
    if timed ∨ changed then
      let data := es.flatMap (mapData c w)
      let fd := bitOf (getN w Obj.NET_CAN_TPDO_FD) t
      let data := if fd ∧ 8 < data.length then (data ++ zeroBytes 64).take (fdLen data.length) else data
      let w := es.foldl (fun w v => readFx (v / 256) w) w
      let w := updCan w fun x => { x with tpdoClk := x.tpdoClk.set t w.clk, tpdoLast := x.tpdoLast.set t now }
      send w (.can (cob % 536870912) data fd)
    else w

def execTpdoSend (t : Nat) (s : State) : Host.Outcome State Fault Refusal :=
  onWorld (fun c w => whenDo (canUp w && w.can.nmt == 2 && hostServing w && decide (t < 4)) (tpdoSend c t) w) s

/-! ### SDO (R357) -/

def setSdo (x : Option SdoXfer) (w : World) : World := updCan w fun c => { c with sdo := x }

/-- Whether a segmented download can begin: steps 1 and 2 of R325, and the size of a DOMAIN. -/
def downloadStatus (w : World) (ix sub : Nat) : Nat :=
  if !answers w ix then St.hostDown
  else if !indexExists ix then St.noObject
  else if !subExists ix sub then St.noSub
  else match objRow (ix * 256 + sub) with
    | none => St.readOnly
    | some (r, n, o) =>
      if !writable r o ∨ (r.key = Obj.LCK_ROW_POS 0 ∧ n = 0) then St.readOnly
      else if r.ty = .dom ∧ 256 < domainSize w ix then St.domain
      else St.ok

/-- SDO_INITIATE_DOWNLOAD: the data of an expedited transfer, or the size of a segmented one. -/
def initDownload (ix sub : Nat) (expedited : Bool) (size : Nat) (data : List Nat) (s : State) : State :=
  let w := setSdo none s.w
  if expedited then canWrite { path := .can, auth := none } ix sub data { s with w := w }
  else
    let st := downloadStatus w ix sub
    if st ≠ St.ok then { s with w := sdoAbort ix sub (abortCode st) w }
    else
      let x : SdoXfer := { upload := false, index := ix, sub := sub, size := size, bytes := [], toggle := false, clk := w.clk }
      { s with w := sdoSend (0x60 :: leBytes 2 ix ++ [sub]) (setSdo (some x) w) }

def execSdoInitiateDownload (ix sub : Nat) (expedited : Bool) (size : Nat) (data : List Nat) (s : State) :
    Host.Outcome State Fault Refusal :=
  onState (fun s => if sdoUp s.w then initDownload ix sub expedited size data s else s) s

/-- A trailer from its 20 bytes (R346). -/
def trailerOf (l : List Nat) : Trailer :=
  { slot := l.getD 0 0, pad := leAt l 1 3, counter := leAt l 4 4, tag := (l.drop 8).take 12 }

/-- Whether a download of `len` bytes ends in a trailer: one is needed, or the bytes are those of the object and 20
more. -/
def hasTrailer (s : State) (ix sub len : Nat) : Bool :=
  match objRow (ix * 256 + sub) with
  | none => false
  | some (r, _, _) =>
    let own := match r.ty with | .dom => some (domainSize s.w ix) | .str => none | _ => some (tyBytes (keyTy r (ix * 256 + sub)))
    decide (20 ≤ len) && (authNeeded s r.a ix .can || own == some (len - 20))

/-- The end of a segmented download: the engine writes what arrived. -/
def finishDownload (x : SdoXfer) (s : State) : State :=
  let n := x.bytes.length
  let tr := hasTrailer s x.index x.sub n
  let e : WriteEnv := { path := .can, auth := if tr then some (trailerOf (x.bytes.drop (n - 20))) else none }
  let (st, t) := engine e x.index x.sub 0 (if tr then x.bytes.take (n - 20) else x.bytes) s
  if st ≤ 1 then { t with w := sdoSend [0x20 + 16 * b2n x.toggle] t.w }
  else { t with w := sdoAbort x.index x.sub (abortCode st) t.w }

/-- SDO_DOWNLOAD_SEGMENT: up to 7 bytes. A segment out of turn aborts as an invalid command specifier. -/
def downloadSegment (toggle last : Bool) (data : List Nat) (s : State) : State :=
  match s.w.can.sdo with
  | none => { s with w := sdoAbort 0 0 0x05040001 s.w }
  | some x =>
    let w := setSdo none s.w
    let all := x.bytes ++ data
    if x.upload ∨ x.toggle ≠ toggle then { s with w := sdoAbort x.index x.sub 0x05040001 w }
    else if (x.size ≠ 0 ∧ x.size < all.length) ∨ 276 < all.length ∨ (last ∧ x.size ≠ 0 ∧ x.size ≠ all.length) then
      { s with w := sdoAbort x.index x.sub 0x06070010 w }
    else if last then finishDownload { x with bytes := all } { s with w := w }
    else
      let y := { x with bytes := all, toggle := !toggle, clk := w.clk }
      { s with w := sdoSend [0x20 + 16 * b2n toggle] (setSdo (some y) w) }

def execSdoDownloadSegment (toggle last : Bool) (data : List Nat) (s : State) : Host.Outcome State Fault Refusal :=
  onState (fun s => if sdoUp s.w then downloadSegment toggle last data s else s) s

/-- SDO_INITIATE_UPLOAD: up to 4 bytes at once, more in segments. -/
def initUpload (ix sub : Nat) (c : Ctl) (w : World) : World :=
  let (st, _, data, w) := readItem c ix sub false (setSdo none w)
  if st ≠ St.ok then sdoAbort ix sub (abortCode st) w
  else if 1 ≤ data.length ∧ data.length ≤ 4 then
    sdoSend ((0x43 + 4 * (4 - data.length)) :: leBytes 2 ix ++ [sub] ++ data) w
  else
    let x : SdoXfer := { upload := true, index := ix, sub := sub, size := data.length, bytes := data, toggle := false, clk := w.clk }
    sdoSend (0x41 :: leBytes 2 ix ++ [sub] ++ leBytes 4 data.length) (setSdo (some x) w)

def execSdoInitiateUpload (ix sub : Nat) (s : State) : Host.Outcome State Fault Refusal :=
  onWorld (fun c w => whenDo (sdoUp w) (initUpload ix sub c) w) s

/-- SDO_UPLOAD_SEGMENT: the next 7 bytes. -/
def uploadSegment (toggle : Bool) (w : World) : World :=
  match w.can.sdo with
  | none => sdoAbort 0 0 0x05040001 w
  | some x =>
    if !x.upload ∨ x.toggle ≠ toggle then sdoAbort x.index x.sub 0x05040001 (setSdo none w)
    else
      let part := x.bytes.take 7
      let rest := x.bytes.drop 7
      let w := setSdo (if rest = [] then none else some { x with bytes := rest, toggle := !toggle, clk := w.clk }) w
      sdoSend ((16 * b2n toggle + 2 * (7 - part.length) + b2n (rest == [])) :: part) w

def execSdoUploadSegment (toggle : Bool) (s : State) : Host.Outcome State Fault Refusal :=
  onWorld (fun _ w => whenDo (sdoUp w) (uploadSegment toggle) w) s

/-- SDO_ABORT_RX: the client ends the transfer. -/
def execSdoAbortRx (s : State) : Host.Outcome State Fault Refusal := onWorld (fun _ w => whenDo (sdoUp w) (setSdo none) w) s

/-- SDO_SEGMENT_TIMEOUT (R357): no segment for 1 s. -/
def sdoTimeout (w : World) : World :=
  match w.can.sdo with
  | none => w
  | some x => if x.clk + secClk 1 ≤ w.clk then sdoAbort x.index x.sub 0x05040000 (setSdo none w) else w

def execSdoSegmentTimeout (s : State) : Host.Outcome State Fault Refusal := onWorld (fun _ w => whenDo (sdoUp w) sdoTimeout w) s

/-! ### Error states (R353) -/

/-- CAN_BUS: the controller's error state (0 error active, 1 error passive, 2 bus-off) and its counters. -/
def canBus (st rec_ tec : Nat) (w : World) : World :=
  let w := setO w Obj.NET_CAN_ERRCNT (min 255 rec_ * 256 + min 255 tec : Nat)
  if w.can.bus = st then w else raise (updCan w fun c => { c with bus := st }) Ev.CAN_BUS 0 st

def execCanBus (st rec_ tec : Nat) (s : State) : Host.Outcome State Fault Refusal :=
  onWorld (fun _ w => whenDo (w.sys.voted && w.can.nmt != 0 && decide (st ≤ 2)) (canBus st rec_ tec) w) s

/-- CAN_BUS_OFF_RECOVERY: 128 occurrences of 11 recessive bits have passed. -/
def busRecover (w : World) : World :=
  raise (setO (updCan w fun c => { c with bus := 0 }) Obj.NET_CAN_ERRCNT 0) Ev.CAN_BUS 0 0

def execCanBusOffRecovery (s : State) : Host.Outcome State Fault Refusal :=
  onWorld (fun _ w => whenDo (w.sys.voted && w.can.bus == 2) busRecover w) s

end Sys2Proof.Machine
end

