-- ==== Sys2Proof/Machine/Dispatch.lean ====
section
/-! DEFINITION. The command dispatch: one arm per row of spec/opcode_table.json, each one call of its meaning. -/

namespace Sys2Proof.Machine

def exec (i : Instr) (s : State) : Host.Outcome State Fault Refusal :=
  match i with
  | .vinValid mv => Sys2Proof.Machine.execVinValid mv s
  | .pwrPfLow mv => Sys2Proof.Machine.execPwrPfLow mv s
  | .firstVotedCycle sums => Sys2Proof.Machine.execFirstVotedCycle sums s
  | .hostBootDone image why => Sys2Proof.Machine.execHostBootDone image why s
  | .dramInitDone => Sys2Proof.Machine.execDramInitDone s
  | .storedValuesLoaded damaged => Sys2Proof.Machine.execStoredValuesLoaded damaged s
  | .selftestDone t => Sys2Proof.Machine.execSelftestDone t s
  | .calibrateDone done sinks first later => Sys2Proof.Machine.execCalibrateDone done sinks first later s
  | .discoverDone dark => Sys2Proof.Machine.execDiscoverDone dark s
  | .sysCmdArm e => Sys2Proof.Machine.execSysCmdArm e s
  | .sysCmdPause e => Sys2Proof.Machine.execSysCmdPause e s
  | .sysCmdResume e => Sys2Proof.Machine.execSysCmdResume e s
  | .sysCmdStop e => Sys2Proof.Machine.execSysCmdStop e s
  | .sysCmdRelease e => Sys2Proof.Machine.execSysCmdRelease e s
  | .sysServiceEnter e => Sys2Proof.Machine.execSysServiceEnter e s
  | .sysServiceLeave e => Sys2Proof.Machine.execSysServiceLeave e s
  | .sysDebugEnWrite e v => Sys2Proof.Machine.execSysDebugEnWrite e v s
  | .sysBgenPinWrite e v => Sys2Proof.Machine.execSysBgenPinWrite e v s
  | .objectWrite e ix sub ty bytes => Sys2Proof.Machine.execObjectWrite e ix sub ty bytes s
  | .koaRead a reqId items => Sys2Proof.Machine.execKoaRead a reqId items s
  | .koaMessageDiscard ix => Sys2Proof.Machine.execKoaMessageDiscard ix s
  | .helloRx a serial vendor product revision role period leaving => Sys2Proof.Machine.execHelloRx a serial vendor product revision role period leaving s
  | .helloSend ix => Sys2Proof.Machine.execHelloSend ix s
  | .partnerTimeout n => Sys2Proof.Machine.execPartnerTimeout n s
  | .notifySend n => Sys2Proof.Machine.execNotifySend n s
  | .bulkOpenRx a target read stream off len window pre => Sys2Proof.Machine.execBulkOpenRx a target read stream off len window pre s
  | .bulkDataRx a stream k data crc share => Sys2Proof.Machine.execBulkDataRx a stream k data crc share s
  | .bulkAckRx a stream status window next sack => Sys2Proof.Machine.execBulkAckRx a stream status window next sack s
  | .bulkCloseRx a stream reason len => Sys2Proof.Machine.execBulkCloseRx a stream reason len s
  | .bulkIdleTimeout a stream => Sys2Proof.Machine.execBulkIdleTimeout a stream s
  | .bulkResendTimeout a stream => Sys2Proof.Machine.execBulkResendTimeout a stream s
  | .bulkSendAbandon a stream => Sys2Proof.Machine.execBulkSendAbandon a stream s
  | .bulkWindowReopen => Sys2Proof.Machine.execBulkWindowReopen s
  | .authLockoutEnd => Sys2Proof.Machine.execAuthLockoutEnd s
  | .authFailureExpire => Sys2Proof.Machine.execAuthFailureExpire s
  | .secKeyProgram e bytes => Sys2Proof.Machine.execSecKeyProgram e bytes s
  | .secKeyRevoke e slot => Sys2Proof.Machine.execSecKeyRevoke e slot s
  | .nmtStart node => Sys2Proof.Machine.execNmtStart node s
  | .nmtStop node => Sys2Proof.Machine.execNmtStop node s
  | .nmtEnterPreOperational node => Sys2Proof.Machine.execNmtEnterPreOperational node s
  | .nmtResetNode node => Sys2Proof.Machine.execNmtResetNode node s
  | .nmtResetCommunication node => Sys2Proof.Machine.execNmtResetCommunication node s
  | .heartbeatProduce => Sys2Proof.Machine.execHeartbeatProduce s
  | .heartbeatRx node => Sys2Proof.Machine.execHeartbeatRx node s
  | .canHbLost ix => Sys2Proof.Machine.execCanHbLost ix s
  | .emcySend => Sys2Proof.Machine.execEmcySend s
  | .canErrHistClear e => Sys2Proof.Machine.execCanErrHistClear e s
  | .sdoInitiateDownload ix sub expedited size data => Sys2Proof.Machine.execSdoInitiateDownload ix sub expedited size data s
  | .sdoDownloadSegment toggle last data => Sys2Proof.Machine.execSdoDownloadSegment toggle last data s
  | .sdoInitiateUpload ix sub => Sys2Proof.Machine.execSdoInitiateUpload ix sub s
  | .sdoUploadSegment toggle => Sys2Proof.Machine.execSdoUploadSegment toggle s
  | .sdoAbortRx => Sys2Proof.Machine.execSdoAbortRx s
  | .sdoSegmentTimeout => Sys2Proof.Machine.execSdoSegmentTimeout s
  | .tpdoSend t => Sys2Proof.Machine.execTpdoSend t s
  | .canBus st rec_ tec => Sys2Proof.Machine.execCanBus st rec_ tec s
  | .canBusOffRecovery => Sys2Proof.Machine.execCanBusOffRecovery s
  | .netLink ix up => Sys2Proof.Machine.execNetLink ix up s
  | .ptpSyncRx m => Sys2Proof.Machine.execPtpSyncRx m s
  | .ptpFollowUpRx m => Sys2Proof.Machine.execPtpFollowUpRx m s
  | .ptpDelayReqRx m => Sys2Proof.Machine.execPtpDelayReqRx m s
  | .ptpDelayRespRx m => Sys2Proof.Machine.execPtpDelayRespRx m s
  | .ptpPdelayReqRx m turn => Sys2Proof.Machine.execPtpPdelayReqRx m turn s
  | .ptpPdelayRespRx m => Sys2Proof.Machine.execPtpPdelayRespRx m s
  | .ptpPdelayRespFollowUpRx m => Sys2Proof.Machine.execPtpPdelayRespFollowUpRx m s
  | .ptpAnnounceRx a => Sys2Proof.Machine.execPtpAnnounceRx a s
  | .ptpIgnoredRx => Sys2Proof.Machine.execPtpIgnoredRx s
  | .ptpSyncSend => Sys2Proof.Machine.execPtpSyncSend s
  | .ptpAnnounceSend => Sys2Proof.Machine.execPtpAnnounceSend s
  | .ptpDelayReqSend => Sys2Proof.Machine.execPtpDelayReqSend s
  | .ptpPdelayReqSend => Sys2Proof.Machine.execPtpPdelayReqSend s
  | .announceTimeout => Sys2Proof.Machine.execAnnounceTimeout s
  | .rateStep => Sys2Proof.Machine.execRateStep s
  | .timAnchor => Sys2Proof.Machine.execTimAnchor s
  | .timFreqStore => Sys2Proof.Machine.execTimFreqStore s
  | .timStepSet e v => Sys2Proof.Machine.execTimStepSet e v s
  | .timIfaceWrite e v => Sys2Proof.Machine.execTimIfaceWrite e v s
  | .timDomainWrite e v => Sys2Proof.Machine.execTimDomainWrite e v s
  | .timCfgWrite e v => Sys2Proof.Machine.execTimCfgWrite e v s
  | .timNowSecRead => Sys2Proof.Machine.execTimNowSecRead s
  | .encEdge n aLeads => Sys2Proof.Machine.execEncEdge n aLeads s
  | .encIllegal n => Sys2Proof.Machine.execEncIllegal n s
  | .encLoss n sig => Sys2Proof.Machine.execEncLoss n sig s
  | .encSignalReturn n sig a b => Sys2Proof.Machine.execEncSignalReturn n sig a b s
  | .index n => Sys2Proof.Machine.execIndex n s
  | .slipWindowEnd => Sys2Proof.Machine.execSlipWindowEnd s
  | .webStandstill => Sys2Proof.Machine.execWebStandstill s
  | .webPosSet e v => Sys2Proof.Machine.execWebPosSet e v s
  | .probeEdge n rising => Sys2Proof.Machine.execProbeEdge n rising s
  | .prbWindowClose n => Sys2Proof.Machine.execPrbWindowClose n s
  | .prbMissed n => Sys2Proof.Machine.execPrbMissed n s
  | .prbWindowWrite e n part v => Sys2Proof.Machine.execPrbWindowWrite e n part v s
  | .hswChange n high pos et => Sys2Proof.Machine.execHswChange n high pos et s
  | .ssiTransferStart n => Sys2Proof.Machine.execSsiTransferStart n s
  | .ssiTransferDone n raw idleHigh err => Sys2Proof.Machine.execSsiTransferDone n raw idleHigh err s
  | .lineCommit r => Sys2Proof.Machine.execLineCommit r s
  | .overspeedWarn => Sys2Proof.Machine.execOverspeedWarn s
  | .overspeedWarnEnd => Sys2Proof.Machine.execOverspeedWarnEnd s
  | .overspeed => Sys2Proof.Machine.execOverspeed s
  | .overspeedEnd => Sys2Proof.Machine.execOverspeedEnd s
  | .overspeedStop => Sys2Proof.Machine.execOverspeedStop s
  | .overspeedStopRelease => Sys2Proof.Machine.execOverspeedStopRelease s
  | .halflineReturn => Sys2Proof.Machine.execHalflineReturn s
  | .lckAlignStore e => Sys2Proof.Machine.execLckAlignStore e s
  | .jobCommit e => Sys2Proof.Machine.execJobCommit e s
  | .setupInstant => Sys2Proof.Machine.execSetupInstant s
  | .frameSrcAbsentTick => Sys2Proof.Machine.execFrameSrcAbsentTick s
  | .frameStart => Sys2Proof.Machine.execFrameStart s
  | .jobEnd => Sys2Proof.Machine.execJobEnd s
  | .composeLineStart => Sys2Proof.Machine.execComposeLineStart s
  | .composeLineDone => Sys2Proof.Machine.execComposeLineDone s
  | .compLate => Sys2Proof.Machine.execCompLate s
  | .compStarved => Sys2Proof.Machine.execCompStarved s
  | .memPlanApply e => Sys2Proof.Machine.execMemPlanApply e s
  | .memLsDelete e id => Sys2Proof.Machine.execMemLsDelete e id s
  | .memLsClear e => Sys2Proof.Machine.execMemLsClear e s
  | .memEccInject e v => Sys2Proof.Machine.execMemEccInject e v s
  | .memCe area addr => Sys2Proof.Machine.execMemCe area addr s
  | .memUe area addr unit line => Sys2Proof.Machine.execMemUe area addr unit line s
  | .scrubPassDone => Sys2Proof.Machine.execScrubPassDone s
  | .barLinePrepare r => Sys2Proof.Machine.execBarLinePrepare r s
  | .tableLoadDone r => Sys2Proof.Machine.execTableLoadDone r s
  | .jqNozStateWrite e b v => Sys2Proof.Machine.execJqNozStateWrite e b v s
  | .jqHeadStore e => Sys2Proof.Machine.execJqHeadStore e s
  | .jqSliceSwap e b => Sys2Proof.Machine.execJqSliceSwap e b s
  | .lineTxDone p => Sys2Proof.Machine.execLineTxDone p s
  | .idleExit p => Sys2Proof.Machine.execIdleExit p s
  | .trainingDone ix margins => Sys2Proof.Machine.execTrainingDone ix margins s
  | .trainingTimeout ix => Sys2Proof.Machine.execTrainingTimeout ix s
  | .alignSetRx ix lanes => Sys2Proof.Machine.execAlignSetRx ix lanes s
  | .blockError e => Sys2Proof.Machine.execBlockError e s
  | .linkLockLost ix clock => Sys2Proof.Machine.execLinkLockLost ix clock s
  | .enumStep ix => Sys2Proof.Machine.execEnumStep ix s
  | .driverEnum p addr id => Sys2Proof.Machine.execDriverEnum p addr id s
  | .latencyMeasured ix addr sumPs => Sys2Proof.Machine.execLatencyMeasured ix addr sumPs s
  | .chainEnd p => Sys2Proof.Machine.execChainEnd p s
  | .rspRx ix tag result value => Sys2Proof.Machine.execRspRx ix tag result value s
  | .lineFailRx p row result line => Sys2Proof.Machine.execLineFailRx p row result line s
  | .statusRx p addr word => Sys2Proof.Machine.execStatusRx p addr word s
  | .driverSilent p addr => Sys2Proof.Machine.execDriverSilent p addr s
  | .cmdRespTimeout ix tag => Sys2Proof.Machine.execCmdRespTimeout ix tag s
  | .recoveryDone ix => Sys2Proof.Machine.execRecoveryDone ix s
  | .recoveryTimeout ix => Sys2Proof.Machine.execRecoveryTimeout ix s
  | .hotplugArrival ix serial => Sys2Proof.Machine.execHotplugArrival ix serial s
  | .yqlDiscover e => Sys2Proof.Machine.execYqlDiscover e s
  | .retuneTrial ix margin => Sys2Proof.Machine.execRetuneTrial ix margin s
  | .retuneTrialEnd ix margin => Sys2Proof.Machine.execRetuneTrialEnd ix margin s
  | .cameraEnum c id => Sys2Proof.Machine.execCameraEnum c id s
  | .cameraLineRx c line words crc => Sys2Proof.Machine.execCameraLineRx c line words crc s
  | .camLineMissing c => Sys2Proof.Machine.execCamLineMissing c s
  | .yqlRwDataWrite e v => Sys2Proof.Machine.execYqlRwDataWrite e v s
  | .yqlRwDataRead => Sys2Proof.Machine.execYqlRwDataRead s
  | .scanSlot m => Sys2Proof.Machine.execScanSlot m s
  | .hrPeriodEnd => Sys2Proof.Machine.execHrPeriodEnd s
  | .voiPwrRecoverStep => Sys2Proof.Machine.execVoiPwrRecoverStep s
  | .voiUnverify k c => Sys2Proof.Machine.execVoiUnverify k c s
  | .voiUnverified k c => Sys2Proof.Machine.execVoiUnverified k c s
  | .insDark => Sys2Proof.Machine.execInsDark s
  | .insWhiteCapture e => Sys2Proof.Machine.execInsWhiteCapture e s
  | .whiteCaptureDone => Sys2Proof.Machine.execWhiteCaptureDone s
  | .whiteCaptureTimeout => Sys2Proof.Machine.execWhiteCaptureTimeout s
  | .insWhiteStore e => Sys2Proof.Machine.execInsWhiteStore e s
  | .windowRecordDone => Sys2Proof.Machine.execWindowRecordDone s
  | .insUplPeriod => Sys2Proof.Machine.execInsUplPeriod s
  | .insUplNow e mask => Sys2Proof.Machine.execInsUplNow e mask s
  | .uploadBlockReady => Sys2Proof.Machine.execUploadBlockReady s
  | .loopUpdateDone e => Sys2Proof.Machine.execLoopUpdateDone e s
  | .chlLate => Sys2Proof.Machine.execChlLate s
  | .chlRequal e mask => Sys2Proof.Machine.execChlRequal e mask s
  | .chlStore e => Sys2Proof.Machine.execChlStore e s
  | .chlRefTake e mask => Sys2Proof.Machine.execChlRefTake e mask s
  | .loopFlushStart => Sys2Proof.Machine.execLoopFlushStart s
  | .loopFlushDone => Sys2Proof.Machine.execLoopFlushDone s
  | .sergeCycle res => Sys2Proof.Machine.execSergeCycle res s
  | .coreReloadDone c => Sys2Proof.Machine.execCoreReloadDone c s
  | .coreProbationEnd c => Sys2Proof.Machine.execCoreProbationEnd c s
  | .sergeRestartDone => Sys2Proof.Machine.execSergeRestartDone s
  | .stopInLow => Sys2Proof.Machine.execStopInLow s
  | .stopInHigh => Sys2Proof.Machine.execStopInHigh s
  | .supResetHost e => Sys2Proof.Machine.execSupResetHost e s
  | .supResetDevice e => Sys2Proof.Machine.execSupResetDevice e s
  | .supStopCmdWrite e v => Sys2Proof.Machine.execSupStopCmdWrite e v s
  | .hostWdSignal => Sys2Proof.Machine.execHostWdSignal s
  | .hostWdTimeout => Sys2Proof.Machine.execHostWdTimeout s
  | .hostTrap => Sys2Proof.Machine.execHostTrap s
  | .hostRestartDone => Sys2Proof.Machine.execHostRestartDone s
  | .engineWdTimeout e => Sys2Proof.Machine.execEngineWdTimeout e s
  | .engineRestartDone e => Sys2Proof.Machine.execEngineRestartDone e s
  | .sliceInternalFault b tables => Sys2Proof.Machine.execSliceInternalFault b tables s
  | .sliceStall b => Sys2Proof.Machine.execSliceStall b s
  | .switchoverDone b => Sys2Proof.Machine.execSwitchoverDone b s
  | .sliceRetestDone slice pass => Sys2Proof.Machine.execSliceRetestDone slice pass s
  | .spareTestStart => Sys2Proof.Machine.execSpareTestStart s
  | .spareTestDone pass => Sys2Proof.Machine.execSpareTestDone pass s
  | .supDeadline n us => Sys2Proof.Machine.execSupDeadline n us s
  | .thmSensorPoll raws diags mv => Sys2Proof.Machine.execThmSensorPoll raws diags mv s
  | .govEval pin => Sys2Proof.Machine.execGovEval pin s
  | .govLimitStep => Sys2Proof.Machine.execGovLimitStep s
  | .govLimitRecover => Sys2Proof.Machine.execGovLimitRecover s
  | .govUnshed => Sys2Proof.Machine.execGovUnshed s
  | .thmAck e => Sys2Proof.Machine.execThmAck e s
  | .thmAutoResumeExit => Sys2Proof.Machine.execThmAutoResumeExit s
  | .vmonCrossing r level high mv => Sys2Proof.Machine.execVmonCrossing r level high mv s
  | .avsStep slack => Sys2Proof.Machine.execAvsStep slack s
  | .bgRenew => Sys2Proof.Machine.execBgRenew s
  | .powerFail mv => Sys2Proof.Machine.execPowerFail mv s
  | .powerSaveDone => Sys2Proof.Machine.execPowerSaveDone s
  | .vinOff => Sys2Proof.Machine.execVinOff s
  | .lifeCounterRenew => Sys2Proof.Machine.execLifeCounterRenew s
  | .refclkFail => Sys2Proof.Machine.execRefclkFail s
  | .evtStagingDrain => Sys2Proof.Machine.execEvtStagingDrain s
  | .evtOutPulseEnd n => Sys2Proof.Machine.execEvtOutPulseEnd n s
  | .evtLogClear e => Sys2Proof.Machine.execEvtLogClear e s
  | .framValueStoreDone => Sys2Proof.Machine.execFramValueStoreDone s
  | .norTableStoreDone => Sys2Proof.Machine.execNorTableStoreDone s
  | .refclkReturn => Sys2Proof.Machine.execRefclkReturn s
  | .idleEntryDelayEnd p => Sys2Proof.Machine.execIdleEntryDelayEnd p s
  | .boundaryScanInstruction => Sys2Proof.Machine.execBoundaryScanInstruction s

end Sys2Proof.Machine
end

