-- ==== Sys2Proof/Machine/Step.lean ====
section
/-! DEFINITION. The step of the block: the command at the front of the queue, or one CLK_TS clock when none waits. -/

namespace Sys2Proof.Machine

/-- One CLK_TS clock passes with nothing commanded (assumption 2): the clock count rises, and while the device is
powered the timer and link time run on, the line clock keeps the times of R79 and R80, and a SYNC follows each ALIGN set
(R239); in the print states the composition look-ahead is followed (R105). -/
def tick (s : State) : State :=
  let w := { s.w with clk := s.w.clk + 1 }
  let w := if powered s.ctl.mode then syncGaps (noteTimers (tickTimer w)) else w
  { s with w := if inPrint s.ctl.mode then noteLook w else w }

/-- One step: the command at the front runs on the state with the queue's rest; on an empty queue a clock passes. -/
def step (s : State) : Host.Outcome State Fault Refusal :=
  match s.pending with
  | c :: rest => exec c { s with pending := rest }
  | [] => .next (tick s)

/-- The state with the command that a word spells at the front of the queue. -/
def State.withFetchWord (s : State) (nbits w : Nat) : State :=
  match decodeTableWord nbits w with
  | some c => { s with pending := c :: s.pending }
  | none => s

end Sys2Proof.Machine
end

