-- ==== Sys2Proof/Safety.lean ====
section
/-! DEFINITION. The terms in which claims about the block are stated: what a command leaves unchanged, the events it
reports, and what always holds of a state. -/

namespace Sys2Proof.Machine

/-! ### Frames -/

/-- The parts of the world that a frame names one by one: every field of the world but the message list of the last
command, the objects in force (a frame names these by key), and what delivering an event writes. -/
inductive Part where
  | clk | free | sys | shadow | tables | stores | adjustments | tim | web | lck | job | mem | cal | jq | links | fire
  | sup | voi | ins | loop | thm | net | can | nvm
  deriving DecidableEq, Repr

/-- Part `p` is the same in two worlds. -/
def samePart : Part → World → World → Prop
  | .clk, a, b => b.clk = a.clk
  | .free, a, b => b.free = a.free
  | .sys, a, b => b.sys = a.sys
  | .shadow, a, b => b.dict.shadow = a.dict.shadow ∧ b.dict.tblShadow = a.dict.tblShadow
  | .tables, a, b => b.dict.tbl = a.dict.tbl
  | .stores, a, b => b.dict.fram = a.dict.fram ∧ b.dict.framWait = a.dict.framWait ∧ b.dict.nor = a.dict.nor ∧
      b.dict.norWait = a.dict.norWait ∧ b.dict.hostName = a.dict.hostName ∧ b.dict.hostNameNv = a.dict.hostNameNv
  | .adjustments, a, b => b.dict.adj = a.dict.adj
  | .tim, a, b => b.tim = a.tim
  | .web, a, b => b.web = a.web
  | .lck, a, b => b.lck = a.lck
  | .job, a, b => b.job = a.job
  | .mem, a, b => b.mem = a.mem
  | .cal, a, b => b.cal = a.cal
  | .jq, a, b => b.jq = a.jq
  | .links, a, b => b.links = a.links
  | .fire, a, b => b.fire = a.fire
  | .sup, a, b => b.sup = a.sup
  | .voi, a, b => b.voi = a.voi
  | .ins, a, b => b.ins = a.ins
  | .loop, a, b => b.loop = a.loop
  | .thm, a, b => b.thm = a.thm
  | .net, a, b => { b.net with partners := a.net.partners } = a.net
  | .can, a, b => { b.can with emcyQ := a.can.emcyQ } = a.can
  | .nvm, a, b => b.nvm = a.nvm

/-- The frame of a command: device state, authentication block and queue stay; so does every part but those listed; and
every object but those that `objs` names and the two counters of records that a full buffer drops (R356, R454). -/
def Touches (parts : List Part) (objs : Nat → Bool) (s t : State) : Prop :=
  t.ctl = s.ctl ∧ t.pending = s.pending ∧ (∀ p, p ∉ parts → samePart p s.w t.w) ∧
    ∀ k, objs k = false → k ≠ Obj.EVT_LOG_DROPPED → k ≠ Obj.NET_CAN_EMCY_LOST → getO t.w k = getO s.w k

/-- No object beyond those that delivery counts. -/
def noObj (_ : Nat) : Bool := false
/-- The objects listed. -/
def objsOf (l : List Nat) (k : Nat) : Bool := l.contains k

/-- The objects of some groups: the high bytes of their indices. -/
def objIn (groups : List Nat) (k : Nat) : Bool := groups.contains (k / 65536)

/-! ### The device state -/

/-- The rows of R437 between two named states. -/
def stateTable : List (DevState × DevState) :=
  [(.boot, .selftest), (.selftest, .calibrate), (.selftest, .thermalHold), (.calibrate, .discover), (.discover, .idle),
   (.discover, .safe), (.idle, .armed), (.idle, .service), (.service, .idle), (.armed, .printing), (.armed, .paused),
   (.printing, .paused), (.paused, .armed), (.armed, .idle), (.printing, .idle), (.paused, .idle), (.idle, .safe),
   (.armed, .safe), (.printing, .safe), (.paused, .safe), (.service, .safe), (.thermalHold, .safe), (.off, .safe),
   (.safe, .idle), (.safe, .thermalHold), (.thermalHold, .calibrate)]

/-- Whether R437 lets the device state go from one to the other: it stays, follows a row, or the device boots or loses
its power. -/
def stateChange (a b : DevState) : Bool := a == b || b == .boot || b == .off || stateTable.contains (a, b)

/-! ### Events -/

/-- No event waits for its sequence number. Every command leaves the block so. -/
def Quiet (s : State) : Prop := s.w.evt.raised = []

/-- DATA of the last event of a code (R450). -/
def lastData (s : State) (code : Nat) : Nat := mapGetD s.w.evt.lastData code 0

/-- Exactly one event was raised between two states: `code` with DATA `data`. -/
def Reports (s t : State) (code data : Nat) : Prop :=
  t.w.evt.seq = (s.w.evt.seq + 1) % 4294967296 ∧ lastData t code = data % 4294967296

/-- No event was raised between two states. -/
def Silent (s t : State) : Prop := t.w.evt.seq = s.w.evt.seq

/-! ### Writes -/

/-- The data bytes of a value of the object of key `k`, and its type code. -/
def valueBytes (k : Nat) (v : Int) : List Nat :=
  match objRow k with | some (r, _, _) => tyEncode (keyTy r k) v | none => []
def valueCode (k : Nat) : Nat :=
  match objRow k with | some (r, _, _) => tyCode (keyTy r k) | none => 0

/-- A check of R347 fails with a reason: AUTH_FAILED, AUTH_FAIL raised and shown, slots and counters left, and one failure
more that counts for 10 s; with seven others that count, a block of 60 s begins (R349). -/
def FailedCheck (reason source ix slot : Nat) (s : State) (x : Nat × State) : Prop :=
  x.1 = St.authFailed ∧ getO x.2.w Obj.SEC_LAST_FAIL = (ix * 65536 + source * 256 + reason * 16 + slot : Nat) ∧
    (∃ r, r ∈ x.2.w.evt.raised ∧ r.code = Ev.AUTH_FAIL) ∧ x.2.ctl.sec.slots = s.ctl.sec.slots ∧
    x.2.ctl.sec.ctr = s.ctl.sec.ctr ∧
    x.2.ctl.sec.fails = s.ctl.sec.fails.filter (fun e => s.w.clk < e) ++ [s.w.clk + secClk 10] ∧
    (7 ≤ (s.ctl.sec.fails.filter fun e => s.w.clk < e).length → x.2.ctl.sec.blockEnd = some (s.w.clk + secClk 60)) ∧
    ((s.ctl.sec.fails.filter fun e => s.w.clk < e).length < 7 → x.2.ctl.sec.blockEnd = none)

/-- The state on which steps 6 to 8 of R325 act, where a write passes steps 1 to 5. -/
def gateState (e : WriteEnv) (k ty : Nat) (bytes : List Nat) (s : State) : Option State :=
  match gate e (k / 256) (k % 256) ty bytes s with
  | .ok (u, _, _, _) => some u
  | .error _ => none

/-- A write of bytes to key `k` whose path is open, which passes steps 1 to 5, and which is no repetition that the store
of R336 answers: the state on which steps 6 to 8 act. -/
def passesAt (e : WriteEnv) (k ty : Nat) (bytes : List Nat) (s : State) : Option State :=
  match e.path with
  | .koa a reqId =>
    if koaUp s.w a.iface && (keptAnswer (dropOld s.w) a reqId (requestBytes e (k / 256) (k % 256) ty bytes)).isNone then
      gateState e k ty bytes { s with w := dropOld s.w }
    else none
  | .can => if sdoUp s.w then gateState e k 0 bytes s else none
  | .host => if hostServing s.w then gateState e k ty bytes s else none
  | .serge => if s.w.sys.voted then gateState e k ty bytes s else none

/-- The state as a command finds it, with no message of its own sent yet. -/
def fresh (s : State) : State := { s with w := { s.w with out := [] } }

/-- The same of a state before the command. -/
def passesTo (e : WriteEnv) (k ty : Nat) (bytes : List Nat) (s : State) : Option State := passesAt e k ty bytes (fresh s)

/-- A write of value `v` passes steps 1 to 5 and acts on `u`. -/
def Passes (e : WriteEnv) (k : Nat) (v : Int) (s u : State) : Prop :=
  passesTo e k (valueCode k) (valueBytes k v) s = some u

/-- Steps 6 and 7 of R325 leave a value as it is: the object takes it in the present state, it is a value of the type, and
no check changes it. -/
def unchangedBy (k : Nat) (v : Int) (source : Nat) (u : State) : Bool :=
  match objRow k with
  | some (r, n, o) =>
    !r.action && (stateRefuses u.ctl.mode u.w r n k).isNone && tyDecode (keyTy r k) (tyEncode (keyTy r k) v) == v &&
      decide (valueChecks source r n o k v u.w = (v, u.w))
  | none => false

end Sys2Proof.Machine
end

