-- ==== Sys2Proof/Certificates/Slice0/Obligations.lean ====
section
/-! DEFINITION. The statements for the provers. A clause says for every state and operand that meets its hypotheses what
the command answers; the frame of a command is said by `Touches`. -/

open Sys2Proof Sys2Proof.Machine

/-- The step runs the command at the front: on a queue that begins with `c`, a step is `exec c` on the state with the
queue's rest. -/
def Obligations.StepRunsFront : Prop :=
  ∀ (s : State) (c : Instr) (rest : List Instr), s.pending = c :: rest →
    step s = exec c { s with pending := rest }

/-- R370 (the clock of an empty queue is the model's choice, assumption 2): with nothing commanded one CLK_TS clock
passes. While the device is powered the addend enters the nanoseconds and their 28 fraction bits, and the seconds go on
when the nanoseconds reach 10^9. Besides the clock and the time only what keeps its own time moves on: the line clock's
times (R79, R80), the SYNC after an ALIGN set (R239) and, in the print states, the look-ahead shown (R105). -/
def Obligations.IdleClock : Prop :=
  ∀ s : State, s.pending = [] →
    ∃ t, step s = .next t ∧ t.w.clk = s.w.clk + 1 ∧ t.ctl = s.ctl ∧ t.pending = [] ∧
      (∀ k, (inPrint s.ctl.mode = true → k ≠ Obj.MEM_LA_ACTUAL ∧ k ≠ Obj.MEM_LA_MIN) → getO t.w k = getO s.w k) ∧
      (∀ p, p ∉ [Part.clk, .tim, .lck, .links] → samePart p s.w t.w) ∧
      (powered s.ctl.mode = false → t.w.tim = s.w.tim ∧ t.w.lck = s.w.lck ∧ t.w.links = s.w.links) ∧
      (powered s.ctl.mode = true → s.w.tim.ns < 1000000000 → getN s.w Obj.TIM_ADDEND ≤ 859852452 →
        s.w.tim.fracNs < 268435456 →
        t.w.tim.ns < 1000000000 ∧ t.w.tim.fracNs < 268435456 ∧
        (t.w.tim.sec = s.w.tim.sec →
          t.w.tim.ns * 268435456 + t.w.tim.fracNs =
            s.w.tim.ns * 268435456 + s.w.tim.fracNs + getN s.w Obj.TIM_ADDEND) ∧
        (t.w.tim.sec ≠ s.w.tim.sec → t.w.tim.sec = (s.w.tim.sec + 1) % 281474976710656 ∧
          (t.w.tim.ns + 1000000000) * 268435456 + t.w.tim.fracNs =
            s.w.tim.ns * 268435456 + s.w.tim.fracNs + getN s.w Obj.TIM_ADDEND))

/-- R350, R436, R443: the state after reset. The device is OFF, every key slot is empty, every voter passes nothing, no
event has been numbered or waits for its number, and the objects hold their defaults. -/
def Obligations.ResetState : Prop :=
  Quiet State.reset ∧ State.reset.ctl.mode = .off ∧ State.reset.pending = [] ∧ State.reset.ctl.sec.slots = [.empty, .empty, .empty, .empty] ∧
    State.reset.ctl.sec.ctr = [0, 0, 0, 0] ∧ State.reset.w.sup.outs = 0 ∧ State.reset.w.sys.voted = false ∧
    State.reset.w.sys.hostUp = false ∧ State.reset.w.evt.seq = 0 ∧ State.reset.w.evt.log = [] ∧
    State.reset.w.mem.items = [] ∧ State.reset.w.dict.fram = [] ∧ State.reset.w.dict.nor = [] ∧
    ∀ k, getO State.reset.w k = objDefault k ∧ getSh State.reset.w k = objDefault k

/-- Every command completes: it answers a next state, and leaves the queue to the step (the model's choice, assumption
3: a command whose condition does not hold has no effect). With their own effect, under conditions on the state and the
operands alone, complete: POWER_FAIL (R428), a rail's warning (R423) and fault (R424), POWER_SAVE_DONE (R429), VIN_OFF
(R432), REFCLK_FAIL and REFCLK_RETURN (R466), LIFE_COUNTER_RENEW (R430), THM_AUTO_RESUME_EXIT (R422), AVS_STEP (R425)
and BG_RENEW (R426). -/
def Obligations.CommandsComplete : Prop :=
  (∀ (c : Instr) (s : State), ∃ t, exec c s = .next t ∧ t.pending = s.pending) ∧
  (∀ (s : State) (mv : Nat), powered s.ctl.mode = true → s.w.thm.armed = true → (mv : Int) < getO s.w Obj.THM_PF_ACT →
    ∃ t, exec (.powerFail mv) s = .next t ∧ t.ctl.mode = .off ∧ t.w.sup.outs = 0 ∧ t.w.thm.saving = true) ∧
  (∀ (s : State) (r : Nat) (high : Bool) (mv : Nat), powered s.ctl.mode = true → r < 14 → r < s.w.thm.rails.length →
    (s.w.thm.rails.getD r 0 ≠ (if high then 2 else 1) →
      ∃ t, exec (.vmonCrossing r 1 high mv) s = .next t ∧ t.ctl = s.ctl ∧
        t.w.thm.rails.getD r 0 = (if high then 2 else 1)) ∧
    (s.w.thm.rails.getD r 0 ≠ 0 →
      ∃ t, exec (.vmonCrossing r 0 high mv) s = .next t ∧ t.ctl = s.ctl ∧ t.w.thm.rails.getD r 0 = 0) ∧
    (s.w.thm.rails.getD r 0 ≠ 3 → r ≠ 0 ∨ high = true → s.w.thm.armed = true →
      ∃ t, exec (.vmonCrossing r 2 high mv) s = .next t ∧ t.ctl.mode = .off ∧ t.w.sup.outs = 0)) ∧
  (∀ s : State, s.ctl.mode = .off →
    (s.w.thm.saving = true → ∃ t, exec .powerSaveDone s = .next t ∧ t.w.thm.saving = false ∧ t.w.dict.framWait = []) ∧
    (s.w.thm.saveMode = true → ∃ t, exec .vinOff s = .next t ∧ t.ctl.mode = .off ∧ t.w.thm.saveMode = false)) ∧
  (∀ s : State,
    (∃ t, exec .refclkFail s = .next t ∧ t.w.sys.refclk = false) ∧
    (∃ t, exec .refclkReturn s = .next t ∧ t.w.sys.refclk = true)) ∧
  (∀ s : State, powered s.ctl.mode = true →
    (∃ t, exec .lifeCounterRenew s = .next t ∧ getO t.w Obj.THM_LIFE_LINES = lifeLines s.w) ∧
    (∀ slack i, i < 16 → ∃ t, exec (.avsStep slack) s = .next t ∧
      getO t.w (Obj.THM_RO_SLACK i) = clampInt (-32768) 32767 (slack.getD i 0)) ∧
    (getF s.w Obj.THM_CFG 1 1 = 1 → s.w.thm.bgFrozen = false → (sensorAt s.w 0).hist ≠ [] →
      ∃ t, exec .bgRenew s = .next t ∧ getO t.w Obj.THM_BG_CORR =
        clampInt (getO s.w Obj.THM_BG_CORR - 50) (getO s.w Obj.THM_BG_CORR + 50) (bgTarget s.w)) ∧
    (s.ctl.mode = .thermalHold → getO s.w Obj.THM_AUTO_RESUME = 1 → (∀ x, x ∈ s.w.thm.sensors → x.broken = 0) →
      heldFor s.w s.w.thm.coolClk (secClk (getN s.w Obj.THM_RECOVER_S)) = true →
      ∃ t, exec .thmAutoResumeExit s = .next t ∧ t.ctl.mode = .calibrate ∧ t.ctl.prev = .thermalHold))

/-- R450: SEQ is assigned when an event is raised. From every state in which no event waits for its number, a step leads
to such a state. -/
def Obligations.EventsNumbered : Prop :=
  ∀ s t : State, Quiet s → step s = .next t → Quiet t

/-- R437: the device state changes only as its table allows: a step leaves it, or takes it along a row of the table, to
BOOT, or to OFF. -/
def Obligations.StateTable : Prop :=
  ∀ s t : State, step s = .next t → stateChange s.ctl.mode t.ctl.mode = true

/-- R350, R347: no step gives a revoked slot another key, or lets a slot's counter fall. -/
def Obligations.AuthenticationKept : Prop :=
  ∀ (s t : State) (i : Nat), step s = .next t →
    (s.ctl.sec.slots.getD i .empty = .revoked → t.ctl.sec.slots.getD i .empty = .revoked) ∧
    s.ctl.sec.ctr.getD i 0 ≤ t.ctl.sec.ctr.getD i 0

/-- The frames of the commands of the web and of the line clock: what they leave unchanged. -/
def Obligations.WebAndLineFrames : Prop :=
  ∀ (s t : State) (c : Instr), exec c s = .next t →
    ((∃ n x, c = .encEdge n x) ∨ (∃ n, c = .encIllegal n) ∨ (∃ n x, c = .encLoss n x) ∨
        (∃ n x y z, c = .encSignalReturn n x y z) ∨ (∃ n, c = .index n) ∨ c = .slipWindowEnd ∨
        (∃ n, c = .ssiTransferStart n) ∨ (∃ n x y z, c = .ssiTransferDone n x y z) ∨ (∃ n, c = .prbMissed n) →
      Touches [.web, .lck] (objIn [0x21]) s t) ∧
    (c = .overspeedWarn ∨ c = .overspeedWarnEnd ∨ c = .overspeedEnd ∨ c = .overspeedStop ∨ c = .overspeedStopRelease →
      Touches [.lck] (objsOf [Obj.SUP_STOP_SRC]) s t) ∧
    (c = .overspeed ∨ c = .halflineReturn → Touches [.lck, .jq, .links, .fire] noObj s t) ∧
    ((∃ r, c = .tableLoadDone r) → Touches [.jq] (objIn [0x25]) s t) ∧
    ((∃ p, c = .lineTxDone p) ∨ (∃ p, c = .idleEntryDelayEnd p) ∨ (∃ p, c = .idleExit p) →
      Touches [.fire, .links] (objIn [0x26]) s t) ∧
    (c = .compLate ∨ c = .compStarved →
      Touches [.mem] (objsOf [Obj.MEM_LA_ACTUAL, Obj.MEM_LA_MIN, Obj.SUP_STOP_SRC, Obj.SUP_DL_MISS 1]) s t) ∧
    (c = .jobEnd ∨ c = .frameSrcAbsentTick → Touches [.job] (objIn [0x20]) s t)

/-- The frames of the commands of the time, the links, inspection, Voile and the loop. -/
def Obligations.TimeLinkAndInspectFrames : Prop :=
  ∀ (s t : State) (c : Instr), exec c s = .next t →
    ((∃ m, c = .ptpSyncRx m) ∨ (∃ m, c = .ptpFollowUpRx m) ∨ (∃ m, c = .ptpDelayReqRx m) ∨ (∃ m, c = .ptpDelayRespRx m) ∨
        (∃ m x, c = .ptpPdelayReqRx m x) ∨ (∃ m, c = .ptpPdelayRespRx m) ∨ (∃ m, c = .ptpPdelayRespFollowUpRx m) ∨
        (∃ a, c = .ptpAnnounceRx a) ∨ c = .ptpIgnoredRx ∨ c = .ptpSyncSend ∨ c = .ptpAnnounceSend ∨
        c = .ptpDelayReqSend ∨ c = .ptpPdelayReqSend ∨ c = .announceTimeout ∨ c = .rateStep ∨ c = .timAnchor ∨
        c = .timNowSecRead →
      Touches [.tim] (objIn [0x29]) s t) ∧
    ((∃ i m, c = .trainingDone i m) ∨ (∃ i, c = .trainingTimeout i) ∨ (∃ i l, c = .alignSetRx i l) ∨
        (∃ e, c = .blockError e) ∨ (∃ i x, c = .linkLockLost i x) ∨ (∃ i, c = .enumStep i) ∨
        (∃ i x y, c = .latencyMeasured i x y) ∨ (∃ p, c = .chainEnd p) ∨ (∃ i x, c = .cameraEnum i x) ∨
        (∃ i x y z, c = .rspRx i x y z) ∨ (∃ p x y, c = .statusRx p x y) ∨ (∃ p x, c = .driverSilent p x) ∨
        (∃ i x, c = .cmdRespTimeout i x) ∨ (∃ i, c = .recoveryDone i) ∨ (∃ i x, c = .retuneTrial i x) ∨
        (∃ i x, c = .retuneTrialEnd i x) ∨ c = .yqlRwDataRead →
      Touches [.links, .fire] (objIn [0x26]) s t) ∧
    (c = .voiPwrRecoverStep ∨ c = .hrPeriodEnd ∨ (∃ x y, c = .voiUnverify x y) ∨ (∃ x y, c = .voiUnverified x y) ∨
        c = .whiteCaptureDone ∨ c = .whiteCaptureTimeout →
      Touches [.voi, .ins] (objIn [0x27]) s t) ∧
    (c = .insDark → Touches [.ins, .sys, .tables] (objIn [0x27]) s t) ∧
    ((∃ i x y z, c = .cameraLineRx i x y z) ∨ (∃ i, c = .camLineMissing i) →
      Touches [.links, .ins, .mem, .free] (objIn [0x26, 0x27]) s t) ∧
    (c = .windowRecordDone → Touches [.ins, .loop, .mem] (objIn [0x24, 0x27, 0x28, 0x2A]) s t) ∧
    ((∃ e, c = .loopUpdateDone e) → Touches [.loop, .jq, .tables] (objIn [0x28]) s t) ∧
    (c = .chlLate ∨ c = .loopFlushStart ∨ c = .loopFlushDone → Touches [.loop] (objIn [0x28, 0x2A]) s t)

/-- The frames of the commands of supervision, power, network and CAN FD. -/
def Obligations.SupervisionAndNetFrames : Prop :=
  ∀ (s t : State) (c : Instr), exec c s = .next t →
    ((∃ x, c = .coreReloadDone x) ∨ (∃ x, c = .coreProbationEnd x) ∨ c = .sergeRestartDone ∨ c = .stopInHigh ∨
        c = .hostWdSignal ∨ c = .hostWdTimeout ∨ c = .hostTrap ∨ (∃ n x, c = .supDeadline n x) ∨ c = .spareTestStart →
      Touches [.sup] (objIn [0x2A]) s t) ∧
    ((∃ e, c = .engineWdTimeout e) ∨ (∃ e, c = .engineRestartDone e) → Touches [.sup] (objIn [0x28, 0x2A]) s t) ∧
    ((∃ x y, c = .sliceRetestDone x y) ∨ (∃ x, c = .spareTestDone x) →
      Touches [.sup] (objsOf [Obj.JQ_SPARE, Obj.JQ_SLICE_OK]) s t) ∧
    (c = .govLimitRecover ∨ (∃ l, c = .avsStep l) ∨ c = .bgRenew → Touches [.thm] (objIn [0x2B]) s t) ∧
    (c = .govUnshed → Touches [.thm] (objIn [0x22, 0x24, 0x2B]) s t) ∧
    (c = .lifeCounterRenew → Touches [.thm, .stores] (objIn [0x2B]) s t) ∧
    ((∃ i, c = .helloSend i) ∨ (∃ n, c = .notifySend n) ∨ (∃ a x, c = .bulkResendTimeout a x) ∨ c = .bulkWindowReopen →
      Touches [.net] noObj s t) ∧
    ((∃ a k l d x y z v, c = .bulkOpenRx a k l d x y z v) ∨ (∃ a x y z v u, c = .bulkDataRx a x y z v u) ∨
        (∃ a x, c = .bulkIdleTimeout a x) →
      Touches [.net, .mem, .free] (objIn [0x24, 0x2E]) s t) ∧
    ((∃ n, c = .nmtStart n) ∨ (∃ n, c = .nmtStop n) ∨ (∃ n, c = .nmtEnterPreOperational n) ∨ c = .heartbeatProduce ∨
        c = .emcySend ∨ (∃ x y z, c = .canBus x y z) ∨ c = .canBusOffRecovery ∨ (∃ x, c = .sdoUploadSegment x) ∨
        c = .sdoAbortRx ∨ c = .sdoSegmentTimeout →
      Touches [.can] (objIn [0x10, 0x2E]) s t) ∧
    ((∃ n, c = .heartbeatRx n) ∨ (∃ i, c = .canHbLost i) → Touches [.can] (objsOf [Obj.SUP_STOP_SRC]) s t)

/-- R371, R376, R377, R381: what the time-keeping commands do. Reading TIM_NOW_SEC latches the three objects of one
instant, over KOA too, and a read of the other two returns what is latched; the 1 ms step puts a rate in force with the
addend of R370; an anchor latches its five objects and clears the request; while LOCKED the mean frequency goes to FRAM
every 600 s. -/
def Obligations.TimeKeeping : Prop :=
  ∀ s : State, powered s.ctl.mode = true →
    (∃ t, exec .timNowSecRead s = .next t ∧ getO t.w Obj.TIM_NOW_SEC = s.w.tim.sec ∧
      getO t.w Obj.TIM_NOW_NS = s.w.tim.ns ∧ getO t.w Obj.TIM_NOW_ET = nowEt s.w ∧
      Touches [] (objsOf [Obj.TIM_NOW_SEC, Obj.TIM_NOW_NS, Obj.TIM_NOW_ET]) s t) ∧
    (∀ f w', answers s.w (Obj.TIM_NOW_SEC / 256) = true →
      (readItem s.ctl (Obj.TIM_NOW_SEC / 256) (Obj.TIM_NOW_SEC % 256) f s.w).2.2.2 = w' →
      getO w' Obj.TIM_NOW_NS = s.w.tim.ns ∧ getO w' Obj.TIM_NOW_ET = nowEt s.w ∧
        objRead s.ctl w' Obj.TIM_NOW_NS f = s.w.tim.ns ∧ objRead s.ctl w' Obj.TIM_NOW_ET f = nowEt s.w ∧
        readFx Obj.TIM_NOW_NS w' = w' ∧ readFx Obj.TIM_NOW_ET w' = w') ∧
    (hostDown s.w = false → ∃ t, exec .rateStep s = .next t ∧ getO t.w Obj.TIM_ADDEND = addendOf t.w.tim.rate ∧
      getO t.w Obj.TIM_RATE_PPB = fracFloor t.w.tim.rate ∧ 858134466 ≤ getO t.w Obj.TIM_ADDEND ∧
      getO t.w Obj.TIM_ADDEND ≤ 859852452 ∧
      Touches [.tim] (objsOf [Obj.TIM_ADDEND, Obj.TIM_RATE_PPB, Obj.TIM_TC_PPB, Obj.TIM_TC_TEMP, Obj.TIM_PORT_STATE]) s t) ∧
    (s.w.tim.rolled = true →
      ∃ t, exec .timAnchor s = .next t ∧ getO t.w Obj.TIM_ANCHOR_SEC = s.w.tim.sec ∧
        getO t.w Obj.TIM_ANCHOR_NS = s.w.tim.ns ∧ getO t.w Obj.TIM_ANCHOR_ET = nowEt s.w ∧
        getO t.w Obj.TIM_ANCHOR_LINK = linkTime s.w ∧ getO t.w Obj.TIM_ANCHOR_POS = webPos s.w ∧
        t.w.tim.rolled = false ∧ (Quiet s → Reports s t Ev.TIM_ANCHOR s.w.tim.sec)) ∧
    (getN s.w Obj.TIM_SERVO = 2 → s.w.tim.freqClk + secClk 600 ≤ s.w.clk →
      ∃ t, exec .timFreqStore s = .next t ∧ getO t.w Obj.TIM_FREQ_STORED = fracFloor (yAvg s.w) ∧
        mapGet t.w.dict.fram Obj.TIM_FREQ_STORED = some (fracFloor (yAvg s.w)) ∧ t.w.tim.freqClk = s.w.clk)

/-- R33, R45: a counted edge moves its channel's count by one in its direction, wrapping in 48 bits, and the edge of the
active encoder moves the counted position by lines per count; R34: an illegal transition of a channel in a role is
counted.
R35: the loss of a signal of a monitored channel sets its LOSS flag, and the return of a lost signal clears it;
R37: the first index makes the count its reference, and a later one within the tolerance corrects the count (R38);
R41: a complete slip window leaves its signed difference and begins anew; R47: at standstill the speed is not valid. -/
def Obligations.EncoderEdgesAndSignals : Prop :=
  (∀ (s : State) (n : Nat), powered s.ctl.mode = true → n < 4 → n < s.w.web.enc.length → encDecodes s.w n = true →
    (∀ aLeads, ∃ t, exec (.encEdge n aLeads) s = .next t ∧
      (encAt t.w n).count = wrapSigned 48 ((encAt s.w n).count + encDir s.w n aLeads) ∧
      (n = s.w.web.active → s.w.web.lossInhibit = false → t.w.web.pos = s.w.web.pos + encDir s.w n aLeads * lpcOf s.w n)) ∧
    (encInRole s.w n = true → ∃ t, exec (.encIllegal n) s = .next t ∧
      getN t.w (Obj.WEB_ENC_ILLEGAL n) = (getN s.w (Obj.WEB_ENC_ILLEGAL n) + 1) % 4294967296 ∧
      (encAt t.w n).count = (encAt s.w n).count)) ∧
  (∀ s : State, powered s.ctl.mode = true →
    (∀ n sig, n < 4 → n < s.w.web.enc.length → sig < 3 → encNamed s.w n = true →
      bitOf (lossBits (encAt s.w n)) sig = false →
      ∃ t, exec (.encLoss n sig) s = .next t ∧ bitOf (lossBits (encAt t.w n)) sig = true) ∧
    (∀ n sig a b, n < 4 → n < s.w.web.enc.length → sig < 3 → bitOf (lossBits (encAt s.w n)) sig = true →
      ∃ t, exec (.encSignalReturn n sig a b) s = .next t ∧ bitOf (lossBits (encAt t.w n)) sig = false) ∧
    (∀ n, n < 4 → n < s.w.web.enc.length → getF s.w (Obj.WEB_ENC_CFG n) 3 1 = 1 → getN s.w (Obj.WEB_ENC_CPR n) ≠ 0 →
      (encAt s.w n).lossZ = false → encInRole s.w n = true → s.w.web.trk = .forward →
      ∃ t, exec (.index n) s = .next t ∧ getO t.w (Obj.WEB_ENC_IDX_COUNT n) = (encAt s.w n).count ∧
        ((encAt s.w n).refValid = false → (encAt t.w n).refValid = true ∧ (encAt t.w n).refCount = (encAt s.w n).count) ∧
        ((encAt s.w n).refValid = true →
          (indexDev (encAt s.w n).count (encAt s.w n).refCount (getN s.w (Obj.WEB_ENC_CPR n))).natAbs ≤
            getN s.w (Obj.WEB_ENC_IDX_TOL n) →
          indexDev (encAt s.w n).count (encAt s.w n).refCount (getN s.w (Obj.WEB_ENC_CPR n)) ≠ 0 →
          (encAt t.w n).count = wrapSigned 48 ((encAt s.w n).count -
            indexDev (encAt s.w n).count (encAt s.w n).refCount (getN s.w (Obj.WEB_ENC_CPR n))) ∧
          getN t.w (Obj.WEB_ENC_IDX_ADJ n) = (getN s.w (Obj.WEB_ENC_IDX_ADJ n) + 1) % 4294967296)) ∧
    (∀ a b m, s.w.web.slip = some (a, b) → encSec s.w = some m → getO s.w Obj.WEB_SLIP_WIN * 4294967296 ≤ a →
      ∃ t, exec .slipWindowEnd s = .next t ∧ t.w.web.slip = some (0, 0) ∧
        getO t.w Obj.WEB_SLIP_LAST = clampInt (-2147483648) 2147483647 (asr (b - a) 16)) ∧
    (standstillDue s.w = true →
      ∃ t, exec .webStandstill s = .next t ∧ t.w.web.standstill = true ∧ t.w.web.valid = false))

/-- R48, R53: an accepted latch of a probe without a window is counted, and its position and mark are kept; R51: a
window that ends waits for its decision, and a decision without an accepted latch counts a missed window. R55: an
accepted level of a switch is its bit of WEB_HSW_STATE; R58: WEB_SSI_CLK_ACT shows the clock of the smallest divider
that does not exceed the request; R59: a transfer latches ET and position as it starts; R60: one that fails counts an
error and leaves the value, a good one is the new value. -/
def Obligations.ProbesSwitchesAndSsi : Prop :=
  (∀ (s : State) (n : Nat), powered s.ctl.mode = true → n < 8 → n < s.w.web.prb.length →
    (∀ rising, bitOf (getN s.w (Obj.WEB_PRB_CFG n)) 0 = true →
      bitOf (getN s.w (Obj.WEB_PRB_CFG n)) (if rising then 1 else 2) = true → winOn s.w n = false →
      s.w.web.trk = .forward → (prbAt s.w n).lastPos = none →
      ∃ t, exec (.probeEdge n rising) s = .next t ∧
        getN t.w (Obj.WEB_PRB_ACCEPTED n) = (getN s.w (Obj.WEB_PRB_ACCEPTED n) + 1) % 4294967296 ∧
        getO t.w (Obj.WEB_PRB_POS n) = latchPos s.w (prbDelay5 s.w n) ∧
        getO t.w (Obj.WEB_PRB_MARK n) = posDiff (latchPos s.w (prbDelay5 s.w n)) (getO s.w (Obj.WEB_PRB_OFFSET n)) ∧
        (prbAt t.w n).lastPos = some (latchPos s.w (prbDelay5 s.w n))) ∧
    (winOn s.w n = true → (prbAt s.w n).armed = true → winEnded s.w n = true →
      ∃ t, exec (.prbWindowClose n) s = .next t ∧
        (prbAt t.w n).closed = (prbAt s.w n).closed ++
          [{ start := winVal s.w n 0, stop := winVal s.w n 1, clk := s.w.clk, accepted := (prbAt s.w n).accepted,
             extra := (prbAt s.w n).extraRaised }] ∧
        (prbAt t.w n).accepted = false) ∧
    (∀ c, (prbAt s.w n).closed = [c] → c.accepted = false → c.clk + prbTd s.w n ≤ s.w.clk →
      ∃ t, exec (.prbMissed n) s = .next t ∧ (prbAt t.w n).closed = [] ∧
        getN t.w (Obj.WEB_PRB_MISSED n) = (getN s.w (Obj.WEB_PRB_MISSED n) + 1) % 4294967296)) ∧
  (∀ (s : State) (n : Nat), powered s.ctl.mode = true →
    (∀ high pos et, n < 4 → bitOf (getN s.w (Obj.WEB_HSW_CFG n)) 0 = true →
      bitOf (getN s.w Obj.WEB_HSW_STATE) n ≠ (high == bitOf (getN s.w (Obj.WEB_HSW_CFG n)) 1) →
      ∃ t, exec (.hswChange n high pos et) s = .next t ∧
        getN t.w Obj.WEB_HSW_STATE =
          setBit (getN s.w Obj.WEB_HSW_STATE) n (high == bitOf (getN s.w (Obj.WEB_HSW_CFG n)) 1)) ∧
    (∀ hz, n < 2 → getN s.w (Obj.WEB_SSI_CLK_HZ n) = hz → 100000 ≤ hz → hz ≤ 10000000 →
      ∃ d, 16 ≤ d ∧ d ≤ 1563 ∧ 156250000 ≤ d * hz ∧ (∀ d', 16 ≤ d' → 156250000 ≤ d' * hz → d ≤ d') ∧
        ∀ f, objRead s.ctl s.w (Obj.WEB_SSI_CLK_ACT n) f = ((312500000 + d) / (2 * d) : Nat)) ∧
    (n < 2 → n < s.w.web.ssi.length → getF s.w (Obj.WEB_SSI_CFG n) 0 1 = 1 → (ssiAt s.w n).busy = none →
      (ssiAt s.w n).lastStart = none →
      ∃ t, exec (.ssiTransferStart n) s = .next t ∧ (ssiAt t.w n).busy = some (nowEt s.w, webPos s.w)) ∧
    (∀ raw err et pos, n < 2 → n < s.w.web.ssi.length → (ssiAt s.w n).busy = some (et, pos) →
      (∃ t, exec (.ssiTransferDone n raw false err) s = .next t ∧ (ssiAt t.w n).busy = none ∧
        getN t.w (Obj.WEB_SSI_ERRORS n) = (getN s.w (Obj.WEB_SSI_ERRORS n) + 1) % 4294967296 ∧
        getO t.w (Obj.WEB_SSI_VALUE n) = getO s.w (Obj.WEB_SSI_VALUE n)) ∧
      (getF s.w (Obj.WEB_SSI_CFG n) 1 1 = 0 → getF s.w (Obj.WEB_SSI_CFG n) 2 1 = 0 →
        getN s.w (Obj.WEB_SSI_MAX_DELTA n) = 0 → raw + 1 < 2 ^ getF s.w (Obj.WEB_SSI_CFG n) 8 8 →
        ∃ t, exec (.ssiTransferDone n raw true err) s = .next t ∧ getO t.w (Obj.WEB_SSI_VALUE n) = raw ∧
          getO t.w (Obj.WEB_SSI_ET n) = et)))

/-- R43, R56, R67: LINE_COMMIT. A line of a row under the inhibit of a switch, once its target is reached, is marked and
not fired, and the row moves on; a line whose target is reached while the speed is not valid is committed late, at the
earliest fire time of its port, and counted in LCK_LATE. -/
def Obligations.LineCommits : Prop :=
  ∀ (s : State) (r : Nat), inPrint s.ctl.mode = true → r < 16 → r < s.w.lck.rows.length → s.w.web.trk = .forward →
    s.w.sys.pausePending = false → s.w.lck.hlWant = none → s.w.web.wI = none →
    targetReached s.w (target64 s.w r (rowAt s.w r).next) = true →
    ((rowAt s.w r).inhibited = 2 →
      ∃ t, exec (.lineCommit r) s = .next t ∧
        (rowAt t.w r).next = nextRowLine s.w r (rowAt s.w r).next ∧ (rowAt t.w r).lastFire = (rowAt s.w r).lastFire) ∧
    ((rowAt s.w r).inhibited = 0 → s.w.web.valid = false →
      ∃ t, exec (.lineCommit r) s = .next t ∧
        (rowAt t.w r).lastFire = some (fracAdd (timerFrac s.w) (fracI (leadNs s.w (r / 2)))) ∧
        getN t.w Obj.LCK_LATE = (getN s.w Obj.LCK_LATE + 1) % 4294967296)

/-- R76, R77: in every powered state an overspeed episode begins with the first row at or above its threshold and ends
when every row is below it; R79: a row still above its threshold after LCK_OVS_STOP_LINES fired lines requests web stop:
the request of overspeed is bit 0 of SUP_STOP_SRC, released after 100 ms below 100 %; R80: after the hold time below the
return threshold the switch back to 1200 lpi is wanted or placed. -/
def Obligations.OverspeedEpisodes : Prop :=
  ∀ s : State, powered s.ctl.mode = true →
    (∀ r, s.w.lck.warnRow = none → rowAbove s.w (getO s.w Obj.LCK_OVS_WARN_PCT) = some r →
      ∃ t, exec .overspeedWarn s = .next t ∧ t.w.lck.warnRow = some r ∧ (Quiet s → Reports s t Ev.OVERSPEED_WARN 1)) ∧
    (∀ r, s.w.lck.warnRow = some r → rowAbove s.w (getO s.w Obj.LCK_OVS_WARN_PCT - 2) = none →
      ∃ t, exec .overspeedWarnEnd s = .next t ∧ t.w.lck.warnRow = none ∧ (Quiet s → Reports s t Ev.OVERSPEED_WARN 0)) ∧
    (∀ r, s.w.lck.overRow = none → rowAbove s.w 100 = some r →
      ∃ t, exec .overspeed s = .next t ∧ t.w.lck.overRow = some r) ∧
    (rowAbove s.w 100 = none → ∃ t, exec .overspeedEnd s = .next t ∧ t.w.lck.overRow = none) ∧
    (∀ r, ((List.range 16).find? fun r =>
        decide (getN s.w Obj.LCK_OVS_STOP_LINES ≤ (rowAt s.w r).stopRun) && aboveStop s.w r) = some r →
      inPrint s.ctl.mode = true → s.w.lck.stopReq = false →
      ∃ t, exec .overspeedStop s = .next t ∧ t.w.lck.stopReq = true ∧
        getN t.w Obj.SUP_STOP_SRC = setBit (getN s.w Obj.SUP_STOP_SRC) 0 true) ∧
    (∀ c, rowAbove s.w 100 = none → s.w.lck.belowSince = some c → s.w.lck.stopReq = true → c + msClk 100 ≤ s.w.clk →
      ∃ t, exec .overspeedStopRelease s = .next t ∧ t.w.lck.stopReq = false ∧
        getN t.w Obj.SUP_STOP_SRC = setBit (getN s.w Obj.SUP_STOP_SRC) 0 false) ∧
    (∀ c, inPrint s.ctl.mode = true → s.w.lck.hl600 = true → (nextSet s.w 0).res600 = true →
      getO s.w Obj.LCK_RES_MODE = 2 → belowReturn s.w = true → s.w.lck.returnSince = some c →
      c + msClk (getN s.w Obj.LCK_HL_HOLD_MS) ≤ s.w.clk →
      ∃ t, exec .halflineReturn s = .next t ∧ t.w.lck.returnSince = none ∧
        (t.w.lck.hlWant = some false ∨ t.w.lck.hl600 = false))

/-- R86, R92: the set-up instant of a boundary of the count gives its frame the next number and sequence number;
R85: the frame begins at the composition point; R89: FRAME_MARK of kind 4 each second without a source; R92: the end of
the job. -/
def Obligations.FrameSequence : Prop :=
  ∀ s : State, inPrint s.ctl.mode = true →
    (∀ b, s.w.job.bounds.find? (!·.isSetUp) = some b → posReached s.w (linePos (b.w - 128)) = true → b.virt = false →
      pausing s.ctl.mode s.w = false → s.w.job.commit = false → comingProbeSrc s.w = false → s.w.job.count ≠ some 0 →
      ∃ t, exec .setupInstant s = .next t ∧ t.w.job.lastNo = s.w.job.lastNo % 4294967295 + 1 ∧
        getN t.w Obj.JOB_VD_SEQ_NEXT = (getN s.w Obj.JOB_VD_SEQ_NEXT + 1) % 4294967296) ∧
    (∀ b rest, s.w.job.bounds = b :: rest → b.isSetUp = true → posReached s.w (linePos b.w) = true → b.virt = false →
      b.noSrc = false → b.starts = true →
      ∃ t, exec .frameStart s = .next t ∧ t.w.job.bounds = rest ∧
        ∃ f, f ∈ t.w.job.frames ∧ f.no = b.no ∧ f.wB = b.w ∧ f.wEnd = b.wEnd ∧ f.done = false) ∧
    (s.w.job.noSrc = true → s.w.job.noSrcClk + secClk 1 ≤ s.w.clk →
      ∃ t, exec .frameSrcAbsentTick s = .next t ∧ t.w.job.noSrcClk = s.w.clk ∧
        (Quiet s → Reports s t Ev.FRAME_MARK (4 * 268435456))) ∧
    (∀ f, s.w.job.frames.find? (·.last) = some f → posReached s.w (linePos f.wEnd) = true → Quiet s →
      ∃ t, exec .jobEnd s = .next t ∧ Reports s t Ev.JOB_END f.no)

/-- R103, R105: the front line opens once the web has reached 2n − 128; when it is done the front advances by one line and
the next waits.
R105, R106: COMP_LATE latches its condition while A is below 2,048; COMP_STARVED latches starvation after 2,048 lines
of web travel, and requests web stop through bit 1 of SUP_STOP_SRC where MEM_LA_STOP asks for it. -/
def Obligations.CompositionAndLookAhead : Prop :=
  (∀ s : State, inPrint s.ctl.mode = true →
    (posReached s.w (linePos (2 * s.w.mem.front - 128)) = true →
      ∃ t, exec .composeLineStart s = .next t ∧ t.w.mem.lineOpen = true ∧ t.w.mem.front = s.w.mem.front ∧
        Touches [.mem] noObj s t) ∧
    (s.w.mem.lineOpen = true →
      ∃ t, exec .composeLineDone s = .next t ∧ t.w.mem.front = s.w.mem.front + 1 ∧ t.w.mem.lineOpen = false)) ∧
  (∀ s : State, inPrint s.ctl.mode = true →
    (lookActual s.w < 2048 →
      ∃ t, exec .compLate s = .next t ∧ t.w.mem.lateRaised = true ∧
        getO t.w Obj.MEM_LA_ACTUAL = clampInt (-2147483648) 2147483647 (lookActual s.w)) ∧
    (∀ p, lookActual s.w < 64 → s.w.mem.starveFrom = some p → 2048 * 65536 ≤ posDiff (webPos s.w) p →
      s.w.mem.starved = false →
      ∃ t, exec .compStarved s = .next t ∧ t.w.mem.starved = true ∧
        (getB s.w Obj.MEM_LA_STOP = true → getN t.w Obj.SUP_STOP_SRC = setBit (getN s.w Obj.SUP_STOP_SRC) 1 true)))

/-- R114 to R116: a corrected and an uncorrectable error count in the counter of their memory and leave their area; a
scrub pass that has taken MEM_SCRUB_HOURS counts, and where it meets no struck word it leaves everything else. -/
def Obligations.EccCounters : Prop :=
  ∀ s : State, powered s.ctl.mode = true →
    (∀ area addr, area ≤ 6 →
      ∃ t, exec (.memCe area addr) s = .next t ∧ getO t.w Obj.MEM_ECC_LAST_AREA = area ∧
        (area < 5 → getN t.w Obj.MEM_ECC_CE = (getN s.w Obj.MEM_ECC_CE + 1) % 4294967296) ∧
        (5 ≤ area → getN t.w Obj.MEM_SRAM_CE = (getN s.w Obj.MEM_SRAM_CE + 1) % 4294967296) ∧
        Touches [.mem] (objsOf [Obj.MEM_ECC_LAST_AREA, Obj.MEM_ECC_LAST_ADDR, Obj.MEM_ECC_CE, Obj.MEM_SRAM_CE]) s t) ∧
    (∀ area addr unit line, area ≤ 6 →
      ∃ t, exec (.memUe area addr unit line) s = .next t ∧ getO t.w Obj.MEM_ECC_LAST_AREA = area ∧
        (area < 5 → getN t.w Obj.MEM_ECC_UE = (getN s.w Obj.MEM_ECC_UE + 1) % 4294967296) ∧
        (5 ≤ area → getN t.w Obj.MEM_SRAM_UE = (getN s.w Obj.MEM_SRAM_UE + 1) % 4294967296)) ∧
    (s.w.mem.scrubClk + secClk (3600 * getN s.w Obj.MEM_SCRUB_HOURS) ≤ s.w.clk →
      (∀ e, e ∈ s.w.mem.struck → e.area = 1 ∨ 4 < e.area) →
      (inPrint s.ctl.mode && s.w.web.standstill && s.w.jq.bars.any (·.noSlice)) = false →
      ∃ t, exec .scrubPassDone s = .next t ∧
        getN t.w Obj.MEM_SCRUB_PASSES = (getN s.w Obj.MEM_SCRUB_PASSES + 1) % 4294967296 ∧ t.w.mem.scrubClk = s.w.clk ∧
        Touches [.mem] (objsOf [Obj.MEM_SCRUB_PASSES]) s t)

/-- R178, R202: a pass whose front has reached the boundary of another set takes that set; otherwise it prepares its
front line and moves to the row's next. R203: a table load that ends leaves no load and its longest time. -/
def Obligations.BarPasses : Prop :=
  ∀ (s : State) (r : Nat), r < 16 → r / 2 < s.w.jq.bars.length → r % 2 < (barAt s.w (r / 2)).passes.length →
    (inPrint s.ctl.mode = true → (barAt s.w (r / 2)).halt = false → (barAt s.w (r / 2)).noSlice = false →
      (passAt s.w (r / 2) (r % 2)).load = none → passRoom s.w (r / 2) (r % 2) = true →
      (((setFor s.w (r / 2) (passAt s.w (r / 2) (r % 2)).front).wB ≠ (passAt s.w (r / 2) (r % 2)).setB ∨
          (setFor s.w (r / 2) (passAt s.w (r / 2) (r % 2)).front).tag ≠ (passAt s.w (r / 2) (r % 2)).tag) →
        ∃ t, exec (.barLinePrepare r) s = .next t ∧
          (passAt t.w (r / 2) (r % 2)).setB = (setFor s.w (r / 2) (passAt s.w (r / 2) (r % 2)).front).wB ∧
          (passAt t.w (r / 2) (r % 2)).tag = (setFor s.w (r / 2) (passAt s.w (r / 2) (r % 2)).front).tag ∧
          (passAt t.w (r / 2) (r % 2)).front = (passAt s.w (r / 2) (r % 2)).front) ∧
      ((setFor s.w (r / 2) (passAt s.w (r / 2) (r % 2)).front).wB = (passAt s.w (r / 2) (r % 2)).setB →
        (setFor s.w (r / 2) (passAt s.w (r / 2) (r % 2)).front).tag = (passAt s.w (r / 2) (r % 2)).tag →
        ckptRoom s.w (r / 2) (r % 2) (nextRowLine s.w r (passAt s.w (r / 2) (r % 2)).front) = true →
        ∃ t, exec (.barLinePrepare r) s = .next t ∧
          (passAt t.w (r / 2) (r % 2)).front = nextRowLine s.w r (passAt s.w (r / 2) (r % 2)).front)) ∧
    (∀ c, (passAt s.w (r / 2) (r % 2)).load = some c →
      ∃ t, exec (.tableLoadDone r) s = .next t ∧ (passAt t.w (r / 2) (r % 2)).load = none ∧
        getO t.w (Obj.JQ_LOAD_US (r / 2)) =
          max (getO s.w (Obj.JQ_LOAD_US (r / 2))) (min 65535 (clkUs (s.w.clk - c)) : Nat))

/-- R411, R412, R416, R421, R423: a sensor poll while the throttle condition stands and no sensor is or becomes broken.
With every reading below its SHUTDOWN threshold the readings in use and the corrected rail voltages are renewed; with one
at or above it the device shuts down: it is in BOOT with the hold flag and a journal record of kind 2.
R415: a sensor whose diagnostic reports an open or a short, or whose reading lies outside −40 °C to 150 °C, is broken;
one broken so is restored after 10 s in which none of this holds; the reading in use of a broken sensor is its THROTTLE
threshold + 1 °C (R411). -/
def Obligations.SensorPolls : Prop :=
  (∀ (s : State) (raws : List Int) (diags mv : List Nat), powered s.ctl.mode = true → s.w.thm.throttle = true →
    s.w.thm.sensors.length = 26 →
    (∀ n, n < 26 → (sensorAt s.w n).broken = 0 ∧ brokenKind (raws.getD n 0) (diags.getD n 0) = 0 ∧
      stuck s.w raws n = false) →
    ((∀ n, n < 26 → raws.getD n 0 + getO s.w (Obj.THM_XOFS n) < getO s.w (Obj.THM_SHUTDOWN n)) →
      ∃ t, exec (.thmSensorPoll raws diags mv) s = .next t ∧ t.ctl = s.ctl ∧ getO t.w Obj.THM_BROKEN = 0 ∧
        (∀ n, n < 26 → getO t.w (Obj.THM_TEMP n) = raws.getD n 0 + getO s.w (Obj.THM_XOFS n)) ∧
        ∀ r, r < 14 → r < mv.length → getO t.w (Obj.VMON_MV r) = bgCorrect s.w (mv.getD r 0)) ∧
    ((∃ n, n < 26 ∧ getO s.w (Obj.THM_SHUTDOWN n) ≤ raws.getD n 0 + getO s.w (Obj.THM_XOFS n)) →
      s.ctl.mode ≠ .thermalHold → s.w.sys.standby = false →
      ∃ t, exec (.thmSensorPoll raws diags mv) s = .next t ∧ t.ctl.mode = .boot ∧ t.ctl.prev = s.ctl.mode ∧
        t.w.sys.holdFlag = true ∧ t.w.thm.journal.head?.map (fun r => (r.kind, r.reason)) = some (2, 1))) ∧
  (∀ (w : World) (raws : List Int) (diags : List Nat) (n : Nat), n < w.thm.sensors.length →
    ((sensorAt w n).broken = 0 ∨ (sensorAt w n).broken = 4 → brokenKind (raws.getD n 0) (diags.getD n 0) ≠ 0 →
      (sensorAt (judgeSensor raws diags w n) n).broken = brokenKind (raws.getD n 0) (diags.getD n 0) ∧
      inUse (judgeSensor raws diags w n) n = getO w (Obj.THM_THROTTLE n) + 16) ∧
    (∀ c, 1 ≤ (sensorAt w n).broken → (sensorAt w n).broken ≤ 3 → brokenKind (raws.getD n 0) (diags.getD n 0) = 0 →
      (sensorAt w n).goodClk = some c →
      (c + secClk 10 ≤ w.clk → (sensorAt (judgeSensor raws diags w n) n).broken = 0 ∧
        inUse (judgeSensor raws diags w n) n = raws.getD n 0 + getO w (Obj.THM_XOFS n)) ∧
      (w.clk < c + secClk 10 → (sensorAt (judgeSensor raws diags w n) n).broken = (sensorAt w n).broken)) ∧
    (∀ k, k ≠ n → sensorAt (judgeSensor raws diags w n) k = sensorAt w k))

/-- R417, R419, R420: GOV_EVAL takes the input power; at or below the limit the level stays; above it, after 500 ms at a
level, the next level is taken, and at level 4 the ceiling is lowered.
R418, R419: the power limit. While a throttle condition holds it falls by THM_STEP_W every THM_STEP_S; a step that
would take it below 24 W shuts the device down instead; with every sensor cool for THM_RECOVER_S it rises by a step, to
THM_PLIM_W at most; a margin held for 10 s undoes one of levels 3, 2 and 1. -/
def Obligations.PowerGovernor : Prop :=
  (∀ (s : State) (pin : Nat), powered s.ctl.mode = true →
    (((min 65535 pin : Nat) : Int) ≤ getO s.w Obj.THM_PLIM_EFF →
      ∃ t, exec (.govEval pin) s = .next t ∧ getN t.w Obj.THM_P_IN = min 65535 pin ∧
        Touches [.thm] (objsOf [Obj.THM_P_IN]) s t) ∧
    (getO s.w Obj.THM_PLIM_EFF < ((min 65535 pin : Nat) : Int) → s.w.thm.levelClk + msClk 500 ≤ s.w.clk →
      (getN s.w Obj.THM_SHED_LEVEL < 3 →
        ∃ t, exec (.govEval pin) s = .next t ∧ getN t.w Obj.THM_P_IN = min 65535 pin ∧ t.ctl = s.ctl ∧
          getN t.w Obj.THM_SHED_LEVEL = getN s.w Obj.THM_SHED_LEVEL + 1 ∧ t.w.thm.levelClk = s.w.clk ∧
          getN t.w Obj.LCK_CEIL_HZ = getN s.w Obj.LCK_CEIL_HZ) ∧
      (getN s.w Obj.THM_SHED_LEVEL = 3 →
        ∃ t, exec (.govEval pin) s = .next t ∧ getN t.w Obj.THM_SHED_LEVEL = 4 ∧ t.ctl = s.ctl ∧
          t.w.thm.lowerClk = s.w.clk ∧
          getN t.w Obj.LCK_CEIL_HZ = max (getN s.w Obj.THM_CEIL_MIN_HZ)
            (min (getN s.w Obj.LCK_CEIL_HZ) (frowHz s.w) * (100 - getN s.w Obj.THM_CEIL_STEP_PCT) / 100)))) ∧
  (∀ s : State, powered s.ctl.mode = true →
    (s.w.thm.throttle = true → s.w.thm.stepClk + secClk (getN s.w Obj.THM_STEP_S) ≤ s.w.clk → onlyBroken s.w = false →
      (240 ≤ getO s.w Obj.THM_PLIM_EFF - 10 * getO s.w Obj.THM_STEP_W →
        ∃ t, exec .govLimitStep s = .next t ∧ t.ctl = s.ctl ∧ t.w.thm.stepClk = s.w.clk ∧
          getO t.w Obj.THM_PLIM_EFF = getO s.w Obj.THM_PLIM_EFF - 10 * getO s.w Obj.THM_STEP_W) ∧
      (getO s.w Obj.THM_PLIM_EFF - 10 * getO s.w Obj.THM_STEP_W < 240 → s.ctl.mode ≠ .thermalHold →
        s.w.sys.standby = false →
        ∃ t, exec .govLimitStep s = .next t ∧ t.ctl.mode = .boot ∧ t.w.sys.holdFlag = true ∧
          t.w.thm.journal.head?.map (fun r => (r.kind, r.reason)) = some (2, 3))) ∧
    (∀ c, s.w.thm.coolClk = some c → s.w.thm.throttle = false → getO s.w Obj.THM_PLIM_EFF < getO s.w Obj.THM_PLIM_W →
      max c s.w.thm.riseClk + secClk (getN s.w Obj.THM_RECOVER_S) ≤ s.w.clk →
      ∃ t, exec .govLimitRecover s = .next t ∧ t.w.thm.riseClk = s.w.clk ∧
        getO t.w Obj.THM_PLIM_EFF =
          min (getO s.w Obj.THM_PLIM_W) (getO s.w Obj.THM_PLIM_EFF + 10 * getO s.w Obj.THM_STEP_W) ∧
        Touches [.thm] (objsOf [Obj.THM_PLIM_EFF]) s t) ∧
    (∀ c, 1 ≤ getN s.w Obj.THM_SHED_LEVEL → getN s.w Obj.THM_SHED_LEVEL ≤ 3 → s.w.thm.marginClk = some c →
      c + secClk 10 ≤ s.w.clk → s.w.thm.undoClk + secClk 10 ≤ s.w.clk →
      ∃ t, exec .govUnshed s = .next t ∧ getN t.w Obj.THM_SHED_LEVEL = getN s.w Obj.THM_SHED_LEVEL - 1 ∧
        t.w.thm.undoClk = s.w.clk ∧ t.w.thm.levelClk = s.w.clk))

/-- R422: with THM_AUTO_RESUME, no sensor broken and every reading cool for THM_RECOVER_S the device leaves THERMAL_HOLD
for CALIBRATE. R425: the slack of the 16 oscillators is kept and VCORE moves by 5 mV within 700 mV to 800 mV, or stands
at 800 mV: before CALIBRATE, with AVS_EN at 0, and with every oscillator left out. R426: a renewal moves the reference
correction by at most 50 ppm towards its target. -/
def Obligations.ResumeAndCompensation : Prop :=
  ∀ s : State,
    (s.ctl.mode = .thermalHold → getO s.w Obj.THM_AUTO_RESUME = 1 → (∀ x, x ∈ s.w.thm.sensors → x.broken = 0) →
      heldFor s.w s.w.thm.coolClk (secClk (getN s.w Obj.THM_RECOVER_S)) = true →
      ∃ t, exec .thmAutoResumeExit s = .next t ∧ t.ctl.mode = .calibrate ∧ t.ctl.prev = .thermalHold ∧
        t.w.sys.holdFlag = false ∧ getN t.w Obj.SUP_STOP_SRC = setBit (getN s.w Obj.SUP_STOP_SRC) 8 false) ∧
    (∀ slack, powered s.ctl.mode = true →
      ∃ t, exec (.avsStep slack) s = .next t ∧
        (∀ i, i < 16 → getO t.w (Obj.THM_RO_SLACK i) = clampInt (-32768) 32767 (slack.getD i 0)) ∧
        (leastSlack slack = none ∨ s.w.thm.avsOn = false ∨ getF s.w Obj.THM_CFG 2 1 = 0 →
          getO t.w Obj.THM_VCORE_MV = 800) ∧
        (∀ i x, leastSlack slack = some (i, x) → s.w.thm.avsOn = true → getF s.w Obj.THM_CFG 2 1 ≠ 0 →
          (x < getO s.w Obj.THM_AVS_MARGIN →
            getO t.w Obj.THM_VCORE_MV = min 800 (getO s.w Obj.THM_VCORE_MV + 5)) ∧
          (getO s.w Obj.THM_AVS_MARGIN + 20 < x →
            getO t.w Obj.THM_VCORE_MV = max 700 (getO s.w Obj.THM_VCORE_MV - 5)) ∧
          (getO s.w Obj.THM_AVS_MARGIN ≤ x → x ≤ getO s.w Obj.THM_AVS_MARGIN + 20 →
            getO t.w Obj.THM_VCORE_MV = getO s.w Obj.THM_VCORE_MV)) ∧
        Touches [.thm] (objsOf (Obj.THM_VCORE_MV :: Obj.THM_AVS_STEPS :: (List.range 16).map Obj.THM_RO_SLACK)) s t) ∧
    (powered s.ctl.mode = true →
      ∃ t, exec .bgRenew s = .next t ∧ Touches [] (objsOf [Obj.THM_BG_CORR]) s t ∧
        getO t.w Obj.THM_BG_CORR = (if getF s.w Obj.THM_CFG 1 1 = 0 then 0
          else if s.w.thm.bgFrozen = true ∨ (sensorAt s.w 0).hist = [] then getO s.w Obj.THM_BG_CORR
          else clampInt (getO s.w Obj.THM_BG_CORR - 50) (getO s.w Obj.THM_BG_CORR + 50) (bgTarget s.w)))

/-- R254 to R256: training that ends takes the preset of the highest margin on every lane where the port adapts, and
sends SYNC, RESET_ADDR, the first ENUM and, where the port adapts, a MARGIN command for each preset; one that does not
end within 20 ms takes the link down; a retuning trial, 10 s after the last, moves one lane to a neighbouring preset;
after 1 s it is kept where its margin rose by 4, and undone in a gap where it did not. R252, R253, R261: discovery. Each
step asks for the next address, and for address 15 behind the eighth driver; an answer from the address asked for joins
the chain; a chain without an answer for 30 ms, or with an excess driver, is up with its length; the sum of 64 round
trips, less the device's own delays, gives a driver its round-trip time; a camera that answers is up with its serial and
checked against the profile. -/
def Obligations.LinkTrainingAndDiscovery : Prop :=
  (∀ (s : State) (i : Nat), i < 24 → i < s.w.links.length →
    (∀ margins, (linkAt s.w i).st = .training →
      ∃ t, exec (.trainingDone i margins) s = .next t ∧ (linkAt t.w i).st = .enumerating ∧
        (linkAt t.w i).drivers = [] ∧ (linkAt t.w i).enumAddr = 1 ∧
        (16 ≤ i ∨ (portAt s.w i).idle = false →
          t.w.out = [.sync i (syncTime (trainedAlign s.w i) i), .yql i 0 8 (((linkAt s.w i).tag + 1) % 256) 0 [],
              .yql i 0 1 (((linkAt s.w i).tag + 2) % 256) 1 []] ++
            (if bitOf (linkCfg s.w i) 2 then
              (List.range 16).map fun k => .yql i 1 11 (((linkAt s.w i).tag + 3 + k) % 256) 0 [] else [])) ∧
        (linkAt t.w i).presets = ((if bitOf (linkCfg s.w i) 2 then margins.map bestPreset
          else List.replicate 6 (field (linkCfg s.w i) 4 4)) ++ List.replicate 6 0).take 6) ∧
    ((linkAt s.w i).st = .training → (linkAt s.w i).startClk + msClk 20 ≤ s.w.clk →
      ∃ t, exec (.trainingTimeout i) s = .next t ∧ (linkAt t.w i).st = .down ∧
        Touches [.links] noObj s t ∧ (Quiet s → Reports s t Ev.YQL_LINK_DOWN 6)) ∧
    (∀ margin, (linkAt s.w i).st = .up → bitOf (linkCfg s.w i) 1 = true → (linkAt s.w i).trial = none →
      (linkAt s.w i).trialClk + secClk 10 ≤ s.w.clk → presetGap s.w i = true →
      ∃ t r, exec (.retuneTrial i margin) s = .next t ∧ (linkAt t.w i).trial = some r ∧ r.margin = margin ∧
        r.preset = (linkAt s.w i).presets.getD r.lane 0 ∧ r.clk = s.w.clk ∧ Touches [.links] noObj s t) ∧
    (∀ margin r, (linkAt s.w i).trial = some r → r.clk + secClk 1 ≤ s.w.clk →
      r.margin + 4 ≤ margin ∨ presetGap s.w i = true →
      ∃ t, exec (.retuneTrialEnd i margin) s = .next t ∧ (linkAt t.w i).trial = none ∧
        (linkAt t.w i).presets =
          (if r.margin + 4 ≤ margin then (linkAt s.w i).presets else (linkAt s.w i).presets.set r.lane r.preset))) ∧
  (∀ s : State,
    (∀ i, i < 24 → i < s.w.links.length → (linkAt s.w i).st = .enumerating →
      ∃ t, exec (.enumStep i) s = .next t ∧
        (linkAt t.w i).enumAddr = (if (linkAt s.w i).drivers.length < 8 then (linkAt s.w i).drivers.length + 1 else 15) ∧
        (16 ≤ i ∨ (portAt s.w i).idle = false →
          t.w.out = [.yql i 0 1 (((linkAt s.w i).tag + 1) % 256) (linkAt t.w i).enumAddr []] ∧
          Touches [.links] noObj s t)) ∧
    (∀ p addr id, p < 16 → p < s.w.links.length → (linkAt s.w p).st = .enumerating → (linkAt s.w p).enumAddr = addr →
      (addr = (linkAt s.w p).drivers.length + 1 → addr ≠ 15 →
        ∃ t, exec (.driverEnum p addr id) s = .next t ∧
          (linkAt t.w p).drivers.map (·.serial) = (linkAt s.w p).drivers.map (·.serial) ++ [id.serial] ∧
          t.ctl = s.ctl) ∧
      (addr = 15 → ∃ t, exec (.driverEnum p addr id) s = .next t ∧ (linkAt t.w p).excess = true ∧
        (linkAt t.w p).drivers = (linkAt s.w p).drivers ∧ Touches [.links] noObj s t)) ∧
    (∀ p, p < 16 → p < s.w.links.length → (linkAt s.w p).st = .enumerating →
      (linkAt s.w p).answerClk + msClk 30 ≤ s.w.clk ∨ (linkAt s.w p).excess = true →
      ∃ t, exec (.chainEnd p) s = .next t ∧ (linkAt t.w p).st = .up ∧
        getN t.w (Obj.YQL_CHAIN_LEN p) = (linkAt s.w p).drivers.length) ∧
    (∀ i addr sum, i < 24 → i < s.w.links.length → 1 ≤ addr → addr ≤ (linkAt s.w i).drivers.length →
      ∃ t, exec (.latencyMeasured i addr sum) s = .next t ∧
        ((linkAt t.w i).drivers[addr - 1]?).bind (·.rtt) =
          some (roundDiv ((sum : Int) - 64 * (linkAt s.w i).ownPs) 8000).toNat) ∧
    (∀ c id, c < 8 → 16 + c < s.w.links.length → (linkAt s.w (16 + c)).st = .enumerating →
      ∃ t, exec (.cameraEnum c id) s = .next t ∧ (linkAt t.w (16 + c)).st = .up ∧
        getN t.w (Obj.YQL_CAM_SERIAL c) = id.serial ∧
        (linkAt t.w (16 + c)).noProf = ((id.heads.headD (0, 0)).2 != getN s.w Obj.YQL_CPF_CODE) ∧
        Touches [.links] (objsOf [Obj.YQL_CAM_SERIAL c]) s t))

/-- R235, R237, R250, R258: what a link loses. A set of ALIGN blocks that matches does nothing, one whose lanes do not
is a deskew failure; this, the loss of block lock or clock and a driver silent for YQL_STATUS_TO_US take a link that is
up into recovery; a link that trains or enumerates is down when its lock is lost; an invalid block counts, and inside a
line frame of a camera it spoils that line. -/
def Obligations.LinkLosses : Prop :=
  ∀ (s : State) (i : Nat), i < 24 → i < s.w.links.length →
    (∀ lanes seq lo, (∀ e, e ∈ lanes.zip (List.range lanes.length) →
        e.1.1 = e.2 ∧ e.1.2.1 = seq ∧ lo ≤ e.1.2.2 ∧ e.1.2.2 ≤ lo + 200) →
      ∃ t, exec (.alignSetRx i lanes) s = .next t ∧ Touches [] noObj s t ∧ (Quiet s → Silent s t)) ∧
    (∀ lanes e, (linkAt s.w i).st = .up → e ∈ lanes.zip (List.range lanes.length) → e.1.1 ≠ e.2 →
      ∃ t, exec (.alignSetRx i lanes) s = .next t ∧ (linkAt t.w i).st = .recovering ∧
        (linkAt t.w i).startClk = s.w.clk ∧ Touches [.links] noObj s t) ∧
    (∀ inFrame, ∃ t, exec (.blockError { link := i, inFrame := inFrame }) s = .next t ∧
      (linkAt t.w i).badFrame = ((linkAt s.w i).badFrame || inFrame && decide (16 ≤ i)) ∧
      (linkAt t.w i).errAt = ((linkAt s.w i).errAt.filter fun c => s.w.clk < c + secClk 1) ++ [s.w.clk] ∧
      (i < 16 → getN t.w (Obj.YQL_RET_ERRORS i) = (getN s.w (Obj.YQL_RET_ERRORS i) + 1) % 4294967296)) ∧
    (∀ clock, (linkAt s.w i).st = .up →
      ∃ t, exec (.linkLockLost i clock) s = .next t ∧ (linkAt t.w i).st = .recovering ∧
        (linkAt t.w i).startClk = s.w.clk ∧ Touches [.links] noObj s t ∧
        (Quiet s → Reports s t Ev.YQL_LINK_DOWN (if clock then 3 else 1))) ∧
    (∀ clock, (linkAt s.w i).st = .training ∨ (linkAt s.w i).st = .enumerating →
      ∃ t, exec (.linkLockLost i clock) s = .next t ∧ (linkAt t.w i).st = .down) ∧
    (∀ addr d, i < 16 → 1 ≤ addr → (linkAt s.w i).drivers[addr - 1]? = some d →
      d.statusClk + usClk (getN s.w Obj.YQL_STATUS_TO_US) ≤ s.w.clk → (linkAt s.w i).st = .up →
      ∃ t, exec (.driverSilent i addr) s = .next t ∧ (linkAt t.w i).st = .recovering ∧ Touches [.links] noObj s t)

/-- R258 to R261: the end of recovery. Once every driver has reported SYNC_DIFF within ±1 the link is up; a recovery of
YQL_RECOVER_MS takes the port down: in PRINTING bit 3 of SUP_STOP_SRC is set for a head port, a camera departs, and the
device goes on; in ARMED and PAUSED it returns to IDLE; an arrival is refused and kept in PRINTING, discovered at once
elsewhere, and takes ARMED and PAUSED to IDLE. -/
def Obligations.RecoveryAndArrival : Prop :=
  ∀ (s : State) (i : Nat), i < 24 → i < s.w.links.length →
    ((linkAt s.w i).st = .recovering →
      (i < 16 → ∀ k, k < (linkAt s.w i).drivers.length → (k + 1) ∈ (linkAt s.w i).reported) →
      ∃ t, exec (.recoveryDone i) s = .next t ∧ (linkAt t.w i).st = .up ∧ (linkAt t.w i).reported = [] ∧
        (i < 16 → getN t.w (Obj.YQL_RETRAINS i) = (getN s.w (Obj.YQL_RETRAINS i) + 1) % 4294967296)) ∧
    (recoveryOver s.w i = true →
      (s.ctl.mode = .printing → 16 ≤ i →
        ∃ t, exec (.recoveryTimeout i) s = .next t ∧ t.ctl = s.ctl ∧ (linkAt t.w i).st = .down ∧
          (linkAt t.w i).drivers = [] ∧ Touches [.links] noObj s t) ∧
      (s.ctl.mode = .printing → i < 16 →
        ∃ t, exec (.recoveryTimeout i) s = .next t ∧ t.ctl = s.ctl ∧ (linkAt t.w i).st = .down ∧
          (linkAt t.w i).portDown = true ∧ (linkAt t.w i).drivers = (linkAt s.w i).drivers ∧
          getN t.w Obj.SUP_STOP_SRC = setBit (getN s.w Obj.SUP_STOP_SRC) 3 true) ∧
      (s.ctl.mode = .armed ∨ s.ctl.mode = .paused →
        ∃ t, exec (.recoveryTimeout i) s = .next t ∧ t.ctl.mode = .idle ∧ t.ctl.prev = s.ctl.mode)) ∧
    (∀ serial, arrivalPossible s.w i = true → getO s.w Obj.YQL_HOTPLUG_EN ≠ 0 →
      (s.ctl.mode = .printing →
        ∃ t, exec (.hotplugArrival i serial) s = .next t ∧ (linkAt t.w i).arrival = some serial ∧
          Touches [.links] noObj s t ∧ (Quiet s → Reports s t Ev.YQL_HOTPLUG_REFUSED serial)) ∧
      (s.ctl.mode = .idle ∨ s.ctl.mode = .service →
        ∃ t, exec (.hotplugArrival i serial) s = .next t ∧ (linkAt t.w i).st = .enumerating ∧
          Touches [.links] noObj s t) ∧
      (s.ctl.mode = .armed ∨ s.ctl.mode = .paused →
        ∃ t, exec (.hotplugArrival i serial) s = .next t ∧ t.ctl.mode = .idle ∧ t.ctl.prev = s.ctl.mode))

/-- R247 to R250: what travels on a link. A response completes the command of its TAG; a command without one is sent
again with its TAG, in a gap between line frames, and after three more tries given up and counted; a line that a driver
reports failed counts once per port; a status word is kept with its time. R219, R226, R257: a transmission that ends
releases its line of the FIFO; a port to which no line is coming enters electrical idle FIR_IDLE_US after its last
transmission, and leaves it 2 µs before the next predicted start. -/
def Obligations.LinkTrafficAndIdle : Prop :=
  (∀ (s : State) (i : Nat), i < 24 → i < s.w.links.length →
    (∀ tag c value, (linkAt s.w i).cmds.find? (fun c => c.tag == tag) = some c → c.op = 4 →
      ∃ t, exec (.rspRx i tag 0 value) s = .next t ∧ getO t.w Obj.YQL_RW_RESULT = 0 ∧
        getN t.w Obj.YQL_RW_DATA = value % 4294967296 ∧
        (linkAt t.w i).cmds = (linkAt s.w i).cmds.filter (fun x => x.tag != tag) ∧
        Touches [.links] (objsOf [Obj.YQL_RW_RESULT, Obj.YQL_RW_DATA]) s t) ∧
    (∀ tag c, (linkAt s.w i).cmds.find? (fun c => c.tag == tag) = some c → c.waiting = false →
      c.clk + usClk (getN s.w Obj.YQL_RESP_TO_US) ≤ s.w.clk →
      (c.tries < 4 →
        ∃ t, exec (.cmdRespTimeout i tag) s = .next t ∧
          t.w.out = (if lanesBusy s.w i then [] else [.yql i c.addr c.op c.tag c.arg c.data]) ∧
          Touches [.links] noObj s t) ∧
      (4 ≤ c.tries → i < 16 → inPrint s.ctl.mode = false →
        ∃ t, exec (.cmdRespTimeout i tag) s = .next t ∧
          (linkAt t.w i).cmds = (linkAt s.w i).cmds.filter (fun x => x.tag != tag) ∧
          getN t.w (Obj.YQL_CMD_TIMEOUTS i) = (getN s.w (Obj.YQL_CMD_TIMEOUTS i) + 1) % 4294967296)) ∧
    (∀ row result line, i < 16 → row < 2 → result < 8 →
      ∃ t, exec (.lineFailRx i row result line) s = .next t ∧
        getN t.w (Obj.YQL_LINE_FAILS i) = (getN s.w (Obj.YQL_LINE_FAILS i) +
          if (linkAt s.w i).fails.contains (row, line) then 0 else 1) % 4294967296) ∧
    (∀ addr word d, i < 16 → 1 ≤ addr → (linkAt s.w i).drivers[addr - 1]? = some d →
      ∃ t, exec (.statusRx i addr word) s = .next t ∧
        ((linkAt t.w i).drivers[addr - 1]?).map (fun d => (d.status, d.statusClk)) = some (word, s.w.clk)) ∧
    (i < 16 → getN s.w Obj.YQL_RW_PORT = i →
      ∃ t, exec .yqlRwDataRead s = .next t ∧ (linkAt t.w i).tag = ((linkAt s.w i).tag + 1) % 256 ∧
        (∃ c, (linkAt t.w i).cmds = (linkAt s.w i).cmds ++ [c] ∧ c.op = 4 ∧ c.arg = field (getN s.w Obj.YQL_RW_ADDR) 0 28 ∧
          c.addr = field (getN s.w Obj.YQL_RW_ADDR) 28 4))) ∧
  (∀ (s : State) (p : Nat), p < 16 → p < s.w.fire.length →
    (∀ x rest, (portAt s.w p).tx = x :: rest → x.row < (portAt s.w p).fifo.length →
      ∃ t, exec (.lineTxDone p) s = .next t ∧ (portAt t.w p).tx = rest ∧ (portAt t.w p).endClk = s.w.clk ∧
        fifoOf t.w p x.row = (fifoOf s.w p x.row).filter fun e => x.x < e.x) ∧
    (idleAllowed s.w p = true → nextStart s.w p = none →
      (portAt s.w p).endClk + usClk (getN s.w (Obj.FIR_IDLE_US p)) ≤ s.w.clk →
      ∃ t, exec (.idleEntryDelayEnd p) s = .next t ∧ (portAt t.w p).idle = true ∧
        getN t.w (Obj.FIR_IDLE_ENTRIES p) = (getN s.w (Obj.FIR_IDLE_ENTRIES p) + 1) % 4294967296 ∧
        Touches [.fire] (objsOf [Obj.FIR_IDLE_ENTRIES p]) s t) ∧
    (∀ x, (portAt s.w p).idle = true → nextStart s.w p = some x →
      fracLe x (fracAdd (timerFrac s.w) (fracI 2000)) = true →
      ∃ t, exec (.idleExit p) s = .next t ∧ (portAt t.w p).idle = false ∧
        t.w.out = [.sync p ((linkTime s.w + 1301) % 281474976710656)] ∧ Touches [.fire, .links] noObj s t))

/-- R385 to R387: a Serge cycle. An output runs while at least two cores in service demand it; a core in service that
differs from the agreeing pair is outvoted; with no agreeing pair the voters latch, the outputs are safe, the cores
restart and the device enters SAFE, or in the start-up states keeps the cause; with fewer than two cores in service no
output runs. R387, R388, R391: what follows. A core that has reloaded is on probation, and votes again after 1,024
cycles in agreement; the restart of the cores leaves the latch; STOP_IN_N low forces the outputs safe and takes the
device to SAFE, and its return alone leaves the force. -/
def Obligations.SergeVoting : Prop :=
  (∀ (s : State) (res : List (Option (Nat × Nat))), powered s.ctl.mode = true → s.w.sys.voted = true →
    s.w.sup.restart = false →
    (∀ pair, 2 ≤ votingCores s.w → agreedPair s.w res = some pair →
      ∃ t, exec (.sergeCycle res) s = .next t ∧ t.ctl = s.ctl ∧ t.w.sup.latch = s.w.sup.latch ∧
        (∀ i, i < 25 → bitOf t.w.sup.outs i = decide (2 ≤ ((List.range 3).filter fun c =>
          (coreAt s.w c).st == .voting && match res.getD c none with
            | some r => bitOf (demand s.ctl.mode s.w) i != bitOf r.1 i
            | none => false).length)) ∧
        (∀ c, c < 3 → c < s.w.sup.cores.length → (coreAt s.w c).st = .voting →
          (coreAt t.w c).st = (if outReason pair (res.getD c none) = 0 then .voting
            else if getN s.w Obj.SUP_OUTVOTE_MAX <
              ((coreAt s.w c).outAt.filter fun x => s.w.clk < x + secClk 3600).length + 1 then .out else .reloading))) ∧
    (2 ≤ votingCores s.w → agreedPair s.w res = none →
      ∃ t, exec (.sergeCycle res) s = .next t ∧ t.w.sup.latch = true ∧ t.w.sup.outs = 0 ∧ t.w.sup.restart = true ∧
        bitOf (getN t.w Obj.SUP_STOP_SRC) 7 = true ∧
        (safeFrom s.ctl.mode = true → t.ctl.mode = .safe ∧ t.ctl.prev = s.ctl.mode) ∧
        (startUp s.ctl.mode = true → t.ctl = s.ctl ∧ t.w.sup.safePending = true)) ∧
    (votingCores s.w < 2 →
      ∃ t, exec (.sergeCycle res) s = .next t ∧ t.w.sup.outs = 0 ∧ Touches [.sup] noObj s t)) ∧
  (∀ s : State,
    (∀ c, c < 3 → c < s.w.sup.cores.length → (coreAt s.w c).st = .reloading → s.w.sup.restart = false →
      ∃ t, exec (.coreReloadDone c) s = .next t ∧ (coreAt t.w c).st = .probation ∧ (coreAt t.w c).agree = 0 ∧
        Touches [.sup] noObj s t) ∧
    (∀ c, c < 3 → c < s.w.sup.cores.length → (coreAt s.w c).st = .probation → 1024 ≤ (coreAt s.w c).agree →
      ∃ t, exec (.coreProbationEnd c) s = .next t ∧ (coreAt t.w c).st = .voting ∧ Touches [.sup] noObj s t ∧
        (Quiet s → Reports s t Ev.SUP_CORE_RETURN 1)) ∧
    (s.w.sup.restart = true →
      ∃ t, exec .sergeRestartDone s = .next t ∧ t.w.sup.restart = false ∧ t.w.sup.latch = s.w.sup.latch ∧
        (∀ x, x ∈ t.w.sup.cores → x.st = .voting ∨ x.st = .out) ∧ Touches [.sup] noObj s t) ∧
    (s.w.sup.stopLow = false → powered s.ctl.mode = true → s.w.sys.voted = true →
      ∃ t, exec .stopInLow s = .next t ∧ t.w.sup.stopLow = true ∧ t.w.sup.force = true ∧
        getO t.w Obj.SUP_LAST_CAUSE = 1 ∧
        (getF s.w Obj.SUP_CFG 0 1 = 0 → bitOf (getN t.w Obj.SUP_STOP_SRC) 5 = true) ∧
        (safeFrom s.ctl.mode = true → t.ctl.mode = .safe ∧ t.ctl.prev = s.ctl.mode)) ∧
    (∃ t, exec .stopInHigh s = .next t ∧ t.w.sup.stopLow = false ∧ t.w.sup.force = s.w.sup.force ∧
      Touches [.sup] noObj s t))

/-- R395, R397: the host core. A watchdog signal in the last three quarters of the window keeps it; an earlier one, none
by the window's end and a trap are failures: fewer than SUP_HOST_RESTART_MAX within 600 s restart it, the next one holds
it out and stops the web; after a restart it serves again. R395, R398, R408: the restarts that end, the analysis engines
and the deadlines. An engine that misses its watchdog stops serving, for good on the third failure within 600 s, and
serves again after its restart; a checkpoint or Sync that is late counts in its deadline. -/
def Obligations.HostEnginesAndDeadlines : Prop :=
  (∀ s : State, hostServing s.w = true →
    (msClk (getN s.w Obj.SUP_HOST_WD_MS) ≤ 4 * (s.w.clk - s.w.sup.hostClk) →
      ∃ t, exec .hostWdSignal s = .next t ∧ t.w.sup.hostClk = s.w.clk ∧ Touches [.sup] noObj s t) ∧
    (∀ c : Instr, (c = .hostWdSignal ∧ 4 * (s.w.clk - s.w.sup.hostClk) < msClk (getN s.w Obj.SUP_HOST_WD_MS)) ∨
        (c = .hostWdTimeout ∧ s.w.sup.hostClk + msClk (getN s.w Obj.SUP_HOST_WD_MS) ≤ s.w.clk) ∨ c = .hostTrap →
      ((recent600 s.w s.w.sup.hostFails).length + 1 < getN s.w Obj.SUP_HOST_RESTART_MAX →
        ∃ t, exec c s = .next t ∧ t.ctl = s.ctl ∧ getO t.w Obj.SUP_HOST_STATE = 1 ∧ t.w.sup.hostClk = s.w.clk ∧
          t.w.sup.hostFails = recent600 s.w s.w.sup.hostFails ++ [s.w.clk] ∧
          getN t.w Obj.SUP_HOST_RESTARTS = (getN s.w Obj.SUP_HOST_RESTARTS + 1) % 4294967296) ∧
      (getN s.w Obj.SUP_HOST_RESTART_MAX ≤ (recent600 s.w s.w.sup.hostFails).length + 1 →
        ∃ t, exec c s = .next t ∧ t.ctl = s.ctl ∧ getO t.w Obj.SUP_HOST_STATE = 2 ∧
          getN t.w Obj.SUP_STOP_SRC = setBit (getN s.w Obj.SUP_STOP_SRC) 9 true))) ∧
  (∀ s : State,
    (getO s.w Obj.SUP_HOST_STATE = 1 → (∀ b, b ∈ s.w.net.bulkIn → b.closing = none) →
      ∃ t, exec .hostRestartDone s = .next t ∧ getO t.w Obj.SUP_HOST_STATE = 0 ∧ t.w.sup.hostClk = s.w.clk ∧
        Touches [.sup] (objsOf [Obj.SUP_HOST_STATE]) s t) ∧
    (∀ e, e < 2 → e < s.w.sup.engines.length → powered s.ctl.mode = true →
      ((s.w.sup.engines.getD e Engine.reset).serving = true →
        ∃ t, exec (.engineWdTimeout e) s = .next t ∧ t.ctl = s.ctl ∧
          (t.w.sup.engines.getD e Engine.reset).serving = false ∧
          (t.w.sup.engines.getD e Engine.reset).out =
            decide (2 ≤ (recent600 s.w (s.w.sup.engines.getD e Engine.reset).fails).length) ∧
          getN t.w (Obj.SUP_DL_MISS 6) = (getN s.w (Obj.SUP_DL_MISS 6) + 1) % 4294967296) ∧
      ((s.w.sup.engines.getD e Engine.reset).serving = false → (s.w.sup.engines.getD e Engine.reset).out = false →
        ∃ t, exec (.engineRestartDone e) s = .next t ∧ t.ctl = s.ctl ∧
          (t.w.sup.engines.getD e Engine.reset).serving = true)) ∧
    (∀ us, powered s.ctl.mode = true →
      (∃ t, exec (.supDeadline 3 us) s = .next t ∧ t.ctl = s.ctl ∧
        getN t.w Obj.SUP_CKPT_LATE = (getN s.w Obj.SUP_CKPT_LATE + 1) % 4294967296 ∧
        getN t.w (Obj.SUP_DL_MISS 2) = (getN s.w (Obj.SUP_DL_MISS 2) + 1) % 4294967296) ∧
      (∃ t, exec (.supDeadline 6 us) s = .next t ∧ t.ctl = s.ctl ∧
        getN t.w (Obj.SUP_DL_MISS 5) = (getN s.w (Obj.SUP_DL_MISS 5) + 1) % 4294967296)))

/-- R399, R402, R403: the failure of a bar's slice with the web moving. Where a spare and a checkpoint exist the spare
takes the bar, which halts until the spare delivers its first line; otherwise the bar has no slice and web stop is
requested. A stall is such a failure and a miss of deadline 7.
R406, R407: a replaced slice that passes its test, with fewer failures than SUP_SLICE_FAIL_MAX, is the spare; the
spare is tested every SUP_SPARE_TEST_MIN, and a test it fails takes it out of JQ_SLICE_OK. -/
def Obligations.SliceFailover : Prop :=
  (∀ (s : State) (b : Nat), b < 8 → b < s.w.jq.bars.length → inPrint s.ctl.mode = true → s.w.web.standstill = false →
    (∀ c : Instr, (∃ tables, c = .sliceInternalFault b tables) ∨ (c = .sliceStall b ∧ stalled s.w b = true) →
      (barAt s.w b).noSlice = false →
      ((barAt s.w b).halt = false → spareOk s.w = true → (newestCkpt (barAt s.w b)).isSome = true →
        ∃ t, exec c s = .next t ∧ t.ctl = s.ctl ∧ (barAt t.w b).halt = true ∧
          getN t.w (Obj.JQ_BAR_SLICE b) = getN s.w Obj.JQ_SPARE ∧ getN t.w Obj.JQ_SPARE = 255 ∧
          getN t.w Obj.SUP_SWITCHES = (getN s.w Obj.SUP_SWITCHES + 1) % 4294967296) ∧
      (spareOk s.w = false →
        ∃ t, exec c s = .next t ∧ t.ctl = s.ctl ∧ (barAt t.w b).noSlice = true ∧
          getN t.w Obj.SUP_STOP_SRC = setBit (getN s.w Obj.SUP_STOP_SRC) 6 true)) ∧
    ((barAt s.w b).halt = true →
      ∃ t, exec (.switchoverDone b) s = .next t ∧ (barAt t.w b).halt = false ∧
        getN t.w Obj.SUP_SWITCH_US = min 65535 (clkUs (s.w.clk - s.w.sup.swClk.getD b 0)) ∧
        Touches [.jq] (objsOf [Obj.SUP_SWITCH_US]) s t)) ∧
  (∀ s : State,
    (∀ slice pass, slice < 9 → (s.w.sup.retest.any fun e => e.1 == slice) = true →
      (pass = true → s.w.sup.sliceFails.getD slice 0 < getN s.w Obj.SUP_SLICE_FAIL_MAX →
        ∃ t, exec (.sliceRetestDone slice pass) s = .next t ∧ getN t.w Obj.JQ_SPARE = slice ∧
          getN t.w Obj.JQ_SLICE_OK = setBit (getN s.w Obj.JQ_SLICE_OK) slice true ∧ t.w.sup.spareClk = s.w.clk ∧
          Touches [.sup] (objsOf [Obj.JQ_SPARE, Obj.JQ_SLICE_OK]) s t) ∧
      (pass = false →
        ∃ t, exec (.sliceRetestDone slice pass) s = .next t ∧ Touches [.sup] noObj s t ∧
          t.w.sup.retest = s.w.sup.retest.filter (fun e => e.1 != slice))) ∧
    (0 < getN s.w Obj.SUP_SPARE_TEST_MIN → bitOf (getN s.w Obj.SUP_CFG) 1 = false → spareOk s.w = true →
      s.w.sup.spareTest = none → s.w.sup.spareClk + secClk (60 * getN s.w Obj.SUP_SPARE_TEST_MIN) ≤ s.w.clk →
      ∃ t, exec .spareTestStart s = .next t ∧ t.w.sup.spareTest = some s.w.clk ∧ t.w.sup.spareClk = s.w.clk ∧
        Touches [.sup] noObj s t) ∧
    (s.w.sup.spareTest.isSome = true →
      (∃ t, exec (.spareTestDone true) s = .next t ∧ t.w.sup.spareTest = none ∧ Touches [.sup] noObj s t) ∧
      (∃ t, exec (.spareTestDone false) s = .next t ∧ t.w.sup.spareTest = none ∧
        getN t.w Obj.JQ_SLICE_OK = setBit (getN s.w Obj.JQ_SLICE_OK) (getN s.w Obj.JQ_SPARE) false ∧
        Touches [.sup] (objsOf [Obj.JQ_SLICE_OK]) s t)))

/-- R267, R268: the slots of a scan. Before a scan runs one slot leads in, in which the TRIG of its first slot goes out.
Slots 0 to 6 are followed by the next one; the scan ends after slot 7, or after slot 8 where it has a dark slot, and the
next number follows. R290: what waits for a step point takes effect before slot 0. -/
def Obligations.ScanSlots : Prop :=
  ∀ (s : State) (m : SlotMeas), scanning s.ctl.mode s.w = true →
    (s.w.ins.taken = false → getF s.w Obj.VOI_CFG 0 1 = 1 →
      ∃ t, exec (.scanSlot m) s = .next t ∧ t.ctl = s.ctl ∧ t.w.ins.taken = true ∧
        t.w.ins.slot = s.w.ins.slot ∧ t.w.ins.scan = s.w.ins.scan) ∧
    (s.w.ins.taken = true → s.w.ins.slot ≤ 6 →
      (s.w.ins.slot = 0 → s.w.ins.apply = true → getF s.w Obj.VOI_CFG 0 1 = 1) →
      ∃ t, exec (.scanSlot m) s = .next t ∧ t.ctl = s.ctl ∧ t.w.ins.slot = s.w.ins.slot + 1 ∧
        t.w.ins.scan = s.w.ins.scan ∧ t.w.ins.ringLine = s.w.ins.ringLine + 1) ∧
    (∀ l, s.w.ins.taken = true → s.w.ins.slot = 7 → s.w.ins.lines.getLast? = some l →
      ∃ t, exec (.scanSlot m) s = .next t ∧ t.ctl = s.ctl ∧
        t.w.ins.slot = (if l.dark then 8 else 0) ∧
        t.w.ins.scan = (if l.dark then s.w.ins.scan else (s.w.ins.scan + 1) % 4294967296)) ∧
    (s.w.ins.taken = true → s.w.ins.slot = 8 →
      ∃ t, exec (.scanSlot m) s = .next t ∧ t.ctl = s.ctl ∧ t.w.ins.slot = 0 ∧
        t.w.ins.scan = (s.w.ins.scan + 1) % 4294967296)

/-- R274, R275, R277, R278: the loops of Voile. At the end of a period the duty rises by 4 below the target − 100 mV and
falls by 1 above the target + 100 mV; below 90 % of the power limit for 1 s the global current rises by one code in 64
scans; a pair not measured for VOI_VERIFY_MS is UNVERIFIED, and is reported every VOI_UNVER_MS. -/
def Obligations.VoileLoops : Prop :=
  ∀ s : State,
    (∀ m, scanning s.ctl.mode s.w = true → getN s.w Obj.VOI_HR_PERIOD ≤ s.w.voi.hrScans → s.w.voi.vMin = some m →
      bitOf (insN s.w Obj.VOI_CFG) 2 = true →
      ∃ t, exec .hrPeriodEnd s = .next t ∧ t.w.voi.hrScans = 0 ∧ t.w.voi.vMin = none ∧
        getN t.w Obj.VOI_VMIN_MV = min 40000 m ∧
        getO t.w Obj.VOI_HR_DUTY = clampInt 0 (getO s.w Obj.VOI_HR_MAX)
          (if (m : Int) < getO s.w Obj.VOI_HR_TARGET_MV - 100 then getO s.w Obj.VOI_HR_DUTY + 4
           else if getO s.w Obj.VOI_HR_TARGET_MV + 100 < (m : Int) then getO s.w Obj.VOI_HR_DUTY - 1
           else getO s.w Obj.VOI_HR_DUTY) ∧
        Touches [.voi] (objsOf [Obj.VOI_VMIN_MV, Obj.VOI_HR_DUTY]) s t) ∧
    (∀ c, scanning s.ctl.mode s.w = true → s.w.voi.belowClk = some c → c + secClk 1 ≤ s.w.clk → 64 ≤ s.w.voi.sinceRise →
      getO s.w Obj.VOI_I_GLB_EFF < insV s.w Obj.VOI_I_GLB →
      ∃ t, exec .voiPwrRecoverStep s = .next t ∧ getO t.w Obj.VOI_I_GLB_EFF = getO s.w Obj.VOI_I_GLB_EFF + 1 ∧
        t.w.voi.sinceRise = 0 ∧ Touches [.voi] (objsOf [Obj.VOI_I_GLB_EFF]) s t) ∧
    (∀ k c, k < 8 → c < 32 → 32 * k + c < s.w.voi.pairs.length → pairInUse s.w k c = true →
      ((pairAt s.w (32 * k + c)).st ≠ 3 →
        (pairAt s.w (32 * k + c)).measClk + msClk (getN s.w Obj.VOI_VERIFY_MS) ≤ s.w.clk →
        ∃ t, exec (.voiUnverify k c) s = .next t ∧ (pairAt t.w (32 * k + c)).st = 3 ∧
          (pairAt t.w (32 * k + c)).unverClk = s.w.clk ∧ (pairAt t.w (32 * k + c)).toldClk = s.w.clk ∧
          Touches [.voi] noObj s t) ∧
      ((pairAt s.w (32 * k + c)).st = 3 → bitOf (insN s.w Obj.VOI_CFG) 1 = false →
        (pairAt s.w (32 * k + c)).toldClk + msClk (getN s.w Obj.VOI_UNVER_MS) ≤ s.w.clk →
        ∃ t, exec (.voiUnverified k c) s = .next t ∧ (pairAt t.w (32 * k + c)).toldClk = s.w.clk ∧
          (pairAt t.w (32 * k + c)).st = 3 ∧ Touches [.voi] noObj s t ∧
          (Quiet s → Reports s t Ev.VOI_UNVERIFIED (clkMs (s.w.clk - (pairAt s.w (32 * k + c)).unverClk)))))

/-- R263: lines of a camera that is up. The line of the oldest open TRIG with a right CRC and header is taken and
counted; one with a wrong CRC is counted as an error and closes no TRIG; a TRIG two line periods past its exposure is a
missing line. R283, R294, R446, R284: INS_DARK_N dark lines stage a new dark table and begin anew; a first table that
DISCOVER could not take applies at once after 64 lines; a white capture of 1,024 lines stages a new white table, one
without them within 60 s is given up. -/
def Obligations.CameraLinesAndTables : Prop :=
  (∀ (s : State) (c : Nat), c < 8 → 16 + c < s.w.links.length →
    (∀ line words trig rest, (linkAt s.w (16 + c)).st = .up → (linkAt s.w (16 + c)).trigs = trig :: rest →
      trig.count = line → (linkAt s.w (16 + c)).badFrame = false → field (words.headD 0) 48 16 = getN s.w Obj.YQL_CPF_PIXELS →
      field (words.headD 0) 40 8 = getN s.w Obj.YQL_CPF_BITS →
      ∃ t, exec (.cameraLineRx c line words (frameCrc words)) s = .next t ∧ t.ctl = s.ctl ∧
        (linkAt t.w (16 + c)).trigs = rest ∧
        getN t.w (Obj.YQL_CAM_LINES c) = (getN s.w (Obj.YQL_CAM_LINES c) + 1) % 18446744073709551616 ∧
        getN t.w (Obj.YQL_CAM_CRC_ERR c) = getN s.w (Obj.YQL_CAM_CRC_ERR c)) ∧
    (∀ line words crc, (linkAt s.w (16 + c)).st = .up → crc ≠ frameCrc words →
      ∃ t, exec (.cameraLineRx c line words crc) s = .next t ∧
        (linkAt t.w (16 + c)).trigs = (linkAt s.w (16 + c)).trigs ∧
        getN t.w (Obj.YQL_CAM_CRC_ERR c) = (getN s.w (Obj.YQL_CAM_CRC_ERR c) + 1) % 4294967296 ∧
        Touches [.links] (objsOf [Obj.YQL_CAM_CRC_ERR c]) s t) ∧
    (∀ trig rest, (linkAt s.w (16 + c)).trigs = trig :: rest → trig.due ≤ s.w.clk →
      ∃ t, exec (.camLineMissing c) s = .next t ∧ t.ctl = s.ctl ∧ (linkAt t.w (16 + c)).trigs = rest ∧
        getN t.w (Obj.YQL_CAM_MISSING c) = (getN s.w (Obj.YQL_CAM_MISSING c) + 1) % 4294967296)) ∧
  (∀ s : State,
    (s.w.sys.darkDone = true → getN s.w Obj.INS_DARK_N ≤ s.w.ins.darkLines →
      ∃ t, exec .insDark s = .next t ∧ t.w.ins.darkLines = 0 ∧
        t.w.ins.stagedDark = some (darkTable s.w s.w.ins.cams (getN s.w Obj.INS_DARK_N)) ∧ Touches [.ins] noObj s t) ∧
    (s.w.sys.darkDone = false → 64 ≤ s.w.ins.darkLines →
      ∃ t, exec .insDark s = .next t ∧ t.w.ins.darkLines = 0 ∧ t.w.sys.darkDone = true ∧
        getN t.w Obj.INS_DARK_VER = (getN s.w Obj.INS_DARK_VER + 1) % 4294967296) ∧
    (∀ c, s.w.ins.cap = some c → 1024 ≤ c.lines →
      ∃ t tbl, exec .whiteCaptureDone s = .next t ∧ t.w.ins.cap = none ∧ t.w.ins.stagedWhite = some tbl ∧
        Touches [.ins] noObj s t ∧ (Quiet s → Reports s t Ev.INS_WHITE (2147483648 + c.px.length))) ∧
    (∀ c, s.w.ins.cap = some c → c.lines < 1024 → c.clk + secClk 60 ≤ s.w.clk →
      ∃ t, exec .whiteCaptureTimeout s = .next t ∧ t.w.ins.cap = none ∧ Touches [.ins] noObj s t ∧
        (Quiet s → Reports s t Ev.INS_WHITE 3221225472)))

/-- R288, R300: a window record that is complete in time leaves the queue and is the last one, and its tally slot is
free; the loop takes it in CALIBRATING or TRACKING, or counts it as skipped where its window was not tallied. R316: a
flush of the loop's state starts, waits behind one that runs, and ends with its image in FRAM. R309, R319, R408: an
update of the loop that an engine finishes within 7.8 ms is done for that engine's bars, and leaves the queue with the
last engine's; one that is not complete by then is counted, as a miss of deadline 5 too, and left out. R318: an update
that no engine has still to make leaves the queue at once, also one that is taken while both engines are out. -/
def Obligations.LoopRecordsAndUpdates : Prop :=
  (∀ s : State,
    (∀ r rest, s.w.ins.closing = r :: rest → s.w.clk ≤ r.closeClk + msClk 2 → (∀ e, e ∈ s.w.mem.struck → e.area ≠ 3) →
      (∀ slot, ((s.w.mem.tallyWins.find? fun e => e.1 == r.start).bind (·.2)) = some slot →
        getN s.w Obj.CHL_STATE = 2 ∨ getN s.w Obj.CHL_STATE = 3 → bitOf r.flags 0 = false →
        (∀ c, s.w.loop.lastClose = some c → c + loopClocks ≤ r.closeClk) →
        ∃ t, exec .windowRecordDone s = .next t ∧ t.w.ins.closing = rest ∧ t.w.ins.last = some r ∧
          t.w.mem.tallyWins = s.w.mem.tallyWins.filter (fun e => e.1 != r.start) ∧
          t.w.loop.taken = s.w.loop.taken + 1 ∧
          ((∀ j ∈ s.w.loop.jobs, j.todo.any id = true) → t.w.loop.jobs.length = s.w.loop.jobs.length +
            (if s.w.loop.jobs = [] ∧ engineServes s.w 0 = false ∧ engineServes s.w 1 = false then 0 else 1)) ∧
          getN t.w Obj.CHL_WIN_TAKEN = (getN s.w Obj.CHL_WIN_TAKEN + 1) % 4294967296) ∧
      (((s.w.mem.tallyWins.find? fun e => e.1 == r.start).bind (·.2)) = none →
        ∃ t, exec .windowRecordDone s = .next t ∧ t.w.ins.closing = rest ∧ t.w.ins.last = some r ∧
          getN t.w Obj.CHL_WIN_SKIPPED = (getN s.w Obj.CHL_WIN_SKIPPED + 1) % 4294967296 ∧
          Touches [.ins, .mem] (objsOf [Obj.CHL_WIN_SKIPPED]) s t)) ∧
    (powered s.ctl.mode = true → s.ctl.mode ≠ .boot →
      (s.w.loop.flush = none →
        ∃ t, exec .loopFlushStart s = .next t ∧ t.w.loop.flush.map (·.1) = some s.w.clk ∧ t.w.loop.flushWait = false ∧
          Touches [.loop] noObj s t) ∧
      (s.w.loop.flush.isSome = true →
        ∃ t, exec .loopFlushStart s = .next t ∧ t.w.loop.flush = s.w.loop.flush ∧ t.w.loop.flushWait = true ∧
          Touches [.loop] noObj s t)) ∧
    (∀ c img, s.w.loop.flush = some (c, img) → s.w.loop.flushWait = false →
      ∃ t, exec .loopFlushDone s = .next t ∧ t.w.loop.flush = none ∧ t.w.loop.img = img ∧
        getN t.w Obj.CHL_FLUSH_MS = min 65535 (clkMs (s.w.clk - c)) ∧ Touches [.loop] (objsOf [Obj.CHL_FLUSH_MS]) s t)) ∧
  (∀ (s : State) (j : LoopJob) (rest : List LoopJob), s.w.loop.jobs = j :: rest → j.todo.length = 2 →
      (∀ j' ∈ rest, j'.todo.any id = true) →
    (∀ e, e < 2 → j.todo.getD e false = true → engineServes s.w e = true → s.w.clk ≤ j.clk + loopClocks →
      ∃ t, exec (.loopUpdateDone e) s = .next t ∧ t.ctl = s.ctl ∧
        t.w.loop.jobs = (if j.todo.getD (1 - e) false then { j with todo := j.todo.set e false } :: rest else rest)) ∧
    (j.clk + loopClocks < s.w.clk → j.todo.any id = true →
      ∃ t, exec .chlLate s = .next t ∧ t.ctl = s.ctl ∧ t.w.loop.jobs = rest ∧
        getN t.w Obj.CHL_LATE_CNT = (getN s.w Obj.CHL_LATE_CNT + 1) % 4294967296 ∧
        getN t.w (Obj.SUP_DL_MISS 4) = (getN s.w (Obj.SUP_DL_MISS 4) + 1) % 4294967296))

/-- R364, R368, R374: of the messages of the master it follows (the model's choice, assumption 89), a one-step Sync of
the own domain gives the offset of the servo, counted in TIM_SYNC_RX; a two-step one waits for its Follow_Up, which
gives the same with both corrections; a message of another domain is ignored and counted. R364, R369, R374: the delay
mechanisms. A master answers a Delay_Req with its receive stamp and a Pdelay_Req with the turnaround in the correction
field; an answer to the own request gives a path delay sample and ends the exchange. -/
def Obligations.PtpReceived : Prop :=
  (∀ (s : State) (m : PtpMsg), powered s.ctl.mode = true → ptpActive s.w = true →
    (m.domain ≠ getN s.w Obj.TIM_DOMAIN →
      ∃ t, exec (.ptpSyncRx m) s = .next t ∧
        getN t.w Obj.TIM_PTP_IGNORED = (getN s.w Obj.TIM_PTP_IGNORED + 1) % 4294967296 ∧
        Touches [] (objsOf [Obj.TIM_PTP_IGNORED]) s t) ∧
    (m.domain = getN s.w Obj.TIM_DOMAIN → servoHasInput s.w = true → m.sender = s.w.tim.parent →
      (getF s.w Obj.TIM_CFG 0 2 = 1 → m.twoStep = true →
        ∃ t, exec (.ptpSyncRx m) s = .next t ∧ 
          t.w.tim.twoStep = some (m.seq, rxStamp s.w, frac m.corr 65536, m.logInt) ∧
          Touches [.tim] noObj s t) ∧
      (getF s.w Obj.TIM_CFG 0 2 = 1 → m.twoStep = false →
        ∃ t, exec (.ptpSyncRx m) s = .next t ∧
          getN t.w Obj.TIM_SYNC_RX = (getN s.w Obj.TIM_SYNC_RX + 1) % 4294967296 ∧
          getO t.w Obj.TIM_OFFSET_NS = fracFloor (fracSub (fracSub
            (fracSub (fracSub (rxStamp s.w) (fracI m.ns)) (frac m.corr 65536)) s.w.tim.path)
            (frac (getO s.w Obj.TIM_ASYM_PS) 1000))) ∧
      (∀ t2 c l, s.w.tim.twoStep = some (m.seq, t2, c, l) →
        ∃ t, exec (.ptpFollowUpRx m) s = .next t ∧ t.w.tim.twoStep = none ∧
          getO t.w Obj.TIM_OFFSET_NS = fracFloor (fracSub (fracSub
            (fracSub (fracSub (fracSub t2 (fracI m.ns)) c) (frac m.corr 65536)) s.w.tim.path)
            (frac (getO s.w Obj.TIM_ASYM_PS) 1000))))) ∧
  (∀ (s : State) (m : PtpMsg), powered s.ctl.mode = true → ptpActive s.w = true → m.domain = getN s.w Obj.TIM_DOMAIN →
    (getN s.w Obj.TIM_PORT_STATE = 6 → getF s.w Obj.TIM_CFG 3 1 = 0 →
      ∃ t, exec (.ptpDelayReqRx m) s = .next t ∧
        t.w.out = [ptpMsg s.w 9 m.seq (getO s.w Obj.TIM_LOG_DELAY) (stampNs (rxStamp s.w))
          (stampFrac (rxStamp s.w) + m.corr) m.sender] ∧
        Touches [] noObj s t) ∧
    (∀ turn, getF s.w Obj.TIM_CFG 3 1 = 1 →
      ∃ t, exec (.ptpPdelayReqRx m turn) s = .next t ∧ t.w.out = [ptpMsg s.w 3 m.seq 127 0 (m.corr + turn) m.sender] ∧
        Touches [] noObj s t) ∧
    (∀ t3 d, s.w.tim.pendingDelay = some (m.seq, t3) → s.w.tim.t2t1 = some d → getF s.w Obj.TIM_CFG 3 1 = 0 →
      m.sender = s.w.tim.parent →
      ∃ t, exec (.ptpDelayRespRx m) s = .next t ∧ t.w.tim.pendingDelay = none ∧ t.w.tim.pathValid = true ∧
        Touches [.tim] (objsOf [Obj.TIM_PATH_PS]) s t) ∧
    (∀ t1, s.w.tim.pendingDelay = some (m.seq, t1) → getF s.w Obj.TIM_CFG 3 1 = 1 → m.twoStep = false →
      s.w.tim.pathValid = false →
      ∃ t, exec (.ptpPdelayRespRx m) s = .next t ∧ t.w.tim.pendingDelay = none ∧ t.w.tim.pathValid = true ∧
        t.w.tim.path = frac (fracFloor (fracScale (fracDiv (fracSub (fracSub (rxStamp s.w) t1) (frac m.corr 65536))
          (fracI 2)) 65536)) 65536) ∧
    (∀ d t2, s.w.tim.pdTwoStep = some (m.seq, d, t2) →
      ∃ t, exec (.ptpPdelayRespFollowUpRx m) s = .next t ∧ t.w.tim.pdTwoStep = none ∧ t.w.tim.pendingDelay = none ∧
        t.w.tim.pathValid = true ∧ Touches [.tim] (objsOf [Obj.TIM_PATH_PS]) s t))

/-- R365, R378, R384: the best of the masters heard, where the port does not follow it already, takes the port to
UNCALIBRATED and becomes the grandmaster; a first one that may be followed is the best; without Announces for the
timeout a slave-only port waits in LISTENING and another becomes MASTER; the messages that R364 names are ignored and
counted. R365, R369, R374: what the port sends. A MASTER sends one-step Syncs with the departure stamp and Announces
with its own values, numbered in turn; a slave end to end, or any active port peer to peer, sends a delay request and
keeps its departure stamp. -/
def Obligations.PtpMasterAndSends : Prop :=
  (∀ s : State, powered s.ctl.mode = true →
    (∀ a f, ptpActive s.w = true → a.domain = getN s.w Obj.TIM_DOMAIN →
      bestOf (qualified (noteMaster a s.w)) = some f →
      (getN s.w Obj.TIM_PORT_STATE = 8 ∨ getN s.w Obj.TIM_PORT_STATE = 9 → s.w.tim.parent ≠ f.sender) →
      ∃ t, exec (.ptpAnnounceRx a) s = .next t ∧ getN t.w Obj.TIM_PORT_STATE = 8 ∧ getN t.w Obj.TIM_GM_ID = f.gm ∧
        t.w.tim.gmPrio = f.prio ∧ t.w.tim.parent = f.sender ∧ t.w.tim.pathValid = false) ∧
    (∀ a, ptpActive s.w = true → a.domain = getN s.w Obj.TIM_DOMAIN → getN s.w Obj.TIM_PORT_STATE ≠ 8 →
      getN s.w Obj.TIM_PORT_STATE ≠ 9 → s.w.tim.masters = [] → 0 < annTimeout s.w →
      getF s.w Obj.TIM_CFG 2 1 = 1 ∨ lexLt (annPrio a) (ownPrio s.w) = true →
      ∃ t, exec (.ptpAnnounceRx a) s = .next t ∧ getN t.w Obj.TIM_PORT_STATE = 8 ∧ getN t.w Obj.TIM_GM_ID = a.gm ∧
        t.w.tim.gmPrio = annPrio a ∧ t.w.tim.parent = a.sender ∧ t.w.tim.pathValid = false) ∧
    (∀ c, hostServing s.w = true → bestOf (qualified s.w) = none → s.w.tim.annClk = some c → c + annTimeout s.w ≤ s.w.clk →
      getN s.w Obj.TIM_PORT_STATE = 4 ∨ getN s.w Obj.TIM_PORT_STATE = 7 ∨ getN s.w Obj.TIM_PORT_STATE = 8 ∨
        getN s.w Obj.TIM_PORT_STATE = 9 →
      ∃ t, exec .announceTimeout s = .next t ∧ t.w.tim.gmPrio = [] ∧
        getN t.w Obj.TIM_PORT_STATE = (if getF s.w Obj.TIM_CFG 2 1 = 1 then 4 else 6)) ∧
    (ptpActive s.w = true → ∃ t, exec .ptpIgnoredRx s = .next t ∧
      getN t.w Obj.TIM_PTP_IGNORED = (getN s.w Obj.TIM_PTP_IGNORED + 1) % 4294967296 ∧
      Touches [] (objsOf [Obj.TIM_PTP_IGNORED]) s t)) ∧
  (∀ s : State, powered s.ctl.mode = true → hostServing s.w = true →
    (getN s.w Obj.TIM_PORT_STATE = 6 →
      (∃ t, exec .ptpSyncSend s = .next t ∧
        t.w.out = [ptpMsg s.w 0 s.w.tim.syncSeq (getO s.w Obj.TIM_LOG_SYNC) (stampNs (txStamp s.w))
          (stampFrac (txStamp s.w)) 0] ∧
        t.w.tim.syncSeq = (s.w.tim.syncSeq + 1) % 65536 ∧ Touches [.tim] noObj s t) ∧
      (∃ t, exec .ptpAnnounceSend s = .next t ∧ t.w.tim.annSeq = (s.w.tim.annSeq + 1) % 65536 ∧
        t.w.out = [.announce (getN s.w Obj.TIM_IFACE) (getF s.w Obj.TIM_CFG 4 2) (getN s.w Obj.TIM_DOMAIN) s.w.tim.annSeq
          (ownAnnounce s.w)] ∧ Touches [.tim] noObj s t)) ∧
    (servoHasInput s.w = true → getF s.w Obj.TIM_CFG 3 1 = 0 →
      ∃ t, exec .ptpDelayReqSend s = .next t ∧ t.w.out = [ptpMsg s.w 1 s.w.tim.delaySeq 127 0 0 0] ∧
        t.w.tim.pendingDelay = some (s.w.tim.delaySeq, txStamp s.w) ∧ Touches [.tim] noObj s t) ∧
    (ptpActive s.w = true → getF s.w Obj.TIM_CFG 3 1 = 1 →
      ∃ t, exec .ptpPdelayReqSend s = .next t ∧ t.w.out = [ptpMsg s.w 2 s.w.tim.delaySeq 127 0 0 0] ∧
        t.w.tim.pendingDelay = some (s.w.tim.delaySeq, txStamp s.w) ∧ Touches [.tim] noObj s t))

/-- R427, R432, R437: power up. VIN above the stored threshold, or between 6.5 V and a stored threshold above it, takes
the device from OFF to BOOT with the reset cause and the threshold in use. R390, R443, R444, R117: the phases of BOOT.
The first voted cycle ends BOOT_HOLD, the host core comes up with SYS_BOOT, the DRAM reads 0 everywhere, and the stored
values end BOOT. -/
def Obligations.PowerUpAndBoot : Prop :=
  (∀ (s : State) (mv : Nat), s.ctl.mode = .off → s.w.thm.saving = false →
    (storedPf s.w + 500 < mv →
      ∃ t, exec (.vinValid mv) s = .next t ∧ t.ctl.mode = .boot ∧ t.ctl.prev = .off ∧
        t.ctl.sec.slots = s.ctl.sec.slots ∧ getO t.w Obj.THM_PF_ACT = storedPf s.w ∧
        getO t.w Obj.SYS_RESET_CAUSE = (if s.w.thm.saveMode then 3 else 0) ∧ t.w.thm.armed = true) ∧
    (6500 ≤ mv → (mv : Int) < storedPf s.w →
      ∃ t, exec (.pwrPfLow mv) s = .next t ∧ t.ctl.mode = .boot ∧ t.ctl.prev = .off ∧
        getO t.w Obj.THM_PF_ACT = 6500 ∧ t.w.thm.pfLow = true)) ∧
  (∀ s : State, s.ctl.mode = .boot →
    (∀ sums, s.w.sys.voted = false → s.w.sup.stopLow = false →
      ∃ t, exec (.firstVotedCycle sums) s = .next t ∧ t.w.sys.voted = true ∧ t.ctl = s.ctl ∧
        getN t.w Obj.SUP_STOP_SRC = setBit (getN s.w Obj.SUP_STOP_SRC) 10 false) ∧
    (s.w.sys.voted = true → s.w.sys.refclk = true → s.w.sys.hostUp = false → s.w.sys.bootFail = false →
      (∀ why, ∃ t, exec (.hostBootDone 0 why) s = .next t ∧ t.w.sys.hostUp = true ∧ getO t.w Obj.SUP_HOST_STATE = 0 ∧
        (Quiet s → t.w.evt.seq = (s.w.evt.seq + 1) % 4294967296)) ∧
      (∀ why, ∃ t, exec (.hostBootDone 2 why) s = .next t ∧ t.w.sys.bootFail = true ∧ t.w.sys.hostUp = false ∧
        (Quiet s → Reports s t Ev.SYS_BOOT_FAIL 0))) ∧
    (s.w.sys.hostUp = true →
      ∃ t, exec .dramInitDone s = .next t ∧ t.w.sys.dramDone = true ∧ t.w.mem.ready = true ∧ t.w.mem.items = [] ∧
        t.w.mem.wb = [] ∧ t.w.mem.tally = [] ∧ Touches [.sys, .mem] noObj s t) ∧
    (∀ damaged, s.w.sys.voted = true → s.w.sys.hostUp = true → s.w.sys.dramDone = true →
      ∃ t, exec (.storedValuesLoaded damaged) s = .next t ∧ t.ctl.mode = .selftest ∧ t.ctl.prev = .boot ∧
        t.w.sys.loaded = true))

/-- R437, R445 to R447: SELFTEST ends in CALIBRATE, or in THERMAL_HOLD under the hold flag; CALIBRATE ends in DISCOVER
when its steps are done and the core voltage has stood for 1 s; DISCOVER ends in IDLE, or in SAFE for a cause that
waited. -/
def Obligations.StartupPhases : Prop :=
  ∀ s : State,
    (∀ f, s.ctl.mode = .selftest →
      ∃ t, exec (.selftestDone f) s = .next t ∧ t.ctl.prev = .selftest ∧
        t.ctl.mode = (if s.w.sys.holdFlag then .thermalHold else .calibrate)) ∧
    (∀ sinks first later, s.ctl.mode = .calibrate → s.w.thm.vcoreClk + secClk 1 ≤ s.w.clk →
      ∃ t, exec (.calibrateDone true sinks first later) s = .next t ∧ t.ctl.mode = .discover ∧ t.ctl.prev = .calibrate ∧
        getO t.w Obj.SYS_CAL_MS = clkMs (s.w.clk - s.w.sys.enterClk)) ∧
    (∀ dark, s.ctl.mode = .discover → s.w.sys.enterClk + secClk 2 ≤ s.w.clk →
      ∃ t, exec (.discoverDone dark) s = .next t ∧ t.ctl.prev = .discover ∧
        t.ctl.mode = (if s.w.sup.safePending then .safe else .idle))

/-- R428, R429, R432: a power failure takes the device to OFF with the outputs safe, a journal record of kind 1 and the
save begun; its end empties what waited for FRAM; once VIN is off the save mode is over.
R423, R424, R430, R466: a rail beyond a warning threshold is reported; a rail fault, or the loss of the reference, of
an armed device is a power failure with a record of kind 4; the reference that returns is present again; the lifetime
counters are renewed in FRAM. -/
def Obligations.PowerFailureAndRails : Prop :=
  (∀ s : State,
    (∀ mv : Nat, s.w.thm.armed = true → powered s.ctl.mode = true → (mv : Int) < getO s.w Obj.THM_PF_ACT →
      ∃ t, exec (.powerFail mv) s = .next t ∧ t.ctl.mode = .off ∧ t.ctl.prev = s.ctl.mode ∧ t.w.thm.saving = true ∧
        t.w.sup.outs = 0 ∧ getO t.w Obj.SUP_STOP_SRC = 0x800 ∧
        t.w.thm.journal.head?.map (fun r => (r.kind, r.tail)) = some (1, false)) ∧
    (s.w.thm.saving = true → s.ctl.mode = .off → (s.w.thm.journal.head?.any fun r => r.kind == 4) = false → Quiet s →
      ∃ t, exec .powerSaveDone s = .next t ∧ t.ctl = s.ctl ∧ t.w.thm.saving = false ∧ t.w.dict.framWait = [] ∧
        t.w.evt.staging = [] ∧ t.w.thm.journal.head?.map (·.tail) = s.w.thm.journal.head?.map (fun _ => true)) ∧
    (s.ctl.mode = .off → s.w.thm.saveMode = true →
      ∃ t, exec .vinOff s = .next t ∧ t.ctl.mode = .off ∧ t.w.thm.vin = 0 ∧ t.w.thm.saveMode = false ∧
        t.ctl.sec.slots = s.ctl.sec.slots ∧ t.w.dict.fram = s.w.dict.fram)) ∧
  (∀ s : State,
    (∀ r high mv, r < 14 → r < s.w.thm.rails.length → powered s.ctl.mode = true →
      s.w.thm.rails.getD r 0 ≠ railCode 1 high →
      ∃ t, exec (.vmonCrossing r 1 high mv) s = .next t ∧ t.w.thm.rails.getD r 0 = railCode 1 high ∧ t.ctl = s.ctl ∧
        (Quiet s → Reports s t Ev.VMON_WARN (2147483648 + b2n high * 1073741824 + mv % 65536))) ∧
    (∀ r mv, r < 14 → powered s.ctl.mode = true → s.w.thm.armed = true → s.w.thm.rails.getD r 0 ≠ 3 →
      ∃ t, exec (.vmonCrossing r 2 true mv) s = .next t ∧ t.ctl.mode = .off ∧
        t.w.thm.journal.head?.map (fun x => (x.kind, x.reason)) = some (4, r)) ∧
    (s.w.sys.refclk = true → powered s.ctl.mode = true → s.w.thm.armed = true → s.w.sys.railHold = false →
      ∃ t, exec .refclkFail s = .next t ∧ t.ctl.mode = .off ∧ t.w.sys.refclk = false ∧
        t.w.thm.journal.head?.map (fun x => (x.kind, x.reason)) = some (4, 14)) ∧
    (s.w.thm.armed = false → ∃ t, exec .refclkFail s = .next t ∧ t.w.sys.refclk = false ∧ Touches [.sys] noObj s t) ∧
    (∃ t, exec .refclkReturn s = .next t ∧ t.w.sys.refclk = true ∧ Touches [.sys] noObj s t) ∧
    (powered s.ctl.mode = true →
      ∃ t, exec .lifeCounterRenew s = .next t ∧ t.w.thm.lines = 0 ∧
        mapGet t.w.dict.fram Obj.THM_LIFE_LINES = some (lifeLines s.w : Int) ∧
        getO t.w Obj.THM_LIFE_LINES = lifeLines s.w))

/-- R437, R440 to R442: what an accepted SYS_CMD does to the device state: ARM in IDLE with no condition of
SYS_ARM_BLOCK, PAUSE in ARMED and PRINTING, RESUME in PAUSED, STOP in the print states and SERVICE. -/
def Obligations.SystemCommands : Prop :=
  ∀ (e : WriteEnv) (s u : State),
    (Passes e Obj.SYS_CMD 1 s u → u.ctl.mode = .idle → armBlock u.w = 0 → u.w.links.any (·.arrival.isSome) = false →
      ∃ t, exec (.sysCmdArm e) s = .next t ∧ t.ctl.mode = .armed ∧ t.ctl.prev = .idle) ∧
    (Passes e Obj.SYS_CMD 2 s u → u.ctl.mode = .armed → u.w.links.any (·.arrival.isSome) = false →
      ∃ t, exec (.sysCmdPause e) s = .next t ∧ t.ctl.mode = .paused ∧ t.ctl.prev = .armed) ∧
    (Passes e Obj.SYS_CMD 2 s u → u.ctl.mode = .printing → u.w.job.frames.any (fun f => !f.done) = true →
      ∃ t, exec (.sysCmdPause e) s = .next t ∧ t.ctl.mode = .printing ∧ t.w.sys.pausePending = true) ∧
    (Passes e Obj.SYS_CMD 3 s u → u.ctl.mode = .paused →
      ∃ t, exec (.sysCmdResume e) s = .next t ∧ t.ctl.mode = .armed ∧ t.ctl.prev = .paused ∧
        t.w.sys.pausePending = false) ∧
    (Passes e Obj.SYS_CMD 4 s u → inPrint u.ctl.mode = true ∨ u.ctl.mode = .service →
      ∃ t, exec (.sysCmdStop e) s = .next t ∧ t.ctl.mode = .idle ∧ t.ctl.prev = u.ctl.mode)

/-- R437, R439: RELEASE under RELEASE_OK leaves SAFE for IDLE, or for THERMAL_HOLD while the hold flag stands, and
releases bits 5 to 7 of SUP_STOP_SRC and the latch; SYS_SERVICE 1 enters SERVICE from IDLE and 0 returns. R442: ARM is
refused while a bit of SYS_ARM_BLOCK is set, with the bits in SYS_ARM_REFUSED and an adjustment with reason 6. R437: a
SYS_CMD or SYS_SERVICE that the present state does not allow leaves the device state; it is an adjustment with reason 6
(R328). -/
def Obligations.ReleaseServiceAndRefusals : Prop :=
  (∀ (e : WriteEnv) (s u : State),
    (Passes e Obj.SYS_CMD 5 s u → releaseOk u.ctl.mode u.w = true →
      ∃ t, exec (.sysCmdRelease e) s = .next t ∧ t.ctl.mode = (if u.w.sys.holdFlag then .thermalHold else .idle) ∧
        t.w.sup.latch = false ∧ t.w.sup.force = false) ∧
    (Passes e Obj.SYS_SERVICE 1 s u → u.ctl.mode = .idle →
      ∃ t, exec (.sysServiceEnter e) s = .next t ∧ t.ctl.mode = .service ∧ t.ctl.prev = .idle) ∧
    (Passes e Obj.SYS_SERVICE 0 s u → u.ctl.mode = .service →
      ∃ t, exec (.sysServiceLeave e) s = .next t ∧ t.ctl.mode = .idle ∧ getO t.w Obj.SYS_DEBUG_EN = 0)) ∧
  (∀ (e : WriteEnv) (s u : State),
    (Passes e Obj.SYS_CMD 1 s u → u.ctl.mode = .idle → armBlock u.w ≠ 0 → Quiet u →
      ∃ t, exec (.sysCmdArm e) s = .next t ∧ t.ctl.mode = .idle ∧ t.w.evt.seq ≠ u.w.evt.seq ∧
        lastData t Ev.SYS_ARM_REFUSED = armBlock u.w ∧
        getO t.w Obj.CFG_ADJ_OBJECT = (Obj.SYS_CMD / 256 * 65536 + Obj.SYS_CMD % 256 * 256 + 6 : Nat)) ∧
    (Passes e Obj.SYS_CMD 1 s u → u.ctl.mode ≠ .idle →
      ∃ t, exec (.sysCmdArm e) s = .next t ∧ t.ctl.mode = u.ctl.mode ∧
        getO t.w Obj.CFG_ADJ_OBJECT = (Obj.SYS_CMD / 256 * 65536 + Obj.SYS_CMD % 256 * 256 + 6 : Nat)) ∧
    (Passes e Obj.SYS_CMD 5 s u → releaseOk u.ctl.mode u.w = false →
      ∃ t, exec (.sysCmdRelease e) s = .next t ∧ t.ctl.mode = u.ctl.mode ∧
        getO t.w Obj.CFG_ADJ_OBJECT = (Obj.SYS_CMD / 256 * 65536 + Obj.SYS_CMD % 256 * 256 + 6 : Nat)) ∧
    (Passes e Obj.SYS_SERVICE 1 s u → u.ctl.mode ≠ .idle →
      ∃ t, exec (.sysServiceEnter e) s = .next t ∧ t.ctl.mode = u.ctl.mode ∧
        getN t.w Obj.CFG_ADJ_COUNT = (getN u.w Obj.CFG_ADJ_COUNT + 1) % 4294967296))

/-- R350: a key goes into an empty slot in SERVICE only, a revoked slot stays revoked; R349: a block that has run its time
ends with the failures cleared, and a failure counts for 10 s. -/
def Obligations.KeysAndBlocks : Prop :=
  (∀ (e : WriteEnv) (s u : State) (bytes : List Nat), passesTo e Obj.SEC_KEY_PROGRAM 0x0F bytes s = some u →
    keyAllowed u bytes = true →
    ∃ t, exec (.secKeyProgram e bytes) s = .next t ∧
      t.ctl.sec.slots = u.ctl.sec.slots.set (bytes.getD 0 0) (.programmed (slice bytes 4 16))) ∧
  (∀ (e : WriteEnv) (s u : State) (slot : Nat), slot < 4 → Passes e Obj.SEC_KEY_REVOKE slot s u →
    revokeAllowed u slot = true →
    ∃ t, exec (.secKeyRevoke e slot) s = .next t ∧ t.ctl.sec.slots = u.ctl.sec.slots.set slot .revoked) ∧
  (∀ (s : State) (n : Nat), s.ctl.sec.blockEnd = some n → n ≤ s.w.clk →
    ∃ t, exec .authLockoutEnd s = .next t ∧ t.ctl.sec.blockEnd = none ∧ t.ctl.sec.fails = [] ∧
      (Quiet s → Reports s t Ev.AUTH_LOCKOUT 0)) ∧
  (∀ s : State, ∃ t, exec .authFailureExpire s = .next t ∧
    t.ctl.sec.fails = s.ctl.sec.fails.filter (fun e => s.w.clk < e) ∧ t.ctl.sec.slots = s.ctl.sec.slots ∧
    t.ctl.sec.ctr = s.ctl.sec.ctr ∧ t.ctl.mode = s.ctl.mode)

/-- R347 to R349, R351: the checks on a trailer, in order. A malformed one answers TYPE and changes nothing; a block in
force locks out; a slot without a key fails with reason 1, a wrong tag with reason 2, a counter that is not above the
last one with reason 3; only a write that passes them all moves its slot's counter. A failure raises AUTH_FAIL, leaves
slots and counters and counts for 10 s; the eighth begins a block of 60 s. A trailer is checked so on every object;
under ALL_AUTH every write needs one, but one over CAN FD to 0x1000 to 0x1FFF. -/
def Obligations.AuthenticationChecks : Prop :=
  (∀ (a : Bool) (source ix sub : Nat) (data : List Nat) (e : WriteEnv) (s : State) (t : Trailer), e.auth = some t →
    (3 < t.slot ∨ t.pad ≠ 0 → authStep a source ix sub data e s = (St.type, s) ∧ abortCode St.type = 0x06070010) ∧
    (∀ b, t.slot ≤ 3 → t.pad = 0 → s.ctl.sec.blockEnd = some b → s.w.clk < b →
      authStep a source ix sub data e s = (St.lockedOut, s)) ∧
    (t.slot ≤ 3 → t.pad = 0 → s.ctl.sec.blockEnd = none → isProgrammed (s.ctl.sec.slots.getD t.slot .empty) = false →
      FailedCheck 1 source ix t.slot s (authStep a source ix sub data e s)) ∧
    (∀ key, t.slot ≤ 3 → t.pad = 0 → s.ctl.sec.blockEnd = none → s.ctl.sec.slots.getD t.slot .empty = .programmed key →
      (t.tag ≠ authTag key ix sub t.counter data → FailedCheck 2 source ix t.slot s (authStep a source ix sub data e s)) ∧
      (t.tag = authTag key ix sub t.counter data → t.counter ≤ s.ctl.sec.ctr.getD t.slot 0 →
        FailedCheck 3 source ix t.slot s (authStep a source ix sub data e s)) ∧
      (t.tag = authTag key ix sub t.counter data → s.ctl.sec.ctr.getD t.slot 0 < t.counter →
        authStep a source ix sub data e s =
          (St.ok, { s with ctl := { s.ctl with sec := { s.ctl.sec with ctr := s.ctl.sec.ctr.set t.slot t.counter } } })))) ∧
  (∀ (s : State) (a : Bool) (ix : Nat) (p : Path), getO s.w Obj.SEC_CFG = 1 →
    (p ≠ .can ∨ ix < 0x1000 ∨ 0x1FFF < ix → authNeeded s a ix p = true) ∧
    (p = .can → 0x1000 ≤ ix → ix ≤ 0x1FFF → authNeeded s false ix p = false)) ∧
  (∃ r n o, objRow Obj.SEC_CFG = some (r, n, o) ∧ r.a = true)

/-- R13, R456: the debug enable takes its value in SERVICE, and the behaviour generation pin is kept in FRAM at once.
R324, R325: a checked value of a C object goes to its shadow and leaves the value in force. -/
def Obligations.PlatformAndShadowWrites : Prop :=
  (∀ (e : WriteEnv) (s u : State) (v : Int),
    (Passes e Obj.SYS_DEBUG_EN v s u → unchangedBy Obj.SYS_DEBUG_EN v (pathSource e.path) u = true →
      ∃ t, exec (.sysDebugEnWrite e v) s = .next t ∧ getO t.w Obj.SYS_DEBUG_EN = v) ∧
    (Passes e Obj.SYS_BGEN_PIN v s u → unchangedBy Obj.SYS_BGEN_PIN v (pathSource e.path) u = true →
      ∃ t, exec (.sysBgenPinWrite e v) s = .next t ∧ getO t.w Obj.SYS_BGEN_PIN = v ∧
        mapGet t.w.dict.fram Obj.SYS_BGEN_PIN = some v)) ∧
  (∀ (e : WriteEnv) (s u : State) (k : Nat) (v : Int), Passes e k v s u → unchangedBy k v (pathSource e.path) u = true →
    (∀ r n o, objRow k = some (r, n, o) → r.c = true) →
    ∃ t, exec (.objectWrite e (k / 256) (k % 256) (valueCode k) (valueBytes k v)) s = .next t ∧ getSh t.w k = v)

/-- R366, R373, R375: a write of TIM_IFACE or TIM_DOMAIN takes its value and restarts the port, which is INITIALIZING, or
DISABLED where its interface does not serve; MODE 0 shows FREE; a commanded step is counted and kept.
R31: a position write sets position and high-water mark and the tracker forward; R51: a window value written while
the window is open is held, a START written otherwise is in force; R73: the selected alignment record is stored. -/
def Obligations.TimeAndPositionWrites : Prop :=
  (∀ (e : WriteEnv) (s u : State) (v : Nat),
    (Passes e Obj.TIM_IFACE v s u → unchangedBy Obj.TIM_IFACE v (pathSource e.path) u = true →
      ∃ t, exec (.timIfaceWrite e v) s = .next t ∧ getN t.w Obj.TIM_IFACE = v ∧
        (getN t.w Obj.TIM_PORT_STATE = 1 ∨ getN t.w Obj.TIM_PORT_STATE = 3)) ∧
    (Passes e Obj.TIM_DOMAIN v s u → unchangedBy Obj.TIM_DOMAIN v (pathSource e.path) u = true →
      ∃ t, exec (.timDomainWrite e v) s = .next t ∧ getN t.w Obj.TIM_DOMAIN = v ∧
        (getN t.w Obj.TIM_PORT_STATE = 1 ∨ getN t.w Obj.TIM_PORT_STATE = 3)) ∧
    (Passes e Obj.TIM_CFG v s u → unchangedBy Obj.TIM_CFG v (pathSource e.path) u = true →
      ∃ t, exec (.timCfgWrite e v) s = .next t ∧ getN t.w Obj.TIM_CFG = v ∧
        (field (getN u.w Obj.TIM_CFG) 0 2 ≠ 0 → field v 0 2 = 0 → getN t.w Obj.TIM_SERVO = 0)) ∧
    (∀ d : Int, Passes e Obj.TIM_STEP_SET d s u → unchangedBy Obj.TIM_STEP_SET d (pathSource e.path) u = true →
      ∃ t, exec (.timStepSet e d) s = .next t ∧ getO t.w Obj.TIM_LAST_STEP = d ∧
        getN t.w Obj.TIM_STEPS = (getN u.w Obj.TIM_STEPS + 1) % 4294967296 ∧ t.w.tim.stepSinceAnchor = true)) ∧
  (∀ (e : WriteEnv) (s u : State),
    (∀ v : Int, Passes e Obj.WEB_POS_SET v s u → unchangedBy Obj.WEB_POS_SET v (pathSource e.path) u = true →
      ∃ t, exec (.webPosSet e v) s = .next t ∧ t.w.web.pos = v * 65536 ∧ t.w.web.hwm = v * 65536 ∧
        t.w.web.trk = .forward) ∧
    (∀ (n part : Nat) (v : Int), n < 8 → part < 3 → Passes e (winKey n part) v s u →
      unchangedBy (winKey n part) v (pathSource e.path) u = true →
      (winOpen u.w n = true → n < u.w.web.prb.length → part < (prbAt u.w n).held.length →
        ∃ t, exec (.prbWindowWrite e n part v) s = .next t ∧ (prbAt t.w n).held.getD part none = some v) ∧
      (winOpen u.w n = false → part = 0 →
        ∃ t, exec (.prbWindowWrite e n part v) s = .next t ∧ getO t.w (winKey n part) = v)) ∧
    (∀ i, Passes e Obj.LCK_ALIGN_STORE 1 s u → getN u.w Obj.LCK_ALIGN_SERIAL ≠ 0 →
      tablePlace (getN u.w Obj.LCK_ALIGN_SERIAL) (attachedSerials u.w)
        (u.w.lck.align.map fun e => (e.1, e.2.serial, e.2.date)) = some i →
      ∃ t, exec (.lckAlignStore e) s = .next t ∧ ∃ a, mapGet t.w.lck.align i = some a ∧
        a.serial = getN u.w Obj.LCK_ALIGN_SERIAL ∧ a.phA = getO u.w Obj.LCK_ALIGN_PH_A ∧
        a.phB = getO u.w Obj.LCK_ALIGN_PH_B ∧ a.valid = true))

/-- R162: a commit counts, and in the print states it waits for the next boundary; R98: an applied plan empties the layer
store; R112: an image that nothing uses is deleted, and MEM_LS_CLEAR keeps only images in use or in transfer; R118: an
error is injected in SERVICE. -/
def Obligations.MemoryWrites : Prop :=
  ∀ (e : WriteEnv) (s u : State),
    (Passes e Obj.JOB_COMMIT 1 s u → inPrint u.ctl.mode = true →
      ∃ t, exec (.jobCommit e) s = .next t ∧ t.w.job.commit = true ∧
        getN t.w Obj.JOB_COMMIT_SEQ = (getN u.w Obj.JOB_COMMIT_SEQ + 1) % 4294967296) ∧
    (Passes e Obj.MEM_PLAN_APPLY 1 s u → u.ctl.mode = .idle ∨ u.ctl.mode = .service →
      ∃ t, exec (.memPlanApply e) s = .next t ∧ t.w.mem.items = [] ∧ t.w.mem.tally = [] ∧
        t.w.mem.tallyWin = getN t.w Obj.MEM_TALLY_WIN ∧ t.w.mem.insMib = getN t.w Obj.MEM_INS_MIB) ∧
    (∀ id : Nat, 1 ≤ id → id ≤ 4095 → Passes e Obj.MEM_LS_DELETE id s u → imageInUse u.w id = false →
      ∃ t, exec (.memLsDelete e id) s = .next t ∧
        ∀ x, x ∈ t.w.mem.items → x.2.ty ≤ 3 → x.2.id = id → x.2.state = 1) ∧
    (Passes e Obj.MEM_LS_CLEAR 1 s u →
      ∃ t, exec (.memLsClear e) s = .next t ∧
        ∀ x, x ∈ t.w.mem.items → x.2.ty ≤ 3 → x.2.state ≠ 1 → imageInUse u.w x.2.id = true) ∧
    (∀ v : Nat, u.ctl.mode = .service → Passes e Obj.MEM_ECC_INJECT v s u →
      unchangedBy Obj.MEM_ECC_INJECT v (pathSource e.path) u = true →
      ∃ t, exec (.memEccInject e v) s = .next t ∧ t.w.mem.inject = u.w.mem.inject ++ [(field v 5 3, bitOf v 0)])

/-- R197, R198, R207, R248, R260: a nozzle that is not MASKED takes the state written; storing the head records marks
their table for NVM; a swap exchanges a bar's slice with the spare; a discovery puts an enabled link that passes its
test into training; a write of YQL_RW_DATA keeps its value and sends the command. -/
def Obligations.BarAndLinkWrites : Prop :=
  ∀ (e : WriteEnv) (s u : State),
    (∀ b v : Nat, b < 8 → Passes e (Obj.JQ_NOZ_STATE b) v s u → unchangedBy (Obj.JQ_NOZ_STATE b) v (pathSource e.path) u = true →
      ∃ t, exec (.jqNozStateWrite e b v) s = .next t ∧
        nozState t.w (b * 262144 + (selNoz (inPrint u.ctl.mode) u.w b).1) = v) ∧
    (Passes e Obj.JQ_HEAD_STORE 1 s u →
      ∃ t, exec (.jqHeadStore e) s = .next t ∧ (Obj.JQ_HEAD_STATE / 256, u.w.clk) ∈ t.w.dict.norWait) ∧
    (∀ b : Nat, b < 8 → Passes e Obj.JQ_SLICE_SWAP b s u → u.ctl.mode = .idle ∨ u.ctl.mode = .service → spareOk u.w = true →
      ∃ t, exec (.jqSliceSwap e b) s = .next t ∧ getN t.w (Obj.JQ_BAR_SLICE b) = getN u.w Obj.JQ_SPARE ∧
        getN t.w Obj.JQ_SPARE = getN u.w (Obj.JQ_BAR_SLICE b)) ∧
    (∀ i, Passes e Obj.YQL_DISCOVER 1 s u → u.ctl.mode = .idle ∨ u.ctl.mode = .service → i < 24 →
      i < u.w.links.length → (linkAt u.w i).testOk = true →
      ∃ t, exec (.yqlDiscover e) s = .next t ∧
        (linkAt t.w i).st = (if linkEn u.w i then .training else .disabled)) ∧
    (∀ v : Nat, inPrint u.ctl.mode = false → Passes e Obj.YQL_RW_DATA v s u →
      unchangedBy Obj.YQL_RW_DATA v (pathSource e.path) u = true →
      ∃ t, exec (.yqlRwDataWrite e v) s = .next t ∧ getO t.w Obj.YQL_RW_DATA = v)

/-- R284, R291: a white capture begins with no line; storing the white table marks it for NVM; an upload wanted now gives
each named camera in use its next block; R313, R314, R320: requalification reports how many positions it takes up, a store
of the loop records marks their table and its clock, and a reference is taken from the mean gain. -/
def Obligations.InspectionWrites : Prop :=
  ∀ (e : WriteEnv) (s u : State),
    (Passes e Obj.INS_WHITE_CAPTURE 1 s u → u.ctl.mode = .idle ∨ u.ctl.mode = .service →
      ∃ t, exec (.insWhiteCapture e) s = .next t ∧ t.w.ins.cap = some { clk := u.w.clk, lines := 0, px := [] }) ∧
    (Passes e Obj.INS_WHITE_STORE 1 s u →
      ∃ t, exec (.insWhiteStore e) s = .next t ∧ (0x3700, u.w.clk) ∈ t.w.dict.norWait) ∧
    (∀ c, c < 8 → c < u.w.ins.uplNo.length → Passes e Obj.INS_UPL_NOW (2 ^ c : Nat) s u →
      getF u.w Obj.INS_UPL_CFG 0 2 = 2 → bitOf u.w.ins.cams c = true →
      ∃ t, exec (.insUplNow e (2 ^ c)) s = .next t ∧
        t.w.ins.uplNo.getD c 0 = (u.w.ins.uplNo.getD c 0 + 1) % 4294967296) ∧
    (∀ mask : Nat, 1 ≤ mask → mask ≤ 255 → Passes e Obj.CHL_REQUAL mask s u → Quiet u →
      ∃ t, exec (.chlRequal e mask) s = .next t ∧
        lastData t Ev.CHL_REQUAL =
          ((u.w.loop.loopset.map (·.1)).filter fun k => bitOf mask (k / 262144)).length % 4294967296) ∧
    (Passes e Obj.CHL_STORE 1 s u →
      ∃ t, exec (.chlStore e) s = .next t ∧ t.w.loop.storeClk = some u.w.clk ∧ (0x3810, u.w.clk) ∈ t.w.dict.norWait) ∧
    (∀ b : Nat, b < 8 → Passes e Obj.CHL_REF_TAKE (2 ^ b : Nat) s u →
      ∃ t, exec (.chlRefTake e (2 ^ b)) s = .next t ∧ getO t.w (Obj.CHL_KREF b) = (kMean u.w b : Int))

/-- R394: SUP_RESET 1 restarts the host core where it is up, 2 resets the device into BOOT with its cause; R392: the
stop command is bit 12 of SUP_STOP_SRC; R422: THM_ACK leaves THERMAL_HOLD for CALIBRATE once every sensor is cool; R356:
the fault history is cleared; R455: an authenticated write of 1 empties the event log in IDLE and SERVICE, with
EVT_LOG_CLEARED first behind it where its route has LOG (R452), and nothing else. -/
def Obligations.SupervisorWrites : Prop :=
  ∀ (e : WriteEnv) (s u : State),
    (Passes e Obj.SUP_RESET 1 s u → u.w.sys.hostUp = true →
      ∃ t, exec (.supResetHost e) s = .next t ∧ getO t.w Obj.SUP_HOST_STATE = 1 ∧
        getN t.w Obj.SUP_HOST_RESTARTS = (getN u.w Obj.SUP_HOST_RESTARTS + 1) % 4294967296) ∧
    (Passes e Obj.SUP_RESET 2 s u →
      ∃ t, exec (.supResetDevice e) s = .next t ∧ t.ctl.mode = .boot ∧ t.ctl.prev = u.ctl.mode ∧
        t.ctl.sec.slots = u.ctl.sec.slots ∧ getO t.w Obj.SYS_RESET_CAUSE = 1 ∧ t.w.sup.outs = 0) ∧
    (∀ v : Nat, Passes e Obj.SUP_STOP_CMD v s u → unchangedBy Obj.SUP_STOP_CMD v (pathSource e.path) u = true →
      ∃ t, exec (.supStopCmdWrite e v) s = .next t ∧ getO t.w Obj.SUP_STOP_CMD = v ∧
        getN t.w Obj.SUP_STOP_SRC = setBit (getN u.w Obj.SUP_STOP_SRC) 12 (v != 0)) ∧
    (Passes e Obj.THM_ACK 1 s u → u.ctl.mode = .thermalHold → allCool u.w = true →
      ∃ t, exec (.thmAck e) s = .next t ∧ t.ctl.mode = .calibrate ∧ t.w.sys.holdFlag = false) ∧
    (Passes e Obj.EVT_LOG_CLEAR 1 s u → u.ctl.mode = .idle ∨ u.ctl.mode = .service →
      ∃ t, exec (.evtLogClear e) s = .next t ∧ t.w.evt.log = [] ∧ t.w.evt.head = 0 ∧
        t.w.thm.journal = u.w.thm.journal ∧ t.w.dict.adj = u.w.dict.adj ∧
        (Quiet u → bitOf (routeOf u.w Ev.EVT_LOG_CLEARED) 0 = true →
          t.w.evt.staging.map (·.code) = [Ev.EVT_LOG_CLEARED])) ∧
    (Passes e Obj.EVT_LOG_CLEAR 1 s u → u.ctl.mode ≠ .idle → u.ctl.mode ≠ .service →
      ∃ t, exec (.evtLogClear e) s = .next t ∧ t.w.evt.log = u.w.evt.log ∧
        getO t.w Obj.CFG_ADJ_OBJECT = (Obj.EVT_LOG_CLEAR / 256 * 65536 + Obj.EVT_LOG_CLEAR % 256 * 256 + 6 : Nat)) ∧
    (∀ v, e.auth = none → passesTo e Obj.EVT_LOG_CLEAR (valueCode Obj.EVT_LOG_CLEAR) (valueBytes Obj.EVT_LOG_CLEAR v) s = none) ∧
    (∀ i, i < 9 → Passes e (Obj.NET_CAN_ERR_HIST 0) 0 s u → unchangedBy (Obj.NET_CAN_ERR_HIST 0) 0 (pathSource e.path) u = true →
      ∃ t, exec (.canErrHistClear e) s = .next t ∧ getO t.w (Obj.NET_CAN_ERR_HIST i) = 0)

/-- R332, R334, R335: a READ of one object is answered with its status, type code and data; a READ of no item, or of more
than 64, and a malformed message are discarded and counted. -/
def Obligations.KoaReads : Prop :=
  ∀ (s : State) (a : Addr) (reqId : Nat), koaUp s.w a.iface = true →
    (∀ ix sub f st code data u, readItem s.ctl ix sub f (fresh s).w = (st, code, data, u) → data.length ≤ 8000 →
      ∃ t, exec (.koaRead a reqId [(ix, sub, f)]) s = .next t ∧ t.ctl = s.ctl ∧
        t.w.out.getLast? = some (.koa a 0x81 0 reqId (leBytes 2 1 ++ [0, 0] ++
          (leBytes 2 ix ++ [sub, st, code, 0, 0, 0] ++ leBytes 4 data.length ++ pad4 data)))) ∧
    (∀ items : List (Nat × Nat × Bool), items.length = 0 ∨ 64 < items.length →
      ∃ t, exec (.koaRead a reqId items) s = .next t ∧ t.w.out = [] ∧ Touches [] (objsOf [Obj.NET_KOA_BAD]) s t ∧
        getN t.w Obj.NET_KOA_BAD = (getN s.w Obj.NET_KOA_BAD + 1) % 4294967296) ∧
    (∃ t, exec (.koaMessageDiscard a.iface) s = .next t ∧ t.w.out = [] ∧ Touches [] (objsOf [Obj.NET_KOA_BAD]) s t ∧
      getN t.w Obj.NET_KOA_BAD = (getN s.w Obj.NET_KOA_BAD + 1) % 4294967296)

/-- R325, R334: a write over KOA that fails one of steps 1 to 5 is answered with the status of the first step it fails and
changes no object. -/
def Obligations.RefusedWrites : Prop :=
  ∀ (s : State) (a : Addr) (reqId : Nat) (auth : Option Trailer) (ix sub ty : Nat) (bytes : List Nat),
    koaUp s.w a.iface = true →
    keptAnswer (dropOld (fresh s).w) a reqId
      (requestBytes { path := .koa a reqId, auth := auth } ix sub ty bytes) = none →
    (∀ st, (answers s.w ix = false ∧ st = St.hostDown) ∨
        (answers s.w ix = true ∧ indexExists ix = false ∧ st = St.noObject) ∨
        (answers s.w ix = true ∧ indexExists ix = true ∧ subExists ix sub = false ∧ st = St.noSub) ∨
        (∃ r n o, answers s.w ix = true ∧ indexExists ix = true ∧ subExists ix sub = true ∧
          objRow (ix * 256 + sub) = some (r, n, o) ∧
          ((writable r o = false ∧ st = St.readOnly) ∨
            (writable r o = true ∧ r.key ≠ Obj.LCK_ROW_POS 0 ∧ ty ≠ tyCode (keyTy r (ix * 256 + sub)) ∧ st = St.type))) →
      ∃ t body, exec (.objectWrite { path := .koa a reqId, auth := auth } ix sub ty bytes) s = .next t ∧
        t.w.out = [.koa a 0x82 st reqId body] ∧ Touches [.net] noObj s t)

/-- R339, R345: the partner table. A HELLO from a present partner at its address renews its time; one from a new serial
takes an entry, or is counted where none is free; a partner without a HELLO for NET_PARTNER_TO_MS departs. The device
sends its own HELLO every NET_HELLO_MS. R338, R361: NOTIFY and links. With 32 records pending, or 1 ms after the first,
up to 32 go out in order with the partner's next sequence number; a link that comes or goes is noted. -/
def Obligations.PartnersAndNotify : Prop :=
  (∀ s : State, hostServing s.w = true →
    (∀ (a : Addr) (serial vendor product revision role period : Nat), ifaceServes s.w a.iface = true →
      getF s.w (Obj.NET_IF_CFG a.iface) 4 1 = 1 →
      (∀ n p, presentEntry s.w serial = some (n, p) → p.addr = a →
        ∃ t q, exec (.helloRx a serial vendor product revision role period false) s = .next t ∧ t.ctl = s.ctl ∧
          mapGet t.w.net.partners n = some q ∧ q.lastClk = s.w.clk ∧ q.serial = p.serial ∧ q.role = role) ∧
      (∀ n, presentEntry s.w serial = none → freeEntry s.w serial = some n →
        ∃ t q, exec (.helloRx a serial vendor product revision role period false) s = .next t ∧ t.ctl = s.ctl ∧
          mapGet t.w.net.partners n = some q ∧ q.present = true ∧ q.departed = false ∧ q.serial = serial ∧
          q.lastClk = s.w.clk) ∧
      (presentEntry s.w serial = none → freeEntry s.w serial = none →
        ∃ t, exec (.helloRx a serial vendor product revision role period false) s = .next t ∧
          getN t.w Obj.NET_PARTNER_FULL = (getN s.w Obj.NET_PARTNER_FULL + 1) % 4294967296 ∧
          Touches [] (objsOf [Obj.NET_PARTNER_FULL]) s t)) ∧
    (∀ n p, mapGet s.w.net.partners n = some p → p.present = true → peerFixed s.w n = false →
      p.lastClk + msClk (getN s.w Obj.NET_PARTNER_TO_MS) ≤ s.w.clk →
      ∃ t q, exec (.partnerTimeout n) s = .next t ∧ t.ctl = s.ctl ∧ mapGet t.w.net.partners n = some q ∧
        q.present = false ∧ q.departed = true ∧ q.serial = p.serial) ∧
    (∀ i, i < s.w.net.helloSeq.length → ifaceServes s.w i = true → getF s.w (Obj.NET_IF_CFG i) 4 1 = 1 →
      s.w.net.helloClk.getD i 0 + msClk (getN s.w Obj.NET_HELLO_MS) ≤ s.w.clk →
      ∃ t, exec (.helloSend i) s = .next t ∧
        t.w.out = [.hello i (s.w.net.helloSeq.getD i 0) (helloBody s.w i false)] ∧
        t.w.net.helloSeq.getD i 0 = (s.w.net.helloSeq.getD i 0 + 1) % 4294967296 ∧ Touches [.net] noObj s t)) ∧
  (∀ s : State,
    (∀ n p, hostServing s.w = true → mapGet s.w.net.partners n = some p → notifiable s.w n p = true →
      32 ≤ p.notifyQ.length ∨ (p.notifyQ ≠ [] ∧ p.notifySince + msClk 1 ≤ s.w.clk) →
      ∃ t, exec (.notifySend n) s = .next t ∧ Touches [] noObj s t ∧
        t.w.out = [.notify p.addr (leBytes 4 ((p.notifySeq + 1) % 4294967296) ++
          leBytes 2 (p.notifyQ.take 32).length ++ [0, 0] ++ (p.notifyQ.take 32).flatMap fun r => evBytes r 0)] ∧
        (Quiet s → ∃ q, mapGet t.w.net.partners n = some q ∧ q.notifyQ = p.notifyQ.drop 32 ∧
          q.notifySeq = (p.notifySeq + 1) % 4294967296)) ∧
    (∀ i up, powered s.ctl.mode = true → i < 10 → i < s.w.net.linkUp.length → s.w.net.linkUp.getD i false = !up →
      ∃ t, exec (.netLink i up) s = .next t ∧ t.ctl = s.ctl ∧ t.w.net.linkUp = s.w.net.linkUp.set i up))

/-- R109, R110, R340: what opens a stream. A stream for the layer store whose item passes every check reserves its blocks
and is accepted with the next item; a target that does not exist is refused with 0x80; while the host core is down every
opening is answered HOST_DOWN. -/
def Obligations.StreamOpenings : Prop :=
  ∀ (s : State) (a : Addr) (stream off len window : Nat) (pre : List Nat), koaUp s.w a.iface = true → stream ≠ 0 →
    (hostServing s.w = false →
      ∀ target read, ∃ t, exec (.bulkOpenRx a target read stream off len window pre) s = .next t ∧
        t.w.out = [.bulkAck a stream St.hostDown 0 0 0 0 0] ∧ Touches [] noObj s t) ∧
    (hostServing s.w = true → findIn s.w a stream = none → findOut s.w a stream = none →
      getF s.w (Obj.NET_IF_CFG a.iface) 3 1 = 1 →
      (∀ target, target ≠ 1 → domRow target = none →
        ∃ t, exec (.bulkOpenRx a target false stream off len window pre) s = .next t ∧
          t.w.out = [.bulkAck a stream St.refused 0x80 0 0 0 0] ∧ Touches [] noObj s t) ∧
      (off = 0 → s.w.net.bulkIn.length < 32 → itemRefusal s.w pre (headerItem pre) = 0 → len = (headerItem pre).length →
        ∃ t b, exec (.bulkOpenRx a 1 false stream off len window pre) s = .next t ∧
          t.w.net.bulkIn = s.w.net.bulkIn ++ [b] ∧ b.addr = a ∧ b.stream = stream ∧ b.target = 1 ∧ b.length = len ∧
          b.item = s.w.mem.nextItem ∧ b.blocks = [] ∧ t.w.mem.nextItem = s.w.mem.nextItem + 1 ∧
          itemAt t.w s.w.mem.nextItem = some { headerItem pre with blocks := reserveBlocks (headerItem pre) } ∧
          Touches [.net, .mem] noObj s t) ∧
      (off = 0 → s.w.net.bulkIn.length < 32 → itemRefusal s.w pre (headerItem pre) ≠ 0 →
        ∃ t, exec (.bulkOpenRx a 1 false stream off len window pre) s = .next t ∧
          t.w.out = [.bulkAck a stream St.refused (itemRefusal s.w pre (headerItem pre)) 0 0 0 0] ∧
          getN t.w Obj.MEM_ING_REFUSED = (getN s.w Obj.MEM_ING_REFUSED + 1) % 4294967296 ∧
          Touches [] (objsOf [Obj.MEM_ING_REFUSED]) s t))

/-- R341, R342: blocks of a stream. One with a wrong CRC is counted and not taken; one of the right length within the
window is taken; ingest that has a share of DRAM again opens its windows.
R111, R343: how a stream into the layer store ends. A whole image replaces what stood under its ID and is complete; a
transfer that ends short, by its close or by NET_BULK_IDLE_MS without a block, is incomplete where no other item stands
under its name, and its stream is gone. -/
def Obligations.StreamBlocksAndEnds : Prop :=
  (∀ s : State,
    (∀ (a : Addr) (stream k : Nat) (data : List Nat) b, bulkUp s.w a.iface = true → findIn s.w a stream = some b →
      (∀ crc share, crc ≠ crc32c data →
        ∃ t, exec (.bulkDataRx a stream k data crc share) s = .next t ∧ findIn t.w a stream = some b ∧ t.w.out = [] ∧
          getN t.w Obj.NET_BULK_CRC = (getN s.w Obj.NET_BULK_CRC + 1) % 4294967296 ∧
          Touches [.net] (objsOf [Obj.NET_BULK_CRC]) s t) ∧
      (data.length = blockLen b k → data ≠ [] → k < nextBlock b + getN s.w Obj.NET_BULK_WINDOW →
        mapGet b.blocks k = none →
        ∃ t b', exec (.bulkDataRx a stream k data (crc32c data) true) s = .next t ∧ findIn t.w a stream = some b' ∧
          mapGet b'.blocks k = some data ∧ b'.lastClk = s.w.clk ∧ t.w.out.length = 1 ∧
          (b.target = 1 → getN t.w Obj.MEM_ING_BYTES =
            (getN s.w Obj.MEM_ING_BYTES + data.length) % 18446744073709551616))) ∧
    (s.w.sys.voted = true → s.w.net.ingestShare = 0 →
      ∃ t, exec .bulkWindowReopen s = .next t ∧ t.w.net.ingestShare = 1 ∧
        t.w.out.length = (s.w.net.bulkIn.filter (·.target == 1)).length ∧ Touches [.net] noObj s t)) ∧
  (∀ (s : State) (a : Addr) (stream : Nat) (b : BulkIn) (i : Item), findIn s.w a stream = some b → b.target = 1 →
    itemAt s.w b.item = some i →
    (koaUp s.w a.iface = true → hostServing s.w = true →
      (b.length = i.length → allBlocks b = true → i.ty = 1 →
        ∃ t, exec (.bulkCloseRx a stream 0 b.length) s = .next t ∧ findIn t.w a stream = none ∧
          itemAt t.w b.item = some { i with data := streamData b, state := 2 } ∧ Touches [.net, .mem] noObj s t ∧
          (Quiet s → Reports s t Ev.IMG_COMPLETE (ceilDiv i.length 65536))) ∧
      (∀ reason len, reason ≠ 0 → hasOlder s.w b.item i = false →
        ∃ t, exec (.bulkCloseRx a stream reason len) s = .next t ∧ findIn t.w a stream = none ∧
          itemAt t.w b.item = some { i with state := 3, blocks := ceilDiv (gotBytes b) 65536 } ∧
          Touches [.net, .mem] noObj s t)) ∧
    (b.closing = none → b.lastClk + msClk (getN s.w Obj.NET_BULK_IDLE_MS) ≤ s.w.clk → hasOlder s.w b.item i = false →
      ∃ t, exec (.bulkIdleTimeout a stream) s = .next t ∧ findIn t.w a stream = none ∧
        itemAt t.w b.item = some { i with state := 3, blocks := ceilDiv (gotBytes b) 65536 } ∧
        (Quiet s → Reports s t Ev.IMG_INCOMPLETE b.blocks.length)))

/-- R291, R292, R342: streams that the device sends. An opening that is accepted opens the stream with its window; a
preview block whose close is taken is counted; blocks without an answer for 1 ms go out again, and after 1 s the stream is
given up with a close. A periodic upload numbers a block for each camera in use; a block whose scans have been read is
sent. -/
def Obligations.StreamsOut : Prop :=
  ∀ s : State,
    (∀ (a : Addr) (stream : Nat) b, findOut s.w a stream = some b →
      (∀ status window next sack, ifaceServes s.w a.iface = true →
        (b.opened = false → b.closed = false → status = 0 → b.purpose ≠ 2 ∨ window ≠ 0 →
          ∃ t b', exec (.bulkAckRx a stream status window next sack) s = .next t ∧ findOut t.w a stream = some b' ∧
            b'.opened = true ∧ b'.window = window ∧ Touches [.net] noObj s t) ∧
        (b.closed = true → status ≤ 1 → b.purpose = 2 →
          ∃ t, exec (.bulkAckRx a stream status window next sack) s = .next t ∧ t.ctl = s.ctl ∧
            getN t.w Obj.JOB_PRV_BLOCKS = (getN s.w Obj.JOB_PRV_BLOCKS + 1) % 4294967296)) ∧
      (∀ k x y, ifaceServes s.w a.iface = true → b.times = [(k, (x, y))] → y + msClk 1 ≤ s.w.clk →
        ∃ t, exec (.bulkResendTimeout a stream) s = .next t ∧
          t.w.out = [.bulkData a stream k (blockBytes b.data k)] ∧ Touches [.net] noObj s t) ∧
      (∀ k x y, (k, (x, y)) ∈ b.times → x + secClk 1 ≤ s.w.clk → b.opened = true → b.closed = false →
        ∃ t, exec (.bulkSendAbandon a stream) s = .next t ∧ t.ctl = s.ctl ∧
          t.w.out.head? = some (.bulkClose a stream 1 b.data.length))) ∧
    (getF s.w Obj.INS_UPL_CFG 0 2 = 1 → s.w.ins.uplClk + msClk (getN s.w Obj.INS_UPL_PERIOD_MS) ≤ s.w.clk →
      ∃ t, exec .insUplPeriod s = .next t ∧ t.w.ins.uplClk = s.w.clk ∧ Touches [.ins] (objsOf [Obj.INS_UPL_DROPPED]) s t ∧
        ∀ c, c < 8 → c < s.w.ins.uplNo.length → t.w.ins.uplNo.getD c 0 =
          (if bitOf (getF s.w Obj.INS_UPL_CFG 8 8) c && bitOf s.w.ins.cams c then (s.w.ins.uplNo.getD c 0 + 1) % 4294967296
           else s.w.ins.uplNo.getD c 0)) ∧
    (∀ u rest a, s.w.ins.upl = u :: rest → uplRead s.w u = true →
      s.w.ins.ringLine - u.ringAt ≤ (getN s.w Obj.MEM_INS_MIB - 320) * 1048576 / 73728 → getN s.w Obj.MUS_GEN_STATE ≠ 2 →
      sum ((lastSecond s.w.clk s.w.ins.uplBytes).map (·.2)) ≤ 62500000 →
      s.w.net.bulkOut.any (·.purpose == 3) = false → s.w.net.bulkOut.length < 8 →
      partnerAddr s.w (getN s.w Obj.INS_UPL_PARTNER) = some a →
      ∃ t b, exec .uploadBlockReady s = .next t ∧ t.w.ins.upl = rest ∧ t.w.net.bulkOut = s.w.net.bulkOut ++ [b] ∧
        b.addr = a ∧ b.purpose = 3 ∧ b.stream = s.w.net.nextStream ∧ t.ctl = s.ctl)

/-- R353, R354: the NMT commands. Start, stop and enter pre-operational set the state of a running node they address; a
reset begins communication anew in PRE-OPERATIONAL with its boot-up message where the port is enabled.
R355: heartbeats. The own one goes out every NET_CAN_HB_PROD; a watched node's renews its time; one that misses its
time is lost, and stops the web through bit 4 of SUP_STOP_SRC with HB_ACT. -/
def Obligations.NmtAndHeartbeats : Prop :=
  (∀ (s : State) (node : Nat), canUp s.w = true → node = 0 ∨ node = s.w.can.node →
    (∃ t, exec (.nmtStart node) s = .next t ∧ t.w.can.nmt = 2 ∧ Touches [.can] noObj s t) ∧
    (∃ t, exec (.nmtStop node) s = .next t ∧ t.w.can.nmt = 3 ∧ t.w.can.sdo = none ∧ Touches [.can] noObj s t) ∧
    (∃ t, exec (.nmtEnterPreOperational node) s = .next t ∧ t.w.can.nmt = 1 ∧ Touches [.can] noObj s t) ∧
    ∀ c : Instr, c = .nmtResetNode node ∨ c = .nmtResetCommunication node →
      ∃ t, exec c s = .next t ∧ t.ctl = s.ctl ∧ t.w.can.nmt = b2n (bitOf (getO s.w Obj.NET_CAN_CFG).toNat 0) ∧
        t.w.can.node = getN s.w Obj.NET_CAN_NODE ∧ t.w.can.hb = [] ∧ t.w.can.sdo = none ∧
        t.w.out = (if bitOf (getO s.w Obj.NET_CAN_CFG).toNat 0 then [.can (0x700 + getN s.w Obj.NET_CAN_NODE) [0] false]
          else [])) ∧
  (∀ s : State,
    (canUp s.w = true → getN s.w Obj.NET_CAN_HB_PROD ≠ 0 →
      s.w.can.hbClk + msClk (getN s.w Obj.NET_CAN_HB_PROD) ≤ s.w.clk →
      ∃ t, exec .heartbeatProduce s = .next t ∧ t.w.can.hbClk = s.w.clk ∧ Touches [.can] noObj s t ∧
        t.w.out = [.can (0x700 + s.w.can.node)
          [match s.w.can.nmt with | 1 => 0x7F | 2 => 5 | _ => 4] false]) ∧
    (∀ i node ms, i < 4 → canUp s.w = true → watched s.w i = some (node, ms) →
      ∃ t, exec (.heartbeatRx node) s = .next t ∧ mapGet t.w.can.hb i = some (s.w.clk, false) ∧ t.ctl = s.ctl ∧
        Touches [.can] (objsOf [Obj.SUP_STOP_SRC]) s t) ∧
    (∀ i node ms c, s.w.sys.voted = true → s.w.can.nmt ≠ 0 → watched s.w i = some (node, ms) →
      mapGet s.w.can.hb i = some (c, false) → c + msClk ms ≤ s.w.clk →
      ∃ t, exec (.canHbLost i) s = .next t ∧ mapGet t.w.can.hb i = some (c, true) ∧
        getN t.w Obj.SUP_STOP_SRC =
          (if bitOf s.w.can.cfg.toNat 7 then setBit (getN s.w Obj.SUP_STOP_SRC) 4 true else getN s.w Obj.SUP_STOP_SRC) ∧
        Touches [.can] (objsOf [Obj.SUP_STOP_SRC]) s t))

/-- R353, R356, R358: what else the port sends, and its error states. The oldest queued event goes out as EMCY after the
inhibit time and into the error history; a TPDO whose event timer has run out carries its mapped objects; the controller's
counters and error state are noted, and bus-off ends with its recovery. -/
def Obligations.CanTransmit : Prop :=
  ∀ s : State,
    (∀ r q, canUp s.w = true → s.w.can.emcyQ = r :: q → bitOf (getN s.w Obj.NET_CAN_EMCY_COB) 31 = false →
      (∀ c, s.w.can.emcyClk = some c → c + usClk (100 * getN s.w Obj.NET_CAN_EMCY_INH) ≤ s.w.clk) →
      ∃ t, exec .emcySend s = .next t ∧ getO t.w (Obj.NET_CAN_ERR_HIST 1) = (0xFF00 + r.code : Nat) ∧
        t.w.can.emcyClk = some s.w.clk ∧ (Quiet s → t.w.can.emcyQ = q) ∧
        t.w.out = [.can (getN s.w Obj.NET_CAN_EMCY_COB % 536870912)
          (leBytes 2 (0xFF00 + r.code) ++ [canErrReg s.ctl.mode s.w, r.inst % 256] ++ leBytes 4 r.data) false]) ∧
    (∀ n, canUp s.w = true → s.w.can.nmt = 2 → hostServing s.w = true → n < 4 → n < s.w.can.tpdoClk.length →
      bitOf (getN s.w (Obj.NET_CAN_TPDO_COMM n 0)) 31 = false → mapEntries s.w n ≠ [] →
      getN s.w (Obj.NET_CAN_TPDO_COMM n 4) ≠ 0 →
      s.w.can.tpdoClk.getD n 0 + msClk (getN s.w (Obj.NET_CAN_TPDO_COMM n 4)) ≤ s.w.clk →
      bitOf (getN s.w Obj.NET_CAN_TPDO_FD) n = false →
      ∃ t, exec (.tpdoSend n) s = .next t ∧ t.w.can.tpdoClk.getD n 0 = s.w.clk ∧ t.ctl = s.ctl ∧
        t.w.out.getLast? = some (.can (getN s.w (Obj.NET_CAN_TPDO_COMM n 0) % 536870912)
          ((mapEntries s.w n).flatMap (mapData s.ctl (fresh s).w)) false)) ∧
    (∀ st rec_ tec, st ≤ 2 → s.w.sys.voted = true → s.w.can.nmt ≠ 0 →
      ∃ t, exec (.canBus st rec_ tec) s = .next t ∧ t.w.can.bus = st ∧
        getN t.w Obj.NET_CAN_ERRCNT = min 255 rec_ * 256 + min 255 tec ∧
        Touches [.can] (objsOf [Obj.NET_CAN_ERRCNT]) s t) ∧
    (s.w.sys.voted = true → s.w.can.bus = 2 →
      ∃ t, exec .canBusOffRecovery s = .next t ∧ t.w.can.bus = 0 ∧ getN t.w Obj.NET_CAN_ERRCNT = 0 ∧
        Touches [.can] (objsOf [Obj.NET_CAN_ERRCNT]) s t ∧ (Quiet s → Reports s t Ev.CAN_BUS 0))

/-- R357: SDO downloads. A segmented one that may begin waits for its segments; a segment in turn is kept, one out of turn
aborts the transfer; 1 s without a segment aborts it, and the client's abort ends it.
R357: SDO uploads. An object of up to 4 bytes comes in the answer, a longer one in segments of 7 bytes in turn. -/
def Obligations.SdoTransfers : Prop :=
  (∀ s : State, sdoUp s.w = true →
    (∀ ix sub size data, downloadStatus (setSdo none (fresh s).w) ix sub = St.ok →
      ∃ t, exec (.sdoInitiateDownload ix sub false size data) s = .next t ∧ Touches [.can] noObj s t ∧
        t.w.can.sdo = some { upload := false, index := ix, sub := sub, size := size, bytes := [], toggle := false,
                             clk := s.w.clk } ∧
        t.w.out = [.can (0x580 + s.w.can.node) (((0x60 :: leBytes 2 ix ++ [sub]) ++ zeroBytes 8).take 8) false]) ∧
    (∀ ix sub size data, downloadStatus (setSdo none (fresh s).w) ix sub ≠ St.ok →
      ∃ t, exec (.sdoInitiateDownload ix sub false size data) s = .next t ∧ Touches [.can] noObj s t ∧
        t.w.can.sdo = none ∧ t.w.out = [.can (0x580 + s.w.can.node) (((0x80 :: leBytes 2 ix ++ [sub] ++
          leBytes 4 (abortCode (downloadStatus (setSdo none (fresh s).w) ix sub))) ++ zeroBytes 8).take 8) false]) ∧
    (∀ x data, s.w.can.sdo = some x → x.upload = false →
      (x.size = 0 ∨ (x.bytes ++ data).length ≤ x.size → (x.bytes ++ data).length ≤ 276 →
        ∃ t, exec (.sdoDownloadSegment x.toggle false data) s = .next t ∧ Touches [.can] noObj s t ∧
          t.w.can.sdo = some { x with bytes := x.bytes ++ data, toggle := !x.toggle, clk := s.w.clk } ∧
          t.w.out = [.can (0x580 + s.w.can.node) (([0x20 + 16 * b2n x.toggle] ++ zeroBytes 8).take 8) false]) ∧
      (∃ t, exec (.sdoDownloadSegment (!x.toggle) false data) s = .next t ∧ Touches [.can] noObj s t ∧
        t.w.can.sdo = none ∧ t.w.out = [.can (0x580 + s.w.can.node) (((0x80 :: leBytes 2 x.index ++ [x.sub] ++
          leBytes 4 0x05040001) ++ zeroBytes 8).take 8) false]) ∧
      (∀ u, x.size = 0 ∨ (x.bytes ++ data).length = x.size → (x.bytes ++ data).length ≤ 276 →
        hasTrailer { s with w := setSdo none (fresh s).w } x.index x.sub (x.bytes ++ data).length = false →
        gateState { path := .can, auth := none } (x.index * 256 + x.sub) 0 (x.bytes ++ data)
          { s with w := setSdo none (fresh s).w } = some u → x.sub < 256 →
        ∃ t, exec (.sdoDownloadSegment x.toggle true data) s = .next t ∧
          t.w.out.getLast? = some (.can (0x580 + t.w.can.node)
            (([0x20 + 16 * b2n x.toggle] ++ zeroBytes 8).take 8) false))) ∧
    (∃ t, exec .sdoAbortRx s = .next t ∧ t.w.can.sdo = none ∧ t.w.out = [] ∧ Touches [.can] noObj s t) ∧
    (∀ x, s.w.can.sdo = some x → x.clk + secClk 1 ≤ s.w.clk →
      ∃ t, exec .sdoSegmentTimeout s = .next t ∧ t.w.can.sdo = none ∧ Touches [.can] noObj s t ∧
        t.w.out = [.can (0x580 + s.w.can.node) (((0x80 :: leBytes 2 x.index ++ [x.sub] ++
          leBytes 4 0x05040000) ++ zeroBytes 8).take 8) false])) ∧
  (∀ s : State, sdoUp s.w = true →
    (∀ ix sub code data u, readItem s.ctl ix sub false (setSdo none (fresh s).w) = (St.ok, code, data, u) →
      (1 ≤ data.length → data.length ≤ 4 →
        ∃ t, exec (.sdoInitiateUpload ix sub) s = .next t ∧ t.ctl = s.ctl ∧ t.w.can.sdo = none ∧
          t.w.out.getLast? = some (.can (0x580 + s.w.can.node)
            ((((0x43 + 4 * (4 - data.length)) :: leBytes 2 ix ++ [sub] ++ data) ++ zeroBytes 8).take 8) false)) ∧
      (4 < data.length →
        ∃ t, exec (.sdoInitiateUpload ix sub) s = .next t ∧ t.ctl = s.ctl ∧
          t.w.can.sdo.map (fun x => (x.upload, x.bytes, x.toggle)) = some (true, data, false))) ∧
    (∀ x, s.w.can.sdo = some x → x.upload = true →
      ∃ t, exec (.sdoUploadSegment x.toggle) s = .next t ∧ Touches [.can] noObj s t ∧
        t.w.can.sdo = (if x.bytes.drop 7 = [] then none
          else some { x with bytes := x.bytes.drop 7, toggle := !x.toggle, clk := s.w.clk }) ∧
        t.w.out = [.can (0x580 + s.w.can.node) ((((16 * b2n x.toggle + 2 * (7 - (x.bytes.take 7).length) +
          b2n (x.bytes.drop 7 == [])) :: x.bytes.take 7) ++ zeroBytes 8).take 8) false]))

/-- R450, R452, R454: an event that is delivered takes the next SEQ and goes where its route word says: into the staging
buffer while it holds fewer than 768 records, and is counted as dropped when it does not; to EVT_RECENT while the host
core serves; as the last record of its code; into the EMCY queue. -/
def Obligations.EventDelivery : Prop :=
  ∀ (w : World) (r q : EvRec), w.evt.raised = [r] →
    q = { r with seq := (w.evt.seq + 1) % 4294967296, serge := w.sys.voted && !hostServing w } →
    (settle w).evt.seq = (w.evt.seq + 1) % 4294967296 ∧ (settle w).evt.raised = [] ∧
    (bitOf (routeOf w r.code) 0 = true → w.evt.staging.length < 768 → (settle w).evt.staging = w.evt.staging ++ [q]) ∧
    (bitOf (routeOf w r.code) 0 = true → 768 ≤ w.evt.staging.length →
      (settle w).evt.staging = w.evt.staging ∧ (settle w).evt.dropRun = w.evt.dropRun + 1 ∧
      getN (settle w) Obj.EVT_LOG_DROPPED = (getN w Obj.EVT_LOG_DROPPED + 1) % 4294967296) ∧
    (bitOf (routeOf w r.code) 0 = false → (settle w).evt.staging = w.evt.staging) ∧
    (bitOf (routeOf w r.code) 1 = true → hostServing w = true →
      (settle w).evt.recent = lastN 1024 (w.evt.recent ++ [q])) ∧
    (bitOf (routeOf w r.code) 2 = true → mapGet (settle w).evt.last r.code = some q) ∧
    (bitOf (routeOf w r.code) 4 = true → w.can.emcyQ.length < 16 → (settle w).can.emcyQ = w.can.emcyQ ++ [q]) ∧
    (bitOf (routeOf w r.code) 4 = false → (settle w).can.emcyQ = w.can.emcyQ)

/-- R328: an adjustment is the last record of CFG_ADJ_LOG, which holds at most 256, and is counted and shown in 0x2C40. -/
def Obligations.Adjustments : Prop :=
  ∀ (w : World) (key reason source : Nat) (request applied : Int),
    (adjust w key reason source request applied).dict.adj.length ≤ 256 ∧
    (∃ r, (adjust w key reason source request applied).dict.adj.getLast? = some r ∧ r.index = key / 256 ∧
      r.sub = key % 256 ∧ r.reason = reason ∧ r.source = source ∧ r.et = nowEt w ∧
      r.seq = (getN w Obj.CFG_ADJ_COUNT + 1) % 4294967296) ∧
    getN (adjust w key reason source request applied) Obj.CFG_ADJ_COUNT =
      (getN w Obj.CFG_ADJ_COUNT + 1) % 4294967296 ∧
    getN (adjust w key reason source request applied) Obj.CFG_ADJ_OBJECT =
      key / 256 * 65536 + key % 256 * 256 + reason ∧
    getN (adjust w key reason source request applied) Obj.CFG_ADJ_SOURCE = source

/-- R329, R453, R454, R456: what reaches memory that keeps its content. The oldest value that waits goes to FRAM, the
oldest table to NOR, what is staged to the event log behind its newest record; a pulse output ends with its time; an
instruction of the debug port's boundary scan changes nothing. -/
def Obligations.StoresAndPorts : Prop :=
  ∀ s : State,
    (∀ k v c rest, powered s.ctl.mode = true → s.w.dict.framWait = (k, v, c) :: rest → k ≠ Obj.NET_HOST_NAME →
      ∃ t, exec .framValueStoreDone s = .next t ∧ t.w.dict.framWait = rest ∧ mapGet t.w.dict.fram k = some v ∧
        (∀ j, j ≠ k → mapGet t.w.dict.fram j = mapGet s.w.dict.fram j) ∧ Touches [.stores] noObj s t) ∧
    (∀ ix c rest, powered s.ctl.mode = true → s.w.dict.norWait = (ix, c) :: rest →
      ∃ t, exec .norTableStoreDone s = .next t ∧ t.w.dict.norWait = rest ∧ Touches [.stores, .nvm] noObj s t ∧
        (ix = Obj.LCK_ALIGN_TABLE / 256 → t.w.nvm.align = s.w.lck.align) ∧
        (ix = Obj.JQ_HEAD_STATE / 256 → t.w.nvm.heads = s.w.jq.recs) ∧
        (ix = Obj.CHL_HEAD_LOOP / 256 → t.w.nvm.loops = s.w.loop.recs)) ∧
    (∀ r, powered s.ctl.mode = true → s.w.sys.voted = true → s.w.evt.staging.getLast? = some r → s.w.evt.dropRun = 0 →
      Quiet s →
      ∃ t, exec .evtStagingDrain s = .next t ∧ t.w.evt.staging = [] ∧ mapGet t.w.evt.log t.w.evt.head = some r ∧
        Touches [] noObj s t) ∧
    (∀ n c, n < s.w.evt.outLevel.length → n < s.w.evt.outEnd.length → s.w.evt.outEnd.getD n none = some c →
      c ≤ s.w.clk → Quiet s →
      ∃ t, exec (.evtOutPulseEnd n) s = .next t ∧ t.w.evt.outLevel.getD n true = false ∧
        t.w.evt.outEnd.getD n (some 0) = none ∧ Touches [] noObj s t) ∧
    (∃ t, exec .boundaryScanInstruction s = .next t ∧ Touches [] noObj s t ∧ (Quiet s → t.w.evt = s.w.evt))
end

