-- ==== Sys2Proof/Laws/Map.lean ====
section
/-! SUPPORT. The laws of the sparse store: read after write, and that every operation keeps the canonical form. -/

namespace Sys2Proof.Machine

variable {α : Type}

@[simp] theorem mapGet_nil (k : Nat) : mapGet ([] : KMap α) k = none := rfl

@[simp] theorem mapGet_mapPut_same (m : KMap α) (k : Nat) (v : α) : mapGet (mapPut m k v) k = some v := by
  induction m with
  | nil => simp [mapPut, mapGet]
  | cons e r ih =>
    obtain ⟨k', v'⟩ := e
    by_cases h : k < k'
    · simp [mapPut, h, mapGet]
    · by_cases h2 : k = k'
      · simp [mapPut, h2, mapGet]
      · simp [mapPut, h, h2, mapGet, Ne.symm h2, ih]

theorem mapGet_mapPut_ne (m : KMap α) {k j : Nat} (v : α) (hj : k ≠ j) : mapGet (mapPut m k v) j = mapGet m j := by
  induction m with
  | nil => simp [mapPut, mapGet, hj]
  | cons e r ih =>
    obtain ⟨k', v'⟩ := e
    by_cases h : k < k'
    · simp [mapPut, h, mapGet, hj]
    · by_cases h2 : k = k'
      · subst h2; simp [mapPut, mapGet, hj]
      · simp [mapPut, h, h2, mapGet, ih]

@[simp] theorem mapGet_mapDel_same (m : KMap α) (k : Nat) : mapGet (mapDel m k) k = none := by
  induction m with
  | nil => rfl
  | cons e r ih =>
    obtain ⟨k', v'⟩ := e
    by_cases h : k' = k <;> simp [mapDel, h, mapGet, ih]

theorem mapGet_mapDel_ne (m : KMap α) {k j : Nat} (hj : k ≠ j) : mapGet (mapDel m k) j = mapGet m j := by
  induction m with
  | nil => rfl
  | cons e r ih =>
    obtain ⟨k', v'⟩ := e
    by_cases h : k' = k
    · subst h; simp [mapDel, mapGet, hj, ih]
    · simp [mapDel, h, mapGet, ih]

@[simp] theorem mapGetD_nil (k : Nat) (d : α) : mapGetD [] k d = d := rfl

theorem mapGetD_mapPut_same (m : KMap α) (k : Nat) (v d : α) : mapGetD (mapPut m k v) k d = v := by
  simp [mapGetD]

theorem mapGetD_mapPut_ne (m : KMap α) {k j : Nat} (v d : α) (h : k ≠ j) :
    mapGetD (mapPut m k v) j d = mapGetD m j d := by
  simp [mapGetD, mapGet_mapPut_ne m v h]

@[simp] theorem mapGetD_mapPutD_same [DecidableEq α] (m : KMap α) (k : Nat) (v d : α) :
    mapGetD (mapPutD m k v d) k d = v := by
  by_cases h : v = d <;> simp [mapPutD, h, mapGetD]

theorem mapGetD_mapPutD_ne [DecidableEq α] (m : KMap α) {k j : Nat} (v d d' : α) (h : k ≠ j) :
    mapGetD (mapPutD m k v d) j d' = mapGetD m j d' := by
  by_cases hv : v = d
  · simp [mapPutD, hv, mapGetD, mapGet_mapDel_ne m h]
  · simp [mapPutD, hv, mapGetD, mapGet_mapPut_ne m v h]

/-! ### The canonical form -/

theorem keysAbove_mono (m : KMap α) {j k : Nat} (hjk : j ≤ k) (h : keysAbove k m = true) : keysAbove j m = true := by
  induction m with
  | nil => rfl
  | cons e r ih =>
    obtain ⟨k', v'⟩ := e
    simp only [keysAbove, Bool.and_eq_true, decide_eq_true_eq] at h ⊢
    exact ⟨by omega, ih h.2⟩

theorem keysAbove_mapPut (m : KMap α) {j k : Nat} (v : α) (hjk : j < k) (h : keysAbove j m = true) :
    keysAbove j (mapPut m k v) = true := by
  induction m with
  | nil => simp [mapPut, keysAbove, hjk]
  | cons e r ih =>
    obtain ⟨k', v'⟩ := e
    simp only [keysAbove, Bool.and_eq_true, decide_eq_true_eq] at h
    by_cases h1 : k < k'
    · simp [mapPut, h1, keysAbove, hjk, h.1, h.2]
    · by_cases h2 : k = k'
      · simp [mapPut, h2, keysAbove, h.1, h.2]
      · simp [mapPut, h1, h2, keysAbove, h.1, ih h.2]

theorem mapPut_wf (m : KMap α) (k : Nat) (v : α) (h : mapWf m = true) : mapWf (mapPut m k v) = true := by
  induction m with
  | nil => rfl
  | cons e r ih =>
    obtain ⟨k', v'⟩ := e
    simp only [mapWf, Bool.and_eq_true] at h
    by_cases h1 : k < k'
    · simp [mapPut, h1, mapWf, keysAbove, h.1, h.2, keysAbove_mono r (Nat.le_of_lt h1) h.1]
    · by_cases h2 : k = k'
      · subst h2; simp [mapPut, mapWf, h.1, h.2]
      · have h3 : k' < k := by omega
        simp [mapPut, h1, h2, mapWf, ih h.2, keysAbove_mapPut r v h3 h.1]

theorem keysAbove_mapDel (m : KMap α) (j k : Nat) (h : keysAbove j m = true) : keysAbove j (mapDel m k) = true := by
  induction m with
  | nil => rfl
  | cons e r ih =>
    obtain ⟨k', v'⟩ := e
    simp only [keysAbove, Bool.and_eq_true, decide_eq_true_eq] at h
    by_cases h1 : k' = k <;> simp [mapDel, h1, keysAbove, ih h.2]
    exact h.1

theorem mapDel_wf (m : KMap α) (k : Nat) (h : mapWf m = true) : mapWf (mapDel m k) = true := by
  induction m with
  | nil => rfl
  | cons e r ih =>
    obtain ⟨k', v'⟩ := e
    simp only [mapWf, Bool.and_eq_true] at h
    by_cases h1 : k' = k <;> simp [mapDel, h1, mapWf, ih h.2, keysAbove_mapDel r _ _ h.1]

theorem mapPutD_wf [DecidableEq α] (m : KMap α) (k : Nat) (v d : α) (h : mapWf m = true) :
    mapWf (mapPutD m k v d) = true := by
  by_cases hv : v = d
  · simp [mapPutD, hv, mapDel_wf m k h]
  · simp [mapPutD, hv, mapPut_wf m k v h]

theorem mapPut_mem (m : KMap α) (k : Nat) (v : α) (e : Nat × α) (h : e ∈ mapPut m k v) : e = (k, v) ∨ e ∈ m := by
  induction m with
  | nil => simpa [mapPut] using h
  | cons x r ih =>
    obtain ⟨k', v'⟩ := x
    by_cases h1 : k < k'
    · simpa [mapPut, h1] using h
    · by_cases h2 : k = k'
      · simp only [mapPut, h2, lt_irrefl, if_false, if_true, List.mem_cons] at h ⊢
        tauto
      · simp only [mapPut, h1, h2, if_false, List.mem_cons] at h ⊢
        rcases h with h | h
        · exact .inr (.inl h)
        · rcases ih h with h | h <;> simp [h]

theorem mapDel_mem (m : KMap α) (k : Nat) (e : Nat × α) (h : e ∈ mapDel m k) : e ∈ m := by
  induction m with
  | nil => exact h
  | cons x r ih =>
    obtain ⟨k', v'⟩ := x
    by_cases h1 : k' = k
    · exact List.mem_cons_of_mem _ (ih (by simpa [mapDel, h1] using h))
    · simp only [mapDel, h1, if_false, List.mem_cons] at h ⊢
      exact h.imp id ih

/-- Writing keeps a store with defaults canonical. -/
theorem mapPutD_wfD [DecidableEq α] (d : Nat → α) (m : KMap α) (k : Nat) (v : α) (h : mapWfD d m = true) :
    mapWfD d (mapPutD m k v (d k)) = true := by
  simp only [mapWfD, noDefault, Bool.and_eq_true, List.all_eq_true, decide_eq_true_eq] at h ⊢
  refine ⟨mapPutD_wf m k v (d k) h.1, fun e he => ?_⟩
  by_cases hv : v = d k
  · simp only [mapPutD, hv, if_true] at he
    exact h.2 e (mapDel_mem m k e he)
  · simp only [mapPutD, hv, if_false] at he
    rcases mapPut_mem m k v e he with he | he
    · rw [he]; exact hv
    · exact h.2 e he

end Sys2Proof.Machine
end

