-- ==== Sys2Proof/Laws/State.lean ====
section
/-! SUPPORT. What the shared updates of the state change and what they leave: one lemma per field of the world and
update, and reading an object after each update. -/

namespace Sys2Proof.Machine

variable (w : World)

/-! ### setO -/

@[simp] theorem setO_clk (k : Nat) (v : Int) : (setO w k v).clk = w.clk := rfl
@[simp] theorem setO_free (k : Nat) (v : Int) : (setO w k v).free = w.free := rfl
@[simp] theorem setO_out (k : Nat) (v : Int) : (setO w k v).out = w.out := rfl
@[simp] theorem setO_sys (k : Nat) (v : Int) : (setO w k v).sys = w.sys := rfl
@[simp] theorem setO_evt (k : Nat) (v : Int) : (setO w k v).evt = w.evt := rfl
@[simp] theorem setO_tim (k : Nat) (v : Int) : (setO w k v).tim = w.tim := rfl
@[simp] theorem setO_web (k : Nat) (v : Int) : (setO w k v).web = w.web := rfl
@[simp] theorem setO_lck (k : Nat) (v : Int) : (setO w k v).lck = w.lck := rfl
@[simp] theorem setO_job (k : Nat) (v : Int) : (setO w k v).job = w.job := rfl
@[simp] theorem setO_mem (k : Nat) (v : Int) : (setO w k v).mem = w.mem := rfl
@[simp] theorem setO_cal (k : Nat) (v : Int) : (setO w k v).cal = w.cal := rfl
@[simp] theorem setO_jq (k : Nat) (v : Int) : (setO w k v).jq = w.jq := rfl
@[simp] theorem setO_links (k : Nat) (v : Int) : (setO w k v).links = w.links := rfl
@[simp] theorem setO_fire (k : Nat) (v : Int) : (setO w k v).fire = w.fire := rfl
@[simp] theorem setO_sup (k : Nat) (v : Int) : (setO w k v).sup = w.sup := rfl
@[simp] theorem setO_voi (k : Nat) (v : Int) : (setO w k v).voi = w.voi := rfl
@[simp] theorem setO_ins (k : Nat) (v : Int) : (setO w k v).ins = w.ins := rfl
@[simp] theorem setO_loop (k : Nat) (v : Int) : (setO w k v).loop = w.loop := rfl
@[simp] theorem setO_thm (k : Nat) (v : Int) : (setO w k v).thm = w.thm := rfl
@[simp] theorem setO_net (k : Nat) (v : Int) : (setO w k v).net = w.net := rfl
@[simp] theorem setO_can (k : Nat) (v : Int) : (setO w k v).can = w.can := rfl
@[simp] theorem setO_nvm (k : Nat) (v : Int) : (setO w k v).nvm = w.nvm := rfl

/-! ### setSh -/

@[simp] theorem setSh_clk (k : Nat) (v : Int) : (setSh w k v).clk = w.clk := rfl
@[simp] theorem setSh_free (k : Nat) (v : Int) : (setSh w k v).free = w.free := rfl
@[simp] theorem setSh_out (k : Nat) (v : Int) : (setSh w k v).out = w.out := rfl
@[simp] theorem setSh_sys (k : Nat) (v : Int) : (setSh w k v).sys = w.sys := rfl
@[simp] theorem setSh_evt (k : Nat) (v : Int) : (setSh w k v).evt = w.evt := rfl
@[simp] theorem setSh_tim (k : Nat) (v : Int) : (setSh w k v).tim = w.tim := rfl
@[simp] theorem setSh_web (k : Nat) (v : Int) : (setSh w k v).web = w.web := rfl
@[simp] theorem setSh_lck (k : Nat) (v : Int) : (setSh w k v).lck = w.lck := rfl
@[simp] theorem setSh_job (k : Nat) (v : Int) : (setSh w k v).job = w.job := rfl
@[simp] theorem setSh_mem (k : Nat) (v : Int) : (setSh w k v).mem = w.mem := rfl
@[simp] theorem setSh_cal (k : Nat) (v : Int) : (setSh w k v).cal = w.cal := rfl
@[simp] theorem setSh_jq (k : Nat) (v : Int) : (setSh w k v).jq = w.jq := rfl
@[simp] theorem setSh_links (k : Nat) (v : Int) : (setSh w k v).links = w.links := rfl
@[simp] theorem setSh_fire (k : Nat) (v : Int) : (setSh w k v).fire = w.fire := rfl
@[simp] theorem setSh_sup (k : Nat) (v : Int) : (setSh w k v).sup = w.sup := rfl
@[simp] theorem setSh_voi (k : Nat) (v : Int) : (setSh w k v).voi = w.voi := rfl
@[simp] theorem setSh_ins (k : Nat) (v : Int) : (setSh w k v).ins = w.ins := rfl
@[simp] theorem setSh_loop (k : Nat) (v : Int) : (setSh w k v).loop = w.loop := rfl
@[simp] theorem setSh_thm (k : Nat) (v : Int) : (setSh w k v).thm = w.thm := rfl
@[simp] theorem setSh_net (k : Nat) (v : Int) : (setSh w k v).net = w.net := rfl
@[simp] theorem setSh_can (k : Nat) (v : Int) : (setSh w k v).can = w.can := rfl
@[simp] theorem setSh_nvm (k : Nat) (v : Int) : (setSh w k v).nvm = w.nvm := rfl

/-! ### setF -/

@[simp] theorem setF_clk (k l n v : Nat) : (setF w k l n v).clk = w.clk := rfl
@[simp] theorem setF_free (k l n v : Nat) : (setF w k l n v).free = w.free := rfl
@[simp] theorem setF_out (k l n v : Nat) : (setF w k l n v).out = w.out := rfl
@[simp] theorem setF_sys (k l n v : Nat) : (setF w k l n v).sys = w.sys := rfl
@[simp] theorem setF_evt (k l n v : Nat) : (setF w k l n v).evt = w.evt := rfl
@[simp] theorem setF_tim (k l n v : Nat) : (setF w k l n v).tim = w.tim := rfl
@[simp] theorem setF_web (k l n v : Nat) : (setF w k l n v).web = w.web := rfl
@[simp] theorem setF_lck (k l n v : Nat) : (setF w k l n v).lck = w.lck := rfl
@[simp] theorem setF_job (k l n v : Nat) : (setF w k l n v).job = w.job := rfl
@[simp] theorem setF_mem (k l n v : Nat) : (setF w k l n v).mem = w.mem := rfl
@[simp] theorem setF_cal (k l n v : Nat) : (setF w k l n v).cal = w.cal := rfl
@[simp] theorem setF_jq (k l n v : Nat) : (setF w k l n v).jq = w.jq := rfl
@[simp] theorem setF_links (k l n v : Nat) : (setF w k l n v).links = w.links := rfl
@[simp] theorem setF_fire (k l n v : Nat) : (setF w k l n v).fire = w.fire := rfl
@[simp] theorem setF_sup (k l n v : Nat) : (setF w k l n v).sup = w.sup := rfl
@[simp] theorem setF_voi (k l n v : Nat) : (setF w k l n v).voi = w.voi := rfl
@[simp] theorem setF_ins (k l n v : Nat) : (setF w k l n v).ins = w.ins := rfl
@[simp] theorem setF_loop (k l n v : Nat) : (setF w k l n v).loop = w.loop := rfl
@[simp] theorem setF_thm (k l n v : Nat) : (setF w k l n v).thm = w.thm := rfl
@[simp] theorem setF_net (k l n v : Nat) : (setF w k l n v).net = w.net := rfl
@[simp] theorem setF_can (k l n v : Nat) : (setF w k l n v).can = w.can := rfl
@[simp] theorem setF_nvm (k l n v : Nat) : (setF w k l n v).nvm = w.nvm := rfl

/-! ### addO -/

@[simp] theorem addO_clk (k b n : Nat) : (addO w k b n).clk = w.clk := rfl
@[simp] theorem addO_free (k b n : Nat) : (addO w k b n).free = w.free := rfl
@[simp] theorem addO_out (k b n : Nat) : (addO w k b n).out = w.out := rfl
@[simp] theorem addO_sys (k b n : Nat) : (addO w k b n).sys = w.sys := rfl
@[simp] theorem addO_evt (k b n : Nat) : (addO w k b n).evt = w.evt := rfl
@[simp] theorem addO_tim (k b n : Nat) : (addO w k b n).tim = w.tim := rfl
@[simp] theorem addO_web (k b n : Nat) : (addO w k b n).web = w.web := rfl
@[simp] theorem addO_lck (k b n : Nat) : (addO w k b n).lck = w.lck := rfl
@[simp] theorem addO_job (k b n : Nat) : (addO w k b n).job = w.job := rfl
@[simp] theorem addO_mem (k b n : Nat) : (addO w k b n).mem = w.mem := rfl
@[simp] theorem addO_cal (k b n : Nat) : (addO w k b n).cal = w.cal := rfl
@[simp] theorem addO_jq (k b n : Nat) : (addO w k b n).jq = w.jq := rfl
@[simp] theorem addO_links (k b n : Nat) : (addO w k b n).links = w.links := rfl
@[simp] theorem addO_fire (k b n : Nat) : (addO w k b n).fire = w.fire := rfl
@[simp] theorem addO_sup (k b n : Nat) : (addO w k b n).sup = w.sup := rfl
@[simp] theorem addO_voi (k b n : Nat) : (addO w k b n).voi = w.voi := rfl
@[simp] theorem addO_ins (k b n : Nat) : (addO w k b n).ins = w.ins := rfl
@[simp] theorem addO_loop (k b n : Nat) : (addO w k b n).loop = w.loop := rfl
@[simp] theorem addO_thm (k b n : Nat) : (addO w k b n).thm = w.thm := rfl
@[simp] theorem addO_net (k b n : Nat) : (addO w k b n).net = w.net := rfl
@[simp] theorem addO_can (k b n : Nat) : (addO w k b n).can = w.can := rfl
@[simp] theorem addO_nvm (k b n : Nat) : (addO w k b n).nvm = w.nvm := rfl

/-! ### bump -/

@[simp] theorem bump_clk (k : Nat) : (bump w k).clk = w.clk := rfl
@[simp] theorem bump_free (k : Nat) : (bump w k).free = w.free := rfl
@[simp] theorem bump_out (k : Nat) : (bump w k).out = w.out := rfl
@[simp] theorem bump_sys (k : Nat) : (bump w k).sys = w.sys := rfl
@[simp] theorem bump_evt (k : Nat) : (bump w k).evt = w.evt := rfl
@[simp] theorem bump_tim (k : Nat) : (bump w k).tim = w.tim := rfl
@[simp] theorem bump_web (k : Nat) : (bump w k).web = w.web := rfl
@[simp] theorem bump_lck (k : Nat) : (bump w k).lck = w.lck := rfl
@[simp] theorem bump_job (k : Nat) : (bump w k).job = w.job := rfl
@[simp] theorem bump_mem (k : Nat) : (bump w k).mem = w.mem := rfl
@[simp] theorem bump_cal (k : Nat) : (bump w k).cal = w.cal := rfl
@[simp] theorem bump_jq (k : Nat) : (bump w k).jq = w.jq := rfl
@[simp] theorem bump_links (k : Nat) : (bump w k).links = w.links := rfl
@[simp] theorem bump_fire (k : Nat) : (bump w k).fire = w.fire := rfl
@[simp] theorem bump_sup (k : Nat) : (bump w k).sup = w.sup := rfl
@[simp] theorem bump_voi (k : Nat) : (bump w k).voi = w.voi := rfl
@[simp] theorem bump_ins (k : Nat) : (bump w k).ins = w.ins := rfl
@[simp] theorem bump_loop (k : Nat) : (bump w k).loop = w.loop := rfl
@[simp] theorem bump_thm (k : Nat) : (bump w k).thm = w.thm := rfl
@[simp] theorem bump_net (k : Nat) : (bump w k).net = w.net := rfl
@[simp] theorem bump_can (k : Nat) : (bump w k).can = w.can := rfl
@[simp] theorem bump_nvm (k : Nat) : (bump w k).nvm = w.nvm := rfl

/-! ### bump64 -/

@[simp] theorem bump64_clk (k : Nat) : (bump64 w k).clk = w.clk := rfl
@[simp] theorem bump64_free (k : Nat) : (bump64 w k).free = w.free := rfl
@[simp] theorem bump64_out (k : Nat) : (bump64 w k).out = w.out := rfl
@[simp] theorem bump64_sys (k : Nat) : (bump64 w k).sys = w.sys := rfl
@[simp] theorem bump64_evt (k : Nat) : (bump64 w k).evt = w.evt := rfl
@[simp] theorem bump64_tim (k : Nat) : (bump64 w k).tim = w.tim := rfl
@[simp] theorem bump64_web (k : Nat) : (bump64 w k).web = w.web := rfl
@[simp] theorem bump64_lck (k : Nat) : (bump64 w k).lck = w.lck := rfl
@[simp] theorem bump64_job (k : Nat) : (bump64 w k).job = w.job := rfl
@[simp] theorem bump64_mem (k : Nat) : (bump64 w k).mem = w.mem := rfl
@[simp] theorem bump64_cal (k : Nat) : (bump64 w k).cal = w.cal := rfl
@[simp] theorem bump64_jq (k : Nat) : (bump64 w k).jq = w.jq := rfl
@[simp] theorem bump64_links (k : Nat) : (bump64 w k).links = w.links := rfl
@[simp] theorem bump64_fire (k : Nat) : (bump64 w k).fire = w.fire := rfl
@[simp] theorem bump64_sup (k : Nat) : (bump64 w k).sup = w.sup := rfl
@[simp] theorem bump64_voi (k : Nat) : (bump64 w k).voi = w.voi := rfl
@[simp] theorem bump64_ins (k : Nat) : (bump64 w k).ins = w.ins := rfl
@[simp] theorem bump64_loop (k : Nat) : (bump64 w k).loop = w.loop := rfl
@[simp] theorem bump64_thm (k : Nat) : (bump64 w k).thm = w.thm := rfl
@[simp] theorem bump64_net (k : Nat) : (bump64 w k).net = w.net := rfl
@[simp] theorem bump64_can (k : Nat) : (bump64 w k).can = w.can := rfl
@[simp] theorem bump64_nvm (k : Nat) : (bump64 w k).nvm = w.nvm := rfl

/-! ### setT -/

@[simp] theorem setT_clk (ix e : Nat) (v d : Int) : (setT w ix e v d).clk = w.clk := rfl
@[simp] theorem setT_free (ix e : Nat) (v d : Int) : (setT w ix e v d).free = w.free := rfl
@[simp] theorem setT_out (ix e : Nat) (v d : Int) : (setT w ix e v d).out = w.out := rfl
@[simp] theorem setT_sys (ix e : Nat) (v d : Int) : (setT w ix e v d).sys = w.sys := rfl
@[simp] theorem setT_evt (ix e : Nat) (v d : Int) : (setT w ix e v d).evt = w.evt := rfl
@[simp] theorem setT_tim (ix e : Nat) (v d : Int) : (setT w ix e v d).tim = w.tim := rfl
@[simp] theorem setT_web (ix e : Nat) (v d : Int) : (setT w ix e v d).web = w.web := rfl
@[simp] theorem setT_lck (ix e : Nat) (v d : Int) : (setT w ix e v d).lck = w.lck := rfl
@[simp] theorem setT_job (ix e : Nat) (v d : Int) : (setT w ix e v d).job = w.job := rfl
@[simp] theorem setT_mem (ix e : Nat) (v d : Int) : (setT w ix e v d).mem = w.mem := rfl
@[simp] theorem setT_cal (ix e : Nat) (v d : Int) : (setT w ix e v d).cal = w.cal := rfl
@[simp] theorem setT_jq (ix e : Nat) (v d : Int) : (setT w ix e v d).jq = w.jq := rfl
@[simp] theorem setT_links (ix e : Nat) (v d : Int) : (setT w ix e v d).links = w.links := rfl
@[simp] theorem setT_fire (ix e : Nat) (v d : Int) : (setT w ix e v d).fire = w.fire := rfl
@[simp] theorem setT_sup (ix e : Nat) (v d : Int) : (setT w ix e v d).sup = w.sup := rfl
@[simp] theorem setT_voi (ix e : Nat) (v d : Int) : (setT w ix e v d).voi = w.voi := rfl
@[simp] theorem setT_ins (ix e : Nat) (v d : Int) : (setT w ix e v d).ins = w.ins := rfl
@[simp] theorem setT_loop (ix e : Nat) (v d : Int) : (setT w ix e v d).loop = w.loop := rfl
@[simp] theorem setT_thm (ix e : Nat) (v d : Int) : (setT w ix e v d).thm = w.thm := rfl
@[simp] theorem setT_net (ix e : Nat) (v d : Int) : (setT w ix e v d).net = w.net := rfl
@[simp] theorem setT_can (ix e : Nat) (v d : Int) : (setT w ix e v d).can = w.can := rfl
@[simp] theorem setT_nvm (ix e : Nat) (v d : Int) : (setT w ix e v d).nvm = w.nvm := rfl

/-! ### storeLater -/

@[simp] theorem storeLater_clk (k : Nat) (v : Int) : (storeLater w k v).clk = w.clk := rfl
@[simp] theorem storeLater_free (k : Nat) (v : Int) : (storeLater w k v).free = w.free := rfl
@[simp] theorem storeLater_out (k : Nat) (v : Int) : (storeLater w k v).out = w.out := rfl
@[simp] theorem storeLater_sys (k : Nat) (v : Int) : (storeLater w k v).sys = w.sys := rfl
@[simp] theorem storeLater_evt (k : Nat) (v : Int) : (storeLater w k v).evt = w.evt := rfl
@[simp] theorem storeLater_tim (k : Nat) (v : Int) : (storeLater w k v).tim = w.tim := rfl
@[simp] theorem storeLater_web (k : Nat) (v : Int) : (storeLater w k v).web = w.web := rfl
@[simp] theorem storeLater_lck (k : Nat) (v : Int) : (storeLater w k v).lck = w.lck := rfl
@[simp] theorem storeLater_job (k : Nat) (v : Int) : (storeLater w k v).job = w.job := rfl
@[simp] theorem storeLater_mem (k : Nat) (v : Int) : (storeLater w k v).mem = w.mem := rfl
@[simp] theorem storeLater_cal (k : Nat) (v : Int) : (storeLater w k v).cal = w.cal := rfl
@[simp] theorem storeLater_jq (k : Nat) (v : Int) : (storeLater w k v).jq = w.jq := rfl
@[simp] theorem storeLater_links (k : Nat) (v : Int) : (storeLater w k v).links = w.links := rfl
@[simp] theorem storeLater_fire (k : Nat) (v : Int) : (storeLater w k v).fire = w.fire := rfl
@[simp] theorem storeLater_sup (k : Nat) (v : Int) : (storeLater w k v).sup = w.sup := rfl
@[simp] theorem storeLater_voi (k : Nat) (v : Int) : (storeLater w k v).voi = w.voi := rfl
@[simp] theorem storeLater_ins (k : Nat) (v : Int) : (storeLater w k v).ins = w.ins := rfl
@[simp] theorem storeLater_loop (k : Nat) (v : Int) : (storeLater w k v).loop = w.loop := rfl
@[simp] theorem storeLater_thm (k : Nat) (v : Int) : (storeLater w k v).thm = w.thm := rfl
@[simp] theorem storeLater_net (k : Nat) (v : Int) : (storeLater w k v).net = w.net := rfl
@[simp] theorem storeLater_can (k : Nat) (v : Int) : (storeLater w k v).can = w.can := rfl
@[simp] theorem storeLater_nvm (k : Nat) (v : Int) : (storeLater w k v).nvm = w.nvm := rfl

/-! ### storeTableLater -/

@[simp] theorem storeTableLater_clk (ix : Nat) : (storeTableLater w ix).clk = w.clk := rfl
@[simp] theorem storeTableLater_free (ix : Nat) : (storeTableLater w ix).free = w.free := rfl
@[simp] theorem storeTableLater_out (ix : Nat) : (storeTableLater w ix).out = w.out := rfl
@[simp] theorem storeTableLater_sys (ix : Nat) : (storeTableLater w ix).sys = w.sys := rfl
@[simp] theorem storeTableLater_evt (ix : Nat) : (storeTableLater w ix).evt = w.evt := rfl
@[simp] theorem storeTableLater_tim (ix : Nat) : (storeTableLater w ix).tim = w.tim := rfl
@[simp] theorem storeTableLater_web (ix : Nat) : (storeTableLater w ix).web = w.web := rfl
@[simp] theorem storeTableLater_lck (ix : Nat) : (storeTableLater w ix).lck = w.lck := rfl
@[simp] theorem storeTableLater_job (ix : Nat) : (storeTableLater w ix).job = w.job := rfl
@[simp] theorem storeTableLater_mem (ix : Nat) : (storeTableLater w ix).mem = w.mem := rfl
@[simp] theorem storeTableLater_cal (ix : Nat) : (storeTableLater w ix).cal = w.cal := rfl
@[simp] theorem storeTableLater_jq (ix : Nat) : (storeTableLater w ix).jq = w.jq := rfl
@[simp] theorem storeTableLater_links (ix : Nat) : (storeTableLater w ix).links = w.links := rfl
@[simp] theorem storeTableLater_fire (ix : Nat) : (storeTableLater w ix).fire = w.fire := rfl
@[simp] theorem storeTableLater_sup (ix : Nat) : (storeTableLater w ix).sup = w.sup := rfl
@[simp] theorem storeTableLater_voi (ix : Nat) : (storeTableLater w ix).voi = w.voi := rfl
@[simp] theorem storeTableLater_ins (ix : Nat) : (storeTableLater w ix).ins = w.ins := rfl
@[simp] theorem storeTableLater_loop (ix : Nat) : (storeTableLater w ix).loop = w.loop := rfl
@[simp] theorem storeTableLater_thm (ix : Nat) : (storeTableLater w ix).thm = w.thm := rfl
@[simp] theorem storeTableLater_net (ix : Nat) : (storeTableLater w ix).net = w.net := rfl
@[simp] theorem storeTableLater_can (ix : Nat) : (storeTableLater w ix).can = w.can := rfl
@[simp] theorem storeTableLater_nvm (ix : Nat) : (storeTableLater w ix).nvm = w.nvm := rfl

/-! ### send -/

@[simp] theorem send_clk (m : OutMsg) : (send w m).clk = w.clk := rfl
@[simp] theorem send_free (m : OutMsg) : (send w m).free = w.free := rfl
@[simp] theorem send_sys (m : OutMsg) : (send w m).sys = w.sys := rfl
@[simp] theorem send_evt (m : OutMsg) : (send w m).evt = w.evt := rfl
@[simp] theorem send_dict (m : OutMsg) : (send w m).dict = w.dict := rfl
@[simp] theorem send_tim (m : OutMsg) : (send w m).tim = w.tim := rfl
@[simp] theorem send_web (m : OutMsg) : (send w m).web = w.web := rfl
@[simp] theorem send_lck (m : OutMsg) : (send w m).lck = w.lck := rfl
@[simp] theorem send_job (m : OutMsg) : (send w m).job = w.job := rfl
@[simp] theorem send_mem (m : OutMsg) : (send w m).mem = w.mem := rfl
@[simp] theorem send_cal (m : OutMsg) : (send w m).cal = w.cal := rfl
@[simp] theorem send_jq (m : OutMsg) : (send w m).jq = w.jq := rfl
@[simp] theorem send_links (m : OutMsg) : (send w m).links = w.links := rfl
@[simp] theorem send_fire (m : OutMsg) : (send w m).fire = w.fire := rfl
@[simp] theorem send_sup (m : OutMsg) : (send w m).sup = w.sup := rfl
@[simp] theorem send_voi (m : OutMsg) : (send w m).voi = w.voi := rfl
@[simp] theorem send_ins (m : OutMsg) : (send w m).ins = w.ins := rfl
@[simp] theorem send_loop (m : OutMsg) : (send w m).loop = w.loop := rfl
@[simp] theorem send_thm (m : OutMsg) : (send w m).thm = w.thm := rfl
@[simp] theorem send_net (m : OutMsg) : (send w m).net = w.net := rfl
@[simp] theorem send_can (m : OutMsg) : (send w m).can = w.can := rfl
@[simp] theorem send_nvm (m : OutMsg) : (send w m).nvm = w.nvm := rfl

/-! ### raiseAt -/

@[simp] theorem raiseAt_clk (c i d et : Nat) (p : Int) : (raiseAt w c i d et p).clk = w.clk := rfl
@[simp] theorem raiseAt_free (c i d et : Nat) (p : Int) : (raiseAt w c i d et p).free = w.free := rfl
@[simp] theorem raiseAt_out (c i d et : Nat) (p : Int) : (raiseAt w c i d et p).out = w.out := rfl
@[simp] theorem raiseAt_sys (c i d et : Nat) (p : Int) : (raiseAt w c i d et p).sys = w.sys := rfl
@[simp] theorem raiseAt_dict (c i d et : Nat) (p : Int) : (raiseAt w c i d et p).dict = w.dict := rfl
@[simp] theorem raiseAt_tim (c i d et : Nat) (p : Int) : (raiseAt w c i d et p).tim = w.tim := rfl
@[simp] theorem raiseAt_web (c i d et : Nat) (p : Int) : (raiseAt w c i d et p).web = w.web := rfl
@[simp] theorem raiseAt_lck (c i d et : Nat) (p : Int) : (raiseAt w c i d et p).lck = w.lck := rfl
@[simp] theorem raiseAt_job (c i d et : Nat) (p : Int) : (raiseAt w c i d et p).job = w.job := rfl
@[simp] theorem raiseAt_mem (c i d et : Nat) (p : Int) : (raiseAt w c i d et p).mem = w.mem := rfl
@[simp] theorem raiseAt_cal (c i d et : Nat) (p : Int) : (raiseAt w c i d et p).cal = w.cal := rfl
@[simp] theorem raiseAt_jq (c i d et : Nat) (p : Int) : (raiseAt w c i d et p).jq = w.jq := rfl
@[simp] theorem raiseAt_links (c i d et : Nat) (p : Int) : (raiseAt w c i d et p).links = w.links := rfl
@[simp] theorem raiseAt_fire (c i d et : Nat) (p : Int) : (raiseAt w c i d et p).fire = w.fire := rfl
@[simp] theorem raiseAt_sup (c i d et : Nat) (p : Int) : (raiseAt w c i d et p).sup = w.sup := rfl
@[simp] theorem raiseAt_voi (c i d et : Nat) (p : Int) : (raiseAt w c i d et p).voi = w.voi := rfl
@[simp] theorem raiseAt_ins (c i d et : Nat) (p : Int) : (raiseAt w c i d et p).ins = w.ins := rfl
@[simp] theorem raiseAt_loop (c i d et : Nat) (p : Int) : (raiseAt w c i d et p).loop = w.loop := rfl
@[simp] theorem raiseAt_thm (c i d et : Nat) (p : Int) : (raiseAt w c i d et p).thm = w.thm := rfl
@[simp] theorem raiseAt_net (c i d et : Nat) (p : Int) : (raiseAt w c i d et p).net = w.net := rfl
@[simp] theorem raiseAt_can (c i d et : Nat) (p : Int) : (raiseAt w c i d et p).can = w.can := rfl
@[simp] theorem raiseAt_nvm (c i d et : Nat) (p : Int) : (raiseAt w c i d et p).nvm = w.nvm := rfl

/-! ### raise -/

@[simp] theorem raise_clk (c i d : Nat) : (raise w c i d).clk = w.clk := rfl
@[simp] theorem raise_free (c i d : Nat) : (raise w c i d).free = w.free := rfl
@[simp] theorem raise_out (c i d : Nat) : (raise w c i d).out = w.out := rfl
@[simp] theorem raise_sys (c i d : Nat) : (raise w c i d).sys = w.sys := rfl
@[simp] theorem raise_dict (c i d : Nat) : (raise w c i d).dict = w.dict := rfl
@[simp] theorem raise_tim (c i d : Nat) : (raise w c i d).tim = w.tim := rfl
@[simp] theorem raise_web (c i d : Nat) : (raise w c i d).web = w.web := rfl
@[simp] theorem raise_lck (c i d : Nat) : (raise w c i d).lck = w.lck := rfl
@[simp] theorem raise_job (c i d : Nat) : (raise w c i d).job = w.job := rfl
@[simp] theorem raise_mem (c i d : Nat) : (raise w c i d).mem = w.mem := rfl
@[simp] theorem raise_cal (c i d : Nat) : (raise w c i d).cal = w.cal := rfl
@[simp] theorem raise_jq (c i d : Nat) : (raise w c i d).jq = w.jq := rfl
@[simp] theorem raise_links (c i d : Nat) : (raise w c i d).links = w.links := rfl
@[simp] theorem raise_fire (c i d : Nat) : (raise w c i d).fire = w.fire := rfl
@[simp] theorem raise_sup (c i d : Nat) : (raise w c i d).sup = w.sup := rfl
@[simp] theorem raise_voi (c i d : Nat) : (raise w c i d).voi = w.voi := rfl
@[simp] theorem raise_ins (c i d : Nat) : (raise w c i d).ins = w.ins := rfl
@[simp] theorem raise_loop (c i d : Nat) : (raise w c i d).loop = w.loop := rfl
@[simp] theorem raise_thm (c i d : Nat) : (raise w c i d).thm = w.thm := rfl
@[simp] theorem raise_net (c i d : Nat) : (raise w c i d).net = w.net := rfl
@[simp] theorem raise_can (c i d : Nat) : (raise w c i d).can = w.can := rfl
@[simp] theorem raise_nvm (c i d : Nat) : (raise w c i d).nvm = w.nvm := rfl

/-! ### raiseInt -/

@[simp] theorem raiseInt_clk (c i : Nat) (d : Int) : (raiseInt w c i d).clk = w.clk := rfl
@[simp] theorem raiseInt_free (c i : Nat) (d : Int) : (raiseInt w c i d).free = w.free := rfl
@[simp] theorem raiseInt_out (c i : Nat) (d : Int) : (raiseInt w c i d).out = w.out := rfl
@[simp] theorem raiseInt_sys (c i : Nat) (d : Int) : (raiseInt w c i d).sys = w.sys := rfl
@[simp] theorem raiseInt_dict (c i : Nat) (d : Int) : (raiseInt w c i d).dict = w.dict := rfl
@[simp] theorem raiseInt_tim (c i : Nat) (d : Int) : (raiseInt w c i d).tim = w.tim := rfl
@[simp] theorem raiseInt_web (c i : Nat) (d : Int) : (raiseInt w c i d).web = w.web := rfl
@[simp] theorem raiseInt_lck (c i : Nat) (d : Int) : (raiseInt w c i d).lck = w.lck := rfl
@[simp] theorem raiseInt_job (c i : Nat) (d : Int) : (raiseInt w c i d).job = w.job := rfl
@[simp] theorem raiseInt_mem (c i : Nat) (d : Int) : (raiseInt w c i d).mem = w.mem := rfl
@[simp] theorem raiseInt_cal (c i : Nat) (d : Int) : (raiseInt w c i d).cal = w.cal := rfl
@[simp] theorem raiseInt_jq (c i : Nat) (d : Int) : (raiseInt w c i d).jq = w.jq := rfl
@[simp] theorem raiseInt_links (c i : Nat) (d : Int) : (raiseInt w c i d).links = w.links := rfl
@[simp] theorem raiseInt_fire (c i : Nat) (d : Int) : (raiseInt w c i d).fire = w.fire := rfl
@[simp] theorem raiseInt_sup (c i : Nat) (d : Int) : (raiseInt w c i d).sup = w.sup := rfl
@[simp] theorem raiseInt_voi (c i : Nat) (d : Int) : (raiseInt w c i d).voi = w.voi := rfl
@[simp] theorem raiseInt_ins (c i : Nat) (d : Int) : (raiseInt w c i d).ins = w.ins := rfl
@[simp] theorem raiseInt_loop (c i : Nat) (d : Int) : (raiseInt w c i d).loop = w.loop := rfl
@[simp] theorem raiseInt_thm (c i : Nat) (d : Int) : (raiseInt w c i d).thm = w.thm := rfl
@[simp] theorem raiseInt_net (c i : Nat) (d : Int) : (raiseInt w c i d).net = w.net := rfl
@[simp] theorem raiseInt_can (c i : Nat) (d : Int) : (raiseInt w c i d).can = w.can := rfl
@[simp] theorem raiseInt_nvm (c i : Nat) (d : Int) : (raiseInt w c i d).nvm = w.nvm := rfl

/-! ### beginCommit -/

@[simp] theorem beginCommit_clk : (beginCommit w).clk = w.clk := rfl
@[simp] theorem beginCommit_free : (beginCommit w).free = w.free := rfl
@[simp] theorem beginCommit_out : (beginCommit w).out = w.out := rfl
@[simp] theorem beginCommit_sys : (beginCommit w).sys = w.sys := rfl
@[simp] theorem beginCommit_dict : (beginCommit w).dict = w.dict := rfl
@[simp] theorem beginCommit_tim : (beginCommit w).tim = w.tim := rfl
@[simp] theorem beginCommit_web : (beginCommit w).web = w.web := rfl
@[simp] theorem beginCommit_lck : (beginCommit w).lck = w.lck := rfl
@[simp] theorem beginCommit_job : (beginCommit w).job = w.job := rfl
@[simp] theorem beginCommit_mem : (beginCommit w).mem = w.mem := rfl
@[simp] theorem beginCommit_cal : (beginCommit w).cal = w.cal := rfl
@[simp] theorem beginCommit_jq : (beginCommit w).jq = w.jq := rfl
@[simp] theorem beginCommit_links : (beginCommit w).links = w.links := rfl
@[simp] theorem beginCommit_fire : (beginCommit w).fire = w.fire := rfl
@[simp] theorem beginCommit_sup : (beginCommit w).sup = w.sup := rfl
@[simp] theorem beginCommit_voi : (beginCommit w).voi = w.voi := rfl
@[simp] theorem beginCommit_ins : (beginCommit w).ins = w.ins := rfl
@[simp] theorem beginCommit_loop : (beginCommit w).loop = w.loop := rfl
@[simp] theorem beginCommit_thm : (beginCommit w).thm = w.thm := rfl
@[simp] theorem beginCommit_net : (beginCommit w).net = w.net := rfl
@[simp] theorem beginCommit_can : (beginCommit w).can = w.can := rfl
@[simp] theorem beginCommit_nvm : (beginCommit w).nvm = w.nvm := rfl

/-! ### endCommit -/

@[simp] theorem endCommit_clk : (endCommit w).clk = w.clk := rfl
@[simp] theorem endCommit_free : (endCommit w).free = w.free := rfl
@[simp] theorem endCommit_out : (endCommit w).out = w.out := rfl
@[simp] theorem endCommit_sys : (endCommit w).sys = w.sys := rfl
@[simp] theorem endCommit_dict : (endCommit w).dict = w.dict := rfl
@[simp] theorem endCommit_tim : (endCommit w).tim = w.tim := rfl
@[simp] theorem endCommit_web : (endCommit w).web = w.web := rfl
@[simp] theorem endCommit_lck : (endCommit w).lck = w.lck := rfl
@[simp] theorem endCommit_job : (endCommit w).job = w.job := rfl
@[simp] theorem endCommit_mem : (endCommit w).mem = w.mem := rfl
@[simp] theorem endCommit_cal : (endCommit w).cal = w.cal := rfl
@[simp] theorem endCommit_jq : (endCommit w).jq = w.jq := rfl
@[simp] theorem endCommit_links : (endCommit w).links = w.links := rfl
@[simp] theorem endCommit_fire : (endCommit w).fire = w.fire := rfl
@[simp] theorem endCommit_sup : (endCommit w).sup = w.sup := rfl
@[simp] theorem endCommit_voi : (endCommit w).voi = w.voi := rfl
@[simp] theorem endCommit_ins : (endCommit w).ins = w.ins := rfl
@[simp] theorem endCommit_loop : (endCommit w).loop = w.loop := rfl
@[simp] theorem endCommit_thm : (endCommit w).thm = w.thm := rfl
@[simp] theorem endCommit_net : (endCommit w).net = w.net := rfl
@[simp] theorem endCommit_can : (endCommit w).can = w.can := rfl
@[simp] theorem endCommit_nvm : (endCommit w).nvm = w.nvm := rfl

/-! ### Reading objects -/

@[simp] theorem getO_setO_same (k : Nat) (v : Int) : getO (setO w k v) k = v := by simp [getO, setO]

theorem getO_setO_ne {k j : Nat} (v : Int) (h : k ≠ j) : getO (setO w k v) j = getO w j := by
  simp [getO, setO, mapGetD_mapPutD_ne _ v _ _ h]

theorem getO_setO (k j : Nat) (v : Int) : getO (setO w k v) j = if k = j then v else getO w j := by
  by_cases h : k = j
  · subst h; simp
  · simp [h, getO_setO_ne w v h]

@[simp] theorem getN_setO_same (k : Nat) (v : Int) : getN (setO w k v) k = v.toNat := by simp [getN]

theorem getN_setO_ne {k j : Nat} (v : Int) (h : k ≠ j) : getN (setO w k v) j = getN w j := by
  simp [getN, getO_setO_ne w v h]

theorem getF_setO_ne {k j : Nat} (v : Int) (l n : Nat) (h : k ≠ j) : getF (setO w k v) j l n = getF w j l n := by
  simp [getF, getN_setO_ne w v h]

@[simp] theorem getN_bump_same (k : Nat) : getN (bump w k) k = (getN w k + 1) % 4294967296 := by
  simp only [bump, addO, wrapBits, getN_setO_same]; omega

theorem getO_bump_ne {k j : Nat} (h : k ≠ j) : getO (bump w k) j = getO w j := getO_setO_ne w _ h

theorem getN_bump_ne {k j : Nat} (h : k ≠ j) : getN (bump w k) j = getN w j := getN_setO_ne w _ h

@[simp] theorem getO_setSh (k : Nat) (v : Int) (j : Nat) : getO (setSh w k v) j = getO w j := rfl
@[simp] theorem getN_setSh (k : Nat) (v : Int) (j : Nat) : getN (setSh w k v) j = getN w j := rfl
@[simp] theorem getF_setSh (k : Nat) (v : Int) (j l' n' : Nat) : getF (setSh w k v) j l' n' = getF w j l' n' := rfl
@[simp] theorem getO_setT (ix e : Nat) (v d : Int) (j : Nat) : getO (setT w ix e v d) j = getO w j := rfl
@[simp] theorem getN_setT (ix e : Nat) (v d : Int) (j : Nat) : getN (setT w ix e v d) j = getN w j := rfl
@[simp] theorem getF_setT (ix e : Nat) (v d : Int) (j l' n' : Nat) : getF (setT w ix e v d) j l' n' = getF w j l' n' := rfl
@[simp] theorem getO_storeLater (k : Nat) (v : Int) (j : Nat) : getO (storeLater w k v) j = getO w j := rfl
@[simp] theorem getN_storeLater (k : Nat) (v : Int) (j : Nat) : getN (storeLater w k v) j = getN w j := rfl
@[simp] theorem getF_storeLater (k : Nat) (v : Int) (j l' n' : Nat) : getF (storeLater w k v) j l' n' = getF w j l' n' := rfl
@[simp] theorem getO_storeTableLater (ix : Nat) (j : Nat) : getO (storeTableLater w ix) j = getO w j := rfl
@[simp] theorem getN_storeTableLater (ix : Nat) (j : Nat) : getN (storeTableLater w ix) j = getN w j := rfl
@[simp] theorem getF_storeTableLater (ix : Nat) (j l' n' : Nat) : getF (storeTableLater w ix) j l' n' = getF w j l' n' := rfl
@[simp] theorem getO_send (m : OutMsg) (j : Nat) : getO (send w m) j = getO w j := rfl
@[simp] theorem getN_send (m : OutMsg) (j : Nat) : getN (send w m) j = getN w j := rfl
@[simp] theorem getF_send (m : OutMsg) (j l' n' : Nat) : getF (send w m) j l' n' = getF w j l' n' := rfl
@[simp] theorem getO_raiseAt (c i d et : Nat) (p : Int) (j : Nat) : getO (raiseAt w c i d et p) j = getO w j := rfl
@[simp] theorem getN_raiseAt (c i d et : Nat) (p : Int) (j : Nat) : getN (raiseAt w c i d et p) j = getN w j := rfl
@[simp] theorem getF_raiseAt (c i d et : Nat) (p : Int) (j l' n' : Nat) : getF (raiseAt w c i d et p) j l' n' = getF w j l' n' := rfl
@[simp] theorem getO_raise (c i d : Nat) (j : Nat) : getO (raise w c i d) j = getO w j := rfl
@[simp] theorem getN_raise (c i d : Nat) (j : Nat) : getN (raise w c i d) j = getN w j := rfl
@[simp] theorem getF_raise (c i d : Nat) (j l' n' : Nat) : getF (raise w c i d) j l' n' = getF w j l' n' := rfl
@[simp] theorem getO_raiseInt (c i : Nat) (d : Int) (j : Nat) : getO (raiseInt w c i d) j = getO w j := rfl
@[simp] theorem getN_raiseInt (c i : Nat) (d : Int) (j : Nat) : getN (raiseInt w c i d) j = getN w j := rfl
@[simp] theorem getF_raiseInt (c i : Nat) (d : Int) (j l' n' : Nat) : getF (raiseInt w c i d) j l' n' = getF w j l' n' := rfl
@[simp] theorem getO_beginCommit (j : Nat) : getO (beginCommit w) j = getO w j := rfl
@[simp] theorem getN_beginCommit (j : Nat) : getN (beginCommit w) j = getN w j := rfl
@[simp] theorem getF_beginCommit (j l' n' : Nat) : getF (beginCommit w) j l' n' = getF w j l' n' := rfl
@[simp] theorem getO_endCommit (j : Nat) : getO (endCommit w) j = getO w j := rfl
@[simp] theorem getN_endCommit (j : Nat) : getN (endCommit w) j = getN w j := rfl
@[simp] theorem getF_endCommit (j l' n' : Nat) : getF (endCommit w) j l' n' = getF w j l' n' := rfl

end Sys2Proof.Machine
end

