-- ==== Sys2Proof/Laws/Events.lean ====
section
/-! SUPPORT. Delivering events: what `deliver` and `settle` can change (the event system, two counters, the EMCY queue
and the partners' pending records), and what they do to the sequence number and to the last DATA of a code. -/

namespace Sys2Proof.Machine

/-- `b` differs from `a` at most where delivery writes. -/
def Delivered (a b : World) : Prop :=
  (∃ e o q ps, b = { a with evt := e, dict := { a.dict with obj := o }, can := { a.can with emcyQ := q }
                            net := { a.net with partners := ps } }) ∧
    ∀ k, k ≠ Obj.EVT_LOG_DROPPED → k ≠ Obj.NET_CAN_EMCY_LOST → getO b k = getO a k

theorem Delivered.refl (a : World) : Delivered a a := ⟨⟨_, _, _, _, rfl⟩, fun _ _ _ => rfl⟩

theorem Delivered.trans {a b c : World} (h1 : Delivered a b) (h2 : Delivered b c) : Delivered a c := by
  obtain ⟨⟨e, o, q, ps, rfl⟩, g1⟩ := h1
  obtain ⟨⟨e', o', q', ps', rfl⟩, g2⟩ := h2
  exact ⟨⟨e', o', q', ps', rfl⟩, fun k h h' => (g2 k h h').trans (g1 k h h')⟩

theorem delivered_evt (w : World) (e : Evt) : Delivered w { w with evt := e } :=
  ⟨⟨_, _, _, _, rfl⟩, fun _ _ _ => rfl⟩

theorem delivered_bump {a b : World} (k : Nat) (hk : k = Obj.EVT_LOG_DROPPED ∨ k = Obj.NET_CAN_EMCY_LOST)
    (h : Delivered a b) : Delivered a (bump b k) := by
  obtain ⟨⟨e, o, q, ps, rfl⟩, g⟩ := h
  refine ⟨⟨e, _, q, ps, rfl⟩, fun j h1 h2 => ?_⟩
  rw [getO_bump_ne _ (by rcases hk with rfl | rfl; exacts [Ne.symm h1, Ne.symm h2])]
  exact g j h1 h2

theorem deliverLog_delivered (w : World) (r : EvRec) : Delivered w (deliverLog w r) := by
  unfold deliverLog
  split
  · exact delivered_evt w _
  · exact delivered_bump _ (.inl rfl) (delivered_evt w _)

theorem deliverHost_delivered (w : World) (r : EvRec) : Delivered w (deliverHost w r) := delivered_evt w _
theorem deliverSerge_delivered (w : World) (r : EvRec) : Delivered w (deliverSerge w r) := delivered_evt w _
theorem deliverNotify_delivered (w : World) (r : EvRec) : Delivered w (deliverNotify w r) :=
  ⟨⟨_, _, _, _, rfl⟩, fun _ _ _ => rfl⟩

theorem deliverEmcy_delivered (w : World) (r : EvRec) : Delivered w (deliverEmcy w r) := by
  unfold deliverEmcy
  split
  · exact ⟨⟨_, _, _, _, rfl⟩, fun _ _ _ => rfl⟩
  · exact delivered_bump _ (.inr rfl) ⟨⟨_, _, _, _, rfl⟩, fun _ _ _ => rfl⟩

theorem deliverOut_delivered (w : World) (n : Nat) : Delivered w (deliverOut w n) := by
  unfold deliverOut
  dsimp only
  split <;> exact delivered_evt w _

theorem delivered_ite {w x : World} (c : Prop) [Decidable c] (f : World → World) (hf : ∀ y, Delivered y (f y))
    (h : Delivered w x) : Delivered w (if c then f x else x) := by
  split
  · exact h.trans (hf x)
  · exact h

theorem delivered_foldl {γ : Type} (g : World → γ → World) (hg : ∀ w x, Delivered w (g w x)) (l : List γ) (w : World) :
    Delivered w (l.foldl g w) := by
  induction l generalizing w with
  | nil => exact .refl w
  | cons x l ih => exact (hg w x).trans (ih _)

theorem deliver_delivered (w : World) (r : EvRec) : Delivered w (deliver w r) := by
  unfold deliver
  simp only []
  apply delivered_ite _ (fun y => (List.range 4).foldl _ y)
  · exact fun y => delivered_foldl _ (fun w n => by split; exacts [deliverOut_delivered w n, .refl w]) _ y
  apply delivered_ite _ (fun y => deliverEmcy y _) (fun y => deliverEmcy_delivered y _)
  apply delivered_ite _ (fun y => deliverNotify y _) (fun y => deliverNotify_delivered y _)
  apply delivered_ite _ (fun y => deliverSerge y _) (fun y => deliverSerge_delivered y _)
  apply delivered_ite _ (fun y => deliverHost y _) (fun y => deliverHost_delivered y _)
  apply delivered_ite _ (fun y => deliverLog y _) (fun y => deliverLog_delivered y _)
  exact delivered_evt w _

/-- Everything that settling the events of a command can do. -/
theorem settle_delivered (w : World) : Delivered w (settle w) :=
  (delivered_evt w _).trans (delivered_foldl deliver deliver_delivered _ _)

/-- An object other than the two counters of delivery reads as before. -/
theorem getO_settle (w : World) {k : Nat} (h : k ≠ Obj.EVT_LOG_DROPPED) (h' : k ≠ Obj.NET_CAN_EMCY_LOST) :
    getO (settle w) k = getO w k := (settle_delivered w).2 k h h'

theorem getN_settle (w : World) {k : Nat} (h : k ≠ Obj.EVT_LOG_DROPPED) (h' : k ≠ Obj.NET_CAN_EMCY_LOST) :
    getN (settle w) k = getN w k := by simp [getN, getO_settle w h h']

@[simp] theorem settle_clk (w : World) : (settle w).clk = w.clk := by
  obtain ⟨⟨_, _, _, _, h⟩, _⟩ := settle_delivered w; rw [h]
@[simp] theorem settle_free (w : World) : (settle w).free = w.free := by
  obtain ⟨⟨_, _, _, _, h⟩, _⟩ := settle_delivered w; rw [h]
@[simp] theorem settle_out (w : World) : (settle w).out = w.out := by
  obtain ⟨⟨_, _, _, _, h⟩, _⟩ := settle_delivered w; rw [h]
@[simp] theorem settle_sys (w : World) : (settle w).sys = w.sys := by
  obtain ⟨⟨_, _, _, _, h⟩, _⟩ := settle_delivered w; rw [h]
@[simp] theorem settle_tim (w : World) : (settle w).tim = w.tim := by
  obtain ⟨⟨_, _, _, _, h⟩, _⟩ := settle_delivered w; rw [h]
@[simp] theorem settle_web (w : World) : (settle w).web = w.web := by
  obtain ⟨⟨_, _, _, _, h⟩, _⟩ := settle_delivered w; rw [h]
@[simp] theorem settle_lck (w : World) : (settle w).lck = w.lck := by
  obtain ⟨⟨_, _, _, _, h⟩, _⟩ := settle_delivered w; rw [h]
@[simp] theorem settle_job (w : World) : (settle w).job = w.job := by
  obtain ⟨⟨_, _, _, _, h⟩, _⟩ := settle_delivered w; rw [h]
@[simp] theorem settle_mem (w : World) : (settle w).mem = w.mem := by
  obtain ⟨⟨_, _, _, _, h⟩, _⟩ := settle_delivered w; rw [h]
@[simp] theorem settle_cal (w : World) : (settle w).cal = w.cal := by
  obtain ⟨⟨_, _, _, _, h⟩, _⟩ := settle_delivered w; rw [h]
@[simp] theorem settle_jq (w : World) : (settle w).jq = w.jq := by
  obtain ⟨⟨_, _, _, _, h⟩, _⟩ := settle_delivered w; rw [h]
@[simp] theorem settle_links (w : World) : (settle w).links = w.links := by
  obtain ⟨⟨_, _, _, _, h⟩, _⟩ := settle_delivered w; rw [h]
@[simp] theorem settle_fire (w : World) : (settle w).fire = w.fire := by
  obtain ⟨⟨_, _, _, _, h⟩, _⟩ := settle_delivered w; rw [h]
@[simp] theorem settle_sup (w : World) : (settle w).sup = w.sup := by
  obtain ⟨⟨_, _, _, _, h⟩, _⟩ := settle_delivered w; rw [h]
@[simp] theorem settle_voi (w : World) : (settle w).voi = w.voi := by
  obtain ⟨⟨_, _, _, _, h⟩, _⟩ := settle_delivered w; rw [h]
@[simp] theorem settle_ins (w : World) : (settle w).ins = w.ins := by
  obtain ⟨⟨_, _, _, _, h⟩, _⟩ := settle_delivered w; rw [h]
@[simp] theorem settle_loop (w : World) : (settle w).loop = w.loop := by
  obtain ⟨⟨_, _, _, _, h⟩, _⟩ := settle_delivered w; rw [h]
@[simp] theorem settle_thm (w : World) : (settle w).thm = w.thm := by
  obtain ⟨⟨_, _, _, _, h⟩, _⟩ := settle_delivered w; rw [h]
@[simp] theorem settle_nvm (w : World) : (settle w).nvm = w.nvm := by
  obtain ⟨⟨_, _, _, _, h⟩, _⟩ := settle_delivered w; rw [h]
@[simp] theorem settle_dict_shadow (w : World) : (settle w).dict.shadow = w.dict.shadow := by
  obtain ⟨⟨_, _, _, _, h⟩, _⟩ := settle_delivered w; rw [h]
@[simp] theorem settle_dict_tbl (w : World) : (settle w).dict.tbl = w.dict.tbl := by
  obtain ⟨⟨_, _, _, _, h⟩, _⟩ := settle_delivered w; rw [h]
@[simp] theorem settle_dict_tblShadow (w : World) : (settle w).dict.tblShadow = w.dict.tblShadow := by
  obtain ⟨⟨_, _, _, _, h⟩, _⟩ := settle_delivered w; rw [h]
@[simp] theorem settle_dict_fram (w : World) : (settle w).dict.fram = w.dict.fram := by
  obtain ⟨⟨_, _, _, _, h⟩, _⟩ := settle_delivered w; rw [h]
@[simp] theorem settle_dict_framWait (w : World) : (settle w).dict.framWait = w.dict.framWait := by
  obtain ⟨⟨_, _, _, _, h⟩, _⟩ := settle_delivered w; rw [h]
@[simp] theorem settle_dict_nor (w : World) : (settle w).dict.nor = w.dict.nor := by
  obtain ⟨⟨_, _, _, _, h⟩, _⟩ := settle_delivered w; rw [h]
@[simp] theorem settle_dict_norWait (w : World) : (settle w).dict.norWait = w.dict.norWait := by
  obtain ⟨⟨_, _, _, _, h⟩, _⟩ := settle_delivered w; rw [h]
@[simp] theorem settle_dict_hostName (w : World) : (settle w).dict.hostName = w.dict.hostName := by
  obtain ⟨⟨_, _, _, _, h⟩, _⟩ := settle_delivered w; rw [h]
@[simp] theorem settle_dict_hostNameNv (w : World) : (settle w).dict.hostNameNv = w.dict.hostNameNv := by
  obtain ⟨⟨_, _, _, _, h⟩, _⟩ := settle_delivered w; rw [h]
@[simp] theorem settle_dict_adj (w : World) : (settle w).dict.adj = w.dict.adj := by
  obtain ⟨⟨_, _, _, _, h⟩, _⟩ := settle_delivered w; rw [h]
@[simp] theorem settle_can_nmt (w : World) : (settle w).can.nmt = w.can.nmt := by
  obtain ⟨⟨_, _, _, _, h⟩, _⟩ := settle_delivered w; rw [h]
@[simp] theorem settle_can_bus (w : World) : (settle w).can.bus = w.can.bus := by
  obtain ⟨⟨_, _, _, _, h⟩, _⟩ := settle_delivered w; rw [h]
@[simp] theorem settle_can_cfg (w : World) : (settle w).can.cfg = w.can.cfg := by
  obtain ⟨⟨_, _, _, _, h⟩, _⟩ := settle_delivered w; rw [h]
@[simp] theorem settle_can_node (w : World) : (settle w).can.node = w.can.node := by
  obtain ⟨⟨_, _, _, _, h⟩, _⟩ := settle_delivered w; rw [h]
@[simp] theorem settle_can_emcyClk (w : World) : (settle w).can.emcyClk = w.can.emcyClk := by
  obtain ⟨⟨_, _, _, _, h⟩, _⟩ := settle_delivered w; rw [h]
@[simp] theorem settle_can_errReg (w : World) : (settle w).can.errReg = w.can.errReg := by
  obtain ⟨⟨_, _, _, _, h⟩, _⟩ := settle_delivered w; rw [h]
@[simp] theorem settle_can_hbClk (w : World) : (settle w).can.hbClk = w.can.hbClk := by
  obtain ⟨⟨_, _, _, _, h⟩, _⟩ := settle_delivered w; rw [h]
@[simp] theorem settle_can_hb (w : World) : (settle w).can.hb = w.can.hb := by
  obtain ⟨⟨_, _, _, _, h⟩, _⟩ := settle_delivered w; rw [h]
@[simp] theorem settle_can_sdo (w : World) : (settle w).can.sdo = w.can.sdo := by
  obtain ⟨⟨_, _, _, _, h⟩, _⟩ := settle_delivered w; rw [h]
@[simp] theorem settle_can_tpdoClk (w : World) : (settle w).can.tpdoClk = w.can.tpdoClk := by
  obtain ⟨⟨_, _, _, _, h⟩, _⟩ := settle_delivered w; rw [h]
@[simp] theorem settle_can_tpdoLast (w : World) : (settle w).can.tpdoLast = w.can.tpdoLast := by
  obtain ⟨⟨_, _, _, _, h⟩, _⟩ := settle_delivered w; rw [h]
@[simp] theorem settle_net_linkUp (w : World) : (settle w).net.linkUp = w.net.linkUp := by
  obtain ⟨⟨_, _, _, _, h⟩, _⟩ := settle_delivered w; rw [h]
@[simp] theorem settle_net_replay (w : World) : (settle w).net.replay = w.net.replay := by
  obtain ⟨⟨_, _, _, _, h⟩, _⟩ := settle_delivered w; rw [h]
@[simp] theorem settle_net_bulkIn (w : World) : (settle w).net.bulkIn = w.net.bulkIn := by
  obtain ⟨⟨_, _, _, _, h⟩, _⟩ := settle_delivered w; rw [h]
@[simp] theorem settle_net_bulkOut (w : World) : (settle w).net.bulkOut = w.net.bulkOut := by
  obtain ⟨⟨_, _, _, _, h⟩, _⟩ := settle_delivered w; rw [h]
@[simp] theorem settle_net_helloSeq (w : World) : (settle w).net.helloSeq = w.net.helloSeq := by
  obtain ⟨⟨_, _, _, _, h⟩, _⟩ := settle_delivered w; rw [h]
@[simp] theorem settle_net_helloClk (w : World) : (settle w).net.helloClk = w.net.helloClk := by
  obtain ⟨⟨_, _, _, _, h⟩, _⟩ := settle_delivered w; rw [h]
@[simp] theorem settle_net_nextStream (w : World) : (settle w).net.nextStream = w.net.nextStream := by
  obtain ⟨⟨_, _, _, _, h⟩, _⟩ := settle_delivered w; rw [h]
@[simp] theorem settle_net_dhcp (w : World) : (settle w).net.dhcp = w.net.dhcp := by
  obtain ⟨⟨_, _, _, _, h⟩, _⟩ := settle_delivered w; rw [h]
@[simp] theorem settle_net_ingestShare (w : World) : (settle w).net.ingestShare = w.net.ingestShare := by
  obtain ⟨⟨_, _, _, _, h⟩, _⟩ := settle_delivered w; rw [h]

/-! ### Sequence numbers and last DATA -/

/-- The parts of the event system that the routes of one record leave. -/
def sameCore (a b : Evt) : Prop :=
  b.raised = a.raised ∧ b.seq = a.seq ∧ b.lastData = a.lastData ∧ b.log = a.log ∧ b.head = a.head ∧
    b.clampsRaised = a.clampsRaised ∧ b.inCommit = a.inCommit

theorem sameCore.refl (a : Evt) : sameCore a a := ⟨rfl, rfl, rfl, rfl, rfl, rfl, rfl⟩
theorem sameCore.trans {a b c : Evt} (h : sameCore a b) (h' : sameCore b c) : sameCore a c := by
  obtain ⟨h1, h2, h3, h4, h5, h6, h7⟩ := h
  obtain ⟨g1, g2, g3, g4, g5, g6, g7⟩ := h'
  exact ⟨g1.trans h1, g2.trans h2, g3.trans h3, g4.trans h4, g5.trans h5, g6.trans h6, g7.trans h7⟩

theorem deliverLog_core (w : World) (r : EvRec) : sameCore w.evt (deliverLog w r).evt := by
  unfold deliverLog; split <;> exact ⟨rfl, rfl, rfl, rfl, rfl, rfl, rfl⟩
theorem deliverHost_core (w : World) (r : EvRec) : sameCore w.evt (deliverHost w r).evt := by
  simp [sameCore, deliverHost]
theorem deliverSerge_core (w : World) (r : EvRec) : sameCore w.evt (deliverSerge w r).evt := ⟨rfl, rfl, rfl, rfl, rfl, rfl, rfl⟩
theorem deliverNotify_core (w : World) (r : EvRec) : sameCore w.evt (deliverNotify w r).evt := ⟨rfl, rfl, rfl, rfl, rfl, rfl, rfl⟩
theorem deliverEmcy_core (w : World) (r : EvRec) : sameCore w.evt (deliverEmcy w r).evt := by
  unfold deliverEmcy; split <;> exact ⟨rfl, rfl, rfl, rfl, rfl, rfl, rfl⟩
theorem deliverOut_core (w : World) (n : Nat) : sameCore w.evt (deliverOut w n).evt := by
  unfold deliverOut; dsimp only; split <;> exact ⟨rfl, rfl, rfl, rfl, rfl, rfl, rfl⟩

theorem core_ite {a : Evt} {x : World} (c : Prop) [Decidable c] (f : World → World)
    (hf : ∀ y, sameCore y.evt (f y).evt) (h : sameCore a x.evt) : sameCore a (if c then f x else x).evt := by
  split
  · exact h.trans (hf x)
  · exact h

theorem core_foldl {γ : Type} (g : World → γ → World) (hg : ∀ w x, sameCore w.evt (g w x).evt) (l : List γ) (w : World) :
    sameCore w.evt (l.foldl g w).evt := by
  induction l generalizing w with
  | nil => exact .refl _
  | cons x l ih => exact (hg w x).trans (ih _)

/-- One record takes the next sequence number and leaves its DATA as the last of its code. -/
theorem deliver_core (w : World) (r : EvRec) :
    sameCore { w.evt with seq := (w.evt.seq + 1) % 4294967296, lastData := mapPutD w.evt.lastData r.code r.data 0 }
      (deliver w r).evt := by
  unfold deliver
  simp only []
  apply core_ite _ (fun y => (List.range 4).foldl _ y)
  · exact fun y => core_foldl _ (fun w n => by split; exacts [deliverOut_core w n, .refl _]) _ y
  apply core_ite _ (fun y => deliverEmcy y _) (fun y => deliverEmcy_core y _)
  apply core_ite _ (fun y => deliverNotify y _) (fun y => deliverNotify_core y _)
  apply core_ite _ (fun y => deliverSerge y _) (fun y => deliverSerge_core y _)
  apply core_ite _ (fun y => deliverHost y _) (fun y => deliverHost_core y _)
  apply core_ite _ (fun y => deliverLog y _) (fun y => deliverLog_core y _)
  exact .refl _

theorem deliver_raised (w : World) (r : EvRec) : (deliver w r).evt.raised = w.evt.raised := (deliver_core w r).1
theorem deliver_seq (w : World) (r : EvRec) : (deliver w r).evt.seq = (w.evt.seq + 1) % 4294967296 :=
  (deliver_core w r).2.1
theorem deliver_lastData (w : World) (r : EvRec) :
    (deliver w r).evt.lastData = mapPutD w.evt.lastData r.code r.data 0 := (deliver_core w r).2.2.1

/-- After settling no event waits. -/
@[simp] theorem settle_raised (w : World) : (settle w).evt.raised = [] := by
  have h : ∀ (l : List EvRec) (w : World), (l.foldl deliver w).evt.raised = w.evt.raised := by
    intro l
    induction l with
    | nil => exact fun w => rfl
    | cons r l ih => exact fun w => (ih _).trans (deliver_raised w r)
  exact h _ _

theorem foldl_deliver_lastData (l : List EvRec) (w : World) (c : Nat) :
    mapGetD (l.foldl deliver w).evt.lastData c 0 =
      ((l.filter fun r => r.code == c).getLast?.elim (mapGetD w.evt.lastData c 0) EvRec.data) := by
  induction l generalizing w with
  | nil => rfl
  | cons r l ih =>
    rw [List.foldl_cons, ih, deliver_lastData]
    by_cases h : r.code = c
    · subst h
      simp only [beq_self_eq_true, List.filter_cons_of_pos, mapGetD_mapPutD_same]
      cases hl : (l.filter fun x => x.code == r.code) with
      | nil => simp
      | cons a t =>
        obtain ⟨x, hx⟩ := Option.isSome_iff_exists.mp (by simp : (a :: t).getLast?.isSome = true)
        simp [hx]
    · have hb : (r.code == c) = false := by simpa using h
      simp [hb, mapGetD_mapPutD_ne _ _ _ _ h]

theorem foldl_deliver_seq (l : List EvRec) (w : World) :
    (l.foldl deliver w).evt.seq % 4294967296 = (w.evt.seq + l.length) % 4294967296 := by
  induction l generalizing w with
  | nil => rfl
  | cons r l ih => rw [List.foldl_cons, ih, deliver_seq, List.length_cons]; omega

/-- A command that raises one event: its DATA is the last of its code. -/
theorem settle_one (w : World) (r : EvRec) (h : w.evt.raised = [r]) :
    mapGetD (settle w).evt.lastData r.code 0 = r.data := by
  have e : settle w = [r].foldl deliver { w with evt := { w.evt with raised := [] } } := by
    simp [settle, h, evSort, evInsert]
  rw [e, foldl_deliver_lastData]
  simp

end Sys2Proof.Machine
end

