-- ==== Sys2Proof/Laws/Parts.lean ====
section
/-! SUPPORT. What an update of one part of the machine (an encoder, a probe, a row clock, a bar, a pass, a link, a port,
…) changes and what it leaves: one lemma per other field of the world, and reading a part after its update. -/

namespace Sys2Proof.Machine

variable (w : World)

/-! ### updEnc -/

@[simp] theorem updEnc_clk (n : Nat) (f : EncCh → EncCh) : (updEnc w n f).clk = w.clk := rfl
@[simp] theorem updEnc_free (n : Nat) (f : EncCh → EncCh) : (updEnc w n f).free = w.free := rfl
@[simp] theorem updEnc_out (n : Nat) (f : EncCh → EncCh) : (updEnc w n f).out = w.out := rfl
@[simp] theorem updEnc_sys (n : Nat) (f : EncCh → EncCh) : (updEnc w n f).sys = w.sys := rfl
@[simp] theorem updEnc_evt (n : Nat) (f : EncCh → EncCh) : (updEnc w n f).evt = w.evt := rfl
@[simp] theorem updEnc_dict (n : Nat) (f : EncCh → EncCh) : (updEnc w n f).dict = w.dict := rfl
@[simp] theorem updEnc_tim (n : Nat) (f : EncCh → EncCh) : (updEnc w n f).tim = w.tim := rfl
@[simp] theorem updEnc_lck (n : Nat) (f : EncCh → EncCh) : (updEnc w n f).lck = w.lck := rfl
@[simp] theorem updEnc_job (n : Nat) (f : EncCh → EncCh) : (updEnc w n f).job = w.job := rfl
@[simp] theorem updEnc_mem (n : Nat) (f : EncCh → EncCh) : (updEnc w n f).mem = w.mem := rfl
@[simp] theorem updEnc_cal (n : Nat) (f : EncCh → EncCh) : (updEnc w n f).cal = w.cal := rfl
@[simp] theorem updEnc_jq (n : Nat) (f : EncCh → EncCh) : (updEnc w n f).jq = w.jq := rfl
@[simp] theorem updEnc_links (n : Nat) (f : EncCh → EncCh) : (updEnc w n f).links = w.links := rfl
@[simp] theorem updEnc_fire (n : Nat) (f : EncCh → EncCh) : (updEnc w n f).fire = w.fire := rfl
@[simp] theorem updEnc_sup (n : Nat) (f : EncCh → EncCh) : (updEnc w n f).sup = w.sup := rfl
@[simp] theorem updEnc_voi (n : Nat) (f : EncCh → EncCh) : (updEnc w n f).voi = w.voi := rfl
@[simp] theorem updEnc_ins (n : Nat) (f : EncCh → EncCh) : (updEnc w n f).ins = w.ins := rfl
@[simp] theorem updEnc_loop (n : Nat) (f : EncCh → EncCh) : (updEnc w n f).loop = w.loop := rfl
@[simp] theorem updEnc_thm (n : Nat) (f : EncCh → EncCh) : (updEnc w n f).thm = w.thm := rfl
@[simp] theorem updEnc_net (n : Nat) (f : EncCh → EncCh) : (updEnc w n f).net = w.net := rfl
@[simp] theorem updEnc_can (n : Nat) (f : EncCh → EncCh) : (updEnc w n f).can = w.can := rfl
@[simp] theorem updEnc_nvm (n : Nat) (f : EncCh → EncCh) : (updEnc w n f).nvm = w.nvm := rfl

/-! ### updPrb -/

@[simp] theorem updPrb_clk (n : Nat) (f : Probe → Probe) : (updPrb w n f).clk = w.clk := rfl
@[simp] theorem updPrb_free (n : Nat) (f : Probe → Probe) : (updPrb w n f).free = w.free := rfl
@[simp] theorem updPrb_out (n : Nat) (f : Probe → Probe) : (updPrb w n f).out = w.out := rfl
@[simp] theorem updPrb_sys (n : Nat) (f : Probe → Probe) : (updPrb w n f).sys = w.sys := rfl
@[simp] theorem updPrb_evt (n : Nat) (f : Probe → Probe) : (updPrb w n f).evt = w.evt := rfl
@[simp] theorem updPrb_dict (n : Nat) (f : Probe → Probe) : (updPrb w n f).dict = w.dict := rfl
@[simp] theorem updPrb_tim (n : Nat) (f : Probe → Probe) : (updPrb w n f).tim = w.tim := rfl
@[simp] theorem updPrb_lck (n : Nat) (f : Probe → Probe) : (updPrb w n f).lck = w.lck := rfl
@[simp] theorem updPrb_job (n : Nat) (f : Probe → Probe) : (updPrb w n f).job = w.job := rfl
@[simp] theorem updPrb_mem (n : Nat) (f : Probe → Probe) : (updPrb w n f).mem = w.mem := rfl
@[simp] theorem updPrb_cal (n : Nat) (f : Probe → Probe) : (updPrb w n f).cal = w.cal := rfl
@[simp] theorem updPrb_jq (n : Nat) (f : Probe → Probe) : (updPrb w n f).jq = w.jq := rfl
@[simp] theorem updPrb_links (n : Nat) (f : Probe → Probe) : (updPrb w n f).links = w.links := rfl
@[simp] theorem updPrb_fire (n : Nat) (f : Probe → Probe) : (updPrb w n f).fire = w.fire := rfl
@[simp] theorem updPrb_sup (n : Nat) (f : Probe → Probe) : (updPrb w n f).sup = w.sup := rfl
@[simp] theorem updPrb_voi (n : Nat) (f : Probe → Probe) : (updPrb w n f).voi = w.voi := rfl
@[simp] theorem updPrb_ins (n : Nat) (f : Probe → Probe) : (updPrb w n f).ins = w.ins := rfl
@[simp] theorem updPrb_loop (n : Nat) (f : Probe → Probe) : (updPrb w n f).loop = w.loop := rfl
@[simp] theorem updPrb_thm (n : Nat) (f : Probe → Probe) : (updPrb w n f).thm = w.thm := rfl
@[simp] theorem updPrb_net (n : Nat) (f : Probe → Probe) : (updPrb w n f).net = w.net := rfl
@[simp] theorem updPrb_can (n : Nat) (f : Probe → Probe) : (updPrb w n f).can = w.can := rfl
@[simp] theorem updPrb_nvm (n : Nat) (f : Probe → Probe) : (updPrb w n f).nvm = w.nvm := rfl

/-! ### updSsi -/

@[simp] theorem updSsi_clk (n : Nat) (f : SsiM → SsiM) : (updSsi w n f).clk = w.clk := rfl
@[simp] theorem updSsi_free (n : Nat) (f : SsiM → SsiM) : (updSsi w n f).free = w.free := rfl
@[simp] theorem updSsi_out (n : Nat) (f : SsiM → SsiM) : (updSsi w n f).out = w.out := rfl
@[simp] theorem updSsi_sys (n : Nat) (f : SsiM → SsiM) : (updSsi w n f).sys = w.sys := rfl
@[simp] theorem updSsi_evt (n : Nat) (f : SsiM → SsiM) : (updSsi w n f).evt = w.evt := rfl
@[simp] theorem updSsi_dict (n : Nat) (f : SsiM → SsiM) : (updSsi w n f).dict = w.dict := rfl
@[simp] theorem updSsi_tim (n : Nat) (f : SsiM → SsiM) : (updSsi w n f).tim = w.tim := rfl
@[simp] theorem updSsi_lck (n : Nat) (f : SsiM → SsiM) : (updSsi w n f).lck = w.lck := rfl
@[simp] theorem updSsi_job (n : Nat) (f : SsiM → SsiM) : (updSsi w n f).job = w.job := rfl
@[simp] theorem updSsi_mem (n : Nat) (f : SsiM → SsiM) : (updSsi w n f).mem = w.mem := rfl
@[simp] theorem updSsi_cal (n : Nat) (f : SsiM → SsiM) : (updSsi w n f).cal = w.cal := rfl
@[simp] theorem updSsi_jq (n : Nat) (f : SsiM → SsiM) : (updSsi w n f).jq = w.jq := rfl
@[simp] theorem updSsi_links (n : Nat) (f : SsiM → SsiM) : (updSsi w n f).links = w.links := rfl
@[simp] theorem updSsi_fire (n : Nat) (f : SsiM → SsiM) : (updSsi w n f).fire = w.fire := rfl
@[simp] theorem updSsi_sup (n : Nat) (f : SsiM → SsiM) : (updSsi w n f).sup = w.sup := rfl
@[simp] theorem updSsi_voi (n : Nat) (f : SsiM → SsiM) : (updSsi w n f).voi = w.voi := rfl
@[simp] theorem updSsi_ins (n : Nat) (f : SsiM → SsiM) : (updSsi w n f).ins = w.ins := rfl
@[simp] theorem updSsi_loop (n : Nat) (f : SsiM → SsiM) : (updSsi w n f).loop = w.loop := rfl
@[simp] theorem updSsi_thm (n : Nat) (f : SsiM → SsiM) : (updSsi w n f).thm = w.thm := rfl
@[simp] theorem updSsi_net (n : Nat) (f : SsiM → SsiM) : (updSsi w n f).net = w.net := rfl
@[simp] theorem updSsi_can (n : Nat) (f : SsiM → SsiM) : (updSsi w n f).can = w.can := rfl
@[simp] theorem updSsi_nvm (n : Nat) (f : SsiM → SsiM) : (updSsi w n f).nvm = w.nvm := rfl

/-! ### updRow -/

@[simp] theorem updRow_clk (r : Nat) (f : RowClk → RowClk) : (updRow w r f).clk = w.clk := rfl
@[simp] theorem updRow_free (r : Nat) (f : RowClk → RowClk) : (updRow w r f).free = w.free := rfl
@[simp] theorem updRow_out (r : Nat) (f : RowClk → RowClk) : (updRow w r f).out = w.out := rfl
@[simp] theorem updRow_sys (r : Nat) (f : RowClk → RowClk) : (updRow w r f).sys = w.sys := rfl
@[simp] theorem updRow_evt (r : Nat) (f : RowClk → RowClk) : (updRow w r f).evt = w.evt := rfl
@[simp] theorem updRow_dict (r : Nat) (f : RowClk → RowClk) : (updRow w r f).dict = w.dict := rfl
@[simp] theorem updRow_tim (r : Nat) (f : RowClk → RowClk) : (updRow w r f).tim = w.tim := rfl
@[simp] theorem updRow_web (r : Nat) (f : RowClk → RowClk) : (updRow w r f).web = w.web := rfl
@[simp] theorem updRow_job (r : Nat) (f : RowClk → RowClk) : (updRow w r f).job = w.job := rfl
@[simp] theorem updRow_mem (r : Nat) (f : RowClk → RowClk) : (updRow w r f).mem = w.mem := rfl
@[simp] theorem updRow_cal (r : Nat) (f : RowClk → RowClk) : (updRow w r f).cal = w.cal := rfl
@[simp] theorem updRow_jq (r : Nat) (f : RowClk → RowClk) : (updRow w r f).jq = w.jq := rfl
@[simp] theorem updRow_links (r : Nat) (f : RowClk → RowClk) : (updRow w r f).links = w.links := rfl
@[simp] theorem updRow_fire (r : Nat) (f : RowClk → RowClk) : (updRow w r f).fire = w.fire := rfl
@[simp] theorem updRow_sup (r : Nat) (f : RowClk → RowClk) : (updRow w r f).sup = w.sup := rfl
@[simp] theorem updRow_voi (r : Nat) (f : RowClk → RowClk) : (updRow w r f).voi = w.voi := rfl
@[simp] theorem updRow_ins (r : Nat) (f : RowClk → RowClk) : (updRow w r f).ins = w.ins := rfl
@[simp] theorem updRow_loop (r : Nat) (f : RowClk → RowClk) : (updRow w r f).loop = w.loop := rfl
@[simp] theorem updRow_thm (r : Nat) (f : RowClk → RowClk) : (updRow w r f).thm = w.thm := rfl
@[simp] theorem updRow_net (r : Nat) (f : RowClk → RowClk) : (updRow w r f).net = w.net := rfl
@[simp] theorem updRow_can (r : Nat) (f : RowClk → RowClk) : (updRow w r f).can = w.can := rfl
@[simp] theorem updRow_nvm (r : Nat) (f : RowClk → RowClk) : (updRow w r f).nvm = w.nvm := rfl

/-! ### updBar -/

@[simp] theorem updBar_clk (b : Nat) (f : BarJq → BarJq) : (updBar w b f).clk = w.clk := rfl
@[simp] theorem updBar_free (b : Nat) (f : BarJq → BarJq) : (updBar w b f).free = w.free := rfl
@[simp] theorem updBar_out (b : Nat) (f : BarJq → BarJq) : (updBar w b f).out = w.out := rfl
@[simp] theorem updBar_sys (b : Nat) (f : BarJq → BarJq) : (updBar w b f).sys = w.sys := rfl
@[simp] theorem updBar_evt (b : Nat) (f : BarJq → BarJq) : (updBar w b f).evt = w.evt := rfl
@[simp] theorem updBar_dict (b : Nat) (f : BarJq → BarJq) : (updBar w b f).dict = w.dict := rfl
@[simp] theorem updBar_tim (b : Nat) (f : BarJq → BarJq) : (updBar w b f).tim = w.tim := rfl
@[simp] theorem updBar_web (b : Nat) (f : BarJq → BarJq) : (updBar w b f).web = w.web := rfl
@[simp] theorem updBar_lck (b : Nat) (f : BarJq → BarJq) : (updBar w b f).lck = w.lck := rfl
@[simp] theorem updBar_job (b : Nat) (f : BarJq → BarJq) : (updBar w b f).job = w.job := rfl
@[simp] theorem updBar_mem (b : Nat) (f : BarJq → BarJq) : (updBar w b f).mem = w.mem := rfl
@[simp] theorem updBar_cal (b : Nat) (f : BarJq → BarJq) : (updBar w b f).cal = w.cal := rfl
@[simp] theorem updBar_links (b : Nat) (f : BarJq → BarJq) : (updBar w b f).links = w.links := rfl
@[simp] theorem updBar_fire (b : Nat) (f : BarJq → BarJq) : (updBar w b f).fire = w.fire := rfl
@[simp] theorem updBar_sup (b : Nat) (f : BarJq → BarJq) : (updBar w b f).sup = w.sup := rfl
@[simp] theorem updBar_voi (b : Nat) (f : BarJq → BarJq) : (updBar w b f).voi = w.voi := rfl
@[simp] theorem updBar_ins (b : Nat) (f : BarJq → BarJq) : (updBar w b f).ins = w.ins := rfl
@[simp] theorem updBar_loop (b : Nat) (f : BarJq → BarJq) : (updBar w b f).loop = w.loop := rfl
@[simp] theorem updBar_thm (b : Nat) (f : BarJq → BarJq) : (updBar w b f).thm = w.thm := rfl
@[simp] theorem updBar_net (b : Nat) (f : BarJq → BarJq) : (updBar w b f).net = w.net := rfl
@[simp] theorem updBar_can (b : Nat) (f : BarJq → BarJq) : (updBar w b f).can = w.can := rfl
@[simp] theorem updBar_nvm (b : Nat) (f : BarJq → BarJq) : (updBar w b f).nvm = w.nvm := rfl

/-! ### updPass -/

@[simp] theorem updPass_clk (b r : Nat) (f : Pass → Pass) : (updPass w b r f).clk = w.clk := rfl
@[simp] theorem updPass_free (b r : Nat) (f : Pass → Pass) : (updPass w b r f).free = w.free := rfl
@[simp] theorem updPass_out (b r : Nat) (f : Pass → Pass) : (updPass w b r f).out = w.out := rfl
@[simp] theorem updPass_sys (b r : Nat) (f : Pass → Pass) : (updPass w b r f).sys = w.sys := rfl
@[simp] theorem updPass_evt (b r : Nat) (f : Pass → Pass) : (updPass w b r f).evt = w.evt := rfl
@[simp] theorem updPass_dict (b r : Nat) (f : Pass → Pass) : (updPass w b r f).dict = w.dict := rfl
@[simp] theorem updPass_tim (b r : Nat) (f : Pass → Pass) : (updPass w b r f).tim = w.tim := rfl
@[simp] theorem updPass_web (b r : Nat) (f : Pass → Pass) : (updPass w b r f).web = w.web := rfl
@[simp] theorem updPass_lck (b r : Nat) (f : Pass → Pass) : (updPass w b r f).lck = w.lck := rfl
@[simp] theorem updPass_job (b r : Nat) (f : Pass → Pass) : (updPass w b r f).job = w.job := rfl
@[simp] theorem updPass_mem (b r : Nat) (f : Pass → Pass) : (updPass w b r f).mem = w.mem := rfl
@[simp] theorem updPass_cal (b r : Nat) (f : Pass → Pass) : (updPass w b r f).cal = w.cal := rfl
@[simp] theorem updPass_links (b r : Nat) (f : Pass → Pass) : (updPass w b r f).links = w.links := rfl
@[simp] theorem updPass_fire (b r : Nat) (f : Pass → Pass) : (updPass w b r f).fire = w.fire := rfl
@[simp] theorem updPass_sup (b r : Nat) (f : Pass → Pass) : (updPass w b r f).sup = w.sup := rfl
@[simp] theorem updPass_voi (b r : Nat) (f : Pass → Pass) : (updPass w b r f).voi = w.voi := rfl
@[simp] theorem updPass_ins (b r : Nat) (f : Pass → Pass) : (updPass w b r f).ins = w.ins := rfl
@[simp] theorem updPass_loop (b r : Nat) (f : Pass → Pass) : (updPass w b r f).loop = w.loop := rfl
@[simp] theorem updPass_thm (b r : Nat) (f : Pass → Pass) : (updPass w b r f).thm = w.thm := rfl
@[simp] theorem updPass_net (b r : Nat) (f : Pass → Pass) : (updPass w b r f).net = w.net := rfl
@[simp] theorem updPass_can (b r : Nat) (f : Pass → Pass) : (updPass w b r f).can = w.can := rfl
@[simp] theorem updPass_nvm (b r : Nat) (f : Pass → Pass) : (updPass w b r f).nvm = w.nvm := rfl

/-! ### updLink -/

@[simp] theorem updLink_clk (i : Nat) (f : Link → Link) : (updLink w i f).clk = w.clk := rfl
@[simp] theorem updLink_free (i : Nat) (f : Link → Link) : (updLink w i f).free = w.free := rfl
@[simp] theorem updLink_out (i : Nat) (f : Link → Link) : (updLink w i f).out = w.out := rfl
@[simp] theorem updLink_sys (i : Nat) (f : Link → Link) : (updLink w i f).sys = w.sys := rfl
@[simp] theorem updLink_evt (i : Nat) (f : Link → Link) : (updLink w i f).evt = w.evt := rfl
@[simp] theorem updLink_dict (i : Nat) (f : Link → Link) : (updLink w i f).dict = w.dict := rfl
@[simp] theorem updLink_tim (i : Nat) (f : Link → Link) : (updLink w i f).tim = w.tim := rfl
@[simp] theorem updLink_web (i : Nat) (f : Link → Link) : (updLink w i f).web = w.web := rfl
@[simp] theorem updLink_lck (i : Nat) (f : Link → Link) : (updLink w i f).lck = w.lck := rfl
@[simp] theorem updLink_job (i : Nat) (f : Link → Link) : (updLink w i f).job = w.job := rfl
@[simp] theorem updLink_mem (i : Nat) (f : Link → Link) : (updLink w i f).mem = w.mem := rfl
@[simp] theorem updLink_cal (i : Nat) (f : Link → Link) : (updLink w i f).cal = w.cal := rfl
@[simp] theorem updLink_jq (i : Nat) (f : Link → Link) : (updLink w i f).jq = w.jq := rfl
@[simp] theorem updLink_fire (i : Nat) (f : Link → Link) : (updLink w i f).fire = w.fire := rfl
@[simp] theorem updLink_sup (i : Nat) (f : Link → Link) : (updLink w i f).sup = w.sup := rfl
@[simp] theorem updLink_voi (i : Nat) (f : Link → Link) : (updLink w i f).voi = w.voi := rfl
@[simp] theorem updLink_ins (i : Nat) (f : Link → Link) : (updLink w i f).ins = w.ins := rfl
@[simp] theorem updLink_loop (i : Nat) (f : Link → Link) : (updLink w i f).loop = w.loop := rfl
@[simp] theorem updLink_thm (i : Nat) (f : Link → Link) : (updLink w i f).thm = w.thm := rfl
@[simp] theorem updLink_net (i : Nat) (f : Link → Link) : (updLink w i f).net = w.net := rfl
@[simp] theorem updLink_can (i : Nat) (f : Link → Link) : (updLink w i f).can = w.can := rfl
@[simp] theorem updLink_nvm (i : Nat) (f : Link → Link) : (updLink w i f).nvm = w.nvm := rfl

/-! ### updPort -/

@[simp] theorem updPort_clk (p : Nat) (f : FirePort → FirePort) : (updPort w p f).clk = w.clk := rfl
@[simp] theorem updPort_free (p : Nat) (f : FirePort → FirePort) : (updPort w p f).free = w.free := rfl
@[simp] theorem updPort_out (p : Nat) (f : FirePort → FirePort) : (updPort w p f).out = w.out := rfl
@[simp] theorem updPort_sys (p : Nat) (f : FirePort → FirePort) : (updPort w p f).sys = w.sys := rfl
@[simp] theorem updPort_evt (p : Nat) (f : FirePort → FirePort) : (updPort w p f).evt = w.evt := rfl
@[simp] theorem updPort_dict (p : Nat) (f : FirePort → FirePort) : (updPort w p f).dict = w.dict := rfl
@[simp] theorem updPort_tim (p : Nat) (f : FirePort → FirePort) : (updPort w p f).tim = w.tim := rfl
@[simp] theorem updPort_web (p : Nat) (f : FirePort → FirePort) : (updPort w p f).web = w.web := rfl
@[simp] theorem updPort_lck (p : Nat) (f : FirePort → FirePort) : (updPort w p f).lck = w.lck := rfl
@[simp] theorem updPort_job (p : Nat) (f : FirePort → FirePort) : (updPort w p f).job = w.job := rfl
@[simp] theorem updPort_mem (p : Nat) (f : FirePort → FirePort) : (updPort w p f).mem = w.mem := rfl
@[simp] theorem updPort_cal (p : Nat) (f : FirePort → FirePort) : (updPort w p f).cal = w.cal := rfl
@[simp] theorem updPort_jq (p : Nat) (f : FirePort → FirePort) : (updPort w p f).jq = w.jq := rfl
@[simp] theorem updPort_links (p : Nat) (f : FirePort → FirePort) : (updPort w p f).links = w.links := rfl
@[simp] theorem updPort_sup (p : Nat) (f : FirePort → FirePort) : (updPort w p f).sup = w.sup := rfl
@[simp] theorem updPort_voi (p : Nat) (f : FirePort → FirePort) : (updPort w p f).voi = w.voi := rfl
@[simp] theorem updPort_ins (p : Nat) (f : FirePort → FirePort) : (updPort w p f).ins = w.ins := rfl
@[simp] theorem updPort_loop (p : Nat) (f : FirePort → FirePort) : (updPort w p f).loop = w.loop := rfl
@[simp] theorem updPort_thm (p : Nat) (f : FirePort → FirePort) : (updPort w p f).thm = w.thm := rfl
@[simp] theorem updPort_net (p : Nat) (f : FirePort → FirePort) : (updPort w p f).net = w.net := rfl
@[simp] theorem updPort_can (p : Nat) (f : FirePort → FirePort) : (updPort w p f).can = w.can := rfl
@[simp] theorem updPort_nvm (p : Nat) (f : FirePort → FirePort) : (updPort w p f).nvm = w.nvm := rfl

/-! ### updCal -/

@[simp] theorem updCal_clk (f : Cal → Cal) : (updCal w f).clk = w.clk := rfl
@[simp] theorem updCal_free (f : Cal → Cal) : (updCal w f).free = w.free := rfl
@[simp] theorem updCal_out (f : Cal → Cal) : (updCal w f).out = w.out := rfl
@[simp] theorem updCal_sys (f : Cal → Cal) : (updCal w f).sys = w.sys := rfl
@[simp] theorem updCal_evt (f : Cal → Cal) : (updCal w f).evt = w.evt := rfl
@[simp] theorem updCal_dict (f : Cal → Cal) : (updCal w f).dict = w.dict := rfl
@[simp] theorem updCal_tim (f : Cal → Cal) : (updCal w f).tim = w.tim := rfl
@[simp] theorem updCal_web (f : Cal → Cal) : (updCal w f).web = w.web := rfl
@[simp] theorem updCal_lck (f : Cal → Cal) : (updCal w f).lck = w.lck := rfl
@[simp] theorem updCal_job (f : Cal → Cal) : (updCal w f).job = w.job := rfl
@[simp] theorem updCal_mem (f : Cal → Cal) : (updCal w f).mem = w.mem := rfl
@[simp] theorem updCal_jq (f : Cal → Cal) : (updCal w f).jq = w.jq := rfl
@[simp] theorem updCal_links (f : Cal → Cal) : (updCal w f).links = w.links := rfl
@[simp] theorem updCal_fire (f : Cal → Cal) : (updCal w f).fire = w.fire := rfl
@[simp] theorem updCal_sup (f : Cal → Cal) : (updCal w f).sup = w.sup := rfl
@[simp] theorem updCal_voi (f : Cal → Cal) : (updCal w f).voi = w.voi := rfl
@[simp] theorem updCal_ins (f : Cal → Cal) : (updCal w f).ins = w.ins := rfl
@[simp] theorem updCal_loop (f : Cal → Cal) : (updCal w f).loop = w.loop := rfl
@[simp] theorem updCal_thm (f : Cal → Cal) : (updCal w f).thm = w.thm := rfl
@[simp] theorem updCal_net (f : Cal → Cal) : (updCal w f).net = w.net := rfl
@[simp] theorem updCal_can (f : Cal → Cal) : (updCal w f).can = w.can := rfl
@[simp] theorem updCal_nvm (f : Cal → Cal) : (updCal w f).nvm = w.nvm := rfl

/-! ### updNet -/

@[simp] theorem updNet_clk (f : Net → Net) : (updNet w f).clk = w.clk := rfl
@[simp] theorem updNet_free (f : Net → Net) : (updNet w f).free = w.free := rfl
@[simp] theorem updNet_out (f : Net → Net) : (updNet w f).out = w.out := rfl
@[simp] theorem updNet_sys (f : Net → Net) : (updNet w f).sys = w.sys := rfl
@[simp] theorem updNet_evt (f : Net → Net) : (updNet w f).evt = w.evt := rfl
@[simp] theorem updNet_dict (f : Net → Net) : (updNet w f).dict = w.dict := rfl
@[simp] theorem updNet_tim (f : Net → Net) : (updNet w f).tim = w.tim := rfl
@[simp] theorem updNet_web (f : Net → Net) : (updNet w f).web = w.web := rfl
@[simp] theorem updNet_lck (f : Net → Net) : (updNet w f).lck = w.lck := rfl
@[simp] theorem updNet_job (f : Net → Net) : (updNet w f).job = w.job := rfl
@[simp] theorem updNet_mem (f : Net → Net) : (updNet w f).mem = w.mem := rfl
@[simp] theorem updNet_cal (f : Net → Net) : (updNet w f).cal = w.cal := rfl
@[simp] theorem updNet_jq (f : Net → Net) : (updNet w f).jq = w.jq := rfl
@[simp] theorem updNet_links (f : Net → Net) : (updNet w f).links = w.links := rfl
@[simp] theorem updNet_fire (f : Net → Net) : (updNet w f).fire = w.fire := rfl
@[simp] theorem updNet_sup (f : Net → Net) : (updNet w f).sup = w.sup := rfl
@[simp] theorem updNet_voi (f : Net → Net) : (updNet w f).voi = w.voi := rfl
@[simp] theorem updNet_ins (f : Net → Net) : (updNet w f).ins = w.ins := rfl
@[simp] theorem updNet_loop (f : Net → Net) : (updNet w f).loop = w.loop := rfl
@[simp] theorem updNet_thm (f : Net → Net) : (updNet w f).thm = w.thm := rfl
@[simp] theorem updNet_can (f : Net → Net) : (updNet w f).can = w.can := rfl
@[simp] theorem updNet_nvm (f : Net → Net) : (updNet w f).nvm = w.nvm := rfl

/-! ### updCan -/

@[simp] theorem updCan_clk (f : Can → Can) : (updCan w f).clk = w.clk := rfl
@[simp] theorem updCan_free (f : Can → Can) : (updCan w f).free = w.free := rfl
@[simp] theorem updCan_out (f : Can → Can) : (updCan w f).out = w.out := rfl
@[simp] theorem updCan_sys (f : Can → Can) : (updCan w f).sys = w.sys := rfl
@[simp] theorem updCan_evt (f : Can → Can) : (updCan w f).evt = w.evt := rfl
@[simp] theorem updCan_dict (f : Can → Can) : (updCan w f).dict = w.dict := rfl
@[simp] theorem updCan_tim (f : Can → Can) : (updCan w f).tim = w.tim := rfl
@[simp] theorem updCan_web (f : Can → Can) : (updCan w f).web = w.web := rfl
@[simp] theorem updCan_lck (f : Can → Can) : (updCan w f).lck = w.lck := rfl
@[simp] theorem updCan_job (f : Can → Can) : (updCan w f).job = w.job := rfl
@[simp] theorem updCan_mem (f : Can → Can) : (updCan w f).mem = w.mem := rfl
@[simp] theorem updCan_cal (f : Can → Can) : (updCan w f).cal = w.cal := rfl
@[simp] theorem updCan_jq (f : Can → Can) : (updCan w f).jq = w.jq := rfl
@[simp] theorem updCan_links (f : Can → Can) : (updCan w f).links = w.links := rfl
@[simp] theorem updCan_fire (f : Can → Can) : (updCan w f).fire = w.fire := rfl
@[simp] theorem updCan_sup (f : Can → Can) : (updCan w f).sup = w.sup := rfl
@[simp] theorem updCan_voi (f : Can → Can) : (updCan w f).voi = w.voi := rfl
@[simp] theorem updCan_ins (f : Can → Can) : (updCan w f).ins = w.ins := rfl
@[simp] theorem updCan_loop (f : Can → Can) : (updCan w f).loop = w.loop := rfl
@[simp] theorem updCan_thm (f : Can → Can) : (updCan w f).thm = w.thm := rfl
@[simp] theorem updCan_net (f : Can → Can) : (updCan w f).net = w.net := rfl
@[simp] theorem updCan_nvm (f : Can → Can) : (updCan w f).nvm = w.nvm := rfl

/-! ### updVoi -/

@[simp] theorem updVoi_clk (f : Voi → Voi) : (updVoi w f).clk = w.clk := rfl
@[simp] theorem updVoi_free (f : Voi → Voi) : (updVoi w f).free = w.free := rfl
@[simp] theorem updVoi_out (f : Voi → Voi) : (updVoi w f).out = w.out := rfl
@[simp] theorem updVoi_sys (f : Voi → Voi) : (updVoi w f).sys = w.sys := rfl
@[simp] theorem updVoi_evt (f : Voi → Voi) : (updVoi w f).evt = w.evt := rfl
@[simp] theorem updVoi_dict (f : Voi → Voi) : (updVoi w f).dict = w.dict := rfl
@[simp] theorem updVoi_tim (f : Voi → Voi) : (updVoi w f).tim = w.tim := rfl
@[simp] theorem updVoi_web (f : Voi → Voi) : (updVoi w f).web = w.web := rfl
@[simp] theorem updVoi_lck (f : Voi → Voi) : (updVoi w f).lck = w.lck := rfl
@[simp] theorem updVoi_job (f : Voi → Voi) : (updVoi w f).job = w.job := rfl
@[simp] theorem updVoi_mem (f : Voi → Voi) : (updVoi w f).mem = w.mem := rfl
@[simp] theorem updVoi_cal (f : Voi → Voi) : (updVoi w f).cal = w.cal := rfl
@[simp] theorem updVoi_jq (f : Voi → Voi) : (updVoi w f).jq = w.jq := rfl
@[simp] theorem updVoi_links (f : Voi → Voi) : (updVoi w f).links = w.links := rfl
@[simp] theorem updVoi_fire (f : Voi → Voi) : (updVoi w f).fire = w.fire := rfl
@[simp] theorem updVoi_sup (f : Voi → Voi) : (updVoi w f).sup = w.sup := rfl
@[simp] theorem updVoi_ins (f : Voi → Voi) : (updVoi w f).ins = w.ins := rfl
@[simp] theorem updVoi_loop (f : Voi → Voi) : (updVoi w f).loop = w.loop := rfl
@[simp] theorem updVoi_thm (f : Voi → Voi) : (updVoi w f).thm = w.thm := rfl
@[simp] theorem updVoi_net (f : Voi → Voi) : (updVoi w f).net = w.net := rfl
@[simp] theorem updVoi_can (f : Voi → Voi) : (updVoi w f).can = w.can := rfl
@[simp] theorem updVoi_nvm (f : Voi → Voi) : (updVoi w f).nvm = w.nvm := rfl

/-! ### updPair -/

@[simp] theorem updPair_clk (i : Nat) (f : Pair → Pair) : (updPair w i f).clk = w.clk := rfl
@[simp] theorem updPair_free (i : Nat) (f : Pair → Pair) : (updPair w i f).free = w.free := rfl
@[simp] theorem updPair_out (i : Nat) (f : Pair → Pair) : (updPair w i f).out = w.out := rfl
@[simp] theorem updPair_sys (i : Nat) (f : Pair → Pair) : (updPair w i f).sys = w.sys := rfl
@[simp] theorem updPair_evt (i : Nat) (f : Pair → Pair) : (updPair w i f).evt = w.evt := rfl
@[simp] theorem updPair_dict (i : Nat) (f : Pair → Pair) : (updPair w i f).dict = w.dict := rfl
@[simp] theorem updPair_tim (i : Nat) (f : Pair → Pair) : (updPair w i f).tim = w.tim := rfl
@[simp] theorem updPair_web (i : Nat) (f : Pair → Pair) : (updPair w i f).web = w.web := rfl
@[simp] theorem updPair_lck (i : Nat) (f : Pair → Pair) : (updPair w i f).lck = w.lck := rfl
@[simp] theorem updPair_job (i : Nat) (f : Pair → Pair) : (updPair w i f).job = w.job := rfl
@[simp] theorem updPair_mem (i : Nat) (f : Pair → Pair) : (updPair w i f).mem = w.mem := rfl
@[simp] theorem updPair_cal (i : Nat) (f : Pair → Pair) : (updPair w i f).cal = w.cal := rfl
@[simp] theorem updPair_jq (i : Nat) (f : Pair → Pair) : (updPair w i f).jq = w.jq := rfl
@[simp] theorem updPair_links (i : Nat) (f : Pair → Pair) : (updPair w i f).links = w.links := rfl
@[simp] theorem updPair_fire (i : Nat) (f : Pair → Pair) : (updPair w i f).fire = w.fire := rfl
@[simp] theorem updPair_sup (i : Nat) (f : Pair → Pair) : (updPair w i f).sup = w.sup := rfl
@[simp] theorem updPair_ins (i : Nat) (f : Pair → Pair) : (updPair w i f).ins = w.ins := rfl
@[simp] theorem updPair_loop (i : Nat) (f : Pair → Pair) : (updPair w i f).loop = w.loop := rfl
@[simp] theorem updPair_thm (i : Nat) (f : Pair → Pair) : (updPair w i f).thm = w.thm := rfl
@[simp] theorem updPair_net (i : Nat) (f : Pair → Pair) : (updPair w i f).net = w.net := rfl
@[simp] theorem updPair_can (i : Nat) (f : Pair → Pair) : (updPair w i f).can = w.can := rfl
@[simp] theorem updPair_nvm (i : Nat) (f : Pair → Pair) : (updPair w i f).nvm = w.nvm := rfl

/-! ### updIns -/

@[simp] theorem updIns_clk (f : Ins → Ins) : (updIns w f).clk = w.clk := rfl
@[simp] theorem updIns_free (f : Ins → Ins) : (updIns w f).free = w.free := rfl
@[simp] theorem updIns_out (f : Ins → Ins) : (updIns w f).out = w.out := rfl
@[simp] theorem updIns_sys (f : Ins → Ins) : (updIns w f).sys = w.sys := rfl
@[simp] theorem updIns_evt (f : Ins → Ins) : (updIns w f).evt = w.evt := rfl
@[simp] theorem updIns_dict (f : Ins → Ins) : (updIns w f).dict = w.dict := rfl
@[simp] theorem updIns_tim (f : Ins → Ins) : (updIns w f).tim = w.tim := rfl
@[simp] theorem updIns_web (f : Ins → Ins) : (updIns w f).web = w.web := rfl
@[simp] theorem updIns_lck (f : Ins → Ins) : (updIns w f).lck = w.lck := rfl
@[simp] theorem updIns_job (f : Ins → Ins) : (updIns w f).job = w.job := rfl
@[simp] theorem updIns_mem (f : Ins → Ins) : (updIns w f).mem = w.mem := rfl
@[simp] theorem updIns_cal (f : Ins → Ins) : (updIns w f).cal = w.cal := rfl
@[simp] theorem updIns_jq (f : Ins → Ins) : (updIns w f).jq = w.jq := rfl
@[simp] theorem updIns_links (f : Ins → Ins) : (updIns w f).links = w.links := rfl
@[simp] theorem updIns_fire (f : Ins → Ins) : (updIns w f).fire = w.fire := rfl
@[simp] theorem updIns_sup (f : Ins → Ins) : (updIns w f).sup = w.sup := rfl
@[simp] theorem updIns_voi (f : Ins → Ins) : (updIns w f).voi = w.voi := rfl
@[simp] theorem updIns_loop (f : Ins → Ins) : (updIns w f).loop = w.loop := rfl
@[simp] theorem updIns_thm (f : Ins → Ins) : (updIns w f).thm = w.thm := rfl
@[simp] theorem updIns_net (f : Ins → Ins) : (updIns w f).net = w.net := rfl
@[simp] theorem updIns_can (f : Ins → Ins) : (updIns w f).can = w.can := rfl
@[simp] theorem updIns_nvm (f : Ins → Ins) : (updIns w f).nvm = w.nvm := rfl

/-! ### updLoop -/

@[simp] theorem updLoop_clk (f : Loop → Loop) : (updLoop w f).clk = w.clk := rfl
@[simp] theorem updLoop_free (f : Loop → Loop) : (updLoop w f).free = w.free := rfl
@[simp] theorem updLoop_out (f : Loop → Loop) : (updLoop w f).out = w.out := rfl
@[simp] theorem updLoop_sys (f : Loop → Loop) : (updLoop w f).sys = w.sys := rfl
@[simp] theorem updLoop_evt (f : Loop → Loop) : (updLoop w f).evt = w.evt := rfl
@[simp] theorem updLoop_dict (f : Loop → Loop) : (updLoop w f).dict = w.dict := rfl
@[simp] theorem updLoop_tim (f : Loop → Loop) : (updLoop w f).tim = w.tim := rfl
@[simp] theorem updLoop_web (f : Loop → Loop) : (updLoop w f).web = w.web := rfl
@[simp] theorem updLoop_lck (f : Loop → Loop) : (updLoop w f).lck = w.lck := rfl
@[simp] theorem updLoop_job (f : Loop → Loop) : (updLoop w f).job = w.job := rfl
@[simp] theorem updLoop_mem (f : Loop → Loop) : (updLoop w f).mem = w.mem := rfl
@[simp] theorem updLoop_cal (f : Loop → Loop) : (updLoop w f).cal = w.cal := rfl
@[simp] theorem updLoop_jq (f : Loop → Loop) : (updLoop w f).jq = w.jq := rfl
@[simp] theorem updLoop_links (f : Loop → Loop) : (updLoop w f).links = w.links := rfl
@[simp] theorem updLoop_fire (f : Loop → Loop) : (updLoop w f).fire = w.fire := rfl
@[simp] theorem updLoop_sup (f : Loop → Loop) : (updLoop w f).sup = w.sup := rfl
@[simp] theorem updLoop_voi (f : Loop → Loop) : (updLoop w f).voi = w.voi := rfl
@[simp] theorem updLoop_ins (f : Loop → Loop) : (updLoop w f).ins = w.ins := rfl
@[simp] theorem updLoop_thm (f : Loop → Loop) : (updLoop w f).thm = w.thm := rfl
@[simp] theorem updLoop_net (f : Loop → Loop) : (updLoop w f).net = w.net := rfl
@[simp] theorem updLoop_can (f : Loop → Loop) : (updLoop w f).can = w.can := rfl
@[simp] theorem updLoop_nvm (f : Loop → Loop) : (updLoop w f).nvm = w.nvm := rfl

/-! ### updSup -/

@[simp] theorem updSup_clk (f : Sup → Sup) : (updSup w f).clk = w.clk := rfl
@[simp] theorem updSup_free (f : Sup → Sup) : (updSup w f).free = w.free := rfl
@[simp] theorem updSup_out (f : Sup → Sup) : (updSup w f).out = w.out := rfl
@[simp] theorem updSup_sys (f : Sup → Sup) : (updSup w f).sys = w.sys := rfl
@[simp] theorem updSup_evt (f : Sup → Sup) : (updSup w f).evt = w.evt := rfl
@[simp] theorem updSup_dict (f : Sup → Sup) : (updSup w f).dict = w.dict := rfl
@[simp] theorem updSup_tim (f : Sup → Sup) : (updSup w f).tim = w.tim := rfl
@[simp] theorem updSup_web (f : Sup → Sup) : (updSup w f).web = w.web := rfl
@[simp] theorem updSup_lck (f : Sup → Sup) : (updSup w f).lck = w.lck := rfl
@[simp] theorem updSup_job (f : Sup → Sup) : (updSup w f).job = w.job := rfl
@[simp] theorem updSup_mem (f : Sup → Sup) : (updSup w f).mem = w.mem := rfl
@[simp] theorem updSup_cal (f : Sup → Sup) : (updSup w f).cal = w.cal := rfl
@[simp] theorem updSup_jq (f : Sup → Sup) : (updSup w f).jq = w.jq := rfl
@[simp] theorem updSup_links (f : Sup → Sup) : (updSup w f).links = w.links := rfl
@[simp] theorem updSup_fire (f : Sup → Sup) : (updSup w f).fire = w.fire := rfl
@[simp] theorem updSup_voi (f : Sup → Sup) : (updSup w f).voi = w.voi := rfl
@[simp] theorem updSup_ins (f : Sup → Sup) : (updSup w f).ins = w.ins := rfl
@[simp] theorem updSup_loop (f : Sup → Sup) : (updSup w f).loop = w.loop := rfl
@[simp] theorem updSup_thm (f : Sup → Sup) : (updSup w f).thm = w.thm := rfl
@[simp] theorem updSup_net (f : Sup → Sup) : (updSup w f).net = w.net := rfl
@[simp] theorem updSup_can (f : Sup → Sup) : (updSup w f).can = w.can := rfl
@[simp] theorem updSup_nvm (f : Sup → Sup) : (updSup w f).nvm = w.nvm := rfl

/-! ### updCore -/

@[simp] theorem updCore_clk (c : Nat) (f : Core → Core) : (updCore w c f).clk = w.clk := rfl
@[simp] theorem updCore_free (c : Nat) (f : Core → Core) : (updCore w c f).free = w.free := rfl
@[simp] theorem updCore_out (c : Nat) (f : Core → Core) : (updCore w c f).out = w.out := rfl
@[simp] theorem updCore_sys (c : Nat) (f : Core → Core) : (updCore w c f).sys = w.sys := rfl
@[simp] theorem updCore_evt (c : Nat) (f : Core → Core) : (updCore w c f).evt = w.evt := rfl
@[simp] theorem updCore_dict (c : Nat) (f : Core → Core) : (updCore w c f).dict = w.dict := rfl
@[simp] theorem updCore_tim (c : Nat) (f : Core → Core) : (updCore w c f).tim = w.tim := rfl
@[simp] theorem updCore_web (c : Nat) (f : Core → Core) : (updCore w c f).web = w.web := rfl
@[simp] theorem updCore_lck (c : Nat) (f : Core → Core) : (updCore w c f).lck = w.lck := rfl
@[simp] theorem updCore_job (c : Nat) (f : Core → Core) : (updCore w c f).job = w.job := rfl
@[simp] theorem updCore_mem (c : Nat) (f : Core → Core) : (updCore w c f).mem = w.mem := rfl
@[simp] theorem updCore_cal (c : Nat) (f : Core → Core) : (updCore w c f).cal = w.cal := rfl
@[simp] theorem updCore_jq (c : Nat) (f : Core → Core) : (updCore w c f).jq = w.jq := rfl
@[simp] theorem updCore_links (c : Nat) (f : Core → Core) : (updCore w c f).links = w.links := rfl
@[simp] theorem updCore_fire (c : Nat) (f : Core → Core) : (updCore w c f).fire = w.fire := rfl
@[simp] theorem updCore_voi (c : Nat) (f : Core → Core) : (updCore w c f).voi = w.voi := rfl
@[simp] theorem updCore_ins (c : Nat) (f : Core → Core) : (updCore w c f).ins = w.ins := rfl
@[simp] theorem updCore_loop (c : Nat) (f : Core → Core) : (updCore w c f).loop = w.loop := rfl
@[simp] theorem updCore_thm (c : Nat) (f : Core → Core) : (updCore w c f).thm = w.thm := rfl
@[simp] theorem updCore_net (c : Nat) (f : Core → Core) : (updCore w c f).net = w.net := rfl
@[simp] theorem updCore_can (c : Nat) (f : Core → Core) : (updCore w c f).can = w.can := rfl
@[simp] theorem updCore_nvm (c : Nat) (f : Core → Core) : (updCore w c f).nvm = w.nvm := rfl

/-! ### updThm -/

@[simp] theorem updThm_clk (f : Thm → Thm) : (updThm w f).clk = w.clk := rfl
@[simp] theorem updThm_free (f : Thm → Thm) : (updThm w f).free = w.free := rfl
@[simp] theorem updThm_out (f : Thm → Thm) : (updThm w f).out = w.out := rfl
@[simp] theorem updThm_sys (f : Thm → Thm) : (updThm w f).sys = w.sys := rfl
@[simp] theorem updThm_evt (f : Thm → Thm) : (updThm w f).evt = w.evt := rfl
@[simp] theorem updThm_dict (f : Thm → Thm) : (updThm w f).dict = w.dict := rfl
@[simp] theorem updThm_tim (f : Thm → Thm) : (updThm w f).tim = w.tim := rfl
@[simp] theorem updThm_web (f : Thm → Thm) : (updThm w f).web = w.web := rfl
@[simp] theorem updThm_lck (f : Thm → Thm) : (updThm w f).lck = w.lck := rfl
@[simp] theorem updThm_job (f : Thm → Thm) : (updThm w f).job = w.job := rfl
@[simp] theorem updThm_mem (f : Thm → Thm) : (updThm w f).mem = w.mem := rfl
@[simp] theorem updThm_cal (f : Thm → Thm) : (updThm w f).cal = w.cal := rfl
@[simp] theorem updThm_jq (f : Thm → Thm) : (updThm w f).jq = w.jq := rfl
@[simp] theorem updThm_links (f : Thm → Thm) : (updThm w f).links = w.links := rfl
@[simp] theorem updThm_fire (f : Thm → Thm) : (updThm w f).fire = w.fire := rfl
@[simp] theorem updThm_sup (f : Thm → Thm) : (updThm w f).sup = w.sup := rfl
@[simp] theorem updThm_voi (f : Thm → Thm) : (updThm w f).voi = w.voi := rfl
@[simp] theorem updThm_ins (f : Thm → Thm) : (updThm w f).ins = w.ins := rfl
@[simp] theorem updThm_loop (f : Thm → Thm) : (updThm w f).loop = w.loop := rfl
@[simp] theorem updThm_net (f : Thm → Thm) : (updThm w f).net = w.net := rfl
@[simp] theorem updThm_can (f : Thm → Thm) : (updThm w f).can = w.can := rfl
@[simp] theorem updThm_nvm (f : Thm → Thm) : (updThm w f).nvm = w.nvm := rfl

/-! ### updSensor -/

@[simp] theorem updSensor_clk (n : Nat) (f : Sensor → Sensor) : (updSensor w n f).clk = w.clk := rfl
@[simp] theorem updSensor_free (n : Nat) (f : Sensor → Sensor) : (updSensor w n f).free = w.free := rfl
@[simp] theorem updSensor_out (n : Nat) (f : Sensor → Sensor) : (updSensor w n f).out = w.out := rfl
@[simp] theorem updSensor_sys (n : Nat) (f : Sensor → Sensor) : (updSensor w n f).sys = w.sys := rfl
@[simp] theorem updSensor_evt (n : Nat) (f : Sensor → Sensor) : (updSensor w n f).evt = w.evt := rfl
@[simp] theorem updSensor_dict (n : Nat) (f : Sensor → Sensor) : (updSensor w n f).dict = w.dict := rfl
@[simp] theorem updSensor_tim (n : Nat) (f : Sensor → Sensor) : (updSensor w n f).tim = w.tim := rfl
@[simp] theorem updSensor_web (n : Nat) (f : Sensor → Sensor) : (updSensor w n f).web = w.web := rfl
@[simp] theorem updSensor_lck (n : Nat) (f : Sensor → Sensor) : (updSensor w n f).lck = w.lck := rfl
@[simp] theorem updSensor_job (n : Nat) (f : Sensor → Sensor) : (updSensor w n f).job = w.job := rfl
@[simp] theorem updSensor_mem (n : Nat) (f : Sensor → Sensor) : (updSensor w n f).mem = w.mem := rfl
@[simp] theorem updSensor_cal (n : Nat) (f : Sensor → Sensor) : (updSensor w n f).cal = w.cal := rfl
@[simp] theorem updSensor_jq (n : Nat) (f : Sensor → Sensor) : (updSensor w n f).jq = w.jq := rfl
@[simp] theorem updSensor_links (n : Nat) (f : Sensor → Sensor) : (updSensor w n f).links = w.links := rfl
@[simp] theorem updSensor_fire (n : Nat) (f : Sensor → Sensor) : (updSensor w n f).fire = w.fire := rfl
@[simp] theorem updSensor_sup (n : Nat) (f : Sensor → Sensor) : (updSensor w n f).sup = w.sup := rfl
@[simp] theorem updSensor_voi (n : Nat) (f : Sensor → Sensor) : (updSensor w n f).voi = w.voi := rfl
@[simp] theorem updSensor_ins (n : Nat) (f : Sensor → Sensor) : (updSensor w n f).ins = w.ins := rfl
@[simp] theorem updSensor_loop (n : Nat) (f : Sensor → Sensor) : (updSensor w n f).loop = w.loop := rfl
@[simp] theorem updSensor_net (n : Nat) (f : Sensor → Sensor) : (updSensor w n f).net = w.net := rfl
@[simp] theorem updSensor_can (n : Nat) (f : Sensor → Sensor) : (updSensor w n f).can = w.can := rfl
@[simp] theorem updSensor_nvm (n : Nat) (f : Sensor → Sensor) : (updSensor w n f).nvm = w.nvm := rfl

/-! ### Reading a part after its update -/

@[simp] theorem updCal_cal (f : Cal → Cal) : (updCal w f).cal = f w.cal := rfl
@[simp] theorem updNet_net (f : Net → Net) : (updNet w f).net = f w.net := rfl
@[simp] theorem updCan_can (f : Can → Can) : (updCan w f).can = f w.can := rfl
@[simp] theorem updVoi_voi (f : Voi → Voi) : (updVoi w f).voi = f w.voi := rfl
@[simp] theorem updIns_ins (f : Ins → Ins) : (updIns w f).ins = f w.ins := rfl
@[simp] theorem updLoop_loop (f : Loop → Loop) : (updLoop w f).loop = f w.loop := rfl
@[simp] theorem updSup_sup (f : Sup → Sup) : (updSup w f).sup = f w.sup := rfl
@[simp] theorem updThm_thm (f : Thm → Thm) : (updThm w f).thm = f w.thm := rfl

@[simp] theorem encAt_updEnc_same {n : Nat} (f : EncCh → EncCh) (h : n < w.web.enc.length) :
    encAt (updEnc w n f) n = f (encAt w n) := by
  simp [updEnc, setEnc, encAt, List.getD_eq_getElem?_getD, h]

theorem encAt_updEnc_ne {n m : Nat} (f : EncCh → EncCh) (h : n ≠ m) : encAt (updEnc w n f) m = encAt w m := by
  simp [updEnc, setEnc, encAt, List.getD_eq_getElem?_getD, h]

@[simp] theorem rowAt_updRow_same {n : Nat} (f : RowClk → RowClk) (h : n < w.lck.rows.length) :
    rowAt (updRow w n f) n = f (rowAt w n) := by
  simp [updRow, setRow, rowAt, List.getD_eq_getElem?_getD, h]

theorem rowAt_updRow_ne {n m : Nat} (f : RowClk → RowClk) (h : n ≠ m) : rowAt (updRow w n f) m = rowAt w m := by
  simp [updRow, setRow, rowAt, List.getD_eq_getElem?_getD, h]

@[simp] theorem barAt_updBar_same {n : Nat} (f : BarJq → BarJq) (h : n < w.jq.bars.length) :
    barAt (updBar w n f) n = f (barAt w n) := by
  simp [updBar, setBar, barAt, List.getD_eq_getElem?_getD, h]

theorem barAt_updBar_ne {n m : Nat} (f : BarJq → BarJq) (h : n ≠ m) : barAt (updBar w n f) m = barAt w m := by
  simp [updBar, setBar, barAt, List.getD_eq_getElem?_getD, h]

@[simp] theorem linkAt_updLink_same {n : Nat} (f : Link → Link) (h : n < w.links.length) :
    linkAt (updLink w n f) n = f (linkAt w n) := by
  simp [updLink, setLink, linkAt, List.getD_eq_getElem?_getD, h]

theorem linkAt_updLink_ne {n m : Nat} (f : Link → Link) (h : n ≠ m) : linkAt (updLink w n f) m = linkAt w m := by
  simp [updLink, setLink, linkAt, List.getD_eq_getElem?_getD, h]

@[simp] theorem portAt_updPort_same {n : Nat} (f : FirePort → FirePort) (h : n < w.fire.length) :
    portAt (updPort w n f) n = f (portAt w n) := by
  simp [updPort, setPort_, portAt, List.getD_eq_getElem?_getD, h]

theorem portAt_updPort_ne {n m : Nat} (f : FirePort → FirePort) (h : n ≠ m) : portAt (updPort w n f) m = portAt w m := by
  simp [updPort, setPort_, portAt, List.getD_eq_getElem?_getD, h]

@[simp] theorem prbAt_updPrb_same {n : Nat} (f : Probe → Probe) (h : n < w.web.prb.length) :
    prbAt (updPrb w n f) n = f (prbAt w n) := by
  simp [updPrb, prbAt, List.getD_eq_getElem?_getD, h]

theorem prbAt_updPrb_ne {n m : Nat} (f : Probe → Probe) (h : n ≠ m) : prbAt (updPrb w n f) m = prbAt w m := by
  simp [updPrb, prbAt, List.getD_eq_getElem?_getD, h]

@[simp] theorem ssiAt_updSsi_same {n : Nat} (f : SsiM → SsiM) (h : n < w.web.ssi.length) :
    ssiAt (updSsi w n f) n = f (ssiAt w n) := by
  simp [updSsi, ssiAt, List.getD_eq_getElem?_getD, h]

theorem ssiAt_updSsi_ne {n m : Nat} (f : SsiM → SsiM) (h : n ≠ m) : ssiAt (updSsi w n f) m = ssiAt w m := by
  simp [updSsi, ssiAt, List.getD_eq_getElem?_getD, h]

@[simp] theorem pairAt_updPair_same {n : Nat} (f : Pair → Pair) (h : n < w.voi.pairs.length) :
    pairAt (updPair w n f) n = f (pairAt w n) := by
  simp [updPair, pairAt, List.getD_eq_getElem?_getD, h]

theorem pairAt_updPair_ne {n m : Nat} (f : Pair → Pair) (h : n ≠ m) : pairAt (updPair w n f) m = pairAt w m := by
  simp [updPair, pairAt, List.getD_eq_getElem?_getD, h]

@[simp] theorem sensorAt_updSensor_same {n : Nat} (f : Sensor → Sensor) (h : n < w.thm.sensors.length) :
    sensorAt (updSensor w n f) n = f (sensorAt w n) := by
  simp [updSensor, sensorAt, List.getD_eq_getElem?_getD, h, updThm]

theorem sensorAt_updSensor_ne {n m : Nat} (f : Sensor → Sensor) (h : n ≠ m) : sensorAt (updSensor w n f) m = sensorAt w m := by
  simp [updSensor, sensorAt, List.getD_eq_getElem?_getD, h, updThm]

end Sys2Proof.Machine
end

