-- ==== Sys2Proof/Laws/Write.lean ====
section
/-! SUPPORT. What a write does once it passes steps 1 to 5 of R325: the state that steps 6 to 8 make, settled, with the
answer sent and kept. -/

namespace Sys2Proof.Machine

/-- `x` is `y` but for what a write's answer touches: the messages sent and the answers kept. -/
def AnswerOf (y x : State) : Prop :=
  x.ctl = y.ctl ∧ ∃ out rep, x.w = { y.w with out := out, net := { y.w.net with replay := rep } }

theorem AnswerOf.refl (y : State) : AnswerOf y y := ⟨rfl, _, _, rfl⟩

theorem AnswerOf.send {y x : State} (m : OutMsg) (h : AnswerOf y x) : AnswerOf y { x with w := send x.w m } := by
  obtain ⟨h1, o, r, h2⟩ := h
  exact ⟨h1, x.w.out ++ [m], r, by dsimp only [Machine.send]; rw [h2]⟩

theorem AnswerOf.keep {y x : State} (k : KoaStored) (h : AnswerOf y x) : AnswerOf y { x with w := keepAnswer k x.w } := by
  obtain ⟨h1, o, r, h2⟩ := h
  exact ⟨h1, o, (keepAnswer k x.w).net.replay, by dsimp only [keepAnswer, updNet]; rw [h2]⟩

/-- The state of steps 6 to 8. -/
def steps6to8 (e : WriteEnv) (k : Nat) (bytes : List Nat) (u : State) : State :=
  match objRow k with
  | some (r, n, o) => applyWrite (pathSource e.path) r n o k bytes u
  | none => u

theorem engine_of_gate {e : WriteEnv} {ix sub ty : Nat} {bytes : List Nat} {s u : State} {r n o}
    (h : gate e ix sub ty bytes s = .ok (u, r, n, o)) :
    objRow (ix * 256 + sub) = some (r, n, o) ∧
      ∃ st, st ≤ 1 ∧ engine e ix sub ty bytes s = (st, applyWrite (pathSource e.path) r n o (ix * 256 + sub) bytes u) := by
  constructor
  · unfold gate at h
    dsimp only at h
    split at h; · cases h
    split at h; · cases h
    split at h; · cases h
    split at h
    · cases h
    · rename_i r' n' o' hr
      split at h; · cases h
      split at h; · cases h
      split at h; · cases h
      split at h
      · cases h
      · cases h; exact hr
  · unfold engine
    rw [h]
    refine ⟨_, ?_, rfl⟩
    split <;> decide

theorem steps_of_gate {e : WriteEnv} {k ty : Nat} {bytes : List Nat} {s u : State} (h : gateState e k ty bytes s = some u) :
    (objRow k).isSome = true ∧ ∃ st, st ≤ 1 ∧ engine e (k / 256) (k % 256) ty bytes s = (st, steps6to8 e k bytes u) := by
  have hk : k / 256 * 256 + k % 256 = k := by omega
  unfold gateState at h
  split at h
  · rename_i u' r n o hg
    obtain rfl : u' = u := by simpa using h
    obtain ⟨hrow, st, hst, he⟩ := engine_of_gate hg
    rw [hk] at hrow he
    exact ⟨by simp [hrow], st, hst, by rw [he]; simp [steps6to8, hrow]⟩
  · cases h

/-- A write that passes steps 1 to 5 ends in the state of steps 6 to 8 with its answer. -/
theorem writeObj_passes {e : WriteEnv} {k ty : Nat} {bytes : List Nat} {s u : State}
    (h : passesAt e k ty bytes s = some u) :
    (objRow k).isSome = true ∧ AnswerOf (steps6to8 e k bytes u) (writeObj e (k / 256) (k % 256) ty bytes s) := by
  unfold passesAt at h
  unfold writeObj
  split at h
  · rename_i a reqId hp
    split at h
    · rename_i hc
      simp only [Bool.and_eq_true, Option.isNone_iff_eq_none] at hc
      obtain ⟨hr, st, -, he⟩ := steps_of_gate h
      refine ⟨hr, ?_⟩
      simp only [hp, hc.1, if_true, koaWrite, hc.2, he]
      split
      · exact ((AnswerOf.refl _).send _).keep _
      · exact (AnswerOf.refl _).send _
    · cases h
  · rename_i hp
    split at h
    · rename_i hc
      obtain ⟨hr, st, hst, he⟩ := steps_of_gate h
      refine ⟨hr, ?_⟩
      simp only [hp, hc, if_true, canWrite, he, hst]
      exact (AnswerOf.refl _).send _
    · cases h
  · rename_i hp
    split at h
    · rename_i hc
      obtain ⟨hr, st, -, he⟩ := steps_of_gate h
      refine ⟨hr, ?_⟩
      simp only [hp, hc, if_true, he]
      exact .refl _
    · cases h
  · rename_i hp
    split at h
    · rename_i hc
      obtain ⟨hr, st, -, he⟩ := steps_of_gate h
      refine ⟨hr, ?_⟩
      simp only [hp, hc, if_true, he]
      exact .refl _
    · cases h

/-- The write commands: the state of steps 6 to 8, its answer, and the events delivered. -/
theorem runWrite_passes {e : WriteEnv} {k : Nat} {v : Int} {s u : State} (h : Passes e k v s u) :
    ∃ x, AnswerOf (steps6to8 e k (valueBytes k v) u) x ∧
      onState (writeKey e k v) s = .next { ctl := x.ctl, w := settle x.w, pending := s.pending } := by
  obtain ⟨hr, ha⟩ := writeObj_passes h
  refine ⟨_, ha, ?_⟩
  obtain ⟨⟨r, n, o⟩, hr⟩ := Option.isSome_iff_exists.mp hr
  simp only [onState, writeKey, valueCode, valueBytes, hr]
  rfl

/-- A trailer that is well formed, of a slot with a key, with the right tag and a counter above the last one passes step
5, and a write that passes steps 1 to 4 with it acts on the state with that counter (R347, R348). -/
theorem gate_signed {e : WriteEnv} {ix sub ty : Nat} {bytes key : List Nat} {s : State} {r : ObjDesc} {n o : Nat} {t : Trailer}
    (ha : e.auth = some t) (h1 : answers s.w ix = true) (h2 : indexExists ix = true) (h3 : subExists ix sub = true)
    (h4 : objRow (ix * 256 + sub) = some (r, n, o)) (h5 : writable r o = true) (h6 : ¬(r.key = Obj.LCK_ROW_POS 0 ∧ n = 0))
    (h7 : typeStatus e.path s.w r ix (ix * 256 + sub) ty bytes = St.ok) (h8 : accessOk e.path s.w = true)
    (hs : t.slot ≤ 3) (hp : t.pad = 0) (hb : s.ctl.sec.blockEnd = none)
    (hk : s.ctl.sec.slots.getD t.slot .empty = .programmed key) (ht : t.tag = authTag key ix sub t.counter bytes)
    (hc : s.ctl.sec.ctr.getD t.slot 0 < t.counter) :
    gate e ix sub ty bytes s = .ok (setSec s fun x => { x with ctr := x.ctr.set t.slot t.counter }, r, n, o) := by
  have hl : lockoutEnd s = s := by unfold lockoutEnd; rw [hb]
  have hq : lockedOut s.ctl.sec s.w.clk = false := by unfold lockedOut; rw [hb]
  have hg : authStep r.a (pathSource e.path) ix sub bytes e s =
      (St.ok, setSec s fun x => { x with ctr := x.ctr.set t.slot t.counter }) := by
    unfold authStep authCheck
    rw [ha]
    dsimp only
    rw [if_neg (by omega), hl, hq, hk]
    simp only [Bool.false_eq_true, if_false]
    rw [if_neg (by simp [ht]), if_neg (by omega)]
  unfold gate
  simp only [h1, h2, h3, h4, h5, h7, h8, hg, Bool.not_true, Bool.false_eq_true, if_false, ne_eq, not_true, h6, or_false]

end Sys2Proof.Machine
end

