-- ==== Sys2Proof/Machine/Lands.lean ====
section
/-! DEFINITION. The land grid (R458 to R461): what each of the 48 × 48 lands is, and the levels that the device drives at
its digital output lands. Rows and columns are numbered from 1, from the corner of land A1. -/

namespace Sys2Proof.Machine

/-- What a land carries; `neg` is the _N line of a pair. -/
inductive Land where
  | gnd
  | vin
  | hpD (p lane : Nat) (neg : Bool)
  | hpCk (p : Nat) (neg : Bool)
  | hpRd (p : Nat) (neg : Bool)
  | hpRc (p : Nat) (neg : Bool)
  | cpD (c lane : Nat) (neg : Bool)
  | cpCk (c : Nat) (neg : Bool)
  | cpTd (c : Nat) (neg : Bool)
  | cpTc (c : Nat) (neg : Bool)
  | ethTx (e lane : Nat) (neg : Bool)
  | ethRx (e lane : Nat) (neg : Bool)
  | mgtTx (neg : Bool)
  | mgtRx (neg : Bool)
  | refclk (neg : Bool)
  | encA (n : Nat) (neg : Bool)
  | encB (n : Nat) (neg : Bool)
  | encZ (n : Nat) (neg : Bool)
  | ssiClk (m : Nat) (neg : Bool)
  | ssiDat (m : Nat) (neg : Bool)
  | prb (n : Nat)
  | hpFen (p : Nat)
  | hvEn (b : Nat)
  | webStopN
  | stopInN
  | hsw (n : Nat)
  | evtOut (n : Nat)
  | canTx
  | canRx
  | tck
  | tms
  | tdi
  | tdo
  | trstN
  | vs (c : Nat)
  | vrowN (k : Nat)
  | vhrCtl
  | vledSns
  deriving DecidableEq, Repr

/-- A head-port block at local row `r` and column `c` (R459). -/
def headBlock (p r c : Nat) : Land :=
  let neg := c % 3 == 1
  if c % 3 = 2 then .gnd
  else if r = 0 ∨ r = 2 ∨ r = 4 then .hpD p (r + c / 3) neg
  else if r = 6 then (if c < 3 then .hpCk p neg else .hpRd p neg)
  else if r = 7 ∧ c < 3 then .hpRc p neg
  else .gnd

/-- A camera-port block at local row `r` and column `k`, 0 at the package edge (R459). -/
def cameraBlock (c r k : Nat) : Land :=
  let neg := k == 1
  if k = 2 then .gnd
  else match r with
    | 0 => .cpD c 0 neg
    | 2 => .cpD c 1 neg
    | 4 => .cpCk c neg
    | 6 => .cpTd c neg
    | 7 => .cpTc c neg
    | _ => .gnd

/-- Rows J to M, columns 4 to 45 (R460). -/
def networkLand (row col : Nat) : Land :=
  let b := (col - 4) / 2
  let neg := col % 2 == 1
  if row = 9 then
    if b < 8 then .ethTx (b / 4) (b % 4) neg
    else if b = 8 then .mgtTx neg
    else if col = 22 then .refclk false
    else if col = 23 then .refclk true
    else .gnd
  else if row = 11 then
    if b < 8 then .ethRx (b / 4) (b % 4) neg else if b = 8 then .mgtRx neg else .gnd
  else .gnd

/-- Row N, columns 4 to 45 (R461). -/
def inputLand (col : Nat) : Land :=
  if col < 28 then
    let n := (col - 4) / 6
    match (col - 4) % 6 with
    | 0 => .encA n false
    | 1 => .encA n true
    | 2 => .encB n false
    | 3 => .encB n true
    | 4 => .encZ n false
    | _ => .encZ n true
  else if col < 36 then
    let m := (col - 28) / 4
    match (col - 28) % 4 with
    | 0 => .ssiClk m false
    | 1 => .ssiClk m true
    | 2 => .ssiDat m false
    | _ => .ssiDat m true
  else if col < 44 then .prb (col - 36)
  else .gnd

/-- Row P, columns 4 to 45 (R461). -/
def controlLand (col : Nat) : Land :=
  if col < 20 then .hpFen (col - 4)
  else if col < 28 then .hvEn (col - 20)
  else if col = 28 then .webStopN
  else if col = 29 then .stopInN
  else if col < 34 then .hsw (col - 30)
  else if col < 38 then .evtOut (col - 34)
  else match col with
    | 38 => .canTx
    | 39 => .canRx
    | 40 => .tck
    | 41 => .tms
    | 42 => .tdi
    | 43 => .tdo
    | 44 => .trstN
    | _ => .gnd

/-- Row BA, columns 4 to 45 (R461). -/
def voileLand (col : Nat) : Land :=
  if col < 36 then .vs (col - 4) else if col < 44 then .vrowN (col - 36) else if col = 44 then .vhrCtl else .vledSns

/-- The land at a row and a column, each 1 to 48 (R458). -/
def landAt (row col : Nat) : Land :=
  if row ≤ 8 then headBlock ((col - 1) / 6) (row - 1) ((col - 1) % 6)
  else if 41 ≤ row then headBlock (8 + (col - 1) / 6) (48 - row) ((col - 1) % 6)
  else if col ≤ 3 then cameraBlock ((row - 9) / 8) ((row - 9) % 8) (col - 1)
  else if 46 ≤ col then cameraBlock (4 + (row - 9) / 8) ((row - 9) % 8) (48 - col)
  else if row ≤ 12 then networkLand row col
  else if row = 13 then inputLand col
  else if row = 14 then controlLand col
  else if row = 39 then voileLand col
  else if (row = 19 ∨ row = 20) ∧ 15 ≤ col ∧ col ≤ 34 then .vin
  else .gnd

/-- The lands of a row. -/
def landRow (row : Nat) : List Land := (List.range 48).map fun i => landAt row (i + 1)

/-- The letters of a row (R458): A to Y, AA to AY and BA to BK, without I, O, Q, R, S and X. -/
def rowName (row : Nat) : String :=
  let l := ["A", "B", "C", "D", "E", "F", "G", "H", "J", "K", "L", "M", "N", "P", "T", "U", "V", "W", "Y"]
  if row ≤ 19 then l.getD (row - 1) "" else if row ≤ 38 then "A" ++ l.getD (row - 20) "" else "B" ++ l.getD (row - 39) ""

/-- The name of a land, as AD48. -/
def landName (row col : Nat) : String := rowName row ++ toString col

/-- The level at a digital output land that the device drives from its state: high is true. Safety outputs follow the
voters (R389), EVT_OUT[n] its activity and polarity (R453), VROW_N[k] is low while row k is active (R470). Other lands
have no level in the model. -/
def landLevel (s : State) : Land → Option Bool
  | .hpFen p => some (bitOf (outputs s.ctl.mode s.w) p)
  | .hvEn b => some (bitOf (outputs s.ctl.mode s.w) (16 + b))
  | .webStopN => some (bitOf (outputs s.ctl.mode s.w) 24)
  | .evtOut n => some (s.w.evt.outLevel.getD n false != (getF s.w (Obj.EVT_OUT_CFG n) 2 1 == 1))
  | .vrowN k => some (s.w.voi.out.row != some k)
  | _ => none

end Sys2Proof.Machine
end

