-- ==== Sys2Proof/Machine/Wire.lean ====
section
/-! DEFINITION. The UDP payload of each KOA message that the device sends (R332 to R343): the 16-byte header and the
body. -/

namespace Sys2Proof.Machine

/-- The header (R332) with a body behind it. -/
def koaMessage (ty status reqId serial : Nat) (body : List Nat) : List Nat :=
  [1, ty, status, 0] ++ leBytes 4 reqId ++ leBytes 4 serial ++ leBytes 2 body.length ++ [0, 0] ++ body

/-- SERIAL of a message to an address: that of the partner there, or 0 for any device (R332; DEDUCED, log 86). -/
def addressee (w : World) (a : Addr) : Nat :=
  match w.net.partners.find? fun e => e.2.present && e.2.addr == a with
  | some e => e.2.serial
  | none => 0

/-- The body of a BULK_OPEN by the device, which sends the data (R340). -/
def openBody (stream target length : Nat) (pre : List Nat) : List Nat :=
  leBytes 2 target ++ [0, 0] ++ leBytes 4 stream ++ leBytes 8 0 ++ leBytes 8 length ++ leBytes 2 0 ++ zeroBytes 6 ++
    (pre ++ zeroBytes 32).take 32

/-- The body of a BULK_DATA (R341). -/
def dataBody (stream block : Nat) (data : List Nat) : List Nat :=
  leBytes 4 stream ++ leBytes 4 block ++ leBytes 2 data.length ++ zeroBytes 6 ++ data ++ leBytes 4 (crc32c data)

/-- The body of a BULK_ACK (R342). -/
def ackBody (stream status detail window next sack value : Nat) : List Nat :=
  leBytes 4 stream ++ [status, detail] ++ leBytes 2 window ++ leBytes 4 next ++ zeroBytes 4 ++ leBytes 8 sack ++ leBytes 8 value

/-- The body of a BULK_CLOSE (R343). -/
def closeBody (stream reason length : Nat) : List Nat := leBytes 4 stream ++ [reason, 0, 0, 0] ++ leBytes 8 length

/-- The UDP payload of a message; none where it is no KOA message. -/
def datagram (w : World) : OutMsg → Option (List Nat)
  | .koa a ty status reqId body => some (koaMessage ty status reqId (addressee w a) body)
  | .notify a body => some (koaMessage 0x03 0 0 (addressee w a) body)
  | .hello _ seq body => some (koaMessage 0x04 0 seq 0 body)
  | .bulkOpen a stream target length pre => some (koaMessage 0x10 0 0 (addressee w a) (openBody stream target length pre))
  | .bulkData a stream block data => some (koaMessage 0x11 0 0 (addressee w a) (dataBody stream block data))
  | .bulkAck a stream status detail window next sack value =>
    some (koaMessage 0x12 0 0 (addressee w a) (ackBody stream status detail window next sack value))
  | .bulkClose a stream reason length => some (koaMessage 0x13 0 0 (addressee w a) (closeBody stream reason length))
  | .can _ _ _ => none
  | .ptp _ _ _ _ _ _ _ _ _ => none
  | .announce _ _ _ _ _ => none
  | .line _ _ _ _ => none
  | .sync _ _ => none
  | .yql _ _ _ _ _ _ => none

end Sys2Proof.Machine
end

