-- ==== Sys2Proof/WellFormed.lean ====
section
/-! DEFINITION. The check on the operands of a command: each lies within the width or the number of instances that the
spec gives it. A command whose operands do not is still total: one that names an instance that does not exist has no
effect. -/

namespace Sys2Proof

/-- Bytes of a message. -/
def wfBytes (l : List Nat) : Bool := l.all fun x => decide (x < 256)
/-- An address lies on one of the nine interfaces (R330). -/
def wfAddr (a : Addr) : Bool := decide (a.iface < 9) && decide (a.udp < 65536)
/-- A trailer is 20 bytes: slot, three bytes, counter and a tag of 12 bytes (R346). -/
def wfTrailer (t : Trailer) : Bool :=
  decide (t.slot < 256) && decide (t.pad < 16777216) && decide (t.counter < 4294967296) &&
    decide (t.tag.length = 12) && wfBytes t.tag
/-- How a write arrives. -/
def wfEnv (e : WriteEnv) : Bool :=
  (match e.path with | .koa a reqId => wfAddr a && decide (reqId < 4294967296) | .can => true | .host => true | .serge => true) &&
    (match e.auth with | some t => wfTrailer t | none => true)
/-- A PTP message: domain, sequence number and clock identity within their fields (R364). -/
def wfMsg (m : PtpMsg) : Bool := decide (m.domain < 256) && decide (m.seq < 65536) && decide (m.sender < 18446744073709551616)
/-- An Announce: its fields within their widths (R378). -/
def wfAnnounce (a : Announce) : Bool :=
  decide (a.domain < 256) && decide (a.prio1 < 256) && decide (a.cls < 256) && decide (a.accuracy < 256) &&
    decide (a.variance < 65536) && decide (a.prio2 < 256) && decide (a.steps < 65536)
/-- An ENUM response: at most eight heads, its fields within their widths (R252). -/
def wfIdentity (id : Identity) : Bool :=
  decide (id.serial < 4294967296) && decide (id.heads.length ≤ 8) && id.heads.all fun h => decide (h.1 < 4294967296)

/-- The operands of a command lie within their ranges. -/
def wf (c : Instr) : Bool :=
  match c with
  | .vinValid _ => true
  | .pwrPfLow _ => true
  | .firstVotedCycle _ => true
  | .hostBootDone image why => decide (image < 3) && decide (why < 256)
  | .dramInitDone => true
  | .storedValuesLoaded _ => true
  | .selftestDone _ => true
  | .calibrateDone _ sinks first later => decide (sinks < 4294967296) && (first :: later).all fun rows =>
    decide (rows.length ≤ 8) && rows.all fun r => decide (r.length ≤ 32)
  | .discoverDone dark => dark.all fun e => decide (e.1 < 8)
  | .sysCmdArm e => wfEnv e
  | .sysCmdPause e => wfEnv e
  | .sysCmdResume e => wfEnv e
  | .sysCmdStop e => wfEnv e
  | .sysCmdRelease e => wfEnv e
  | .sysServiceEnter e => wfEnv e
  | .sysServiceLeave e => wfEnv e
  | .sysDebugEnWrite e _ => wfEnv e
  | .sysBgenPinWrite e _ => wfEnv e
  | .objectWrite e ix sub ty bytes => wfEnv e && decide (ix < 65536) && decide (sub < 256) && decide (ty < 256) &&
      wfBytes bytes
  | .koaRead a reqId items => wfAddr a && decide (reqId < 4294967296) && (items.all fun x => decide (x.1 < 65536) &&
      decide (x.2.1 < 256))
  | .koaMessageDiscard i => decide (i < 9)
  | .helloRx a serial vendor product revision role period _ => wfAddr a && decide (serial < 4294967296) &&
      decide (vendor < 4294967296) && decide (product < 4294967296) && decide (revision < 4294967296) &&
      decide (role < 256) && decide (period < 65536)
  | .helloSend i => decide (i < 9)
  | .partnerTimeout n => decide (n < 64)
  | .notifySend n => decide (n < 64)
  | .bulkOpenRx a target _ stream off len window pre => wfAddr a && decide (target < 65536) &&
      decide (stream < 4294967296) && decide (off < 18446744073709551616) && decide (len < 18446744073709551616) &&
      decide (window < 65536) && wfBytes pre
  | .bulkDataRx a stream k data crc _ => wfAddr a && decide (stream < 4294967296) && decide (k < 4294967296) &&
      wfBytes data && decide (crc < 4294967296)
  | .bulkAckRx a stream status window next sack => wfAddr a && decide (stream < 4294967296) && decide (status < 256) &&
      decide (window < 65536) && decide (next < 4294967296) && decide (sack < 18446744073709551616)
  | .bulkCloseRx a stream reason len => wfAddr a && decide (stream < 4294967296) && decide (reason < 256) &&
      decide (len < 18446744073709551616)
  | .bulkIdleTimeout a _ => wfAddr a
  | .bulkResendTimeout a _ => wfAddr a
  | .bulkSendAbandon a _ => wfAddr a
  | .bulkWindowReopen => true
  | .authLockoutEnd => true
  | .authFailureExpire => true
  | .secKeyProgram e bytes => wfEnv e && wfBytes bytes
  | .secKeyRevoke e slot => wfEnv e && decide (slot < 256)
  | .nmtStart node => decide (node < 128)
  | .nmtStop node => decide (node < 128)
  | .nmtEnterPreOperational node => decide (node < 128)
  | .nmtResetNode node => decide (node < 128)
  | .nmtResetCommunication node => decide (node < 128)
  | .heartbeatProduce => true
  | .heartbeatRx node => decide (node < 128)
  | .canHbLost i => decide (i < 4)
  | .emcySend => true
  | .canErrHistClear e => wfEnv e
  | .sdoInitiateDownload ix sub _ _ data => decide (ix < 65536) && decide (sub < 256) && wfBytes data
  | .sdoDownloadSegment _ _ data => wfBytes data
  | .sdoInitiateUpload ix sub => decide (ix < 65536) && decide (sub < 256)
  | .sdoUploadSegment _ => true
  | .sdoAbortRx => true
  | .sdoSegmentTimeout => true
  | .tpdoSend t => decide (t < 4)
  | .canBus st _ _ => decide (st < 3)
  | .canBusOffRecovery => true
  | .netLink i _ => decide (i < 10)
  | .ptpSyncRx m => wfMsg m
  | .ptpFollowUpRx m => wfMsg m
  | .ptpDelayReqRx m => wfMsg m
  | .ptpDelayRespRx m => wfMsg m
  | .ptpPdelayReqRx m _ => wfMsg m
  | .ptpPdelayRespRx m => wfMsg m
  | .ptpPdelayRespFollowUpRx m => wfMsg m
  | .ptpAnnounceRx a => wfAnnounce a
  | .ptpIgnoredRx => true
  | .ptpSyncSend => true
  | .ptpAnnounceSend => true
  | .ptpDelayReqSend => true
  | .ptpPdelayReqSend => true
  | .announceTimeout => true
  | .rateStep => true
  | .timAnchor => true
  | .timFreqStore => true
  | .timStepSet e _ => wfEnv e
  | .timIfaceWrite e v => wfEnv e && decide (v < 256)
  | .timDomainWrite e v => wfEnv e && decide (v < 256)
  | .timCfgWrite e v => wfEnv e && decide (v < 256)
  | .timNowSecRead => true
  | .encEdge n _ => decide (n < 4)
  | .encIllegal n => decide (n < 4)
  | .encLoss n sig => decide (n < 4) && decide (sig < 3)
  | .encSignalReturn n sig _ _ => decide (n < 4) && decide (sig < 3)
  | .index n => decide (n < 4)
  | .slipWindowEnd => true
  | .webStandstill => true
  | .webPosSet e _ => wfEnv e
  | .probeEdge n _ => decide (n < 8)
  | .prbWindowClose n => decide (n < 8)
  | .prbMissed n => decide (n < 8)
  | .prbWindowWrite e n part _ => wfEnv e && decide (n < 8) && decide (part < 3)
  | .hswChange n _ _ et => decide (n < 4) && decide (et < 4294967296)
  | .ssiTransferStart n => decide (n < 2)
  | .ssiTransferDone n raw _ _ => decide (n < 2) && decide (raw < 281474976710656)
  | .lineCommit r => decide (r < 16)
  | .overspeedWarn => true
  | .overspeedWarnEnd => true
  | .overspeed => true
  | .overspeedEnd => true
  | .overspeedStop => true
  | .overspeedStopRelease => true
  | .halflineReturn => true
  | .lckAlignStore e => wfEnv e
  | .jobCommit e => wfEnv e
  | .setupInstant => true
  | .frameSrcAbsentTick => true
  | .frameStart => true
  | .jobEnd => true
  | .composeLineStart => true
  | .composeLineDone => true
  | .compLate => true
  | .compStarved => true
  | .memPlanApply e => wfEnv e
  | .memLsDelete e id => wfEnv e && decide (id < 65536)
  | .memLsClear e => wfEnv e
  | .memEccInject e v => wfEnv e && decide (v < 65536)
  | .memCe area _ => decide (area < 7)
  | .memUe area _ _ _ => decide (area < 7)
  | .scrubPassDone => true
  | .barLinePrepare r => decide (r < 16)
  | .tableLoadDone r => decide (r < 16)
  | .jqNozStateWrite e b v => wfEnv e && decide (b < 8) && decide (v < 256)
  | .jqHeadStore e => wfEnv e
  | .jqSliceSwap e b => wfEnv e && decide (b < 256)
  | .lineTxDone p => decide (p < 16)
  | .idleExit p => decide (p < 16)
  | .trainingDone i margins => decide (i < 24) && decide (margins.length = 6)
  | .trainingTimeout i => decide (i < 24)
  | .alignSetRx i _ => decide (i < 24)
  | .blockError e => decide (e.link < 24)
  | .linkLockLost i _ => decide (i < 24)
  | .enumStep i => decide (i < 24)
  | .driverEnum p addr id => decide (p < 16) && decide (addr < 16) && wfIdentity id
  | .latencyMeasured i addr _ => decide (i < 24) && decide (addr < 16)
  | .chainEnd p => decide (p < 16)
  | .rspRx i tag result value => decide (i < 24) && decide (tag < 256) && decide (result < 256) && decide (value < 4294967296)
  | .lineFailRx p row result line => decide (p < 16) && decide (row < 2) && decide (result < 8) && decide (line < 4294967296)
  | .statusRx p addr word => decide (p < 16) && decide (addr < 16) && decide (word < 4294967296)
  | .driverSilent p addr => decide (p < 16) && decide (addr < 16)
  | .cmdRespTimeout i tag => decide (i < 24) && decide (tag < 256)
  | .recoveryDone i => decide (i < 24)
  | .recoveryTimeout i => decide (i < 24)
  | .hotplugArrival i serial => decide (i < 24) && decide (serial < 4294967296)
  | .yqlDiscover e => wfEnv e
  | .retuneTrial i margin => decide (i < 24) && decide (margin < 256)
  | .retuneTrialEnd i margin => decide (i < 24) && decide (margin < 256)
  | .cameraEnum c id => decide (c < 8) && wfIdentity id
  | .cameraLineRx c line words crc => decide (c < 8) && decide (line < 4294967296) &&
      (words.all fun x => decide (x < 18446744073709551616)) && decide (crc < 4294967296)
  | .camLineMissing c => decide (c < 8)
  | .yqlRwDataWrite e v => wfEnv e && decide (v < 4294967296)
  | .yqlRwDataRead => true
  | .scanSlot m => decide (m.samples.length ≤ 32) && decide (m.offs < 4294967296)
  | .hrPeriodEnd => true
  | .voiPwrRecoverStep => true
  | .voiUnverify k c => decide (k < 8) && decide (c < 32)
  | .voiUnverified k c => decide (k < 8) && decide (c < 32)
  | .insDark => true
  | .insWhiteCapture e => wfEnv e
  | .whiteCaptureDone => true
  | .whiteCaptureTimeout => true
  | .insWhiteStore e => wfEnv e
  | .windowRecordDone => true
  | .insUplPeriod => true
  | .insUplNow e mask => wfEnv e && decide (mask < 256)
  | .uploadBlockReady => true
  | .loopUpdateDone e => decide (e < 2)
  | .chlLate => true
  | .chlRequal e mask => wfEnv e && decide (mask < 256)
  | .chlStore e => wfEnv e
  | .chlRefTake e mask => wfEnv e && decide (mask < 256)
  | .loopFlushStart => true
  | .loopFlushDone => true
  | .sergeCycle res => decide (res.length = 3)
  | .coreReloadDone c => decide (c < 3)
  | .coreProbationEnd c => decide (c < 3)
  | .sergeRestartDone => true
  | .stopInLow => true
  | .stopInHigh => true
  | .supResetHost e => wfEnv e
  | .supResetDevice e => wfEnv e
  | .supStopCmdWrite e v => wfEnv e && decide (v < 256)
  | .hostWdSignal => true
  | .hostWdTimeout => true
  | .hostTrap => true
  | .hostRestartDone => true
  | .engineWdTimeout e => decide (e < 2)
  | .engineRestartDone e => decide (e < 2)
  | .sliceInternalFault b _ => decide (b < 8)
  | .sliceStall b => decide (b < 8)
  | .switchoverDone b => decide (b < 8)
  | .sliceRetestDone slice _ => decide (slice < 9)
  | .spareTestStart => true
  | .spareTestDone _ => true
  | .supDeadline n _ => decide (1 ≤ n) && decide (n ≤ 8)
  | .thmSensorPoll raws diags mv => decide (raws.length = 26) && decide (diags.length = 26) && decide (mv.length = 14)
  | .govEval _ => true
  | .govLimitStep => true
  | .govLimitRecover => true
  | .govUnshed => true
  | .thmAck e => wfEnv e
  | .thmAutoResumeExit => true
  | .vmonCrossing r level _ _ => decide (r < 14) && decide (level < 3)
  | .avsStep slack => decide (slack.length = 16)
  | .bgRenew => true
  | .powerFail _ => true
  | .powerSaveDone => true
  | .vinOff => true
  | .lifeCounterRenew => true
  | .refclkFail => true
  | .evtStagingDrain => true
  | .evtOutPulseEnd n => decide (n < 4)
  | .evtLogClear e => wfEnv e
  | .framValueStoreDone => true
  | .norTableStoreDone => true
  | .refclkReturn => true
  | .idleEntryDelayEnd p => decide (p < 16)
  | .boundaryScanInstruction => true

end Sys2Proof
end

