-- ==== Sys2Proof/Tests/Slice0.lean ====
section
/-! SUPPORT. The package's own tests: for every statement with hypotheses a state and operands that meet them, one step on
a small state for some rules, the check of ill-formed operands, and vectors that the spec gives. -/

set_option Elab.async false

namespace Sys2Proof.Tests

open Sys2Proof Sys2Proof.Machine

/-- A device that has started up, in a mode, after 10^13 clocks. -/
def base (m : DevState) : State :=
  { State.reset with
    ctl := { mode := m, prev := .boot,
             sec := { slots := [.programmed (List.range 16), .programmed (List.range 16), .empty, .revoked],
                      ctr := [0, 0, 0, 0], fails := [], blockEnd := none } }
    w := { State.reset.w with
      clk := 10000000000000
      sys := { State.reset.w.sys with voted := true, hostUp := true, dramDone := true, loaded := true } } }

/-- The same with a change to the world. -/
def up (m : DevState) (f : World → World) : State := { base m with w := f (base m).w }

/-- Objects in force set to values. -/
def sets (l : List (Nat × Int)) (w : World) : World := l.foldl (fun w e => setO w e.1 e.2) w

/-- A write by the host core. -/
def host : WriteEnv := { path := .host, auth := none }

/-- A boundary of frame 1 at line 128, not set up. -/
def bnd : Boundary :=
  { w := 128, wEnd := 4096, no := 1, isSetUp := false, starts := false, last := false, virt := false, late := false,
    noSrc := false, probe := 0, seq := 1, causes := [] }

/-- The last frame of a job, whose end the web has reached. -/
def frm : FrameRec :=
  { no := 1, wB := 0, wEnd := 0, cut := false, defect := false, last := true, seq := 1, winLen := 0, vdFreed := false, done := true, et := 0 }

/-- A link changed. -/
def lnk (i : Nat) (f : Link → Link) (w : World) : World := { w with links := w.links.modify i f }

/-- A driver that answers, with no head. -/
def drv : Driver :=
  { serial := 7, vendor := 1, type := 1, version := 1, tFwd := 1, tRet := 1, tTurn := 1, tProc := 1, rtt := none, lat := 0,
    base := 0, status := 0, statusClk := 0, heads := [] }

/-- An identity without heads. -/
def ident : Identity :=
  { serial := 9, vendor := 1, type := 1, version := 1, tFwd := 1, tRet := 1, tTurn := 1, tProc := 1, heads := [] }

/-- A YQL command that waits for its answer. -/
def ycmd : YCmd := { tag := 3, addr := 1, op := 4, arg := 16, data := [], tries := 1, clk := 0, waiting := false }

/-- A checkpoint. -/
def ckpt : Ckpt :=
  { seq := 1, slice := 0, fronts := [0, 0], tags := [0, 0], frames := [0, 0], et := 0, flags := 0, sets := [], live := [] }

/-- A spectral line. -/
def spec : SpecLine :=
  { scan := 0, pos := 0, et := 0, whole := 0, latched := false, cams := 0, dark := false, got := [], lost := [], excl := [],
    eff := 0, glb := 0 }

/-- Inspection values in which the first and the last pair are in use. -/
def pairSet : KMap Int :=
  [(Obj.VOI_CFG, 0x1001), (tblKey 0x3741 0, 65535), (tblKey 0x3741 255, 65535), (Obj.VOI_I_CH 0, 5), (Obj.VOI_I_CH 31, 5)].foldl
    (fun m e => mapPut m e.1 e.2) []

/-- A trigger whose exposure ended long ago. -/
def trg : Trig := { scan := 0, slot := 0, count := 5, time := 0, due := 0 }

/-- A record of a window. -/
def rec0 : WinRec :=
  { idx := 0, start := 0, stop := 512, frame := 1, et := 0, spec := 0, flags := 0, darkVer := 0, whiteVer := 0, voiVer := 0,
    cams := 0, px := [], closeClk := 10000000000000 }

/-- An update of the loop that no engine has finished. -/
def job0 : LoopJob :=
  { start := 0, len := 512, stripe := 0, px := [], tally := [], excl := [], clk := 10000000000000, todo := [true, true] }

/-- A journal record of a power failure. -/
def jrn : JrnRec :=
  { seq := 1, kind := 1, state := 0, sensor := 0, flags := 0, ptpSec := 0, ptpNs := 0, et := 0, pos := 0, temps := [], vin := 0,
    pin := 0, lastFired := [], rowFrame := [], rowEnd := [], oldest := 0, newest := 0, lifeLines := 0, lifeHours := 0, lifePf := 0,
    lifeShut := 0, defects := 0, reason := 0, valid := true, tail := false, tailEvt := 0 }

/-- A PTP message of domain 0 and sequence number 4. -/
def msg : PtpMsg := { domain := 0, seq := 4, sender := 9, twoStep := false, ns := 100, corr := 0, logInt := 0 }

/-- An Announce of a better master. -/
def ann : Announce :=
  { domain := 0, prio1 := 0, cls := 6, accuracy := 0x20, variance := 0, prio2 := 0, gm := 5, steps := 0, sender := 5 }

/-- The outcome of a start-up test with no failure. -/
def sound : SelfTest :=
  { cores := 0, voters := 0, sram := false, muslin := 0, calico := 0, slices := 0, fire := 0, links := 0, ins := 0, sinks := 0,
    steps := [], delays := [] }

/-- The state on which a write of `v` acts. -/
def after (e : WriteEnv) (k : Nat) (v : Int) (s : State) : State := (passesTo e k (valueCode k) (valueBytes k v) s).getD s

/-- A write by the host core with a right trailer under the key of slot 0. -/
def signed (k : Nat) (bytes : List Nat) : WriteEnv :=
  { path := .host, auth := some { slot := 0, pad := 0, counter := 1, tag := authTag (List.range 16) (k / 256) (k % 256) 1 bytes } }

/-- An address on interface 0. -/
def adr : Addr := { iface := 0, v6 := false, ip := 5, udp := 4000 }

/-- An event record. -/
def evr : EvRec := { code := 0x10, serge := false, inst := 0, et := 0, pos := 0, data := 0, seq := 1 }

/-- A partner present at `adr`. -/
def prt : Partner :=
  { present := true, departed := false, role := 2, addr := adr, product := 1, serial := 77, revision := 1, vendor := 1, arriveS := 0,
    lastS := 0, lastClk := 0, notifyQ := [], notifySince := 0, notifySeq := 0 }

/-- A device whose interface 0 serves. -/
def net (f : World → World) : State :=
  up .idle fun w => f (sets [(Obj.NET_IF_CFG 0, 0x3F), (Obj.NET_PORT_CFG 0, 1)]
    { w with net := { w.net with linkUp := List.replicate 10 true } })

/-- The header of an image of one pixel column of 9,000 bytes, with its CRC. -/
def hdr28 : List Nat :=
  leBytes 2 1 ++ [1, 0] ++ leBytes 2 600 ++ leBytes 2 600 ++ leBytes 4 1 ++ leBytes 4 9000 ++ leBytes 4 0 ++ leBytes 8 9000
def hdr : List Nat := hdr28 ++ leBytes 4 (crc32c hdr28)

/-- An item in transfer, and its stream. -/
def itm : Item := { headerItem hdr with blocks := 1 }
def bin : BulkIn :=
  { addr := adr, stream := 3, target := 1, offset := 0, length := 9000, pre := hdr, blocks := [], item := 1, lastClk := 0, closing := none }
def inNet (b : BulkIn) (i : Item := itm) : State :=
  net fun w => { w with net := { w.net with bulkIn := [b] }, mem := { w.mem with items := [(1, i)], nextItem := 2 } }

/-- A stream to a partner. -/
def bout : BulkOut :=
  { addr := adr, stream := 3, target := 3, purpose := 2, offset := 0, pre := [], data := [1, 2, 3], window := 4, next := 0, acked := [],
    times := [], openClk := 0, opened := false, closed := false }
def outNet (b : BulkOut) : State := net fun w => { w with net := { w.net with bulkOut := [b] } }

/-- A device on its CAN FD bus. -/
def can (f : Can → Can) (l : List (Nat × Int)) : State :=
  up .idle fun w => sets l { w with can := f { w.can with nmt := 2 } }

/-- A segmented transfer. -/
def xfr : SdoXfer := { upload := false, index := 0x1017, sub := 0, size := 2, bytes := [], toggle := false, clk := 0 }

/-- An upload block that is complete. -/
def uplb : UplBlock :=
  { cam := 0, first := some 0, frame := 1, start := 0, et := 0, block := 1, scans := 1, lines := [], ringAt := 0, ready := none }

/-- A write that passes acts on the state that it passes to. -/
theorem passes_of {e : WriteEnv} {k : Nat} {v : Int} {s : State}
    (h : (passesTo e k (valueCode k) (valueBytes k v) s).isSome = true) : Passes e k v s (after e k v s) := by
  unfold Passes after
  obtain ⟨u, hu⟩ := Option.isSome_iff_exists.mp h
  rw [hu]; rfl

/-- The state with the counter of slot 0 moved to 1. -/
def counted (s : State) : State := setSec (fresh s) fun x => { x with ctr := x.ctr.set 0 1 }

/-- What a signed write of the host core needs beside its tag. -/
def signable (k ty : Nat) (bytes : List Nat) (s : State) : Bool :=
  hostServing (fresh s).w && answers (fresh s).w (k / 256) && indexExists (k / 256) && subExists (k / 256) (k % 256) &&
    (match objRow (k / 256 * 256 + k % 256) with
      | some (r, n, o) => writable r o && decide (¬(r.key = Obj.LCK_ROW_POS 0 ∧ n = 0)) &&
          decide (typeStatus .host (fresh s).w r (k / 256) (k / 256 * 256 + k % 256) ty bytes = St.ok)
      | none => false) &&
    accessOk .host (fresh s).w && decide (s.ctl.sec.blockEnd = none) &&
    decide (s.ctl.sec.slots.getD 0 .empty = .programmed (List.range 16)) && decide (s.ctl.sec.ctr.getD 0 0 < 1)

/-- A signed write passes steps 1 to 5. -/
theorem passes_signed {k ty : Nat} {bytes : List Nat} {s : State} (h : signable k ty bytes s = true) :
    passesTo (signed k bytes) k ty bytes s = some (counted s) := by
  unfold signable at h
  split at h
  · rename_i r n o hr
    simp only [Bool.and_eq_true, decide_eq_true_eq] at h
    obtain ⟨⟨⟨⟨⟨⟨⟨⟨h1, h2⟩, h3⟩, h4⟩, ⟨h5, h6⟩, h7⟩, h8⟩, h9⟩, h10⟩, h11⟩ := h
    have hg : gate (signed k bytes) (k / 256) (k % 256) ty bytes (fresh s) = .ok (counted s, r, n, o) :=
      gate_signed (t := { slot := 0, pad := 0, counter := 1, tag := authTag (List.range 16) (k / 256) (k % 256) 1 bytes })
        (key := List.range 16) rfl h2 h3 h4 hr h5 h6 h7 h8 (Nat.zero_le _) rfl h9 h10 rfl h11
    show passesAt _ _ _ _ _ = _
    unfold passesAt gateState
    simp only [signed] at hg ⊢
    simp [h1, hg]
  · simp at h

/-! ### A witness for every statement -/

/-- `Obligations.StepRunsFront`: its hypotheses are met. -/
theorem witness_StepRunsFront :
    ∃ (s : State) (c : Instr) (rest : List Instr), s.pending = c :: rest :=
  ⟨{ State.reset with pending := [.index 0] }, .index 0, [], rfl⟩

/-- `Obligations.IdleClock`: its hypotheses are met. -/
theorem witness_IdleClock :
    ∃ s : State, s.pending = [] :=
  ⟨up .idle id, by decide +kernel⟩

/-- `Obligations.CommandsComplete`: the hypotheses of each clause are met. -/
theorem witness_CommandsComplete :
    (∃ s : State, ∃ mv : Nat, powered s.ctl.mode = true ∧ s.w.thm.armed = true ∧ (mv : Int) < getO s.w
      Obj.THM_PF_ACT) ∧
    (∃ s : State, ∃ r : Nat, ∃ high : Bool, powered s.ctl.mode = true ∧ r < 14 ∧ r < s.w.thm.rails.length ∧
      s.w.thm.rails.getD r 0 ≠ (if high then 2 else 1)) ∧
    (∃ s : State, ∃ r : Nat, powered s.ctl.mode = true ∧ r < 14 ∧ r < s.w.thm.rails.length ∧ s.w.thm.rails.getD r 0
      ≠ 0) ∧
    (∃ s : State, ∃ r : Nat, ∃ high : Bool, powered s.ctl.mode = true ∧ r < 14 ∧ r < s.w.thm.rails.length ∧
      s.w.thm.rails.getD r 0 ≠ 3 ∧ (r ≠ 0 ∨ high = true) ∧ s.w.thm.armed = true) ∧
    (∃ s : State, ∃ r : Nat, ∃ high : Bool, powered s.ctl.mode = true ∧ r < 14 ∧ r < s.w.thm.rails.length ∧
      s.w.thm.rails.getD r 0 ≠ 3 ∧ (r ≠ 0 ∨ high = true) ∧ s.w.thm.armed = true) ∧
    (∃ s : State, s.ctl.mode = .off ∧ s.w.thm.saving = true) ∧
    (∃ s : State, s.ctl.mode = .off ∧ s.w.thm.saveMode = true) ∧
    (∃ s : State, powered s.ctl.mode = true) ∧
    (∃ s : State, ∃ i, powered s.ctl.mode = true ∧ i < 16) ∧
    (∃ s : State, ∃ i, powered s.ctl.mode = true ∧ i < 16) ∧
    (∃ s : State, powered s.ctl.mode = true ∧ getF s.w Obj.THM_CFG 1 1 = 1 ∧ s.w.thm.bgFrozen = false ∧ (sensorAt
      s.w 0).hist ≠ []) ∧
    (∃ s : State, powered s.ctl.mode = true ∧ s.ctl.mode = .thermalHold ∧ getO s.w Obj.THM_AUTO_RESUME = 1 ∧ (∀ x, x
      ∈ s.w.thm.sensors → x.broken = 0) ∧ heldFor s.w s.w.thm.coolClk (secClk (getN s.w Obj.THM_RECOVER_S)) = true) :=
  ⟨⟨up .printing fun w => sets [] { w with thm := { w.thm with armed := true } }, 5000, by decide +kernel⟩,
    ⟨base .idle, 13, true, by decide +kernel⟩,
    ⟨up .idle fun w => sets [] { w with thm := { w.thm with rails := [2, 0, 0, 0, 0, 0, 0, 0, 0, 0, 0, 0, 0, 1] } },
      13, by decide +kernel⟩,
    ⟨up .idle fun w => sets [] { w with thm := { w.thm with armed := true } }, 0, true, by decide +kernel⟩,
    ⟨up .idle fun w => sets [] { w with thm := { w.thm with armed := true } }, 13, false, by decide +kernel⟩,
    ⟨up .off fun w => sets [] { w with thm := { w.thm with saving := true } }, by decide +kernel⟩,
    ⟨up .off fun w => sets [] { w with thm := { w.thm with saveMode := true } }, by decide +kernel⟩,
    ⟨base .idle, by decide +kernel⟩,
    ⟨up .idle id, 0, by decide +kernel⟩,
    ⟨up .idle id, 15, by decide +kernel⟩,
    ⟨up .idle fun w => sets [(Obj.THM_CFG, 2)]
      { w with thm := { w.thm with sensors := w.thm.sensors.map fun x => { x with hist := [500] } } }, by
      decide +kernel⟩,
    ⟨up .thermalHold fun w => sets [(Obj.THM_AUTO_RESUME, 1)] { w with thm := { w.thm with coolClk := some 0 } }, by
      decide +kernel⟩⟩

/-- `Obligations.EventsNumbered`: its hypotheses are met. -/
theorem witness_EventsNumbered :
    ∃ s t : State, Quiet s ∧ step s = .next t :=
  ⟨base .idle, _, rfl, rfl⟩

/-- `Obligations.StateTable`: its hypotheses are met. -/
theorem witness_StateTable :
    ∃ s t : State, step s = .next t :=
  ⟨base .printing, _, rfl⟩

/-- `Obligations.AuthenticationKept`: its hypotheses are met. -/
theorem witness_AuthenticationKept :
    ∃ (s t : State) (i : Nat), step s = .next t ∧ s.ctl.sec.slots.getD i .empty = .revoked :=
  ⟨base .idle, _, 3, rfl, rfl⟩

/-- `Obligations.WebAndLineFrames`: the hypotheses of each clause are met. -/
theorem witness_WebAndLineFrames :
    (∃ (s : State) (t : State) (c : Instr), exec c s = .next t ∧ (((∃ n x, c = .encEdge n x) ∨ (∃ n, c = .encIllegal
      n) ∨ (∃ n x, c = .encLoss n x) ∨ (∃ n x y z, c = .encSignalReturn n x y z) ∨ (∃ n, c = .index n) ∨ c =
      .slipWindowEnd ∨ (∃ n, c = .ssiTransferStart n) ∨ (∃ n x y z, c = .ssiTransferDone n x y z) ∨ (∃ n, c =
      .prbMissed n)))) ∧
    (∃ (s : State) (t : State) (c : Instr), exec c s = .next t ∧ ((c = .overspeedWarn ∨ c = .overspeedWarnEnd ∨ c =
      .overspeedEnd ∨ c = .overspeedStop ∨ c = .overspeedStopRelease))) ∧
    (∃ (s : State) (t : State) (c : Instr), exec c s = .next t ∧ ((c = .overspeed ∨ c = .halflineReturn))) ∧
    (∃ (s : State) (t : State) (c : Instr), exec c s = .next t ∧ (∃ r, c = .tableLoadDone r)) ∧
    (∃ (s : State) (t : State) (c : Instr), exec c s = .next t ∧ (((∃ p, c = .lineTxDone p) ∨ (∃ p, c =
      .idleEntryDelayEnd p) ∨ (∃ p, c = .idleExit p)))) ∧
    (∃ (s : State) (t : State) (c : Instr), exec c s = .next t ∧ ((c = .compLate ∨ c = .compStarved))) ∧
    (∃ (s : State) (t : State) (c : Instr), exec c s = .next t ∧ ((c = .jobEnd ∨ c = .frameSrcAbsentTick))) :=
  ⟨⟨base .idle, _, .encIllegal 0, rfl, by simp⟩,
    ⟨base .idle, _, .overspeedWarn, rfl, by simp⟩,
    ⟨base .idle, _, .overspeed, rfl, by simp⟩,
    ⟨base .idle, _, .tableLoadDone 0, rfl, by simp⟩,
    ⟨base .idle, _, .lineTxDone 0, rfl, by simp⟩,
    ⟨base .idle, _, .compLate, rfl, by simp⟩,
    ⟨base .idle, _, .jobEnd, rfl, by simp⟩⟩

/-- `Obligations.TimeLinkAndInspectFrames`: the hypotheses of each clause are met. -/
theorem witness_TimeLinkAndInspectFrames :
    (∃ (s : State) (t : State) (c : Instr), exec c s = .next t ∧ (((∃ m, c = .ptpSyncRx m) ∨ (∃ m, c =
      .ptpFollowUpRx m) ∨ (∃ m, c = .ptpDelayReqRx m) ∨ (∃ m, c = .ptpDelayRespRx m) ∨ (∃ m x, c = .ptpPdelayReqRx m
      x) ∨ (∃ m, c = .ptpPdelayRespRx m) ∨ (∃ m, c = .ptpPdelayRespFollowUpRx m) ∨ (∃ a, c = .ptpAnnounceRx a) ∨ c =
      .ptpIgnoredRx ∨ c = .ptpSyncSend ∨ c = .ptpAnnounceSend ∨ c = .ptpDelayReqSend ∨ c = .ptpPdelayReqSend ∨ c =
      .announceTimeout ∨ c = .rateStep ∨ c = .timAnchor ∨ c = .timNowSecRead))) ∧
    (∃ (s : State) (t : State) (c : Instr), exec c s = .next t ∧ (((∃ i m, c = .trainingDone i m) ∨ (∃ i, c =
      .trainingTimeout i) ∨ (∃ i l, c = .alignSetRx i l) ∨ (∃ e, c = .blockError e) ∨ (∃ i x, c = .linkLockLost i x) ∨
      (∃ i, c = .enumStep i) ∨ (∃ i x y, c = .latencyMeasured i x y) ∨ (∃ p, c = .chainEnd p) ∨ (∃ i x, c =
      .cameraEnum i x) ∨ (∃ i x y z, c = .rspRx i x y z) ∨ (∃ p x y, c = .statusRx p x y) ∨ (∃ p x, c = .driverSilent
      p x) ∨ (∃ i x, c = .cmdRespTimeout i x) ∨ (∃ i, c = .recoveryDone i) ∨ (∃ i x, c = .retuneTrial i x) ∨ (∃ i x, c
      = .retuneTrialEnd i x) ∨ c = .yqlRwDataRead))) ∧
    (∃ (s : State) (t : State) (c : Instr), exec c s = .next t ∧ ((c = .voiPwrRecoverStep ∨ c = .hrPeriodEnd ∨ (∃ x
      y, c = .voiUnverify x y) ∨ (∃ x y, c = .voiUnverified x y) ∨ c = .whiteCaptureDone ∨ c = .whiteCaptureTimeout))) ∧
    (∃ (s : State) (t : State) (c : Instr), exec c s = .next t ∧ (c = .insDark)) ∧
    (∃ (s : State) (t : State) (c : Instr), exec c s = .next t ∧ (((∃ i x y z, c = .cameraLineRx i x y z) ∨ (∃ i, c
      = .camLineMissing i)))) ∧
    (∃ (s : State) (t : State) (c : Instr), exec c s = .next t ∧ (c = .windowRecordDone)) ∧
    (∃ (s : State) (t : State) (c : Instr), exec c s = .next t ∧ (∃ e, c = .loopUpdateDone e)) ∧
    (∃ (s : State) (t : State) (c : Instr), exec c s = .next t ∧ ((c = .chlLate ∨ c = .loopFlushStart ∨ c =
      .loopFlushDone))) :=
  ⟨⟨base .idle, _, .ptpIgnoredRx, rfl, by simp⟩,
    ⟨base .idle, _, .enumStep 0, rfl, by simp⟩,
    ⟨base .idle, _, .hrPeriodEnd, rfl, by simp⟩,
    ⟨base .idle, _, .insDark, rfl, by simp⟩,
    ⟨base .idle, _, .camLineMissing 0, rfl, by simp⟩,
    ⟨base .idle, _, .windowRecordDone, rfl, by simp⟩,
    ⟨base .idle, _, .loopUpdateDone 0, rfl, by simp⟩,
    ⟨base .idle, _, .chlLate, rfl, by simp⟩⟩

/-- `Obligations.SupervisionAndNetFrames`: the hypotheses of each clause are met. -/
theorem witness_SupervisionAndNetFrames :
    (∃ (s : State) (t : State) (c : Instr), exec c s = .next t ∧ (((∃ x, c = .coreReloadDone x) ∨ (∃ x, c =
      .coreProbationEnd x) ∨ c = .sergeRestartDone ∨ c = .stopInHigh ∨ c = .hostWdSignal ∨ c = .hostWdTimeout ∨ c =
      .hostTrap ∨ (∃ n x, c = .supDeadline n x) ∨ c = .spareTestStart))) ∧
    (∃ (s : State) (t : State) (c : Instr), exec c s = .next t ∧ (((∃ e, c = .engineWdTimeout e) ∨ (∃ e, c =
      .engineRestartDone e)))) ∧
    (∃ (s : State) (t : State) (c : Instr), exec c s = .next t ∧ (((∃ x y, c = .sliceRetestDone x y) ∨ (∃ x, c =
      .spareTestDone x)))) ∧
    (∃ (s : State) (t : State) (c : Instr), exec c s = .next t ∧ ((c = .govLimitRecover ∨ (∃ l, c = .avsStep l) ∨ c
      = .bgRenew))) ∧
    (∃ (s : State) (t : State) (c : Instr), exec c s = .next t ∧ (c = .govUnshed)) ∧
    (∃ (s : State) (t : State) (c : Instr), exec c s = .next t ∧ (c = .lifeCounterRenew)) ∧
    (∃ (s : State) (t : State) (c : Instr), exec c s = .next t ∧ (((∃ i, c = .helloSend i) ∨ (∃ n, c = .notifySend
      n) ∨ (∃ a x, c = .bulkResendTimeout a x) ∨ c = .bulkWindowReopen))) ∧
    (∃ (s : State) (t : State) (c : Instr), exec c s = .next t ∧ (((∃ a k l d x y z v, c = .bulkOpenRx a k l d x y z
      v) ∨ (∃ a x y z v u, c = .bulkDataRx a x y z v u) ∨ (∃ a x, c = .bulkIdleTimeout a x)))) ∧
    (∃ (s : State) (t : State) (c : Instr), exec c s = .next t ∧ (((∃ n, c = .nmtStart n) ∨ (∃ n, c = .nmtStop n) ∨
      (∃ n, c = .nmtEnterPreOperational n) ∨ c = .heartbeatProduce ∨ c = .emcySend ∨ (∃ x y z, c = .canBus x y z) ∨ c
      = .canBusOffRecovery ∨ (∃ x, c = .sdoUploadSegment x) ∨ c = .sdoAbortRx ∨ c = .sdoSegmentTimeout))) ∧
    (∃ (s : State) (t : State) (c : Instr), exec c s = .next t ∧ (((∃ n, c = .heartbeatRx n) ∨ (∃ i, c = .canHbLost
      i)))) :=
  ⟨⟨base .idle, _, .stopInHigh, rfl, by simp⟩,
    ⟨base .idle, _, .engineWdTimeout 0, rfl, by simp⟩,
    ⟨base .idle, _, .spareTestDone true, rfl, by simp⟩,
    ⟨base .idle, _, .bgRenew, rfl, by simp⟩,
    ⟨base .idle, _, .govUnshed, rfl, by simp⟩,
    ⟨base .idle, _, .lifeCounterRenew, rfl, by simp⟩,
    ⟨base .idle, _, .bulkWindowReopen, rfl, by simp⟩,
    ⟨base .idle, _, .bulkIdleTimeout adr 1, rfl, by simp⟩,
    ⟨base .idle, _, .sdoAbortRx, rfl, by simp⟩,
    ⟨base .idle, _, .canHbLost 0, rfl, by simp⟩⟩

/-- `Obligations.TimeKeeping`: the hypotheses of each clause are met. -/
theorem witness_TimeKeeping :
    (∃ s : State, powered s.ctl.mode = true) ∧
    (∃ s : State, ∃ f, ∃ w', powered s.ctl.mode = true ∧ answers s.w (Obj.TIM_NOW_SEC / 256) = true ∧ (readItem
      s.ctl (Obj.TIM_NOW_SEC / 256) (Obj.TIM_NOW_SEC % 256) f s.w).2.2.2 = w') ∧
    (∃ s : State, powered s.ctl.mode = true ∧ hostDown s.w = false) ∧
    (∃ s : State, powered s.ctl.mode = true ∧ s.w.tim.rolled = true) ∧
    (∃ s : State, powered s.ctl.mode = true ∧ getN s.w Obj.TIM_SERVO = 2 ∧ s.w.tim.freqClk + secClk 600 ≤ s.w.clk) :=
  ⟨⟨up .idle id, by decide +kernel⟩,
    ⟨up .idle id, false, (readItem (up .idle id).ctl (Obj.TIM_NOW_SEC / 256) (Obj.TIM_NOW_SEC % 256) false (up .idle
      id).w).2.2.2, by decide +kernel⟩,
    ⟨up .idle id, by decide +kernel⟩,
    ⟨up .idle fun w => sets [] { w with tim := { w.tim with rolled := true } }, by decide +kernel⟩,
    ⟨up .idle (sets [(Obj.TIM_SERVO, 2)]), by decide +kernel⟩⟩

/-- `Obligations.EncoderEdgesAndSignals`: the hypotheses of each clause are met. -/
theorem witness_EncoderEdgesAndSignals :
    (∃ s : State, ∃ n : Nat, powered s.ctl.mode = true ∧ n < 4 ∧ n < s.w.web.enc.length ∧ encDecodes s.w n = true) ∧
    (∃ s : State, ∃ n : Nat, powered s.ctl.mode = true ∧ n < 4 ∧ n < s.w.web.enc.length ∧ encDecodes s.w n = true ∧
      encInRole s.w n = true) ∧
    (∃ s : State, ∃ n : Nat, ∃ sig, powered s.ctl.mode = true ∧ n < 4 ∧ n < s.w.web.enc.length ∧ sig < 3 ∧ encNamed
      s.w n = true ∧ bitOf (lossBits (encAt s.w n)) sig = false) ∧
    (∃ s : State, ∃ n : Nat, ∃ sig, powered s.ctl.mode = true ∧ n < 4 ∧ n < s.w.web.enc.length ∧ sig < 3 ∧ bitOf
      (lossBits (encAt s.w n)) sig = true) ∧
    (∃ s : State, ∃ n : Nat, powered s.ctl.mode = true ∧ n < 4 ∧ n < s.w.web.enc.length ∧ getF s.w (Obj.WEB_ENC_CFG
      n) 3 1 = 1 ∧ getN s.w (Obj.WEB_ENC_CPR n) ≠ 0 ∧ (encAt s.w n).lossZ = false ∧ encInRole s.w n = true ∧
      s.w.web.trk = .forward) ∧
    (∃ s : State, ∃ a, ∃ b, ∃ m, powered s.ctl.mode = true ∧ s.w.web.slip = some (a, b) ∧ encSec s.w = some m ∧ getO
      s.w Obj.WEB_SLIP_WIN * 4294967296 ≤ a) ∧
    (∃ s : State, powered s.ctl.mode = true ∧ standstillDue s.w = true) :=
  ⟨⟨up .idle (sets [(Obj.WEB_ENC_CFG 0, 1)]), 0, by decide +kernel⟩,
    ⟨up .idle (sets [(Obj.WEB_ENC_CFG 0, 1)]), 0, by decide +kernel⟩,
    ⟨up .idle id, 0, 2, by decide +kernel⟩,
    ⟨up .idle fun w => { w with web := { w.web with enc := w.web.enc.modify 3 fun e => { e with lossB := true } } },
      3, 1, by decide +kernel⟩,
    ⟨up .idle (sets [(Obj.WEB_ENC_CFG 0, 9), (Obj.WEB_ENC_CPR 0, 20000)]), 0, by decide +kernel⟩,
    ⟨up .idle fun w => sets [(Obj.WEB_SRC, 256 + 16)]
      { w with web := { w.web with slip := some (2 ^ 60, 2 ^ 60 + 65536) } }, 2 ^ 60, 2 ^ 60 + 65536, 1, by
      decide +kernel⟩,
    ⟨up .idle fun w => { w with web := { w.web with standstill := false } }, by decide +kernel⟩⟩

/-- `Obligations.ProbesSwitchesAndSsi`: the hypotheses of each clause are met. -/
theorem witness_ProbesSwitchesAndSsi :
    (∃ s : State, ∃ n : Nat, ∃ rising : Bool, powered s.ctl.mode = true ∧ n < 8 ∧ n < s.w.web.prb.length ∧ bitOf
      (getN s.w (Obj.WEB_PRB_CFG n)) 0 = true ∧ bitOf (getN s.w (Obj.WEB_PRB_CFG n)) (if rising then 1 else 2) = true
      ∧ winOn s.w n = false ∧ s.w.web.trk = .forward ∧ (prbAt s.w n).lastPos = none) ∧
    (∃ s : State, ∃ n : Nat, powered s.ctl.mode = true ∧ n < 8 ∧ n < s.w.web.prb.length ∧ winOn s.w n = true ∧
      (prbAt s.w n).armed = true ∧ winEnded s.w n = true) ∧
    (∃ s : State, ∃ n : Nat, ∃ c, powered s.ctl.mode = true ∧ n < 8 ∧ n < s.w.web.prb.length ∧ (prbAt s.w n).closed
      = [c] ∧ c.accepted = false ∧ c.clk + prbTd s.w n ≤ s.w.clk) ∧
    (∃ s : State, ∃ n : Nat, ∃ high : Bool, powered s.ctl.mode = true ∧ n < 4 ∧ bitOf (getN s.w (Obj.WEB_HSW_CFG n))
      0 = true ∧ bitOf (getN s.w Obj.WEB_HSW_STATE) n ≠ (high == bitOf (getN s.w (Obj.WEB_HSW_CFG n)) 1)) ∧
    (∃ s : State, ∃ n : Nat, ∃ hz, powered s.ctl.mode = true ∧ n < 2 ∧ getN s.w (Obj.WEB_SSI_CLK_HZ n) = hz ∧ 100000
      ≤ hz ∧ hz ≤ 10000000) ∧
    (∃ s : State, ∃ n : Nat, ∃ hz, powered s.ctl.mode = true ∧ n < 2 ∧ getN s.w (Obj.WEB_SSI_CLK_HZ n) = hz ∧ 100000
      ≤ hz ∧ hz ≤ 10000000) ∧
    (∃ s : State, ∃ n : Nat, ∃ hz, powered s.ctl.mode = true ∧ n < 2 ∧ getN s.w (Obj.WEB_SSI_CLK_HZ n) = hz ∧ 100000
      ≤ hz ∧ hz ≤ 10000000) ∧
    (∃ s : State, ∃ n : Nat, powered s.ctl.mode = true ∧ n < 2 ∧ n < s.w.web.ssi.length ∧ getF s.w (Obj.WEB_SSI_CFG
      n) 0 1 = 1 ∧ (ssiAt s.w n).busy = none ∧ (ssiAt s.w n).lastStart = none) ∧
    (∃ s : State, ∃ n : Nat, ∃ et, ∃ pos, powered s.ctl.mode = true ∧ n < 2 ∧ n < s.w.web.ssi.length ∧ (ssiAt s.w
      n).busy = some (et, pos)) ∧
    (∃ s : State, ∃ n : Nat, ∃ raw : Nat, ∃ et, ∃ pos, powered s.ctl.mode = true ∧ n < 2 ∧ n < s.w.web.ssi.length ∧
      (ssiAt s.w n).busy = some (et, pos) ∧ getF s.w (Obj.WEB_SSI_CFG n) 1 1 = 0 ∧ getF s.w (Obj.WEB_SSI_CFG n) 2 1 =
      0 ∧ getN s.w (Obj.WEB_SSI_MAX_DELTA n) = 0 ∧ raw + 1 < 2 ^ getF s.w (Obj.WEB_SSI_CFG n) 8 8) :=
  ⟨⟨up .idle (sets [(Obj.WEB_PRB_CFG 7, 3)]), 7, true, by decide +kernel⟩,
    ⟨up .idle fun w => sets [(Obj.WEB_PRB_CFG 0, 17)]
      { w with web := { w.web with prb := w.web.prb.modify 0 fun p => { p with armed := true } } }, 0, by
      decide +kernel⟩,
    ⟨up .idle fun w =>
      { w with web := { w.web with prb := w.web.prb.modify 7 fun p => { p with closed := [{ start := 0, stop := 5, clk := 7, accepted := false, extra := false }] } } },
      7, { start := 0, stop := 5, clk := 7, accepted := false, extra := false }, by decide +kernel⟩,
    ⟨up .idle (sets [(Obj.WEB_HSW_CFG 3, 1), (Obj.WEB_HSW_STATE, 0)]), 3, false, by decide +kernel⟩,
    ⟨up .idle id, 1, 1000000, by decide +kernel⟩,
    ⟨up .idle (sets [(Obj.WEB_SSI_CLK_HZ 0, 100000)]), 0, 100000, by decide +kernel⟩,
    ⟨up .idle (sets [(Obj.WEB_SSI_CLK_HZ 0, 10000000)]), 0, 10000000, by decide +kernel⟩,
    ⟨up .idle (sets [(Obj.WEB_SSI_CFG 1, 1)]), 1, by decide +kernel⟩,
    ⟨up .idle fun w =>
      { w with web := { w.web with ssi := w.web.ssi.modify 1 fun m => { m with busy := some (77, 5) } } }, 1, 77, 5,
      by decide +kernel⟩,
    ⟨up .idle fun w => sets [(Obj.WEB_SSI_CFG 0, 24 * 256 + 1)]
      { w with web := { w.web with ssi := w.web.ssi.modify 0 fun m => { m with busy := some (77, 5) } } }, 0, 2 ^ 24 -
      2, 77, 5, by decide +kernel⟩⟩

/-- `Obligations.LineCommits`: the hypotheses of each clause are met. -/
theorem witness_LineCommits :
    (∃ s : State, ∃ r : Nat, inPrint s.ctl.mode = true ∧ r < 16 ∧ r < s.w.lck.rows.length ∧ s.w.web.trk = .forward ∧
      s.w.sys.pausePending = false ∧ s.w.lck.hlWant = none ∧ s.w.web.wI = none ∧ targetReached s.w (target64 s.w r
      (rowAt s.w r).next) = true ∧ (rowAt s.w r).inhibited = 2) ∧
    (∃ s : State, ∃ r : Nat, inPrint s.ctl.mode = true ∧ r < 16 ∧ r < s.w.lck.rows.length ∧ s.w.web.trk = .forward ∧
      s.w.sys.pausePending = false ∧ s.w.lck.hlWant = none ∧ s.w.web.wI = none ∧ targetReached s.w (target64 s.w r
      (rowAt s.w r).next) = true ∧ (rowAt s.w r).inhibited = 0 ∧ s.w.web.valid = false) :=
  ⟨⟨up .printing fun w =>
      { w with web := { w.web with pos := 2 ^ 50, hwm := 2 ^ 50 }, lck := { w.lck with rows := w.lck.rows.modify 15 fun r => { r with inhibited := 2 } } },
      15, by decide +kernel⟩,
    ⟨up .printing fun w => { w with web := { w.web with pos := 2 ^ 50, hwm := 2 ^ 50 } }, 0, by decide +kernel⟩⟩

/-- `Obligations.OverspeedEpisodes`: the hypotheses of each clause are met. -/
theorem witness_OverspeedEpisodes :
    (∃ s : State, ∃ r, powered s.ctl.mode = true ∧ s.w.lck.warnRow = none ∧ rowAbove s.w (getO s.w
      Obj.LCK_OVS_WARN_PCT) = some r) ∧
    (∃ s : State, ∃ r, powered s.ctl.mode = true ∧ s.w.lck.warnRow = some r ∧ rowAbove s.w (getO s.w
      Obj.LCK_OVS_WARN_PCT - 2) = none) ∧
    (∃ s : State, ∃ r, powered s.ctl.mode = true ∧ s.w.lck.overRow = none ∧ rowAbove s.w 100 = some r) ∧
    (∃ s : State, powered s.ctl.mode = true ∧ rowAbove s.w 100 = none) ∧
    (∃ s : State, ∃ r, powered s.ctl.mode = true ∧ ((List.range 16).find? fun r => decide (getN s.w
      Obj.LCK_OVS_STOP_LINES ≤ (rowAt s.w r).stopRun) && aboveStop s.w r) = some r ∧ inPrint s.ctl.mode = true ∧
      s.w.lck.stopReq = false) ∧
    (∃ s : State, ∃ c, powered s.ctl.mode = true ∧ rowAbove s.w 100 = none ∧ s.w.lck.belowSince = some c ∧
      s.w.lck.stopReq = true ∧ c + msClk 100 ≤ s.w.clk) ∧
    (∃ s : State, ∃ c, powered s.ctl.mode = true ∧ inPrint s.ctl.mode = true ∧ s.w.lck.hl600 = true ∧ (nextSet s.w
      0).res600 = true ∧ getO s.w Obj.LCK_RES_MODE = 2 ∧ belowReturn s.w = true ∧ s.w.lck.returnSince = some c ∧ c +
      msClk (getN s.w Obj.LCK_HL_HOLD_MS) ≤ s.w.clk) :=
  ⟨⟨up .printing fun w =>
      { w with web := { w.web with valid := true, standstill := false, edgeClk := w.clk, etLast := nowEt w, vNum := 2 ^ 60, vDen := 1 } },
      0, by decide +kernel⟩,
    ⟨up .printing fun w => sets [] { w with lck := { w.lck with warnRow := some 3 } }, 3, by decide +kernel⟩,
    ⟨up .printing fun w =>
      { w with web := { w.web with valid := true, standstill := false, edgeClk := w.clk, etLast := nowEt w, vNum := 2 ^ 60, vDen := 1 } },
      0, by decide +kernel⟩,
    ⟨up .printing fun w => sets [] { w with lck := { w.lck with overRow := some 0 } }, by decide +kernel⟩,
    ⟨up .printing fun w => sets [(Obj.LCK_OVS_STOP_LINES, 1)]
      { w with web := { w.web with valid := true, standstill := false, edgeClk := w.clk, etLast := nowEt w, vNum := 2 ^ 60, vDen := 1 }, lck := { w.lck with rows := w.lck.rows.modify 15 fun r => { r with stopRun := 1 } } },
      15, by decide +kernel⟩,
    ⟨up .printing fun w => sets [] { w with lck := { w.lck with stopReq := true, belowSince := some 0 } }, 0, by
      decide +kernel⟩,
    ⟨up .printing fun w => sets [(Obj.LCK_RES_MODE, 2)]
      { w with lck := { w.lck with hl600 := true, returnSince := some 0 }, jq := { w.jq with bars := w.jq.bars.modify 0 fun b => { b with sets := [{ makeSet w 0 0 0 with res600 := true }] } } },
      0, by decide +kernel⟩⟩

/-- `Obligations.FrameSequence`: the hypotheses of each clause are met. -/
theorem witness_FrameSequence :
    (∃ s : State, ∃ b, inPrint s.ctl.mode = true ∧ s.w.job.bounds.find? (!·.isSetUp) = some b ∧ posReached s.w
      (linePos (b.w - 128)) = true ∧ b.virt = false ∧ pausing s.ctl.mode s.w = false ∧ s.w.job.commit = false ∧
      comingProbeSrc s.w = false ∧ s.w.job.count ≠ some 0) ∧
    (∃ s : State, ∃ b, ∃ rest, inPrint s.ctl.mode = true ∧ s.w.job.bounds = b :: rest ∧ b.isSetUp = true ∧
      posReached s.w (linePos b.w) = true ∧ b.virt = false ∧ b.noSrc = false ∧ b.starts = true) ∧
    (∃ s : State, inPrint s.ctl.mode = true ∧ s.w.job.noSrc = true ∧ s.w.job.noSrcClk + secClk 1 ≤ s.w.clk) ∧
    (∃ s : State, ∃ f, (inPrint s.ctl.mode = true ∧ s.w.job.frames.find? (·.last) = some f ∧ posReached s.w (linePos
      f.wEnd) = true) ∧ Quiet s) :=
  ⟨⟨up .printing fun w => { w with job := { w.job with bounds := [bnd] } }, bnd, by decide +kernel⟩,
    ⟨up .printing fun w =>
      { w with job := { w.job with bounds := [{ bnd with isSetUp := true, starts := true, w := 0 }] } },
      { bnd with isSetUp := true, starts := true, w := 0 }, [], by decide +kernel⟩,
    ⟨up .printing fun w => { w with job := { w.job with noSrc := true } }, by decide +kernel⟩,
    ⟨up .printing fun w => { w with job := { w.job with frames := [frm] } }, frm, by decide +kernel, rfl⟩⟩

/-- `Obligations.CompositionAndLookAhead`: the hypotheses of each clause are met. -/
theorem witness_CompositionAndLookAhead :
    (∃ s : State, inPrint s.ctl.mode = true ∧ posReached s.w (linePos (2 * s.w.mem.front - 128)) = true) ∧
    (∃ s : State, inPrint s.ctl.mode = true ∧ s.w.mem.lineOpen = true) ∧
    (∃ s : State, inPrint s.ctl.mode = true ∧ lookActual s.w < 2048) ∧
    (∃ s : State, ∃ p, inPrint s.ctl.mode = true ∧ lookActual s.w < 64 ∧ s.w.mem.starveFrom = some p ∧ 2048 * 65536
      ≤ posDiff (webPos s.w) p ∧ s.w.mem.starved = false) :=
  ⟨⟨up .printing fun w => { w with mem := { w.mem with front := 64 } }, by decide +kernel⟩,
    ⟨up .printing fun w => { w with mem := { w.mem with lineOpen := true } }, by decide +kernel⟩,
    ⟨up .printing fun w => { w with web := { w.web with pos := 2 ^ 50 } }, by decide +kernel⟩,
    ⟨up .printing fun w => sets [(Obj.MEM_LA_STOP, 1)]
      { w with web := { w.web with pos := 2 ^ 50 }, mem := { w.mem with starveFrom := some 0 } }, 0, by
      decide +kernel⟩⟩

/-- `Obligations.EccCounters`: the hypotheses of each clause are met. -/
theorem witness_EccCounters :
    (∃ s : State, ∃ area, powered s.ctl.mode = true ∧ area ≤ 6) ∧
    (∃ s : State, ∃ area, powered s.ctl.mode = true ∧ area ≤ 6) ∧
    (∃ s : State, powered s.ctl.mode = true ∧ s.w.mem.scrubClk + secClk (3600 * getN s.w Obj.MEM_SCRUB_HOURS) ≤
      s.w.clk ∧ ((∀ e, e ∈ s.w.mem.struck → e.area = 1 ∨ 4 < e.area)) ∧ (inPrint s.ctl.mode && s.w.web.standstill &&
      s.w.jq.bars.any (·.noSlice)) = false) :=
  ⟨⟨up .idle id, 6, by decide +kernel⟩,
    ⟨up .idle id, 4, by decide +kernel⟩,
    ⟨up .idle (sets [(Obj.MEM_SCRUB_HOURS, 1)]), by decide +kernel⟩⟩

/-- `Obligations.BarPasses`: the hypotheses of each clause are met. -/
theorem witness_BarPasses :
    (∃ s : State, ∃ r : Nat, r < 16 ∧ r / 2 < s.w.jq.bars.length ∧ r % 2 < (barAt s.w (r / 2)).passes.length ∧
      inPrint s.ctl.mode = true ∧ (barAt s.w (r / 2)).halt = false ∧ (barAt s.w (r / 2)).noSlice = false ∧ (passAt s.w
      (r / 2) (r % 2)).load = none ∧ passRoom s.w (r / 2) (r % 2) = true ∧ (((setFor s.w (r / 2) (passAt s.w (r / 2)
      (r % 2)).front).wB ≠ (passAt s.w (r / 2) (r % 2)).setB ∨ (setFor s.w (r / 2) (passAt s.w (r / 2) (r %
      2)).front).tag ≠ (passAt s.w (r / 2) (r % 2)).tag))) ∧
    (∃ s : State, ∃ r : Nat, r < 16 ∧ r / 2 < s.w.jq.bars.length ∧ r % 2 < (barAt s.w (r / 2)).passes.length ∧
      inPrint s.ctl.mode = true ∧ (barAt s.w (r / 2)).halt = false ∧ (barAt s.w (r / 2)).noSlice = false ∧ (passAt s.w
      (r / 2) (r % 2)).load = none ∧ passRoom s.w (r / 2) (r % 2) = true ∧ (setFor s.w (r / 2) (passAt s.w (r / 2) (r
      % 2)).front).wB = (passAt s.w (r / 2) (r % 2)).setB ∧ (setFor s.w (r / 2) (passAt s.w (r / 2) (r %
      2)).front).tag = (passAt s.w (r / 2) (r % 2)).tag ∧ ckptRoom s.w (r / 2) (r % 2) (nextRowLine s.w r (passAt s.w
      (r / 2) (r % 2)).front) = true) ∧
    (∃ s : State, ∃ r : Nat, ∃ c, r < 16 ∧ r / 2 < s.w.jq.bars.length ∧ r % 2 < (barAt s.w (r / 2)).passes.length ∧
      (passAt s.w (r / 2) (r % 2)).load = some c) :=
  ⟨⟨up .printing fun w =>
      { w with jq := { w.jq with bars := w.jq.bars.modify 7 fun b => { b with sets := [makeSet w 7 1 0] } } }, 15, by
      decide +kernel⟩,
    ⟨up .printing id, 0, by decide +kernel⟩,
    ⟨up .printing fun w =>
      { w with jq := { w.jq with bars := w.jq.bars.modify 0 fun b => { b with passes := b.passes.modify 1 fun p => { p with load := some 3 } } } },
      1, 3, by decide +kernel⟩⟩

/-- `Obligations.SensorPolls`: the hypotheses of each clause are met. -/
theorem witness_SensorPolls :
    (∃ s : State, ∃ raws : List Int, ∃ diags : List Nat, powered s.ctl.mode = true ∧ s.w.thm.throttle = true ∧
      s.w.thm.sensors.length = 26 ∧ (∀ n : Nat, n < 26 → (sensorAt s.w n).broken = 0 ∧ brokenKind (raws.getD n 0)
      (diags.getD n 0) = 0 ∧ stuck s.w raws n = false) ∧ (∀ n : Nat, n < 26 → raws.getD n 0 + getO s.w (Obj.THM_XOFS
      n) < getO s.w (Obj.THM_SHUTDOWN n))) ∧
    (∃ s : State, ∃ raws : List Int, ∃ diags : List Nat, powered s.ctl.mode = true ∧ s.w.thm.throttle = true ∧
      s.w.thm.sensors.length = 26 ∧ (∀ n : Nat, n < 26 → (sensorAt s.w n).broken = 0 ∧ brokenKind (raws.getD n 0)
      (diags.getD n 0) = 0 ∧ stuck s.w raws n = false) ∧ (∃ n : Nat, n < 26 ∧ getO s.w (Obj.THM_SHUTDOWN n) ≤
      raws.getD n 0 + getO s.w (Obj.THM_XOFS n)) ∧ s.ctl.mode ≠ .thermalHold ∧ s.w.sys.standby = false) ∧
    (∃ w : World, ∃ raws : List Int, ∃ diags : List Nat, ∃ n : Nat, n < w.thm.sensors.length ∧ ((sensorAt w
      n).broken = 0 ∨ (sensorAt w n).broken = 4) ∧ brokenKind (raws.getD n 0) (diags.getD n 0) ≠ 0) ∧
    (∃ w : World, ∃ raws : List Int, ∃ diags : List Nat, ∃ n : Nat, ∃ c, n < w.thm.sensors.length ∧ 1 ≤ (sensorAt w
      n).broken ∧ (sensorAt w n).broken ≤ 3 ∧ brokenKind (raws.getD n 0) (diags.getD n 0) = 0 ∧ (sensorAt w n).goodClk
      = some c ∧ c + secClk 10 ≤ w.clk) ∧
    (∃ w : World, ∃ raws : List Int, ∃ diags : List Nat, ∃ n : Nat, ∃ c, n < w.thm.sensors.length ∧ 1 ≤ (sensorAt w
      n).broken ∧ (sensorAt w n).broken ≤ 3 ∧ brokenKind (raws.getD n 0) (diags.getD n 0) = 0 ∧ (sensorAt w n).goodClk
      = some c ∧ w.clk < c + secClk 10) ∧
    (∃ w : World, ∃ n : Nat, ∃ k, n < w.thm.sensors.length ∧ k ≠ n) :=
  ⟨⟨up .idle fun w => sets [] { w with thm := { w.thm with throttle := true } }, List.replicate 26 (400 : Int),
      List.replicate 26 0, by decide +kernel⟩,
    ⟨up .printing fun w => sets [] { w with thm := { w.thm with throttle := true } }, (List.replicate 25 (400 : Int)
      ++ [2000]), List.replicate 26 0, by decide +kernel⟩,
    ⟨(base .idle).w, [2401], [0], 0, by decide +kernel⟩,
    ⟨({ (base .idle).w with thm := { Thm.reset with sensors := Thm.reset.sensors.modify 25 fun x => { x with broken := 3, goodClk := some 0 } } }
      : World), List.replicate 26 (400 : Int), List.replicate 26 0, 25, 0, by decide +kernel⟩,
    ⟨({ (base .idle).w with thm := { Thm.reset with sensors := Thm.reset.sensors.modify 25 fun x => { x with broken := 3, goodClk := some 10000000000000 } } }
      : World), List.replicate 26 (400 : Int), List.replicate 26 0, 25, 10000000000000, by decide +kernel⟩,
    ⟨(base .idle).w, 0, 1, by decide +kernel⟩⟩

/-- `Obligations.PowerGovernor`: the hypotheses of each clause are met. -/
theorem witness_PowerGovernor :
    (∃ s : State, ∃ pin : Nat, powered s.ctl.mode = true ∧ ((min 65535 pin : Nat) : Int) ≤ getO s.w
      Obj.THM_PLIM_EFF) ∧
    (∃ s : State, ∃ pin : Nat, powered s.ctl.mode = true ∧ getO s.w Obj.THM_PLIM_EFF < ((min 65535 pin : Nat) : Int)
      ∧ s.w.thm.levelClk + msClk 500 ≤ s.w.clk ∧ getN s.w Obj.THM_SHED_LEVEL < 3) ∧
    (∃ s : State, ∃ pin : Nat, powered s.ctl.mode = true ∧ getO s.w Obj.THM_PLIM_EFF < ((min 65535 pin : Nat) : Int)
      ∧ s.w.thm.levelClk + msClk 500 ≤ s.w.clk ∧ getN s.w Obj.THM_SHED_LEVEL = 3) ∧
    (∃ s : State, powered s.ctl.mode = true ∧ s.w.thm.throttle = true ∧ s.w.thm.stepClk + secClk (getN s.w
      Obj.THM_STEP_S) ≤ s.w.clk ∧ onlyBroken s.w = false ∧ 240 ≤ getO s.w Obj.THM_PLIM_EFF - 10 * getO s.w
      Obj.THM_STEP_W) ∧
    (∃ s : State, powered s.ctl.mode = true ∧ s.w.thm.throttle = true ∧ s.w.thm.stepClk + secClk (getN s.w
      Obj.THM_STEP_S) ≤ s.w.clk ∧ onlyBroken s.w = false ∧ getO s.w Obj.THM_PLIM_EFF - 10 * getO s.w Obj.THM_STEP_W <
      240 ∧ s.ctl.mode ≠ .thermalHold ∧ s.w.sys.standby = false) ∧
    (∃ s : State, ∃ c, powered s.ctl.mode = true ∧ s.w.thm.coolClk = some c ∧ s.w.thm.throttle = false ∧ getO s.w
      Obj.THM_PLIM_EFF < getO s.w Obj.THM_PLIM_W ∧ max c s.w.thm.riseClk + secClk (getN s.w Obj.THM_RECOVER_S) ≤
      s.w.clk) ∧
    (∃ s : State, ∃ c, powered s.ctl.mode = true ∧ 1 ≤ getN s.w Obj.THM_SHED_LEVEL ∧ getN s.w Obj.THM_SHED_LEVEL ≤ 3
      ∧ s.w.thm.marginClk = some c ∧ c + secClk 10 ≤ s.w.clk ∧ s.w.thm.undoClk + secClk 10 ≤ s.w.clk) :=
  ⟨⟨up .idle id, 0, by decide +kernel⟩,
    ⟨up .idle id, 65535, by decide +kernel⟩,
    ⟨up .idle fun w => sets [(Obj.THM_SHED_LEVEL, 3)] w, 70000, by decide +kernel⟩,
    ⟨up .idle fun w => sets []
      { w with thm := { w.thm with throttle := true, sensors := w.thm.sensors.modify 0 fun x => { x with thr := 1 } } },
      by decide +kernel⟩,
    ⟨up .idle fun w => sets [(Obj.THM_PLIM_EFF, 240)]
      { w with thm := { w.thm with throttle := true, sensors := w.thm.sensors.modify 0 fun x => { x with thr := 1 } } },
      by decide +kernel⟩,
    ⟨up .idle fun w => sets [(Obj.THM_PLIM_EFF, 240)] { w with thm := { w.thm with coolClk := some 0 } }, 0, by
      decide +kernel⟩,
    ⟨up .idle fun w => sets [(Obj.THM_SHED_LEVEL, 3)] { w with thm := { w.thm with marginClk := some 0 } }, 0, by
      decide +kernel⟩⟩

/-- `Obligations.ResumeAndCompensation`: the hypotheses of each clause are met. -/
theorem witness_ResumeAndCompensation :
    (∃ s : State, s.ctl.mode = .thermalHold ∧ getO s.w Obj.THM_AUTO_RESUME = 1 ∧ (∀ x, x ∈ s.w.thm.sensors →
      x.broken = 0) ∧ heldFor s.w s.w.thm.coolClk (secClk (getN s.w Obj.THM_RECOVER_S)) = true) ∧
    (∃ s : State, powered s.ctl.mode = true) ∧
    (∃ s : State, powered s.ctl.mode = true) :=
  ⟨⟨up .thermalHold fun w => sets [(Obj.THM_AUTO_RESUME, 1)] { w with thm := { w.thm with coolClk := some 0 } }, by
      decide +kernel⟩,
    ⟨up .idle id, by decide +kernel⟩,
    ⟨up .idle id, by decide +kernel⟩⟩

/-- `Obligations.LinkTrainingAndDiscovery`: the hypotheses of each clause are met. -/
theorem witness_LinkTrainingAndDiscovery :
    (∃ s : State, ∃ i : Nat, i < 24 ∧ i < s.w.links.length ∧ (linkAt s.w i).st = .training) ∧
    (∃ s : State, ∃ i : Nat, i < 24 ∧ i < s.w.links.length ∧ (linkAt s.w i).st = .training ∧ (linkAt s.w i).startClk
      + msClk 20 ≤ s.w.clk) ∧
    (∃ s : State, ∃ i : Nat, i < 24 ∧ i < s.w.links.length ∧ (linkAt s.w i).st = .up ∧ bitOf (linkCfg s.w i) 1 =
      true ∧ (linkAt s.w i).trial = none ∧ (linkAt s.w i).trialClk + secClk 10 ≤ s.w.clk ∧ presetGap s.w i = true) ∧
    (∃ s : State, ∃ i : Nat, ∃ margin, ∃ r, i < 24 ∧ i < s.w.links.length ∧ (linkAt s.w i).trial = some r ∧ r.clk +
      secClk 1 ≤ s.w.clk ∧ (r.margin + 4 ≤ margin ∨ presetGap s.w i = true)) ∧
    (∃ s : State, ∃ i, i < 24 ∧ i < s.w.links.length ∧ (linkAt s.w i).st = .enumerating) ∧
    (∃ s : State, ∃ p, ∃ addr : Nat, p < 16 ∧ p < s.w.links.length ∧ (linkAt s.w p).st = .enumerating ∧ (linkAt s.w
      p).enumAddr = addr ∧ addr = (linkAt s.w p).drivers.length + 1 ∧ addr ≠ 15) ∧
    (∃ s : State, ∃ p, ∃ addr : Nat, p < 16 ∧ p < s.w.links.length ∧ (linkAt s.w p).st = .enumerating ∧ (linkAt s.w
      p).enumAddr = addr ∧ addr = 15) ∧
    (∃ s : State, ∃ p, p < 16 ∧ p < s.w.links.length ∧ (linkAt s.w p).st = .enumerating ∧ ((linkAt s.w p).answerClk
      + msClk 30 ≤ s.w.clk ∨ (linkAt s.w p).excess = true)) ∧
    (∃ s : State, ∃ i, ∃ addr : Nat, i < 24 ∧ i < s.w.links.length ∧ 1 ≤ addr ∧ addr ≤ (linkAt s.w
      i).drivers.length) ∧
    (∃ s : State, ∃ c, c < 8 ∧ 16 + c < s.w.links.length ∧ (linkAt s.w (16 + c)).st = .enumerating) :=
  ⟨⟨up .idle fun w => sets [] (lnk 23 (fun l => { l with st := .training }) w), 23, by decide +kernel⟩,
    ⟨up .idle fun w => sets [] (lnk 0 (fun l => { l with st := .training }) w), 0, by decide +kernel⟩,
    ⟨up .idle fun w => sets [(Obj.YQL_PORT_CFG 0, 3)] (lnk 0 (fun l => { l with st := .up }) w), 0, by
      decide +kernel⟩,
    ⟨up .idle fun w => sets [] (lnk 0 (fun l =>
      { l with trial := some { lane := 5, preset := 3, margin := 9, clk := 0 } }) w), 0, 12,
      { lane := 5, preset := 3, margin := 9, clk := 0 }, by decide +kernel⟩,
    ⟨up .idle fun w => sets [] (lnk 23 (fun l => { l with st := .enumerating }) w), 23, by decide +kernel⟩,
    ⟨up .idle fun w => sets [] (lnk 15 (fun l => { l with st := .enumerating, enumAddr := 1 }) w), 15, 1, by
      decide +kernel⟩,
    ⟨up .idle fun w => sets [] (lnk 15 (fun l => { l with st := .enumerating, enumAddr := 15 }) w), 15, 15, by
      decide +kernel⟩,
    ⟨up .idle fun w => sets [] (lnk 0 (fun l => { l with st := .enumerating, drivers := [drv] }) w), 0, by
      decide +kernel⟩,
    ⟨up .idle fun w => sets [] (lnk 0 (fun l => { l with st := .up, drivers := [drv] }) w), 0, 1, by decide +kernel⟩,
    ⟨up .idle fun w => sets [] (lnk 23 (fun l => { l with st := .enumerating }) w), 7, by decide +kernel⟩⟩

/-- `Obligations.LinkLosses`: the hypotheses of each clause are met. -/
theorem witness_LinkLosses :
    (∃ s : State, ∃ i : Nat, ∃ lanes : List (Nat × Nat × Int), ∃ seq : Nat, ∃ lo : Int, i < 24 ∧ i <
      s.w.links.length ∧ (∀ e, e ∈ lanes.zip (List.range lanes.length) → e.1.1 = e.2 ∧ e.1.2.1 = seq ∧ lo ≤ e.1.2.2 ∧
      e.1.2.2 ≤ lo + 200)) ∧
    (∃ s : State, ∃ i : Nat, ∃ lanes : List (Nat × Nat × Int), ∃ e : (Nat × Nat × Int) × Nat, i < 24 ∧ i <
      s.w.links.length ∧ (linkAt s.w i).st = .up ∧ e ∈ lanes.zip (List.range lanes.length) ∧ e.1.1 ≠ e.2) ∧
    (∃ s : State, ∃ i : Nat, i < 24 ∧ i < s.w.links.length) ∧
    (∃ s : State, ∃ i : Nat, i < 24 ∧ i < s.w.links.length ∧ (linkAt s.w i).st = .up) ∧
    (∃ s : State, ∃ i : Nat, i < 24 ∧ i < s.w.links.length ∧ ((linkAt s.w i).st = .training ∨ (linkAt s.w i).st =
      .enumerating)) ∧
    (∃ s : State, ∃ i : Nat, ∃ addr : Nat, ∃ d, i < 24 ∧ i < s.w.links.length ∧ i < 16 ∧ 1 ≤ addr ∧ (linkAt s.w
      i).drivers[addr - 1]? = some d ∧ d.statusClk + usClk (getN s.w Obj.YQL_STATUS_TO_US) ≤ s.w.clk ∧ (linkAt s.w
      i).st = .up) :=
  ⟨⟨up .idle id, 0, [(0, 5, 0), (1, 5, 200)], 5, 0, by decide +kernel⟩,
    ⟨up .idle fun w => sets [] (lnk 0 (fun l => { l with st := .up }) w), 0, [(1, 5, 0)], ((1, 5, 0), 0), by
      decide +kernel⟩,
    ⟨up .idle id, 23, by decide +kernel⟩,
    ⟨up .idle fun w => sets [] (lnk 0 (fun l => { l with st := .up }) w), 0, by decide +kernel⟩,
    ⟨up .idle fun w => sets [] (lnk 0 (fun l => { l with st := .training }) w), 0, by decide +kernel⟩,
    ⟨up .idle fun w => sets [] (lnk 0 (fun l => { l with st := .up, drivers := [drv] }) w), 0, 1, drv, by
      decide +kernel⟩⟩

/-- `Obligations.RecoveryAndArrival`: the hypotheses of each clause are met. -/
theorem witness_RecoveryAndArrival :
    (∃ s : State, ∃ i : Nat, i < 24 ∧ i < s.w.links.length ∧ (linkAt s.w i).st = .recovering ∧ (i < 16 → ∀ k : Nat,
      k < (linkAt s.w i).drivers.length → (k + 1) ∈ (linkAt s.w i).reported)) ∧
    (∃ s : State, ∃ i : Nat, i < 24 ∧ i < s.w.links.length ∧ recoveryOver s.w i = true ∧ s.ctl.mode = .printing ∧ 16
      ≤ i) ∧
    (∃ s : State, ∃ i : Nat, i < 24 ∧ i < s.w.links.length ∧ recoveryOver s.w i = true ∧ s.ctl.mode = .printing ∧ i
      < 16) ∧
    (∃ s : State, ∃ i : Nat, i < 24 ∧ i < s.w.links.length ∧ recoveryOver s.w i = true ∧ (s.ctl.mode = .armed ∨
      s.ctl.mode = .paused)) ∧
    (∃ s : State, ∃ i : Nat, i < 24 ∧ i < s.w.links.length ∧ arrivalPossible s.w i = true ∧ getO s.w
      Obj.YQL_HOTPLUG_EN ≠ 0 ∧ s.ctl.mode = .printing) ∧
    (∃ s : State, ∃ i : Nat, i < 24 ∧ i < s.w.links.length ∧ arrivalPossible s.w i = true ∧ getO s.w
      Obj.YQL_HOTPLUG_EN ≠ 0 ∧ (s.ctl.mode = .idle ∨ s.ctl.mode = .service)) ∧
    (∃ s : State, ∃ i : Nat, i < 24 ∧ i < s.w.links.length ∧ arrivalPossible s.w i = true ∧ getO s.w
      Obj.YQL_HOTPLUG_EN ≠ 0 ∧ (s.ctl.mode = .armed ∨ s.ctl.mode = .paused)) :=
  ⟨⟨up .idle fun w => sets [] (lnk 0 (fun l => { l with st := .recovering, drivers := [drv], reported := [1] }) w),
      0, by decide +kernel⟩,
    ⟨up .printing fun w => sets [] (lnk 23 (fun l => { l with st := .recovering }) w), 23, by decide +kernel⟩,
    ⟨up .printing fun w => sets [] (lnk 15 (fun l => { l with st := .recovering }) w), 15, by decide +kernel⟩,
    ⟨up .armed fun w => sets [] (lnk 16 (fun l => { l with st := .recovering }) w), 16, by decide +kernel⟩,
    ⟨up .printing fun w => sets [(Obj.YQL_HOTPLUG_EN, 1), (Obj.YQL_CAM_CFG 7, 1)] (lnk 23 (fun l =>
      { l with st := .down }) w), 23, by decide +kernel⟩,
    ⟨up .idle fun w => sets [(Obj.YQL_HOTPLUG_EN, 1), (Obj.YQL_CAM_CFG 7, 1)] (lnk 23 (fun l =>
      { l with st := .down }) w), 23, by decide +kernel⟩,
    ⟨up .paused fun w => sets [(Obj.YQL_HOTPLUG_EN, 1), (Obj.YQL_CAM_CFG 7, 1)] (lnk 23 (fun l =>
      { l with st := .down }) w), 23, by decide +kernel⟩⟩

/-- `Obligations.LinkTrafficAndIdle`: the hypotheses of each clause are met. -/
theorem witness_LinkTrafficAndIdle :
    (∃ s : State, ∃ i : Nat, ∃ tag, ∃ c, i < 24 ∧ i < s.w.links.length ∧ (linkAt s.w i).cmds.find? (fun c => c.tag
      == tag) = some c ∧ c.op = 4) ∧
    (∃ s : State, ∃ i : Nat, ∃ tag, ∃ c, i < 24 ∧ i < s.w.links.length ∧ (linkAt s.w i).cmds.find? (fun c => c.tag
      == tag) = some c ∧ c.waiting = false ∧ c.clk + usClk (getN s.w Obj.YQL_RESP_TO_US) ≤ s.w.clk ∧ c.tries < 4) ∧
    (∃ s : State, ∃ i : Nat, ∃ tag, ∃ c, i < 24 ∧ i < s.w.links.length ∧ (linkAt s.w i).cmds.find? (fun c => c.tag
      == tag) = some c ∧ c.waiting = false ∧ c.clk + usClk (getN s.w Obj.YQL_RESP_TO_US) ≤ s.w.clk ∧ 4 ≤ c.tries ∧ i <
      16 ∧ inPrint s.ctl.mode = false) ∧
    (∃ s : State, ∃ i : Nat, ∃ row, ∃ result, i < 24 ∧ i < s.w.links.length ∧ i < 16 ∧ row < 2 ∧ result < 8) ∧
    (∃ s : State, ∃ i : Nat, ∃ addr : Nat, ∃ d, i < 24 ∧ i < s.w.links.length ∧ i < 16 ∧ 1 ≤ addr ∧ (linkAt s.w
      i).drivers[addr - 1]? = some d) ∧
    (∃ s : State, ∃ i : Nat, i < 24 ∧ i < s.w.links.length ∧ i < 16 ∧ getN s.w Obj.YQL_RW_PORT = i) ∧
    (∃ s : State, ∃ p : Nat, ∃ x, ∃ rest, p < 16 ∧ p < s.w.fire.length ∧ (portAt s.w p).tx = x :: rest ∧ x.row <
      (portAt s.w p).fifo.length) ∧
    (∃ s : State, ∃ p : Nat, p < 16 ∧ p < s.w.fire.length ∧ idleAllowed s.w p = true ∧ nextStart s.w p = none ∧
      (portAt s.w p).endClk + usClk (getN s.w (Obj.FIR_IDLE_US p)) ≤ s.w.clk) ∧
    (∃ s : State, ∃ p : Nat, ∃ x, p < 16 ∧ p < s.w.fire.length ∧ (portAt s.w p).idle = true ∧ nextStart s.w p = some
      x ∧ fracLe x (fracAdd (timerFrac s.w) (fracI 2000)) = true) :=
  ⟨⟨up .idle fun w => sets [] (lnk 0 (fun l => { l with st := .up, cmds := [ycmd] }) w), 0, 3, ycmd, by
      decide +kernel⟩,
    ⟨up .idle fun w => sets [] (lnk 0 (fun l => { l with st := .up, cmds := [ycmd] }) w), 0, 3, ycmd, by
      decide +kernel⟩,
    ⟨up .idle fun w => sets [] (lnk 0 (fun l => { l with st := .up, cmds := [{ ycmd with tries := 4 }] }) w), 0, 3,
      { ycmd with tries := 4 }, by decide +kernel⟩,
    ⟨up .printing fun w => sets [] (lnk 15 (fun l => { l with st := .up }) w), 15, 1, 7, by decide +kernel⟩,
    ⟨up .idle fun w => sets [] (lnk 0 (fun l => { l with st := .up, drivers := [drv] }) w), 0, 1, drv, by
      decide +kernel⟩,
    ⟨up .idle fun w => sets [(Obj.YQL_RW_PORT, 15), (Obj.YQL_RW_ADDR, 0x10000010)] (lnk 15 (fun l =>
      { l with st := .up }) w), 15, by decide +kernel⟩,
    ⟨up .printing fun w => sets []
      { w with fire := w.fire.modify 15 fun p => { p with tx := [{ row := 1, x := 5, stop := fracI 3 }] } }, 15,
      { row := 1, x := 5, stop := fracI 3 }, [], by decide +kernel⟩,
    ⟨up .idle fun w => sets [(Obj.FIR_CFG 0, 2)] (lnk 0 (fun l => { l with st := .up }) w), 0, by decide +kernel⟩,
    ⟨up .printing fun w => sets []
      { w with web := { w.web with valid := true, standstill := false, edgeClk := w.clk, etLast := nowEt w, vNum := 2 ^ 60, vDen := 1, pos := 2 ^ 50 }, fire := w.fire.modify 0 fun p => { p with idle := true } },
      0, (nextStart (up .printing fun w => sets []
      { w with web := { w.web with valid := true, standstill := false, edgeClk := w.clk, etLast := nowEt w, vNum := 2 ^ 60, vDen := 1, pos := 2 ^ 50 }, fire := w.fire.modify 0 fun p => { p with idle := true } }).w
      0).getD (fracI 0), by decide +kernel⟩⟩

/-- `Obligations.SergeVoting`: the hypotheses of each clause are met. -/
theorem witness_SergeVoting :
    (∃ s : State, ∃ res : List (Option (Nat × Nat)), ∃ pair, powered s.ctl.mode = true ∧ s.w.sys.voted = true ∧
      s.w.sup.restart = false ∧ 2 ≤ votingCores s.w ∧ agreedPair s.w res = some pair) ∧
    (∃ s : State, ∃ res : List (Option (Nat × Nat)), powered s.ctl.mode = true ∧ s.w.sys.voted = true ∧
      s.w.sup.restart = false ∧ 2 ≤ votingCores s.w ∧ agreedPair s.w res = none) ∧
    (∃ s : State, powered s.ctl.mode = true ∧ s.w.sys.voted = true ∧ s.w.sup.restart = false ∧ votingCores s.w < 2) ∧
    (∃ s : State, ∃ c, c < 3 ∧ c < s.w.sup.cores.length ∧ (coreAt s.w c).st = .reloading ∧ s.w.sup.restart = false) ∧
    (∃ s : State, ∃ c, c < 3 ∧ c < s.w.sup.cores.length ∧ (coreAt s.w c).st = .probation ∧ 1024 ≤ (coreAt s.w
      c).agree) ∧
    (∃ s : State, s.w.sup.restart = true) ∧
    (∃ s : State, s.w.sup.stopLow = false ∧ powered s.ctl.mode = true ∧ s.w.sys.voted = true) :=
  ⟨⟨up .idle id, [some (0, 1), some (0, 1), none], (0, 1), by decide +kernel⟩,
    ⟨up .idle id, [some (0, 1), some (0, 2), none], by decide +kernel⟩,
    ⟨up .idle fun w => sets []
      { w with sup := { w.sup with cores := w.sup.cores.map fun c => { c with st := .out } } }, by decide +kernel⟩,
    ⟨up .idle fun w => sets []
      { w with sup := { w.sup with cores := w.sup.cores.modify 2 fun c => { c with st := .reloading } } }, 2, by
      decide +kernel⟩,
    ⟨up .idle fun w => sets []
      { w with sup := { w.sup with cores := w.sup.cores.modify 2 fun c => { c with st := .probation, agree := 1024 } } },
      2, by decide +kernel⟩,
    ⟨up .idle fun w => sets [] { w with sup := { w.sup with restart := true } }, by decide +kernel⟩,
    ⟨up .idle fun w => sets [] { w with sup := { w.sup with stopLow := false } }, by decide +kernel⟩⟩

/-- `Obligations.HostEnginesAndDeadlines`: the hypotheses of each clause are met. -/
theorem witness_HostEnginesAndDeadlines :
    (∃ s : State, hostServing s.w = true ∧ msClk (getN s.w Obj.SUP_HOST_WD_MS) ≤ 4 * (s.w.clk - s.w.sup.hostClk)) ∧
    (∃ s : State, ∃ c : Instr, hostServing s.w = true ∧ ((c = .hostWdSignal ∧ 4 * (s.w.clk - s.w.sup.hostClk) <
      msClk (getN s.w Obj.SUP_HOST_WD_MS)) ∨ (c = .hostWdTimeout ∧ s.w.sup.hostClk + msClk (getN s.w
      Obj.SUP_HOST_WD_MS) ≤ s.w.clk) ∨ c = .hostTrap) ∧ (recent600 s.w s.w.sup.hostFails).length + 1 < getN s.w
      Obj.SUP_HOST_RESTART_MAX) ∧
    (∃ s : State, ∃ c : Instr, hostServing s.w = true ∧ ((c = .hostWdSignal ∧ 4 * (s.w.clk - s.w.sup.hostClk) <
      msClk (getN s.w Obj.SUP_HOST_WD_MS)) ∨ (c = .hostWdTimeout ∧ s.w.sup.hostClk + msClk (getN s.w
      Obj.SUP_HOST_WD_MS) ≤ s.w.clk) ∨ c = .hostTrap) ∧ getN s.w Obj.SUP_HOST_RESTART_MAX ≤ (recent600 s.w
      s.w.sup.hostFails).length + 1) ∧
    (∃ s : State, getO s.w Obj.SUP_HOST_STATE = 1 ∧ (∀ b, b ∈ s.w.net.bulkIn → b.closing = none)) ∧
    (∃ s : State, ∃ e, e < 2 ∧ e < s.w.sup.engines.length ∧ powered s.ctl.mode = true ∧ (s.w.sup.engines.getD e
      Engine.reset).serving = true) ∧
    (∃ s : State, ∃ e, e < 2 ∧ e < s.w.sup.engines.length ∧ powered s.ctl.mode = true ∧ (s.w.sup.engines.getD e
      Engine.reset).serving = false ∧ (s.w.sup.engines.getD e Engine.reset).out = false) ∧
    (∃ s : State, powered s.ctl.mode = true) ∧
    (∃ s : State, powered s.ctl.mode = true) :=
  ⟨⟨up .idle id, by decide +kernel⟩,
    ⟨up .idle id, .hostTrap, by decide +kernel⟩,
    ⟨up .idle fun w => sets [(Obj.SUP_HOST_RESTART_MAX, 1)] w, .hostWdTimeout, by decide +kernel⟩,
    ⟨up .idle fun w => sets [(Obj.SUP_HOST_STATE, 1)] w, by decide +kernel⟩,
    ⟨up .idle id, 1, by decide +kernel⟩,
    ⟨up .idle fun w => sets []
      { w with sup := { w.sup with engines := w.sup.engines.modify 1 fun e => { e with serving := false } } }, 1, by
      decide +kernel⟩,
    ⟨up .idle id, by decide +kernel⟩,
    ⟨up .idle id, by decide +kernel⟩⟩

/-- `Obligations.SliceFailover`: the hypotheses of each clause are met. -/
theorem witness_SliceFailover :
    (∃ s : State, ∃ b : Nat, ∃ c : Instr, (b < 8 ∧ b < s.w.jq.bars.length ∧ inPrint s.ctl.mode = true ∧
      s.w.web.standstill = false ∧ (barAt s.w b).noSlice = false ∧ (barAt s.w b).halt = false ∧ spareOk s.w = true ∧
      (newestCkpt (barAt s.w b)).isSome = true) ∧ ((∃ tables, c = .sliceInternalFault b tables) ∨ (c = .sliceStall b ∧
      stalled s.w b = true))) ∧
    (∃ s : State, ∃ b : Nat, ∃ c : Instr, (b < 8 ∧ b < s.w.jq.bars.length ∧ inPrint s.ctl.mode = true ∧
      s.w.web.standstill = false ∧ (barAt s.w b).noSlice = false ∧ spareOk s.w = false) ∧ ((∃ tables, c =
      .sliceInternalFault b tables) ∨ (c = .sliceStall b ∧ stalled s.w b = true))) ∧
    (∃ s : State, ∃ b : Nat, b < 8 ∧ b < s.w.jq.bars.length ∧ inPrint s.ctl.mode = true ∧ s.w.web.standstill = false
      ∧ (barAt s.w b).halt = true) ∧
    (∃ s : State, ∃ slice, ∃ pass : Bool, slice < 9 ∧ (s.w.sup.retest.any fun e => e.1 == slice) = true ∧ pass =
      true ∧ s.w.sup.sliceFails.getD slice 0 < getN s.w Obj.SUP_SLICE_FAIL_MAX) ∧
    (∃ s : State, ∃ slice, ∃ pass : Bool, slice < 9 ∧ (s.w.sup.retest.any fun e => e.1 == slice) = true ∧ pass =
      false) ∧
    (∃ s : State, 0 < getN s.w Obj.SUP_SPARE_TEST_MIN ∧ bitOf (getN s.w Obj.SUP_CFG) 1 = false ∧ spareOk s.w = true
      ∧ s.w.sup.spareTest = none ∧ s.w.sup.spareClk + secClk (60 * getN s.w Obj.SUP_SPARE_TEST_MIN) ≤ s.w.clk) ∧
    (∃ s : State, s.w.sup.spareTest.isSome = true) ∧
    (∃ s : State, s.w.sup.spareTest.isSome = true) :=
  ⟨⟨up .printing fun w => sets []
      { w with jq := { w.jq with bars := w.jq.bars.modify 7 fun q => { q with ckpts := [some ckpt, none] } }, web := { w.web with standstill := false } },
      7, .sliceInternalFault 7 false, by decide +kernel, Or.inl ⟨false, rfl⟩⟩,
    ⟨up .printing fun w => sets [(Obj.JQ_SPARE, 255)]
      { w with jq := { w.jq with bars := w.jq.bars.modify 0 fun q => { q with halt := false } }, web := { w.web with standstill := false } },
      0, .sliceInternalFault 0 true, by decide +kernel, Or.inl ⟨true, rfl⟩⟩,
    ⟨up .printing fun w => sets []
      { w with jq := { w.jq with bars := w.jq.bars.modify 0 fun q => { q with halt := true } }, web := { w.web with standstill := false } },
      0, by decide +kernel⟩,
    ⟨up .idle fun w => sets [] { w with sup := { w.sup with retest := [(8, 0)] } }, 8, true, by decide +kernel⟩,
    ⟨up .idle fun w => sets [] { w with sup := { w.sup with retest := [(0, 0)] } }, 0, false, by decide +kernel⟩,
    ⟨up .idle fun w => sets [(Obj.SUP_SPARE_TEST_MIN, 1)] w, by decide +kernel⟩,
    ⟨up .idle fun w => sets [] { w with sup := { w.sup with spareTest := some 0 } }, by decide +kernel⟩,
    ⟨up .idle fun w => sets [] { w with sup := { w.sup with spareTest := some 0 } }, by decide +kernel⟩⟩

/-- `Obligations.ScanSlots`: the hypotheses of each clause are met. -/
theorem witness_ScanSlots :
    (∃ s : State, scanning s.ctl.mode s.w = true ∧ s.w.ins.taken = false ∧ getF s.w Obj.VOI_CFG 0 1 = 1) ∧
    (∃ s : State, scanning s.ctl.mode s.w = true ∧ s.w.ins.taken = true ∧ s.w.ins.slot ≤ 6 ∧ (s.w.ins.slot = 0 →
      s.w.ins.apply = true → getF s.w Obj.VOI_CFG 0 1 = 1)) ∧
    (∃ s : State, ∃ l, scanning s.ctl.mode s.w = true ∧ s.w.ins.taken = true ∧ s.w.ins.slot = 7 ∧
      s.w.ins.lines.getLast? = some l) ∧
    (∃ s : State, scanning s.ctl.mode s.w = true ∧ s.w.ins.taken = true ∧ s.w.ins.slot = 8) :=
  ⟨⟨up .idle fun w => sets [(Obj.INS_CFG, 1), (Obj.VOI_CFG, 1), (Obj.INS_WHITE_FLOOR, 0)] w, by decide +kernel⟩,
    ⟨up .idle fun w => sets [(Obj.INS_CFG, 1), (Obj.VOI_CFG, 1)]
      { w with ins := { w.ins with taken := true, slot := 6 } }, by decide +kernel⟩,
    ⟨up .idle fun w => sets [(Obj.INS_CFG, 1), (Obj.VOI_CFG, 1), (Obj.VOI_I_GLB_EFF, 4)]
      { w with ins := { w.ins with taken := true, slot := 7, lines := [spec] } }, spec, by decide +kernel⟩,
    ⟨up .idle fun w => sets [(Obj.INS_CFG, 1), (Obj.VOI_CFG, 1)]
      { w with ins := { w.ins with taken := true, slot := 8 } }, by decide +kernel⟩⟩

/-- `Obligations.VoileLoops`: the hypotheses of each clause are met. -/
theorem witness_VoileLoops :
    (∃ s : State, ∃ m, scanning s.ctl.mode s.w = true ∧ getN s.w Obj.VOI_HR_PERIOD ≤ s.w.voi.hrScans ∧ s.w.voi.vMin
      = some m ∧ bitOf (insN s.w Obj.VOI_CFG) 2 = true) ∧
    (∃ s : State, ∃ c, scanning s.ctl.mode s.w = true ∧ s.w.voi.belowClk = some c ∧ c + secClk 1 ≤ s.w.clk ∧ 64 ≤
      s.w.voi.sinceRise ∧ getO s.w Obj.VOI_I_GLB_EFF < insV s.w Obj.VOI_I_GLB) ∧
    (∃ s : State, ∃ k, ∃ c, k < 8 ∧ c < 32 ∧ 32 * k + c < s.w.voi.pairs.length ∧ pairInUse s.w k c = true ∧ (pairAt
      s.w (32 * k + c)).st ≠ 3 ∧ (pairAt s.w (32 * k + c)).measClk + msClk (getN s.w Obj.VOI_VERIFY_MS) ≤ s.w.clk) ∧
    (∃ s : State, ∃ k, ∃ c, k < 8 ∧ c < 32 ∧ 32 * k + c < s.w.voi.pairs.length ∧ pairInUse s.w k c = true ∧ (pairAt
      s.w (32 * k + c)).st = 3 ∧ bitOf (insN s.w Obj.VOI_CFG) 1 = false ∧ (pairAt s.w (32 * k + c)).toldClk + msClk
      (getN s.w Obj.VOI_UNVER_MS) ≤ s.w.clk) :=
  ⟨⟨up .idle fun w => sets [(Obj.INS_CFG, 1), (Obj.VOI_CFG, 1)]
      { w with voi := { w.voi with hrScans := 100000, vMin := some 1000 }, ins := { w.ins with set := [(Obj.VOI_CFG, 5)] } },
      1000, by decide +kernel⟩,
    ⟨up .idle fun w => sets [(Obj.INS_CFG, 1), (Obj.VOI_CFG, 1), (Obj.VOI_I_GLB_EFF, 4)]
      { w with voi := { w.voi with belowClk := some 0, sinceRise := 64 }, ins := { w.ins with set := [(Obj.VOI_I_GLB, 5)] } },
      0, by decide +kernel⟩,
    ⟨up .idle fun w => sets []
      { w with voi := { w.voi with pairs := w.voi.pairs.modify 255 fun p => { p with st := 0 } }, ins := { w.ins with set := pairSet } },
      7, 31, by decide +kernel⟩,
    ⟨up .idle fun w => sets [] { w with ins := { w.ins with set := pairSet } }, 0, 0, by decide +kernel⟩⟩

/-- `Obligations.CameraLinesAndTables`: the hypotheses of each clause are met. -/
theorem witness_CameraLinesAndTables :
    (∃ s : State, ∃ c : Nat, ∃ line, ∃ words : List Nat, ∃ trig, ∃ rest, c < 8 ∧ 16 + c < s.w.links.length ∧ (linkAt
      s.w (16 + c)).st = .up ∧ (linkAt s.w (16 + c)).trigs = trig :: rest ∧ trig.count = line ∧ (linkAt s.w (16 +
      c)).badFrame = false ∧ field (words.headD 0) 48 16 = getN s.w Obj.YQL_CPF_PIXELS ∧ field (words.headD 0) 40 8 =
      getN s.w Obj.YQL_CPF_BITS) ∧
    (∃ s : State, ∃ c : Nat, ∃ words : List Nat, ∃ crc : Nat, c < 8 ∧ 16 + c < s.w.links.length ∧ (linkAt s.w (16 +
      c)).st = .up ∧ crc ≠ frameCrc words) ∧
    (∃ s : State, ∃ c : Nat, ∃ trig, ∃ rest, c < 8 ∧ 16 + c < s.w.links.length ∧ (linkAt s.w (16 + c)).trigs = trig
      :: rest ∧ trig.due ≤ s.w.clk) ∧
    (∃ s : State, s.w.sys.darkDone = true ∧ getN s.w Obj.INS_DARK_N ≤ s.w.ins.darkLines) ∧
    (∃ s : State, s.w.sys.darkDone = false ∧ 64 ≤ s.w.ins.darkLines) ∧
    (∃ s : State, ∃ c, s.w.ins.cap = some c ∧ 1024 ≤ c.lines) ∧
    (∃ s : State, ∃ c, s.w.ins.cap = some c ∧ c.lines < 1024 ∧ c.clk + secClk 60 ≤ s.w.clk) :=
  ⟨⟨up .idle fun w => sets [] (lnk 23 (fun l => { l with st := .up, trigs := [trg] }) w), 7, 5, [2 ^ 48 * getN
      (base .idle).w Obj.YQL_CPF_PIXELS + 2 ^ 40 * getN (base .idle).w Obj.YQL_CPF_BITS], trg, [], by decide +kernel⟩,
    ⟨up .idle fun w => sets [] (lnk 16 (fun l => { l with st := .up, trigs := [trg] }) w), 0, [1], frameCrc [1] + 1,
      by decide +kernel⟩,
    ⟨up .idle fun w => sets [] (lnk 23 (fun l => { l with st := .up, trigs := [trg] }) w), 7, trg, [], by
      decide +kernel⟩,
    ⟨up .idle fun w => sets [(Obj.INS_DARK_N, 1)]
      { w with sys := { w.sys with darkDone := true }, ins := { w.ins with darkLines := 1, darks := [(0, [60])], cams := 1 } },
      by decide +kernel⟩,
    ⟨up .idle fun w => sets [(Obj.INS_WHITE_FLOOR, 0)] { w with ins := { w.ins with darkLines := 64 } }, by
      decide +kernel⟩,
    ⟨up .idle fun w => sets [] { w with ins := { w.ins with cap := some { clk := 0, lines := 1024, px := [] } } },
      { clk := 0, lines := 1024, px := [] }, by decide +kernel⟩,
    ⟨up .idle fun w => sets [] { w with ins := { w.ins with cap := some { clk := 0, lines := 1023, px := [] } } },
      { clk := 0, lines := 1023, px := [] }, by decide +kernel⟩⟩

/-- `Obligations.LoopRecordsAndUpdates`: the hypotheses of each clause are met. -/
theorem witness_LoopRecordsAndUpdates :
    (∃ s : State, ∃ r, ∃ rest, ∃ slot, (s.w.ins.closing = r :: rest ∧ s.w.clk ≤ r.closeClk + msClk 2 ∧
      ((s.w.mem.tallyWins.find? fun e => e.1 == r.start).bind (·.2)) = some slot ∧ (getN s.w Obj.CHL_STATE = 2 ∨ getN
      s.w Obj.CHL_STATE = 3) ∧ bitOf r.flags 0 = false) ∧ (∀ e, e ∈ s.w.mem.struck → e.area ≠ 3) ∧ (∀ c,
      s.w.loop.lastClose = some c → c + loopClocks ≤ r.closeClk)) ∧
    (∃ s : State, ∃ r, ∃ rest, (s.w.ins.closing = r :: rest ∧ s.w.clk ≤ r.closeClk + msClk 2 ∧
      ((s.w.mem.tallyWins.find? fun e => e.1 == r.start).bind (·.2)) = none) ∧ (∀ e, e ∈ s.w.mem.struck → e.area ≠ 3)) ∧
    (∃ s : State, powered s.ctl.mode = true ∧ s.ctl.mode ≠ .boot ∧ s.w.loop.flush = none) ∧
    (∃ s : State, powered s.ctl.mode = true ∧ s.ctl.mode ≠ .boot ∧ s.w.loop.flush.isSome = true) ∧
    (∃ s : State, ∃ c, ∃ img, s.w.loop.flush = some (c, img) ∧ s.w.loop.flushWait = false) ∧
    (∃ s : State, ∃ j : LoopJob, ∃ rest : List LoopJob, ∃ e, s.w.loop.jobs = j :: rest ∧ j.todo.length = 2 ∧ (∀ j' ∈
      rest, j'.todo.any id = true) ∧ e < 2 ∧ j.todo.getD e false = true ∧ engineServes s.w e = true ∧ s.w.clk ≤ j.clk
      + loopClocks) ∧
    (∃ s : State, ∃ j : LoopJob, ∃ rest : List LoopJob, s.w.loop.jobs = j :: rest ∧ j.todo.length = 2 ∧ (∀ j' ∈
      rest, j'.todo.any id = true) ∧ j.clk + loopClocks < s.w.clk ∧ j.todo.any id = true) :=
  ⟨⟨up .printing fun w => sets [(Obj.CHL_STATE, 3)]
      { w with ins := { w.ins with closing := [rec0] }, mem := { w.mem with tallyWins := [(0, some 0)] } }, rec0, [],
      0, by decide +kernel, (fun e h => by cases h), (fun c h => by cases h)⟩,
    ⟨up .printing fun w => sets [] { w with ins := { w.ins with closing := [rec0] } }, rec0, [], by decide +kernel,
      (fun e h => by cases h)⟩,
    ⟨up .idle id, by decide +kernel⟩,
    ⟨up .printing fun w => sets [] { w with loop := { w.loop with flush := some (0, []) } }, by decide +kernel⟩,
    ⟨up .printing fun w => sets [] { w with loop := { w.loop with flush := some (0, []) } }, 0, [], by
      decide +kernel⟩,
    ⟨up .printing fun w => sets [] { w with loop := { w.loop with jobs := [job0] } }, job0, [], 1, by
      decide +kernel⟩,
    ⟨up .printing fun w => sets [] { w with loop := { w.loop with jobs := [{ job0 with clk := 0 }] } },
      { job0 with clk := 0 }, [], by decide +kernel⟩⟩

/-- `Obligations.PtpReceived`: the hypotheses of each clause are met. -/
theorem witness_PtpReceived :
    (∃ s : State, ∃ m : PtpMsg, powered s.ctl.mode = true ∧ ptpActive s.w = true ∧ m.domain ≠ getN s.w
      Obj.TIM_DOMAIN) ∧
    (∃ s : State, ∃ m : PtpMsg, powered s.ctl.mode = true ∧ ptpActive s.w = true ∧ m.domain = getN s.w
      Obj.TIM_DOMAIN ∧ servoHasInput s.w = true ∧ m.sender = s.w.tim.parent ∧ getF s.w Obj.TIM_CFG 0 2 = 1 ∧ m.twoStep
      = true) ∧
    (∃ s : State, ∃ m : PtpMsg, powered s.ctl.mode = true ∧ ptpActive s.w = true ∧ m.domain = getN s.w
      Obj.TIM_DOMAIN ∧ servoHasInput s.w = true ∧ m.sender = s.w.tim.parent ∧ getF s.w Obj.TIM_CFG 0 2 = 1 ∧ m.twoStep
      = false) ∧
    (∃ s : State, ∃ m : PtpMsg, ∃ t2, ∃ c, ∃ l, powered s.ctl.mode = true ∧ ptpActive s.w = true ∧ m.domain = getN
      s.w Obj.TIM_DOMAIN ∧ servoHasInput s.w = true ∧ m.sender = s.w.tim.parent ∧ s.w.tim.twoStep = some (m.seq, t2,
      c, l)) ∧
    (∃ s : State, ∃ m : PtpMsg, powered s.ctl.mode = true ∧ ptpActive s.w = true ∧ m.domain = getN s.w
      Obj.TIM_DOMAIN ∧ getN s.w Obj.TIM_PORT_STATE = 6 ∧ getF s.w Obj.TIM_CFG 3 1 = 0) ∧
    (∃ s : State, ∃ m : PtpMsg, powered s.ctl.mode = true ∧ ptpActive s.w = true ∧ m.domain = getN s.w
      Obj.TIM_DOMAIN ∧ getF s.w Obj.TIM_CFG 3 1 = 1) ∧
    (∃ s : State, ∃ m : PtpMsg, ∃ t3, ∃ d, powered s.ctl.mode = true ∧ ptpActive s.w = true ∧ m.domain = getN s.w
      Obj.TIM_DOMAIN ∧ s.w.tim.pendingDelay = some (m.seq, t3) ∧ s.w.tim.t2t1 = some d ∧ getF s.w Obj.TIM_CFG 3 1 = 0
      ∧ m.sender = s.w.tim.parent) ∧
    (∃ s : State, ∃ m : PtpMsg, ∃ t1, powered s.ctl.mode = true ∧ ptpActive s.w = true ∧ m.domain = getN s.w
      Obj.TIM_DOMAIN ∧ s.w.tim.pendingDelay = some (m.seq, t1) ∧ getF s.w Obj.TIM_CFG 3 1 = 1 ∧ m.twoStep = false ∧
      s.w.tim.pathValid = false) ∧
    (∃ s : State, ∃ m : PtpMsg, ∃ d, ∃ t2, powered s.ctl.mode = true ∧ ptpActive s.w = true ∧ m.domain = getN s.w
      Obj.TIM_DOMAIN ∧ s.w.tim.pdTwoStep = some (m.seq, d, t2)) :=
  ⟨⟨up .idle fun w => sets [(Obj.TIM_PORT_STATE, 9)] w, { msg with domain := 1 }, by decide +kernel⟩,
    ⟨up .idle fun w => sets [(Obj.TIM_CFG, 1), (Obj.TIM_PORT_STATE, 9)]
      { w with tim := { w.tim with parent := 9 } }, { msg with twoStep := true }, by decide +kernel⟩,
    ⟨up .idle fun w => sets [(Obj.TIM_CFG, 1), (Obj.TIM_PORT_STATE, 9)]
      { w with tim := { w.tim with parent := 9 } }, msg, by decide +kernel⟩,
    ⟨up .idle fun w => sets [(Obj.TIM_CFG, 1), (Obj.TIM_PORT_STATE, 9)]
      { w with tim := { w.tim with parent := 9, twoStep := some (4, fracI 7, fracI 0, 0) } }, msg, fracI 7, fracI 0,
      (0 : Int), by decide +kernel⟩,
    ⟨up .idle fun w => sets [(Obj.TIM_CFG, 1), (Obj.TIM_PORT_STATE, 6)] w, msg, by decide +kernel⟩,
    ⟨up .idle fun w => sets [(Obj.TIM_CFG, 9), (Obj.TIM_PORT_STATE, 6)] w, msg, by decide +kernel⟩,
    ⟨up .idle fun w => sets [(Obj.TIM_CFG, 1), (Obj.TIM_PORT_STATE, 9)]
      { w with tim := { w.tim with parent := 9, pendingDelay := some (4, fracI 7), t2t1 := some (fracI 3) } }, msg,
      fracI 7, fracI 3, by decide +kernel⟩,
    ⟨up .idle fun w => sets [(Obj.TIM_CFG, 9), (Obj.TIM_PORT_STATE, 9)]
      { w with tim := { w.tim with pendingDelay := some (4, fracI 7) } }, msg, fracI 7, by decide +kernel⟩,
    ⟨up .idle fun w => sets [(Obj.TIM_CFG, 9), (Obj.TIM_PORT_STATE, 9)]
      { w with tim := { w.tim with pdTwoStep := some (4, fracI 7, fracI 9) } }, msg, fracI 7, fracI 9, by
      decide +kernel⟩⟩

/-- `Obligations.PtpMasterAndSends`: the hypotheses of each clause are met. -/
theorem witness_PtpMasterAndSends :
    (∃ s : State, ∃ a, ∃ f, powered s.ctl.mode = true ∧ ptpActive s.w = true ∧ a.domain = getN s.w Obj.TIM_DOMAIN ∧
      bestOf (qualified (noteMaster a s.w)) = some f ∧ ((getN s.w Obj.TIM_PORT_STATE = 8 ∨ getN s.w Obj.TIM_PORT_STATE
      = 9 → s.w.tim.parent ≠ f.sender))) ∧
    (∃ s : State, ∃ a, powered s.ctl.mode = true ∧ ptpActive s.w = true ∧ a.domain = getN s.w Obj.TIM_DOMAIN ∧ getN
      s.w Obj.TIM_PORT_STATE ≠ 8 ∧ getN s.w Obj.TIM_PORT_STATE ≠ 9 ∧ s.w.tim.masters = [] ∧ 0 < annTimeout s.w ∧ (getF
      s.w Obj.TIM_CFG 2 1 = 1 ∨ lexLt (annPrio a) (ownPrio s.w) = true)) ∧
    (∃ s : State, ∃ c, powered s.ctl.mode = true ∧ hostServing s.w = true ∧ bestOf (qualified s.w) = none ∧
      s.w.tim.annClk = some c ∧ c + annTimeout s.w ≤ s.w.clk ∧ (getN s.w Obj.TIM_PORT_STATE = 4 ∨ getN s.w
      Obj.TIM_PORT_STATE = 7 ∨ getN s.w Obj.TIM_PORT_STATE = 8 ∨ getN s.w Obj.TIM_PORT_STATE = 9)) ∧
    (∃ s : State, powered s.ctl.mode = true ∧ ptpActive s.w = true) ∧
    (∃ s : State, powered s.ctl.mode = true ∧ hostServing s.w = true ∧ getN s.w Obj.TIM_PORT_STATE = 6) ∧
    (∃ s : State, powered s.ctl.mode = true ∧ hostServing s.w = true ∧ getN s.w Obj.TIM_PORT_STATE = 6) ∧
    (∃ s : State, powered s.ctl.mode = true ∧ hostServing s.w = true ∧ servoHasInput s.w = true ∧ getF s.w
      Obj.TIM_CFG 3 1 = 0) ∧
    (∃ s : State, powered s.ctl.mode = true ∧ hostServing s.w = true ∧ ptpActive s.w = true ∧ getF s.w Obj.TIM_CFG 3
      1 = 1) :=
  ⟨⟨up .idle fun w => sets [(Obj.TIM_CFG, 1), (Obj.TIM_PORT_STATE, 9)]
      { w with tim := { w.tim with parent := 9 } }, ann,
      { sender := 5, prio := annPrio ann, gm := 5, clk := 10000000000000 }, by decide +kernel⟩,
    ⟨up .idle fun w => sets [(Obj.TIM_CFG, 1), (Obj.TIM_PORT_STATE, 6)] w, ann, by decide +kernel⟩,
    ⟨up .idle fun w => sets [(Obj.TIM_CFG, 1), (Obj.TIM_PORT_STATE, 9)]
      { w with tim := { w.tim with annClk := some 0 } }, 0, by decide +kernel⟩,
    ⟨up .idle fun w => sets [(Obj.TIM_PORT_STATE, 9)] w, by decide +kernel⟩,
    ⟨up .idle fun w => sets [(Obj.TIM_CFG, 1), (Obj.TIM_PORT_STATE, 6)] w, by decide +kernel⟩,
    ⟨up .idle fun w => sets [(Obj.TIM_CFG, 1), (Obj.TIM_PORT_STATE, 6)] w, by decide +kernel⟩,
    ⟨up .idle fun w => sets [(Obj.TIM_CFG, 1), (Obj.TIM_PORT_STATE, 9)] w, by decide +kernel⟩,
    ⟨up .idle fun w => sets [(Obj.TIM_CFG, 9), (Obj.TIM_PORT_STATE, 9)] w, by decide +kernel⟩⟩

/-- `Obligations.PowerUpAndBoot`: the hypotheses of each clause are met. -/
theorem witness_PowerUpAndBoot :
    (∃ s : State, ∃ mv : Nat, s.ctl.mode = .off ∧ s.w.thm.saving = false ∧ storedPf s.w + 500 < mv) ∧
    (∃ s : State, ∃ mv : Nat, s.ctl.mode = .off ∧ s.w.thm.saving = false ∧ 6500 ≤ mv ∧ (mv : Int) < storedPf s.w) ∧
    (∃ s : State, s.ctl.mode = .boot ∧ s.w.sys.voted = false ∧ s.w.sup.stopLow = false) ∧
    (∃ s : State, s.ctl.mode = .boot ∧ s.w.sys.voted = true ∧ s.w.sys.refclk = true ∧ s.w.sys.hostUp = false ∧
      s.w.sys.bootFail = false) ∧
    (∃ s : State, s.ctl.mode = .boot ∧ s.w.sys.voted = true ∧ s.w.sys.refclk = true ∧ s.w.sys.hostUp = false ∧
      s.w.sys.bootFail = false) ∧
    (∃ s : State, s.ctl.mode = .boot ∧ s.w.sys.hostUp = true) ∧
    (∃ s : State, s.ctl.mode = .boot ∧ s.w.sys.voted = true ∧ s.w.sys.hostUp = true ∧ s.w.sys.dramDone = true) :=
  ⟨⟨State.reset, 24000, by decide +kernel⟩,
    ⟨{ State.reset with w := { State.reset.w with dict := { State.reset.w.dict with fram := [(Obj.THM_PF_MV, 20000)] } } },
      6500, by decide +kernel⟩,
    ⟨up .boot fun w => sets [] { w with sys := { w.sys with voted := false, hostUp := false } }, by decide +kernel⟩,
    ⟨up .boot fun w => sets [] { w with sys := { w.sys with voted := true, hostUp := false } }, by decide +kernel⟩,
    ⟨up .boot fun w => sets [] { w with sys := { w.sys with voted := true, hostUp := false } }, by decide +kernel⟩,
    ⟨base .boot, by decide +kernel⟩,
    ⟨base .boot, by decide +kernel⟩⟩

/-- `Obligations.StartupPhases`: the hypotheses of each clause are met. -/
theorem witness_StartupPhases :
    (∃ s : State, s.ctl.mode = .selftest) ∧
    (∃ s : State, s.ctl.mode = .calibrate ∧ s.w.thm.vcoreClk + secClk 1 ≤ s.w.clk) ∧
    (∃ s : State, s.ctl.mode = .discover ∧ s.w.sys.enterClk + secClk 2 ≤ s.w.clk) :=
  ⟨⟨base .selftest, by decide +kernel⟩,
    ⟨base .calibrate, by decide +kernel⟩,
    ⟨base .discover, by decide +kernel⟩⟩

/-- `Obligations.PowerFailureAndRails`: the hypotheses of each clause are met. -/
theorem witness_PowerFailureAndRails :
    (∃ s : State, ∃ mv : Nat, s.w.thm.armed = true ∧ powered s.ctl.mode = true ∧ (mv : Int) < getO s.w
      Obj.THM_PF_ACT) ∧
    (∃ s : State, (s.w.thm.saving = true ∧ s.ctl.mode = .off ∧ (s.w.thm.journal.head?.any fun r => r.kind == 4) =
      false) ∧ Quiet s) ∧
    (∃ s : State, s.ctl.mode = .off ∧ s.w.thm.saveMode = true) ∧
    (∃ s : State, ∃ r, ∃ high : Bool, r < 14 ∧ r < s.w.thm.rails.length ∧ powered s.ctl.mode = true ∧
      s.w.thm.rails.getD r 0 ≠ railCode 1 high) ∧
    (∃ s : State, ∃ r, r < 14 ∧ powered s.ctl.mode = true ∧ s.w.thm.armed = true ∧ s.w.thm.rails.getD r 0 ≠ 3) ∧
    (∃ s : State, s.w.sys.refclk = true ∧ powered s.ctl.mode = true ∧ s.w.thm.armed = true ∧ s.w.sys.railHold =
      false) ∧
    (∃ s : State, s.w.thm.armed = false) ∧
    (∃ s : State, powered s.ctl.mode = true) :=
  ⟨⟨up .printing fun w => sets [] { w with thm := { w.thm with armed := true } }, 5000, by decide +kernel⟩,
    ⟨up .off fun w => sets [] { w with thm := { w.thm with saving := true, journal := [jrn] } }, by decide +kernel,
      rfl⟩,
    ⟨up .off fun w => sets [] { w with thm := { w.thm with saveMode := true } }, by decide +kernel⟩,
    ⟨base .idle, 13, true, by decide +kernel⟩,
    ⟨up .idle fun w => sets [] { w with thm := { w.thm with armed := true } }, 0, by decide +kernel⟩,
    ⟨up .idle fun w => sets [] { w with thm := { w.thm with armed := true } }, by decide +kernel⟩,
    ⟨base .idle, by decide +kernel⟩,
    ⟨base .idle, by decide +kernel⟩⟩

/-- `Obligations.SystemCommands`: the hypotheses of each clause are met. -/
theorem witness_SystemCommands :
    (∃ e : WriteEnv, ∃ s : State, ∃ u : State, (u.ctl.mode = .idle ∧ armBlock u.w = 0 ∧ u.w.links.any
      (·.arrival.isSome) = false) ∧ Passes e Obj.SYS_CMD 1 s u) ∧
    (∃ e : WriteEnv, ∃ s : State, ∃ u : State, (u.ctl.mode = .armed ∧ u.w.links.any (·.arrival.isSome) = false) ∧
      Passes e Obj.SYS_CMD 2 s u) ∧
    (∃ e : WriteEnv, ∃ s : State, ∃ u : State, (u.ctl.mode = .printing ∧ u.w.job.frames.any (fun f => !f.done) =
      true) ∧ Passes e Obj.SYS_CMD 2 s u) ∧
    (∃ e : WriteEnv, ∃ s : State, ∃ u : State, (u.ctl.mode = .paused) ∧ Passes e Obj.SYS_CMD 3 s u) ∧
    (∃ e : WriteEnv, ∃ s : State, ∃ u : State, ((inPrint u.ctl.mode = true ∨ u.ctl.mode = .service)) ∧ Passes e
      Obj.SYS_CMD 4 s u) :=
  ⟨⟨host, up .idle (sets ([(Obj.LCK_ALIGN_OVERRIDE, 1), (Obj.SUP_STOP_SRC, 0)] ++ (List.range 16).map fun p =>
      (Obj.YQL_PORT_CFG p, 0))), after host Obj.SYS_CMD 1 (up .idle (sets ([(Obj.LCK_ALIGN_OVERRIDE, 1),
      (Obj.SUP_STOP_SRC, 0)] ++ (List.range 16).map fun p => (Obj.YQL_PORT_CFG p, 0)))), by decide +kernel, passes_of
      (by decide +kernel)⟩,
    ⟨host, base .armed, after host Obj.SYS_CMD 2 (base .armed), by decide +kernel, passes_of (by decide +kernel)⟩,
    ⟨host, up .printing fun w =>
      { w with job := { w.job with frames := [{ frm with done := false, wEnd := 4096 }] } }, after host Obj.SYS_CMD 2
      (up .printing fun w => { w with job := { w.job with frames := [{ frm with done := false, wEnd := 4096 }] } }),
      by decide +kernel, passes_of (by decide +kernel)⟩,
    ⟨host, base .paused, after host Obj.SYS_CMD 3 (base .paused), by decide +kernel, passes_of (by decide +kernel)⟩,
    ⟨host, base .printing, after host Obj.SYS_CMD 4 (base .printing), by decide +kernel, passes_of (by
      decide +kernel)⟩⟩

/-- `Obligations.ReleaseServiceAndRefusals`: the hypotheses of each clause are met. -/
theorem witness_ReleaseServiceAndRefusals :
    (∃ e : WriteEnv, ∃ s : State, ∃ u : State, (releaseOk u.ctl.mode u.w = true) ∧ Passes e Obj.SYS_CMD 5 s u) ∧
    (∃ e : WriteEnv, ∃ s : State, ∃ u : State, (u.ctl.mode = .idle) ∧ Passes e Obj.SYS_SERVICE 1 s u) ∧
    (∃ e : WriteEnv, ∃ s : State, ∃ u : State, (u.ctl.mode = .service) ∧ Passes e Obj.SYS_SERVICE 0 s u) ∧
    (∃ e : WriteEnv, ∃ s : State, ∃ u : State, (u.ctl.mode = .idle ∧ armBlock u.w ≠ 0) ∧ Passes e Obj.SYS_CMD 1 s u
      ∧ Quiet u) ∧
    (∃ e : WriteEnv, ∃ s : State, ∃ u : State, (u.ctl.mode ≠ .idle) ∧ Passes e Obj.SYS_CMD 1 s u) ∧
    (∃ e : WriteEnv, ∃ s : State, ∃ u : State, (releaseOk u.ctl.mode u.w = false) ∧ Passes e Obj.SYS_CMD 5 s u) ∧
    (∃ e : WriteEnv, ∃ s : State, ∃ u : State, (u.ctl.mode ≠ .idle) ∧ Passes e Obj.SYS_SERVICE 1 s u) :=
  ⟨⟨host, up .safe fun w => sets []
      { w with sup := { w.sup with cores := w.sup.cores.map fun c => { c with agree := 1024 }, latch := true } },
      after host Obj.SYS_CMD 5 (up .safe fun w => sets []
      { w with sup := { w.sup with cores := w.sup.cores.map fun c => { c with agree := 1024 }, latch := true } }), by
      decide +kernel, passes_of (by decide +kernel)⟩,
    ⟨signed Obj.SYS_SERVICE (valueBytes Obj.SYS_SERVICE 1), base .idle, counted (base .idle), by decide +kernel,
      passes_signed (by decide +kernel)⟩,
    ⟨signed Obj.SYS_SERVICE (valueBytes Obj.SYS_SERVICE 0), base .service, counted (base .service), by
      decide +kernel, passes_signed (by decide +kernel)⟩,
    ⟨host, base .idle, after host Obj.SYS_CMD 1 (base .idle), by decide +kernel, passes_of (by decide +kernel), rfl⟩,
    ⟨host, base .paused, after host Obj.SYS_CMD 1 (base .paused), by decide +kernel, passes_of (by decide +kernel)⟩,
    ⟨host, base .safe, after host Obj.SYS_CMD 5 (base .safe), by decide +kernel, passes_of (by decide +kernel)⟩,
    ⟨signed Obj.SYS_SERVICE (valueBytes Obj.SYS_SERVICE 1), base .armed, counted (base .armed), by decide +kernel,
      passes_signed (by decide +kernel)⟩⟩

/-- `Obligations.KeysAndBlocks`: the hypotheses of each clause are met. -/
theorem witness_KeysAndBlocks :
    (∃ e : WriteEnv, ∃ s : State, ∃ u : State, ∃ bytes : List Nat, (keyAllowed u bytes = true) ∧ passesTo e
      Obj.SEC_KEY_PROGRAM 0x0F bytes s = some u) ∧
    (∃ e : WriteEnv, ∃ s : State, ∃ u : State, ∃ slot : Nat, (slot < 4 ∧ revokeAllowed u slot = true) ∧ Passes e
      Obj.SEC_KEY_REVOKE slot s u) ∧
    (∃ s : State, ∃ n : Nat, s.ctl.sec.blockEnd = some n ∧ n ≤ s.w.clk) :=
  ⟨⟨signed Obj.SEC_KEY_PROGRAM ([2, 0, 0, 0] ++ List.range 16), base .service, counted (base .service), [2, 0, 0,
      0] ++ List.range 16, by decide +kernel, passes_signed (by decide +kernel)⟩,
    ⟨signed Obj.SEC_KEY_REVOKE (valueBytes Obj.SEC_KEY_REVOKE 1), base .idle, counted (base .idle), 1, by
      decide +kernel, passes_signed (by decide +kernel)⟩,
    ⟨{ base .idle with ctl := { (base .idle).ctl with sec := { (base .idle).ctl.sec with blockEnd := some 10000000000000 } } },
      10000000000000, by decide +kernel⟩⟩

/-- `Obligations.AuthenticationChecks`: the hypotheses of each clause are met. -/
theorem witness_AuthenticationChecks :
    (∃ e : WriteEnv, ∃ t : Trailer, ((3 < t.slot ∨ t.pad ≠ 0)) ∧ e.auth = some t) ∧
    (∃ e : WriteEnv, ∃ s : State, ∃ t : Trailer, ∃ b, (t.slot ≤ 3 ∧ t.pad = 0 ∧ s.ctl.sec.blockEnd = some b ∧
      s.w.clk < b) ∧ e.auth = some t) ∧
    (∃ e : WriteEnv, ∃ s : State, ∃ t : Trailer, (t.slot ≤ 3 ∧ t.pad = 0 ∧ s.ctl.sec.blockEnd = none ∧ isProgrammed
      (s.ctl.sec.slots.getD t.slot .empty) = false) ∧ e.auth = some t) ∧
    (∃ e : WriteEnv, ∃ s : State, ∃ t : Trailer, (t.slot ≤ 3 ∧ t.pad = 0 ∧ s.ctl.sec.blockEnd = none ∧ isProgrammed
      (s.ctl.sec.slots.getD t.slot .empty) = false) ∧ e.auth = some t) ∧
    (∃ ix : Nat, ∃ sub : Nat, ∃ data : List Nat, ∃ e : WriteEnv, ∃ s : State, ∃ t : Trailer, ∃ key, (t.slot ≤ 3 ∧
      t.pad = 0 ∧ s.ctl.sec.blockEnd = none ∧ s.ctl.sec.slots.getD t.slot .empty = .programmed key) ∧ e.auth = some t
      ∧ t.tag ≠ authTag key ix sub t.counter data) ∧
    (∃ ix : Nat, ∃ sub : Nat, ∃ data : List Nat, ∃ e : WriteEnv, ∃ s : State, ∃ t : Trailer, ∃ key, (t.slot ≤ 3 ∧
      t.pad = 0 ∧ s.ctl.sec.blockEnd = none ∧ s.ctl.sec.slots.getD t.slot .empty = .programmed key ∧ t.counter ≤
      s.ctl.sec.ctr.getD t.slot 0) ∧ e.auth = some t ∧ t.tag = authTag key ix sub t.counter data) ∧
    (∃ ix : Nat, ∃ sub : Nat, ∃ data : List Nat, ∃ e : WriteEnv, ∃ s : State, ∃ t : Trailer, ∃ key, (t.slot ≤ 3 ∧
      t.pad = 0 ∧ s.ctl.sec.blockEnd = none ∧ s.ctl.sec.slots.getD t.slot .empty = .programmed key ∧
      s.ctl.sec.ctr.getD t.slot 0 < t.counter) ∧ e.auth = some t ∧ t.tag = authTag key ix sub t.counter data) ∧
    (∃ s : State, ∃ ix : Nat, ∃ p : Path, getO s.w Obj.SEC_CFG = 1 ∧ (p ≠ .can ∨ ix < 0x1000 ∨ 0x1FFF < ix)) ∧
    (∃ s : State, ∃ ix : Nat, ∃ p : Path, getO s.w Obj.SEC_CFG = 1 ∧ p = .can ∧ 0x1000 ≤ ix ∧ ix ≤ 0x1FFF) :=
  ⟨⟨{ path := .host, auth := some ({ slot := 4, pad := 0, counter := 1, tag := [] }) },
      { slot := 4, pad := 0, counter := 1, tag := [] }, by decide +kernel, rfl⟩,
    ⟨{ path := .host, auth := some ({ slot := 3, pad := 0, counter := 1, tag := [] }) },
      { base .idle with ctl := { (base .idle).ctl with sec := { (base .idle).ctl.sec with blockEnd := some 10000000000001 } } },
      { slot := 3, pad := 0, counter := 1, tag := [] }, 10000000000001, by decide +kernel, rfl⟩,
    ⟨{ path := .host, auth := some ({ slot := 2, pad := 0, counter := 1, tag := [] }) }, base .idle,
      { slot := 2, pad := 0, counter := 1, tag := [] }, by decide +kernel, rfl⟩,
    ⟨{ path := .host, auth := some ({ slot := 3, pad := 0, counter := 1, tag := [] }) },
      { base .idle with ctl := { (base .idle).ctl with sec := { (base .idle).ctl.sec with fails := List.replicate 7 10000000000001 } } },
      { slot := 3, pad := 0, counter := 1, tag := [] }, by decide +kernel, rfl⟩,
    ⟨0x2000, 0, [],
      { path := .host, auth := some ({ slot := 1, pad := 0, counter := 1, tag := 0 :: authTag (List.range 16) 0x2000 0 1 [] }) },
      base .idle, { slot := 1, pad := 0, counter := 1, tag := 0 :: authTag (List.range 16) 0x2000 0 1 [] }, List.range
      16, by decide +kernel, rfl, List.cons_ne_self _ _⟩,
    ⟨0x2000, 0, [],
      { path := .host, auth := some ({ slot := 1, pad := 0, counter := 0, tag := authTag (List.range 16) 0x2000 0 0 [] }) },
      base .idle, { slot := 1, pad := 0, counter := 0, tag := authTag (List.range 16) 0x2000 0 0 [] }, List.range 16,
      by decide +kernel, rfl, rfl⟩,
    ⟨0x2000, 0, [],
      { path := .host, auth := some ({ slot := 0, pad := 0, counter := 1, tag := authTag (List.range 16) 0x2000 0 1 [] }) },
      base .idle, { slot := 0, pad := 0, counter := 1, tag := authTag (List.range 16) 0x2000 0 1 [] }, List.range 16,
      by decide +kernel, rfl, rfl⟩,
    ⟨up .idle (sets [(Obj.SEC_CFG, 1)]), 0x2000, .can, by decide +kernel⟩,
    ⟨up .idle (sets [(Obj.SEC_CFG, 1)]), 0x1FFF, .can, by decide +kernel⟩⟩

/-- `Obligations.PlatformAndShadowWrites`: the hypotheses of each clause are met. -/
theorem witness_PlatformAndShadowWrites :
    (∃ e : WriteEnv, ∃ s : State, ∃ u : State, ∃ v : Int, (unchangedBy Obj.SYS_DEBUG_EN v (pathSource e.path) u =
      true) ∧ Passes e Obj.SYS_DEBUG_EN v s u) ∧
    (∃ e : WriteEnv, ∃ s : State, ∃ u : State, ∃ v : Int, (unchangedBy Obj.SYS_BGEN_PIN v (pathSource e.path) u =
      true) ∧ Passes e Obj.SYS_BGEN_PIN v s u) ∧
    (∃ e : WriteEnv, ∃ s : State, ∃ u : State, ∃ k : Nat, ∃ v : Int, (unchangedBy k v (pathSource e.path) u = true)
      ∧ Passes e k v s u ∧ (∀ r n o, objRow k = some (r, n, o) → r.c = true)) :=
  ⟨⟨signed Obj.SYS_DEBUG_EN (valueBytes Obj.SYS_DEBUG_EN 1), base .service, counted (base .service), 1, by
      decide +kernel, passes_signed (by decide +kernel)⟩,
    ⟨signed Obj.SYS_BGEN_PIN (valueBytes Obj.SYS_BGEN_PIN 0), base .idle, counted (base .idle), 0, by
      decide +kernel, passes_signed (by decide +kernel)⟩,
    ⟨host, base .idle, after host (Obj.WEB_ENC_LPC 3) 70 (base .idle), Obj.WEB_ENC_LPC 3, 70, by decide +kernel,
      passes_of (by decide +kernel), (fun r n o h => by cases h; rfl)⟩⟩

/-- `Obligations.TimeAndPositionWrites`: the hypotheses of each clause are met. -/
theorem witness_TimeAndPositionWrites :
    (∃ e : WriteEnv, ∃ s : State, ∃ u : State, ∃ v : Nat, (unchangedBy Obj.TIM_IFACE v (pathSource e.path) u = true)
      ∧ Passes e Obj.TIM_IFACE v s u) ∧
    (∃ e : WriteEnv, ∃ s : State, ∃ u : State, ∃ v : Nat, (unchangedBy Obj.TIM_DOMAIN v (pathSource e.path) u =
      true) ∧ Passes e Obj.TIM_DOMAIN v s u) ∧
    (∃ e : WriteEnv, ∃ s : State, ∃ u : State, ∃ v : Nat, (unchangedBy Obj.TIM_CFG v (pathSource e.path) u = true) ∧
      Passes e Obj.TIM_CFG v s u) ∧
    (∃ e : WriteEnv, ∃ s : State, ∃ u : State, ∃ d : Int, (unchangedBy Obj.TIM_STEP_SET d (pathSource e.path) u =
      true) ∧ Passes e Obj.TIM_STEP_SET d s u) ∧
    (∃ e : WriteEnv, ∃ s : State, ∃ u : State, ∃ v : Int, (unchangedBy Obj.WEB_POS_SET v (pathSource e.path) u =
      true) ∧ Passes e Obj.WEB_POS_SET v s u) ∧
    (∃ e : WriteEnv, ∃ s : State, ∃ u : State, ∃ n : Nat, ∃ part : Nat, ∃ v : Int, (n < 8 ∧ part < 3 ∧ unchangedBy
      (winKey n part) v (pathSource e.path) u = true ∧ winOpen u.w n = true ∧ n < u.w.web.prb.length ∧ part < (prbAt
      u.w n).held.length) ∧ Passes e (winKey n part) v s u) ∧
    (∃ e : WriteEnv, ∃ s : State, ∃ u : State, ∃ n : Nat, ∃ part : Nat, ∃ v : Int, (n < 8 ∧ part < 3 ∧ unchangedBy
      (winKey n part) v (pathSource e.path) u = true ∧ winOpen u.w n = false ∧ part = 0) ∧ Passes e (winKey n part) v
      s u) ∧
    (∃ e : WriteEnv, ∃ s : State, ∃ u : State, ∃ i, (getN u.w Obj.LCK_ALIGN_SERIAL ≠ 0 ∧ tablePlace (getN u.w
      Obj.LCK_ALIGN_SERIAL) (attachedSerials u.w) (u.w.lck.align.map fun e => (e.1, e.2.serial, e.2.date)) = some i) ∧
      Passes e Obj.LCK_ALIGN_STORE 1 s u) :=
  ⟨⟨host, base .idle, after host Obj.TIM_IFACE 2 (base .idle), 2, by decide +kernel, passes_of (by decide +kernel)⟩,
    ⟨host, base .idle, after host Obj.TIM_DOMAIN 127 (base .idle), 127, by decide +kernel, passes_of (by
      decide +kernel)⟩,
    ⟨host, up .idle fun w => sets [(Obj.TIM_CFG, 1)] w, after host Obj.TIM_CFG 0 (up .idle fun w => sets
      [(Obj.TIM_CFG, 1)] w), 0, by decide +kernel, passes_of (by decide +kernel)⟩,
    ⟨host, up .idle fun w => sets [(Obj.TIM_CFG, 2)] w, after host Obj.TIM_STEP_SET (-5) (up .idle fun w => sets
      [(Obj.TIM_CFG, 2)] w), -5, by decide +kernel, passes_of (by decide +kernel)⟩,
    ⟨host, base .idle, after host Obj.WEB_POS_SET (-5) (base .idle), -5, by decide +kernel, passes_of (by
      decide +kernel)⟩,
    ⟨host, up .idle fun w => sets [(Obj.WEB_PRB_CFG 7, 17), (winKey 7 0, -5), (winKey 7 1, 5)]
      { w with web := { w.web with prb := w.web.prb.modify 7 fun p => { p with armed := true } } }, after host (winKey
      7 2) 9 (up .idle fun w => sets [(Obj.WEB_PRB_CFG 7, 17), (winKey 7 0, -5), (winKey 7 1, 5)]
      { w with web := { w.web with prb := w.web.prb.modify 7 fun p => { p with armed := true } } }), 7, 2, 9, by
      decide +kernel, passes_of (by decide +kernel)⟩,
    ⟨host, base .idle, after host (winKey 0 0) 9 (base .idle), 0, 0, 9, by decide +kernel, passes_of (by
      decide +kernel)⟩,
    ⟨host, up .idle fun w => sets [(Obj.LCK_ALIGN_SERIAL, 77)] w, after host Obj.LCK_ALIGN_STORE 1 (up .idle fun w
      => sets [(Obj.LCK_ALIGN_SERIAL, 77)] w), 0, by decide +kernel, passes_of (by decide +kernel)⟩⟩

/-- `Obligations.MemoryWrites`: the hypotheses of each clause are met. -/
theorem witness_MemoryWrites :
    (∃ e : WriteEnv, ∃ s : State, ∃ u : State, (inPrint u.ctl.mode = true) ∧ Passes e Obj.JOB_COMMIT 1 s u) ∧
    (∃ e : WriteEnv, ∃ s : State, ∃ u : State, ((u.ctl.mode = .idle ∨ u.ctl.mode = .service)) ∧ Passes e
      Obj.MEM_PLAN_APPLY 1 s u) ∧
    (∃ e : WriteEnv, ∃ s : State, ∃ u : State, ∃ id : Nat, (1 ≤ id ∧ id ≤ 4095 ∧ imageInUse u.w id = false) ∧ Passes
      e Obj.MEM_LS_DELETE id s u) ∧
    (∃ e : WriteEnv, ∃ s : State, ∃ u : State, Passes e Obj.MEM_LS_CLEAR 1 s u) ∧
    (∃ e : WriteEnv, ∃ s : State, ∃ u : State, ∃ v : Nat, (u.ctl.mode = .service ∧ unchangedBy Obj.MEM_ECC_INJECT v
      (pathSource e.path) u = true) ∧ Passes e Obj.MEM_ECC_INJECT v s u) :=
  ⟨⟨host, base .printing, after host Obj.JOB_COMMIT 1 (base .printing), by decide +kernel, passes_of (by
      decide +kernel)⟩,
    ⟨host, base .idle, after host Obj.MEM_PLAN_APPLY 1 (base .idle), by decide +kernel, passes_of (by
      decide +kernel)⟩,
    ⟨host, base .idle, after host Obj.MEM_LS_DELETE 4095 (base .idle), 4095, by decide +kernel, passes_of (by
      decide +kernel)⟩,
    ⟨host, base .idle, after host Obj.MEM_LS_CLEAR 1 (base .idle), passes_of (by decide +kernel)⟩,
    ⟨host, base .service, after host Obj.MEM_ECC_INJECT 1 (base .service), 1, by decide +kernel, passes_of (by
      decide +kernel)⟩⟩

/-- `Obligations.BarAndLinkWrites`: the hypotheses of each clause are met. -/
theorem witness_BarAndLinkWrites :
    (∃ e : WriteEnv, ∃ s : State, ∃ u : State, ∃ b : Nat, ∃ v : Nat, (b < 8 ∧ unchangedBy (Obj.JQ_NOZ_STATE b) v
      (pathSource e.path) u = true) ∧ Passes e (Obj.JQ_NOZ_STATE b) v s u) ∧
    (∃ e : WriteEnv, ∃ s : State, ∃ u : State, Passes e Obj.JQ_HEAD_STORE 1 s u) ∧
    (∃ e : WriteEnv, ∃ s : State, ∃ u : State, ∃ b : Nat, (b < 8 ∧ (u.ctl.mode = .idle ∨ u.ctl.mode = .service) ∧
      spareOk u.w = true) ∧ Passes e Obj.JQ_SLICE_SWAP b s u) ∧
    (∃ e : WriteEnv, ∃ s : State, ∃ u : State, ∃ i, ((u.ctl.mode = .idle ∨ u.ctl.mode = .service) ∧ i < 24 ∧ i <
      u.w.links.length ∧ (linkAt u.w i).testOk = true) ∧ Passes e Obj.YQL_DISCOVER 1 s u) ∧
    (∃ e : WriteEnv, ∃ s : State, ∃ u : State, ∃ v : Nat, (inPrint u.ctl.mode = false ∧ unchangedBy Obj.YQL_RW_DATA
      v (pathSource e.path) u = true) ∧ Passes e Obj.YQL_RW_DATA v s u) :=
  ⟨⟨host, up .idle fun w => { w with dict := { w.dict with tbl := [(tblKey 0x3517 0, 0)] } }, after host
      (Obj.JQ_NOZ_STATE 7) 1 (up .idle fun w => { w with dict := { w.dict with tbl := [(tblKey 0x3517 0, 0)] } }), 7,
      1, by decide +kernel, passes_of (by decide +kernel)⟩,
    ⟨host, base .idle, after host Obj.JQ_HEAD_STORE 1 (base .idle), passes_of (by decide +kernel)⟩,
    ⟨signed Obj.JQ_SLICE_SWAP (valueBytes Obj.JQ_SLICE_SWAP 7), base .idle, counted (base .idle), 7, by
      decide +kernel, passes_signed (by decide +kernel)⟩,
    ⟨host, up .idle (lnk 23 fun l => { l with testOk := true }), after host Obj.YQL_DISCOVER 1 (up .idle (lnk 23 fun
      l => { l with testOk := true })), 23, by decide +kernel, passes_of (by decide +kernel)⟩,
    ⟨host, base .idle, after host Obj.YQL_RW_DATA 5 (base .idle), 5, by decide +kernel, passes_of (by
      decide +kernel)⟩⟩

/-- `Obligations.InspectionWrites`: the hypotheses of each clause are met. -/
theorem witness_InspectionWrites :
    (∃ e : WriteEnv, ∃ s : State, ∃ u : State, ((u.ctl.mode = .idle ∨ u.ctl.mode = .service)) ∧ Passes e
      Obj.INS_WHITE_CAPTURE 1 s u) ∧
    (∃ e : WriteEnv, ∃ s : State, ∃ u : State, Passes e Obj.INS_WHITE_STORE 1 s u) ∧
    (∃ e : WriteEnv, ∃ s : State, ∃ u : State, ∃ c, (c < 8 ∧ c < u.w.ins.uplNo.length ∧ getF u.w Obj.INS_UPL_CFG 0 2
      = 2 ∧ bitOf u.w.ins.cams c = true) ∧ Passes e Obj.INS_UPL_NOW (2 ^ c : Nat) s u) ∧
    (∃ e : WriteEnv, ∃ s : State, ∃ u : State, ∃ mask : Nat, (1 ≤ mask ∧ mask ≤ 255) ∧ Passes e Obj.CHL_REQUAL mask
      s u ∧ Quiet u) ∧
    (∃ e : WriteEnv, ∃ s : State, ∃ u : State, Passes e Obj.CHL_STORE 1 s u) ∧
    (∃ e : WriteEnv, ∃ s : State, ∃ u : State, ∃ b : Nat, (b < 8) ∧ Passes e Obj.CHL_REF_TAKE (2 ^ b : Nat) s u) :=
  ⟨⟨host, base .idle, after host Obj.INS_WHITE_CAPTURE 1 (base .idle), by decide +kernel, passes_of (by
      decide +kernel)⟩,
    ⟨host, base .idle, after host Obj.INS_WHITE_STORE 1 (base .idle), passes_of (by decide +kernel)⟩,
    ⟨host, up .printing fun w => sets [(Obj.INS_UPL_CFG, 2)] { w with ins := { w.ins with cams := 128 } }, after
      host Obj.INS_UPL_NOW 128 (up .printing fun w => sets [(Obj.INS_UPL_CFG, 2)]
      { w with ins := { w.ins with cams := 128 } }), 7, by decide +kernel, passes_of (by decide +kernel)⟩,
    ⟨host, base .idle, after host Obj.CHL_REQUAL 255 (base .idle), 255, by decide +kernel, passes_of (by
      decide +kernel), rfl⟩,
    ⟨host, base .idle, after host Obj.CHL_STORE 1 (base .idle), passes_of (by decide +kernel)⟩,
    ⟨host, base .idle, after host Obj.CHL_REF_TAKE 128 (base .idle), 7, by decide +kernel, passes_of (by
      decide +kernel)⟩⟩

/-- `Obligations.SupervisorWrites`: the hypotheses of each clause are met. -/
theorem witness_SupervisorWrites :
    (∃ e : WriteEnv, ∃ s : State, ∃ u : State, (u.w.sys.hostUp = true) ∧ Passes e Obj.SUP_RESET 1 s u) ∧
    (∃ e : WriteEnv, ∃ s : State, ∃ u : State, Passes e Obj.SUP_RESET 2 s u) ∧
    (∃ e : WriteEnv, ∃ s : State, ∃ u : State, ∃ v : Nat, (unchangedBy Obj.SUP_STOP_CMD v (pathSource e.path) u =
      true) ∧ Passes e Obj.SUP_STOP_CMD v s u) ∧
    (∃ e : WriteEnv, ∃ s : State, ∃ u : State, (u.ctl.mode = .thermalHold ∧ allCool u.w = true) ∧ Passes e
      Obj.THM_ACK 1 s u) ∧
    (∃ e : WriteEnv, ∃ s : State, ∃ u : State, ((u.ctl.mode = .idle ∨ u.ctl.mode = .service)) ∧ Passes e
      Obj.EVT_LOG_CLEAR 1 s u) ∧
    (∃ e : WriteEnv, ∃ s : State, ∃ u : State, (u.ctl.mode ≠ .idle ∧ u.ctl.mode ≠ .service) ∧ Passes e
      Obj.EVT_LOG_CLEAR 1 s u) ∧
    (∃ e : WriteEnv, e.auth = none) ∧
    (∃ e : WriteEnv, ∃ s : State, ∃ u : State, ∃ i, (i < 9 ∧ unchangedBy (Obj.NET_CAN_ERR_HIST 0) 0 (pathSource
      e.path) u = true) ∧ Passes e (Obj.NET_CAN_ERR_HIST 0) 0 s u) :=
  ⟨⟨signed Obj.SUP_RESET (valueBytes Obj.SUP_RESET 1), base .idle, counted (base .idle), by decide +kernel,
      passes_signed (by decide +kernel)⟩,
    ⟨signed Obj.SUP_RESET (valueBytes Obj.SUP_RESET 2), base .printing, counted (base .printing), passes_signed (by
      decide +kernel)⟩,
    ⟨host, base .idle, after host Obj.SUP_STOP_CMD 1 (base .idle), 1, by decide +kernel, passes_of (by
      decide +kernel)⟩,
    ⟨signed Obj.THM_ACK (valueBytes Obj.THM_ACK 1), base .thermalHold, counted (base .thermalHold), by
      decide +kernel, passes_signed (by decide +kernel)⟩,
    ⟨signed Obj.EVT_LOG_CLEAR (valueBytes Obj.EVT_LOG_CLEAR 1), base .idle, counted (base .idle), by decide +kernel,
      passes_signed (by decide +kernel)⟩,
    ⟨signed Obj.EVT_LOG_CLEAR (valueBytes Obj.EVT_LOG_CLEAR 1), base .armed, counted (base .armed), by
      decide +kernel, passes_signed (by decide +kernel)⟩,
    ⟨host, by decide +kernel⟩,
    ⟨host, base .idle, after host (Obj.NET_CAN_ERR_HIST 0) 0 (base .idle), 8, by decide +kernel, passes_of (by
      decide +kernel)⟩⟩

/-- `Obligations.KoaReads`: the hypotheses of each clause are met. -/
theorem witness_KoaReads :
    (∃ s : State, ∃ a : Addr, ∃ ix, ∃ sub, ∃ f, ∃ st, ∃ code, ∃ data : List Nat, ∃ u, koaUp s.w a.iface = true ∧
      readItem s.ctl ix sub f (fresh s).w = (st, code, data, u) ∧ data.length ≤ 8000) ∧
    (∃ s : State, ∃ a : Addr, ∃ items : List (Nat × Nat × Bool), koaUp s.w a.iface = true ∧ (items.length = 0 ∨ 64 <
      items.length)) ∧
    (∃ s : State, ∃ a : Addr, koaUp s.w a.iface = true) :=
  ⟨⟨net id, adr, 0x2000, 1, false, (readItem (net id).ctl 0x2000 1 false (fresh (net id)).w).1, (readItem (net
      id).ctl 0x2000 1 false (fresh (net id)).w).2.1, (readItem (net id).ctl 0x2000 1 false (fresh (net id)).w).2.2.1,
      (readItem (net id).ctl 0x2000 1 false (fresh (net id)).w).2.2.2, by decide +kernel⟩,
    ⟨net id, adr, List.replicate 65 (0x2000, 1, false), by decide +kernel⟩,
    ⟨net id, adr, by decide +kernel⟩⟩

/-- `Obligations.RefusedWrites`: the hypotheses of each clause are met. -/
theorem witness_RefusedWrites :
    (∃ s : State, ∃ a : Addr, ∃ reqId : Nat, ∃ auth : Option Trailer, ∃ ix : Nat, ∃ sub : Nat, ∃ ty : Nat, ∃ bytes :
      List Nat, ∃ st, (koaUp s.w a.iface = true ∧ keptAnswer (dropOld (fresh s).w) a reqId (requestBytes
      { path := .koa a reqId, auth := auth } ix sub ty bytes) = none) ∧ ((answers s.w ix = false ∧ st = St.hostDown) ∨
      (answers s.w ix = true ∧ indexExists ix = false ∧ st = St.noObject) ∨ (answers s.w ix = true ∧ indexExists ix =
      true ∧ subExists ix sub = false ∧ st = St.noSub) ∨ (∃ r n o, answers s.w ix = true ∧ indexExists ix = true ∧
      subExists ix sub = true ∧ objRow (ix * 256 + sub) = some (r, n, o) ∧ ((writable r o = false ∧ st = St.readOnly)
      ∨ (writable r o = true ∧ r.key ≠ Obj.LCK_ROW_POS 0 ∧ ty ≠ tyCode (keyTy r (ix * 256 + sub)) ∧ st = St.type))))) ∧
    (∃ s : State, ∃ a : Addr, ∃ reqId : Nat, ∃ auth : Option Trailer, ∃ ix : Nat, ∃ sub : Nat, ∃ ty : Nat, ∃ bytes :
      List Nat, ∃ st, (koaUp s.w a.iface = true ∧ keptAnswer (dropOld (fresh s).w) a reqId (requestBytes
      { path := .koa a reqId, auth := auth } ix sub ty bytes) = none) ∧ ((answers s.w ix = false ∧ st = St.hostDown) ∨
      (answers s.w ix = true ∧ indexExists ix = false ∧ st = St.noObject) ∨ (answers s.w ix = true ∧ indexExists ix =
      true ∧ subExists ix sub = false ∧ st = St.noSub) ∨ (∃ r n o, answers s.w ix = true ∧ indexExists ix = true ∧
      subExists ix sub = true ∧ objRow (ix * 256 + sub) = some (r, n, o) ∧ ((writable r o = false ∧ st = St.readOnly)
      ∨ (writable r o = true ∧ r.key ≠ Obj.LCK_ROW_POS 0 ∧ ty ≠ tyCode (keyTy r (ix * 256 + sub)) ∧ st = St.type))))) ∧
    (∃ s : State, ∃ a : Addr, ∃ reqId : Nat, ∃ auth : Option Trailer, ∃ ix : Nat, ∃ sub : Nat, ∃ ty : Nat, ∃ bytes :
      List Nat, ∃ st, (koaUp s.w a.iface = true ∧ keptAnswer (dropOld (fresh s).w) a reqId (requestBytes
      { path := .koa a reqId, auth := auth } ix sub ty bytes) = none) ∧ ((answers s.w ix = false ∧ st = St.hostDown) ∨
      (answers s.w ix = true ∧ indexExists ix = false ∧ st = St.noObject) ∨ (answers s.w ix = true ∧ indexExists ix =
      true ∧ subExists ix sub = false ∧ st = St.noSub) ∨ (∃ r n o, answers s.w ix = true ∧ indexExists ix = true ∧
      subExists ix sub = true ∧ objRow (ix * 256 + sub) = some (r, n, o) ∧ ((writable r o = false ∧ st = St.readOnly)
      ∨ (writable r o = true ∧ r.key ≠ Obj.LCK_ROW_POS 0 ∧ ty ≠ tyCode (keyTy r (ix * 256 + sub)) ∧ st = St.type))))) ∧
    (∃ s : State, ∃ a : Addr, ∃ reqId : Nat, ∃ auth : Option Trailer, ∃ ix : Nat, ∃ sub : Nat, ∃ ty : Nat, ∃ bytes :
      List Nat, ∃ st, (koaUp s.w a.iface = true ∧ keptAnswer (dropOld (fresh s).w) a reqId (requestBytes
      { path := .koa a reqId, auth := auth } ix sub ty bytes) = none) ∧ ((answers s.w ix = false ∧ st = St.hostDown) ∨
      (answers s.w ix = true ∧ indexExists ix = false ∧ st = St.noObject) ∨ (answers s.w ix = true ∧ indexExists ix =
      true ∧ subExists ix sub = false ∧ st = St.noSub) ∨ (∃ r n o, answers s.w ix = true ∧ indexExists ix = true ∧
      subExists ix sub = true ∧ objRow (ix * 256 + sub) = some (r, n, o) ∧ ((writable r o = false ∧ st = St.readOnly)
      ∨ (writable r o = true ∧ r.key ≠ Obj.LCK_ROW_POS 0 ∧ ty ≠ tyCode (keyTy r (ix * 256 + sub)) ∧ st = St.type))))) ∧
    (∃ s : State, ∃ a : Addr, ∃ reqId : Nat, ∃ auth : Option Trailer, ∃ ix : Nat, ∃ sub : Nat, ∃ ty : Nat, ∃ bytes :
      List Nat, ∃ st, (koaUp s.w a.iface = true ∧ keptAnswer (dropOld (fresh s).w) a reqId (requestBytes
      { path := .koa a reqId, auth := auth } ix sub ty bytes) = none) ∧ ((answers s.w ix = false ∧ st = St.hostDown) ∨
      (answers s.w ix = true ∧ indexExists ix = false ∧ st = St.noObject) ∨ (answers s.w ix = true ∧ indexExists ix =
      true ∧ subExists ix sub = false ∧ st = St.noSub) ∨ (∃ r n o, answers s.w ix = true ∧ indexExists ix = true ∧
      subExists ix sub = true ∧ objRow (ix * 256 + sub) = some (r, n, o) ∧ ((writable r o = false ∧ st = St.readOnly)
      ∨ (writable r o = true ∧ r.key ≠ Obj.LCK_ROW_POS 0 ∧ ty ≠ tyCode (keyTy r (ix * 256 + sub)) ∧ st = St.type))))) :=
  ⟨⟨net (sets [(Obj.SUP_HOST_STATE, 1)]), adr, 1, none, 0x2400, 1, 7, [0, 0, 0, 0], St.hostDown, by decide +kernel,
      Or.inl ⟨by decide +kernel, rfl⟩⟩,
    ⟨net id, adr, 1, none, 0x2FFF, 0, 7, [0, 0, 0, 0], St.noObject, by decide +kernel, Or.inr (Or.inl ⟨by
      decide +kernel, by decide +kernel, rfl⟩)⟩,
    ⟨net id, adr, 1, none, 0x2000, 255, 7, [0, 0, 0, 0], St.noSub, by decide +kernel, Or.inr (Or.inr (Or.inl ⟨by
      decide +kernel, by decide +kernel, by decide +kernel, rfl⟩))⟩,
    ⟨net id, adr, 1, none, 0x1000, 0, 7, [0, 0, 0, 0], St.readOnly, by decide +kernel, Or.inr (Or.inr (Or.inr ⟨_, _,
      _, by decide +kernel, by decide +kernel, by decide +kernel, rfl, Or.inl ⟨by decide +kernel, rfl⟩⟩))⟩,
    ⟨net id, adr, 1, none, 0x2000, 2, 15, [0, 0, 0, 0], St.type, by decide +kernel, Or.inr (Or.inr (Or.inr ⟨_, _, _,
      by decide +kernel, by decide +kernel, by decide +kernel, rfl, Or.inr ⟨by decide +kernel, by decide +kernel, by
      decide +kernel, rfl⟩⟩))⟩⟩

/-- `Obligations.PartnersAndNotify`: the hypotheses of each clause are met. -/
theorem witness_PartnersAndNotify :
    (∃ s : State, ∃ a : Addr, ∃ serial : Nat, ∃ n : Nat, ∃ p, hostServing s.w = true ∧ ifaceServes s.w a.iface =
      true ∧ getF s.w (Obj.NET_IF_CFG a.iface) 4 1 = 1 ∧ presentEntry s.w serial = some (n, p) ∧ p.addr = a) ∧
    (∃ s : State, ∃ a : Addr, ∃ serial : Nat, ∃ n : Nat, hostServing s.w = true ∧ ifaceServes s.w a.iface = true ∧
      getF s.w (Obj.NET_IF_CFG a.iface) 4 1 = 1 ∧ presentEntry s.w serial = none ∧ freeEntry s.w serial = some n) ∧
    (∃ s : State, ∃ a : Addr, ∃ serial : Nat, hostServing s.w = true ∧ ifaceServes s.w a.iface = true ∧ getF s.w
      (Obj.NET_IF_CFG a.iface) 4 1 = 1 ∧ presentEntry s.w serial = none ∧ freeEntry s.w serial = none) ∧
    (∃ s : State, ∃ n : Nat, ∃ p, hostServing s.w = true ∧ mapGet s.w.net.partners n = some p ∧ p.present = true ∧
      peerFixed s.w n = false ∧ p.lastClk + msClk (getN s.w Obj.NET_PARTNER_TO_MS) ≤ s.w.clk) ∧
    (∃ s : State, ∃ i, hostServing s.w = true ∧ i < s.w.net.helloSeq.length ∧ ifaceServes s.w i = true ∧ getF s.w
      (Obj.NET_IF_CFG i) 4 1 = 1 ∧ s.w.net.helloClk.getD i 0 + msClk (getN s.w Obj.NET_HELLO_MS) ≤ s.w.clk) ∧
    (∃ s : State, ∃ n : Nat, ∃ p, hostServing s.w = true ∧ mapGet s.w.net.partners n = some p ∧ notifiable s.w n p =
      true ∧ (32 ≤ p.notifyQ.length ∨ (p.notifyQ ≠ [] ∧ p.notifySince + msClk 1 ≤ s.w.clk))) ∧
    (∃ s : State, ∃ i, ∃ up : Bool, powered s.ctl.mode = true ∧ i < 10 ∧ i < s.w.net.linkUp.length ∧
      s.w.net.linkUp.getD i false = !up) :=
  ⟨⟨net fun w => sets [] { w with net := { w.net with partners := [(0, prt)] } }, adr, 77, 0, prt, by
      decide +kernel⟩,
    ⟨net id, adr, 77, 0, by decide +kernel⟩,
    ⟨net fun w =>
      { w with net := { w.net with partners := (List.range 64).map fun n => (n, { prt with serial := n + 1 }) } },
      adr, 77, by decide +kernel⟩,
    ⟨net fun w => sets [] { w with net := { w.net with partners := [(0, prt)] } }, 0, prt, by decide +kernel⟩,
    ⟨net id, 0, by decide +kernel⟩,
    ⟨net fun w => sets [(Obj.NET_PEER_CFG 0, 3)]
      { w with net := { w.net with partners := [(0, { prt with notifyQ := [evr] })] } }, 0,
      { prt with notifyQ := [evr] }, by decide +kernel⟩,
    ⟨net id, 9, false, by decide +kernel⟩⟩

/-- `Obligations.StreamOpenings`: the hypotheses of each clause are met. -/
theorem witness_StreamOpenings :
    (∃ s : State, ∃ a : Addr, ∃ stream : Nat, koaUp s.w a.iface = true ∧ stream ≠ 0 ∧ hostServing s.w = false) ∧
    (∃ s : State, ∃ a : Addr, ∃ stream : Nat, ∃ target, koaUp s.w a.iface = true ∧ stream ≠ 0 ∧ hostServing s.w =
      true ∧ findIn s.w a stream = none ∧ findOut s.w a stream = none ∧ getF s.w (Obj.NET_IF_CFG a.iface) 3 1 = 1 ∧
      target ≠ 1 ∧ domRow target = none) ∧
    (∃ s : State, ∃ a : Addr, ∃ stream : Nat, ∃ off : Nat, ∃ len : Nat, ∃ pre : List Nat, koaUp s.w a.iface = true ∧
      stream ≠ 0 ∧ hostServing s.w = true ∧ findIn s.w a stream = none ∧ findOut s.w a stream = none ∧ getF s.w
      (Obj.NET_IF_CFG a.iface) 3 1 = 1 ∧ off = 0 ∧ s.w.net.bulkIn.length < 32 ∧ itemRefusal s.w pre (headerItem pre) =
      0 ∧ len = (headerItem pre).length) ∧
    (∃ s : State, ∃ a : Addr, ∃ stream : Nat, ∃ off : Nat, ∃ pre : List Nat, koaUp s.w a.iface = true ∧ stream ≠ 0 ∧
      hostServing s.w = true ∧ findIn s.w a stream = none ∧ findOut s.w a stream = none ∧ getF s.w (Obj.NET_IF_CFG
      a.iface) 3 1 = 1 ∧ off = 0 ∧ s.w.net.bulkIn.length < 32 ∧ itemRefusal s.w pre (headerItem pre) ≠ 0) :=
  ⟨⟨net (sets [(Obj.SUP_HOST_STATE, 1)]), adr, 1, by decide +kernel⟩,
    ⟨net id, adr, 1, 0x2000, by decide +kernel⟩,
    ⟨net fun w => sets [(Obj.MEM_LS_MIB, 16)] { w with mem := { w.mem with ready := true } }, adr, 1, 0, 9000, hdr,
      by decide +kernel⟩,
    ⟨net id, adr, 1, 0, [], by decide +kernel⟩⟩

/-- `Obligations.StreamBlocksAndEnds`: the hypotheses of each clause are met. -/
theorem witness_StreamBlocksAndEnds :
    (∃ s : State, ∃ a : Addr, ∃ stream : Nat, ∃ data : List Nat, ∃ b, ∃ crc : Nat, bulkUp s.w a.iface = true ∧
      findIn s.w a stream = some b ∧ crc ≠ crc32c data) ∧
    (∃ s : State, ∃ a : Addr, ∃ stream : Nat, ∃ k : Nat, ∃ data : List Nat, ∃ b, bulkUp s.w a.iface = true ∧ findIn
      s.w a stream = some b ∧ data.length = blockLen b k ∧ data ≠ [] ∧ k < nextBlock b + getN s.w Obj.NET_BULK_WINDOW
      ∧ mapGet b.blocks k = none) ∧
    (∃ s : State, s.w.sys.voted = true ∧ s.w.net.ingestShare = 0) ∧
    (∃ s : State, ∃ a : Addr, ∃ stream : Nat, ∃ b : BulkIn, ∃ i : Item, findIn s.w a stream = some b ∧ b.target = 1
      ∧ itemAt s.w b.item = some i ∧ koaUp s.w a.iface = true ∧ hostServing s.w = true ∧ b.length = i.length ∧
      allBlocks b = true ∧ i.ty = 1) ∧
    (∃ s : State, ∃ a : Addr, ∃ stream : Nat, ∃ b : BulkIn, ∃ i : Item, ∃ reason, findIn s.w a stream = some b ∧
      b.target = 1 ∧ itemAt s.w b.item = some i ∧ koaUp s.w a.iface = true ∧ hostServing s.w = true ∧ reason ≠ 0 ∧
      hasOlder s.w b.item i = false) ∧
    (∃ s : State, ∃ a : Addr, ∃ stream : Nat, ∃ b : BulkIn, ∃ i : Item, findIn s.w a stream = some b ∧ b.target = 1
      ∧ itemAt s.w b.item = some i ∧ b.closing = none ∧ b.lastClk + msClk (getN s.w Obj.NET_BULK_IDLE_MS) ≤ s.w.clk ∧
      hasOlder s.w b.item i = false) :=
  ⟨⟨inNet bin, adr, 3, [1], bin, crc32c [1] + 1, by decide +kernel⟩,
    ⟨inNet bin, adr, 3, 1, List.replicate 808 7, bin, by decide +kernel⟩,
    ⟨up .idle fun w => { w with net := { w.net with ingestShare := 0 } }, by decide +kernel⟩,
    ⟨inNet { bin with length := 5, blocks := [(0, [1, 2, 3, 4, 5])] } { itm with length := 5 }, adr, 3,
      { bin with length := 5, blocks := [(0, [1, 2, 3, 4, 5])] }, { itm with length := 5 }, by decide +kernel⟩,
    ⟨inNet bin, adr, 3, bin, itm, 1, by decide +kernel⟩,
    ⟨inNet bin, adr, 3, bin, itm, by decide +kernel⟩⟩

/-- `Obligations.StreamsOut`: the hypotheses of each clause are met. -/
theorem witness_StreamsOut :
    (∃ s : State, ∃ a : Addr, ∃ stream : Nat, ∃ b, ∃ status, ∃ window, findOut s.w a stream = some b ∧ ifaceServes
      s.w a.iface = true ∧ b.opened = false ∧ b.closed = false ∧ status = 0 ∧ (b.purpose ≠ 2 ∨ window ≠ 0)) ∧
    (∃ s : State, ∃ a : Addr, ∃ stream : Nat, ∃ b, ∃ status, findOut s.w a stream = some b ∧ ifaceServes s.w a.iface
      = true ∧ b.closed = true ∧ status ≤ 1 ∧ b.purpose = 2) ∧
    (∃ s : State, ∃ a : Addr, ∃ stream : Nat, ∃ b, ∃ k, ∃ x, ∃ y, findOut s.w a stream = some b ∧ ifaceServes s.w
      a.iface = true ∧ b.times = [(k, (x, y))] ∧ y + msClk 1 ≤ s.w.clk) ∧
    (∃ s : State, ∃ a : Addr, ∃ stream : Nat, ∃ b, ∃ k, ∃ x, ∃ y, findOut s.w a stream = some b ∧ (k, (x, y)) ∈
      b.times ∧ x + secClk 1 ≤ s.w.clk ∧ b.opened = true ∧ b.closed = false) ∧
    (∃ s : State, getF s.w Obj.INS_UPL_CFG 0 2 = 1 ∧ s.w.ins.uplClk + msClk (getN s.w Obj.INS_UPL_PERIOD_MS) ≤
      s.w.clk) ∧
    (∃ s : State, ∃ u, ∃ rest, ∃ a, s.w.ins.upl = u :: rest ∧ uplRead s.w u = true ∧ s.w.ins.ringLine - u.ringAt ≤
      (getN s.w Obj.MEM_INS_MIB - 320) * 1048576 / 73728 ∧ getN s.w Obj.MUS_GEN_STATE ≠ 2 ∧ sum ((lastSecond s.w.clk
      s.w.ins.uplBytes).map (·.2)) ≤ 62500000 ∧ s.w.net.bulkOut.any (·.purpose == 3) = false ∧ s.w.net.bulkOut.length
      < 8 ∧ partnerAddr s.w (getN s.w Obj.INS_UPL_PARTNER) = some a) :=
  ⟨⟨outNet bout, adr, 3, bout, 0, 1, by decide +kernel⟩,
    ⟨outNet { bout with opened := true, closed := true }, adr, 3, { bout with opened := true, closed := true }, 1,
      by decide +kernel⟩,
    ⟨outNet { bout with opened := true, times := [(0, (5, 5))] }, adr, 3,
      { bout with opened := true, times := [(0, (5, 5))] }, 0, 5, 5, by decide +kernel⟩,
    ⟨outNet { bout with opened := true, times := [(0, (5, 5))] }, adr, 3,
      { bout with opened := true, times := [(0, (5, 5))] }, 0, 5, 5, by decide +kernel⟩,
    ⟨up .idle fun w => sets [(Obj.INS_UPL_CFG, 0xFF01)] w, by decide +kernel⟩,
    ⟨net fun w =>
      { w with net := { w.net with partners := [(0, prt)] }, ins := { w.ins with upl := [uplb], scan := 5 } }, uplb,
      [], adr, by decide +kernel⟩⟩

/-- `Obligations.NmtAndHeartbeats`: the hypotheses of each clause are met. -/
theorem witness_NmtAndHeartbeats :
    (∃ s : State, ∃ node : Nat, canUp s.w = true ∧ (node = 0 ∨ node = s.w.can.node)) ∧
    (∃ s : State, ∃ node : Nat, canUp s.w = true ∧ (node = 0 ∨ node = s.w.can.node)) ∧
    (∃ s : State, ∃ node : Nat, canUp s.w = true ∧ (node = 0 ∨ node = s.w.can.node)) ∧
    (∃ s : State, ∃ node : Nat, ∃ c : Instr, canUp s.w = true ∧ (node = 0 ∨ node = s.w.can.node) ∧ (c =
      .nmtResetNode node ∨ c = .nmtResetCommunication node)) ∧
    (∃ s : State, canUp s.w = true ∧ getN s.w Obj.NET_CAN_HB_PROD ≠ 0 ∧ s.w.can.hbClk + msClk (getN s.w
      Obj.NET_CAN_HB_PROD) ≤ s.w.clk) ∧
    (∃ s : State, ∃ i, ∃ node, ∃ ms, i < 4 ∧ canUp s.w = true ∧ watched s.w i = some (node, ms)) ∧
    (∃ s : State, ∃ i, ∃ node, ∃ ms, ∃ c, s.w.sys.voted = true ∧ s.w.can.nmt ≠ 0 ∧ watched s.w i = some (node, ms) ∧
      mapGet s.w.can.hb i = some (c, false) ∧ c + msClk ms ≤ s.w.clk) :=
  ⟨⟨can id [], 0, by decide +kernel⟩,
    ⟨can id [], 32, by decide +kernel⟩,
    ⟨can id [], 0, by decide +kernel⟩,
    ⟨can id [], 0, .nmtResetNode 0, by decide +kernel⟩,
    ⟨can id [(Obj.NET_CAN_HB_PROD, 1)], by decide +kernel⟩,
    ⟨can id [(Obj.NET_CAN_HB_CONS 3, 0x10001)], 3, 1, 1, by decide +kernel⟩,
    ⟨can (fun c => { c with hb := [(3, (0, false))] }) [(Obj.NET_CAN_HB_CONS 3, 0x10001)], 3, 1, 1, 0, by
      decide +kernel⟩⟩

/-- `Obligations.CanTransmit`: the hypotheses of each clause are met. -/
theorem witness_CanTransmit :
    (∃ s : State, ∃ r, ∃ q, (canUp s.w = true ∧ s.w.can.emcyQ = r :: q ∧ bitOf (getN s.w Obj.NET_CAN_EMCY_COB) 31 =
      false) ∧ (∀ c, s.w.can.emcyClk = some c → c + usClk (100 * getN s.w Obj.NET_CAN_EMCY_INH) ≤ s.w.clk)) ∧
    (∃ s : State, ∃ n : Nat, canUp s.w = true ∧ s.w.can.nmt = 2 ∧ hostServing s.w = true ∧ n < 4 ∧ n <
      s.w.can.tpdoClk.length ∧ bitOf (getN s.w (Obj.NET_CAN_TPDO_COMM n 0)) 31 = false ∧ mapEntries s.w n ≠ [] ∧ getN
      s.w (Obj.NET_CAN_TPDO_COMM n 4) ≠ 0 ∧ s.w.can.tpdoClk.getD n 0 + msClk (getN s.w (Obj.NET_CAN_TPDO_COMM n 4)) ≤
      s.w.clk ∧ bitOf (getN s.w Obj.NET_CAN_TPDO_FD) n = false) ∧
    (∃ s : State, ∃ st, st ≤ 2 ∧ s.w.sys.voted = true ∧ s.w.can.nmt ≠ 0) ∧
    (∃ s : State, s.w.sys.voted = true ∧ s.w.can.bus = 2) :=
  ⟨⟨can (fun c => { c with emcyQ := [evr] }) [], evr, [], by decide +kernel, (fun c h => by cases h)⟩,
    ⟨can id [(Obj.NET_CAN_TPDO_COMM 3 0, 0x480), (Obj.NET_CAN_TPDO_COMM 3 4, 1), (Obj.NET_CAN_TPDO_MAP 3 0, 1),
      (Obj.NET_CAN_TPDO_MAP 3 1, 0x20000120)], 3, by decide +kernel⟩,
    ⟨can id [], 2, by decide +kernel⟩,
    ⟨can (fun c => { c with bus := 2 }) [], by decide +kernel⟩⟩

/-- `Obligations.SdoTransfers`: the hypotheses of each clause are met. -/
theorem witness_SdoTransfers :
    (∃ s : State, ∃ ix, ∃ sub, sdoUp s.w = true ∧ downloadStatus (setSdo none (fresh s).w) ix sub = St.ok) ∧
    (∃ s : State, ∃ ix, ∃ sub, sdoUp s.w = true ∧ downloadStatus (setSdo none (fresh s).w) ix sub ≠ St.ok) ∧
    (∃ s : State, ∃ x, ∃ data : List Nat, sdoUp s.w = true ∧ s.w.can.sdo = some x ∧ x.upload = false ∧ (x.size = 0 ∨
      (x.bytes ++ data).length ≤ x.size) ∧ (x.bytes ++ data).length ≤ 276) ∧
    (∃ s : State, ∃ x, sdoUp s.w = true ∧ s.w.can.sdo = some x ∧ x.upload = false) ∧
    (∃ s : State, ∃ x, ∃ data : List Nat, ∃ u, sdoUp s.w = true ∧ s.w.can.sdo = some x ∧ x.upload = false ∧ (x.size
      = 0 ∨ (x.bytes ++ data).length = x.size) ∧ (x.bytes ++ data).length ≤ 276 ∧ hasTrailer
      { s with w := setSdo none (fresh s).w } x.index x.sub (x.bytes ++ data).length = false ∧ gateState
      { path := .can, auth := none } (x.index * 256 + x.sub) 0 (x.bytes ++ data)
      { s with w := setSdo none (fresh s).w } = some u ∧ x.sub < 256) ∧
    (∃ s : State, sdoUp s.w = true) ∧
    (∃ s : State, ∃ x, sdoUp s.w = true ∧ s.w.can.sdo = some x ∧ x.clk + secClk 1 ≤ s.w.clk) ∧
    (∃ s : State, ∃ ix, ∃ sub, ∃ code, ∃ data : List Nat, ∃ u, sdoUp s.w = true ∧ readItem s.ctl ix sub false
      (setSdo none (fresh s).w) = (St.ok, code, data, u) ∧ 1 ≤ data.length ∧ data.length ≤ 4) ∧
    (∃ s : State, ∃ ix, ∃ sub, ∃ code, ∃ data : List Nat, ∃ u, sdoUp s.w = true ∧ readItem s.ctl ix sub false
      (setSdo none (fresh s).w) = (St.ok, code, data, u) ∧ 4 < data.length) ∧
    (∃ s : State, ∃ x, sdoUp s.w = true ∧ s.w.can.sdo = some x ∧ x.upload = true) :=
  ⟨⟨can id [], 0x1017, 0, by decide +kernel⟩,
    ⟨can id [], 0x1000, 0, by decide +kernel⟩,
    ⟨can (fun c => { c with sdo := some xfr }) [], xfr, [1], by decide +kernel⟩,
    ⟨can (fun c => { c with sdo := some xfr }) [], xfr, by decide +kernel⟩,
    ⟨can (fun c => { c with sdo := some xfr }) [], xfr, [1, 0], (gateState { path := .can, auth := none } (0x1017 *
      256) 0 [1, 0]
      { (can (fun c => { c with sdo := some xfr }) []) with w := setSdo none (fresh (can (fun c => { c with sdo := some xfr }) [])).w }).getD
      (can (fun c => { c with sdo := some xfr }) []), by decide +kernel⟩,
    ⟨can (fun c => { c with sdo := some xfr }) [], by decide +kernel⟩,
    ⟨can (fun c => { c with sdo := some xfr }) [], xfr, by decide +kernel⟩,
    ⟨can id [], 0x1017, 0, (readItem (can id []).ctl 0x1017 0 false (setSdo none (fresh (can id [])).w)).2.1,
      (readItem (can id []).ctl 0x1017 0 false (setSdo none (fresh (can id [])).w)).2.2.1, (readItem (can id []).ctl
      0x1017 0 false (setSdo none (fresh (can id [])).w)).2.2.2, by decide +kernel⟩,
    ⟨can id [], 0x1008, 0, (readItem (can id []).ctl 0x1008 0 false (setSdo none (fresh (can id [])).w)).2.1,
      (readItem (can id []).ctl 0x1008 0 false (setSdo none (fresh (can id [])).w)).2.2.1, (readItem (can id []).ctl
      0x1008 0 false (setSdo none (fresh (can id [])).w)).2.2.2, by decide +kernel⟩,
    ⟨can (fun c => { c with sdo := some { xfr with upload := true, bytes := List.range 9 } }) [],
      { xfr with upload := true, bytes := List.range 9 }, by decide +kernel⟩⟩

/-- `Obligations.EventDelivery`: its hypotheses are met. -/
theorem witness_EventDelivery :
    ∃ w : World, ∃ r : EvRec, ∃ q : EvRec, w.evt.raised = [r] ∧ q =
      { r with seq := (w.evt.seq + 1) % 4294967296, serge := w.sys.voted && !hostServing w } :=
  ⟨{ (base .idle).w with evt := { (base .idle).w.evt with raised := [evr] } }, evr, { evr with seq := 1 }, by decide +kernel⟩

/-- `Obligations.StoresAndPorts`: the hypotheses of each clause are met. -/
theorem witness_StoresAndPorts :
    (∃ s : State, ∃ k, ∃ v, ∃ c, ∃ rest, powered s.ctl.mode = true ∧ s.w.dict.framWait = (k, v, c) :: rest ∧ k ≠
      Obj.NET_HOST_NAME) ∧
    (∃ s : State, ∃ ix, ∃ c, ∃ rest, powered s.ctl.mode = true ∧ s.w.dict.norWait = (ix, c) :: rest) ∧
    (∃ s : State, ∃ r, (powered s.ctl.mode = true ∧ s.w.sys.voted = true ∧ s.w.evt.staging.getLast? = some r ∧
      s.w.evt.dropRun = 0) ∧ Quiet s) ∧
    (∃ s : State, ∃ n : Nat, ∃ c, (n < s.w.evt.outLevel.length ∧ n < s.w.evt.outEnd.length ∧ s.w.evt.outEnd.getD n
      none = some c ∧ c ≤ s.w.clk) ∧ Quiet s) :=
  ⟨⟨up .idle fun w => sets [] { w with dict := { w.dict with framWait := [(5, 6, 7)] } }, 5, 6, 7, [], by
      decide +kernel⟩,
    ⟨up .idle fun w => sets [] { w with dict := { w.dict with norWait := [(Obj.LCK_ALIGN_TABLE / 256, 7)] } },
      Obj.LCK_ALIGN_TABLE / 256, 7, [], by decide +kernel⟩,
    ⟨up .idle fun w => sets [] { w with evt := { w.evt with staging := [evr] } }, evr, by decide +kernel, rfl⟩,
    ⟨up .idle fun w => sets []
      { w with evt := { w.evt with outLevel := [false, false, false, true], outEnd := [none, none, none, some 3] } },
      3, 3, by decide +kernel, rfl⟩⟩

/-! ### Vectors and examples of the spec -/

/-- The AES-CMAC vector that the spec gives after R351. -/
theorem test_cmac_vector :
    cmac [0x2B, 0x7E, 0x15, 0x16, 0x28, 0xAE, 0xD2, 0xA6, 0xAB, 0xF7, 0x15, 0x88, 0x09, 0xCF, 0x4F, 0x3C]
      [0x6B, 0xC1, 0xBE, 0xE2, 0x2E, 0x40, 0x9F, 0x96, 0xE9, 0x3D, 0x7E, 0x11, 0x73, 0x93, 0x17, 0x2A] =
      [0x07, 0x0A, 0x16, 0xB4, 0x6B, 0x4D, 0x41, 0x44, 0xF7, 0x9B, 0xDD, 0x9D] ++
        (cmac [0x2B, 0x7E, 0x15, 0x16, 0x28, 0xAE, 0xD2, 0xA6, 0xAB, 0xF7, 0x15, 0x88, 0x09, 0xCF, 0x4F, 0x3C]
          [0x6B, 0xC1, 0xBE, 0xE2, 0x2E, 0x40, 0x9F, 0x96, 0xE9, 0x3D, 0x7E, 0x11, 0x73, 0x93, 0x17, 0x2A]).drop 12 := by
  decide +kernel

/-- The Muslin segment of the spec's example: 256 samples coded with LEFT and NOREF. -/
theorem test_muslin_segment :
    (encodeSegment 12 0 2 true ([40, 41, 43, 43, 42, 44, 45, 45, 44, 45, 47, 48, 48, 47, 48, 48] ++ List.replicate 240 48)
      (List.replicate 256 0)).1 =
      [0x08, 0x80, 0x00, 0x03, 0x2F, 0xFF, 0xFF, 0x0A, 0x01, 0x84, 0x0A, 0x84, 0x0A, 0x1C, 0x00, 0x00] := by
  decide +kernel

/-- R370: at nominal rate the addend is 858,993,459. -/
theorem test_addend_nominal : addendOf (fracI 0) = 858993459 := by decide +kernel

/-! ### One step -/

/-- The state that a command leaves satisfies a test. -/
def leaves (c : Instr) (s : State) (p : State → Bool) : Bool :=
  match exec c s with
  | .next t => p t
  | _ => false

/-- R372: eight seconds of nominal clocks are not needed to see one clock: 3.2 ns pass. -/
theorem test_idle_clock :
    (match step { base .idle with pending := [] } with
      | .next t => decide (t.w.tim.ns = 3) && decide (t.w.tim.fracNs = 858993459 - 3 * 268435456)
      | _ => false) = true := by decide +kernel

/-- R391: STOP_IN_N low takes PRINTING to SAFE. -/
theorem test_stop_in : leaves .stopInLow (base .printing) (fun t => t.ctl.mode == .safe && t.w.sup.force) = true := by
  decide +kernel

/-- R437: STOP in SERVICE leads to IDLE; R437: RESUME in IDLE is refused. -/
theorem test_stop_service : leaves (.sysCmdStop host) (base .service) (fun t => t.ctl.mode == .idle) = true := by
  decide +kernel
theorem test_resume_idle :
    leaves (.sysCmdResume host) (base .idle)
      (fun t => t.ctl.mode == .idle && decide (getN t.w Obj.CFG_ADJ_COUNT = 1)) = true := by decide +kernel

/-- R349: the eighth wrong tag within 10 s begins a block of 60 s. -/
theorem test_lockout :
    (authCheck 1 0x2002 1 [] { slot := 2, pad := 0, counter := 1, tag := [] }
      { base .idle with ctl := { (base .idle).ctl with
          sec := { (base .idle).ctl.sec with fails := List.replicate 7 20000000000000 } } }).2.ctl.sec.blockEnd =
      some (10000000000000 + secClk 60) := by decide +kernel

/-- R33: a pulse of encoder 0 moves the position by its lines per count. -/
theorem test_edge :
    leaves (.encEdge 0 true) (up .idle (sets [(Obj.WEB_ENC_CFG 0, 1), (Obj.WEB_ENC_LPC 0, 5)]))
      (fun t => t.w.web.pos == 5) = true := by decide +kernel

/-- R323: a value above the range of its object is clamped to it. -/
theorem test_clamp :
    leaves (.objectWrite host 0x2E30 2 6 [0xFF, 0xFF]) (base .idle)
      (fun t => getO t.w Obj.NET_HELLO_MS == 10000 && decide (getN t.w Obj.CFG_ADJ_COUNT = 1)) = true := by decide +kernel

/-- A step takes the command at the front and leaves the rest. -/
theorem test_queue :
    (match step { base .idle with pending := [.stopInLow, .stopInHigh] } with
      | .next t => decide (t.pending = [.stopInHigh]) && t.w.sup.stopLow
      | _ => false) = true := by decide +kernel

/-- No row of the table has bits. -/
theorem test_no_word (nbits w : Nat) : decodeTableWord nbits w = none := rfl

/-- R458 to R461: the lands of each function group, and all of them. -/
theorem test_land_counts :
    (let all := (List.range 48).flatMap fun r => landRow (r + 1)
     let group (l : Land) : Nat := match l with
       | .hpD _ _ _ | .hpCk _ _ | .hpRd _ _ | .hpRc _ _ => 0
       | .cpD _ _ _ | .cpCk _ _ | .cpTd _ _ | .cpTc _ _ => 1
       | .ethTx _ _ _ | .ethRx _ _ _ | .mgtTx _ | .mgtRx _ | .refclk _ => 2
       | .encA _ _ | .encB _ _ | .encZ _ _ | .ssiClk _ _ | .ssiDat _ _ | .prb _ | .hsw _ => 3
       | .hpFen _ | .hvEn _ | .webStopN | .stopInN => 4
       | .evtOut _ | .canTx | .canRx | .tck | .tms | .tdi | .tdo | .trstN => 5
       | .vs _ | .vrowN _ | .vhrCtl | .vledSns => 6
       | .vin => 7
       | .gnd => 8
     ((List.range 9).map fun g => all.countP fun l => group l == g) ++ [all.length]) =
      [288, 80, 38, 44, 26, 11, 42, 40, 1735, 2304] := by decide +kernel

/-- R459: the three lands that the spec names as examples. -/
theorem test_land_examples :
    landAt 8 20 = .hpRc 3 true ∧ landName 8 20 = "H20" ∧ landAt 48 7 = .hpD 9 0 false ∧ landName 48 7 = "BK7" ∧
    landAt 23 48 = .cpTd 5 false ∧ landName 23 48 = "AD48" := by decide +kernel

/-- R332, R333: a READ_RSP without items: version 1, type 0x81, status 0, the request's number, the partner's serial, length 0. -/
theorem test_koa_header :
    datagram (base .idle).w (.koa adr 0x81 0 0x04030201 []) = some [1, 0x81, 0, 0, 1, 2, 3, 4, 0, 0, 0, 0, 0, 0, 0, 0] := by
  decide +kernel

/-- R343: the body of a BULK_CLOSE is 16 bytes: stream, reason, length sent. -/
theorem test_koa_bulk_close :
    (datagram (base .idle).w (.bulkClose adr 7 0 258)).map (·.drop 12) =
      some [16, 0, 0, 0, 7, 0, 0, 0, 0, 0, 0, 0, 2, 1, 0, 0, 0, 0, 0, 0] := by decide +kernel

/-! ### Ill-formed operands -/

/-- A trailer with a tag of 11 bytes, an address on no interface, a value that is no byte. -/
theorem test_wf_refuses_messages :
    wfTrailer { slot := 0, pad := 0, counter := 0, tag := List.replicate 11 0 } = false ∧
    wfEnv { path := .koa { adr with iface := 9 } 0, auth := none } = false ∧ wfAddr { adr with udp := 65536 } = false ∧
    wfBytes [256] = false ∧ wfMsg { msg with seq := 65536 } = false ∧ wfAnnounce { ann with prio1 := 256 } = false ∧
    wfIdentity { ident with heads := List.replicate 9 (0, 0) } = false := by decide +kernel

/-- Each has one operand outside its range. -/
theorem test_wf_refuses_1 :
    ([
      .hostBootDone 3 0, .hostBootDone 0 256, .objectWrite host 65536 0 0 [], .objectWrite host 0 256 0 [],
      .objectWrite host 0 0 256 [], .koaRead adr 4294967296 [], .koaMessageDiscard 9,
      .helloRx adr 4294967296 0 0 0 0 0 false, .helloRx adr 0 4294967296 0 0 0 0 false,
      .helloRx adr 0 0 4294967296 0 0 0 false, .helloRx adr 0 0 0 4294967296 0 0 false,
      .helloRx adr 0 0 0 0 256 0 false, .helloRx adr 0 0 0 0 0 65536 false, .helloSend 9, .partnerTimeout 64,
      .notifySend 64, .bulkOpenRx adr 65536 false 0 0 0 0 [], .bulkOpenRx adr 0 false 4294967296 0 0 0 [],
      .bulkOpenRx adr 0 false 0 18446744073709551616 0 0 [], .bulkOpenRx adr 0 false 0 0 18446744073709551616 0 [],
      .bulkOpenRx adr 0 false 0 0 0 65536 [], .bulkDataRx adr 4294967296 0 [] 0 false,
      .bulkDataRx adr 0 4294967296 [] 0 false, .bulkDataRx adr 0 0 [] 4294967296 false,
      .bulkAckRx adr 4294967296 0 0 0 0, .bulkAckRx adr 0 256 0 0 0, .bulkAckRx adr 0 0 65536 0 0,
      .bulkAckRx adr 0 0 0 4294967296 0, .bulkAckRx adr 0 0 0 0 18446744073709551616,
      .bulkCloseRx adr 4294967296 0 0, .bulkCloseRx adr 0 256 0, .bulkCloseRx adr 0 0 18446744073709551616] : List Instr).all (fun c => !wf c) = true := by decide +kernel

/-- Each has one operand outside its range. -/
theorem test_wf_refuses_2 :
    ([
      .secKeyRevoke host 256, .nmtStart 128, .nmtStop 128, .nmtEnterPreOperational 128, .nmtResetNode 128,
      .nmtResetCommunication 128, .heartbeatRx 128, .canHbLost 4, .sdoInitiateDownload 65536 0 false 0 [],
      .sdoInitiateDownload 0 256 false 0 [], .sdoInitiateUpload 65536 0, .sdoInitiateUpload 0 256, .tpdoSend 4,
      .canBus 3 0 0, .netLink 10 false, .timIfaceWrite host 256, .timDomainWrite host 256, .timCfgWrite host 256,
      .encEdge 4 false, .encIllegal 4, .encLoss 4 0, .encLoss 0 3, .encSignalReturn 4 0 false false,
      .encSignalReturn 0 3 false false, .index 4, .probeEdge 8 false, .prbWindowClose 8, .prbMissed 8,
      .prbWindowWrite host 8 0 0, .prbWindowWrite host 0 3 0, .hswChange 4 false 0 0, .hswChange 0 false 0 4294967296] : List Instr).all (fun c => !wf c) = true := by decide +kernel

/-- Each has one operand outside its range. -/
theorem test_wf_refuses_3 :
    ([
      .ssiTransferStart 2, .ssiTransferDone 2 0 false false, .ssiTransferDone 0 281474976710656 false false,
      .lineCommit 16, .memLsDelete host 65536, .memEccInject host 65536, .memCe 7 0, .memUe 7 0 0 0,
      .barLinePrepare 16, .tableLoadDone 16, .jqNozStateWrite host 8 0, .jqNozStateWrite host 0 256,
      .jqSliceSwap host 256, .lineTxDone 16, .idleExit 16, .trainingDone 24 [], .trainingTimeout 24,
      .alignSetRx 24 [], .blockError { link := 24, inFrame := false }, .linkLockLost 24 false, .enumStep 24, .driverEnum 16 0 ident,
      .driverEnum 0 16 ident, .latencyMeasured 24 0 0, .latencyMeasured 0 16 0, .chainEnd 16, .rspRx 24 0 0 0,
      .rspRx 0 256 0 0, .rspRx 0 0 256 0, .rspRx 0 0 0 4294967296, .lineFailRx 16 0 0 0, .lineFailRx 0 2 0 0] : List Instr).all (fun c => !wf c) = true := by decide +kernel

/-- Each has one operand outside its range. -/
theorem test_wf_refuses_4 :
    ([
      .lineFailRx 0 0 8 0, .lineFailRx 0 0 0 4294967296, .statusRx 16 0 0, .statusRx 0 16 0,
      .statusRx 0 0 4294967296, .driverSilent 16 0, .driverSilent 0 16, .cmdRespTimeout 24 0, .cmdRespTimeout 0 256,
      .recoveryDone 24, .recoveryTimeout 24, .hotplugArrival 24 0, .hotplugArrival 0 4294967296, .retuneTrial 24 0,
      .retuneTrial 0 256, .retuneTrialEnd 24 0, .retuneTrialEnd 0 256, .cameraEnum 8 ident, .cameraLineRx 8 0 [] 0,
      .cameraLineRx 0 4294967296 [] 0, .cameraLineRx 0 0 [] 4294967296, .camLineMissing 8,
      .yqlRwDataWrite host 4294967296, .voiUnverify 8 0, .voiUnverify 0 32, .voiUnverified 8 0, .voiUnverified 0 32,
      .insUplNow host 256, .loopUpdateDone 2, .chlRequal host 256, .chlRefTake host 256, .coreReloadDone 3] : List Instr).all (fun c => !wf c) = true := by decide +kernel

/-- Each has one operand outside its range. -/
theorem test_wf_refuses_5 :
    ([
      .coreProbationEnd 3, .supStopCmdWrite host 256, .engineWdTimeout 2, .engineRestartDone 2,
      .sliceInternalFault 8 false, .sliceStall 8, .switchoverDone 8, .sliceRetestDone 9 false, .supDeadline 9 0,
      .vmonCrossing 14 0 false 0, .vmonCrossing 0 3 false 0, .evtOutPulseEnd 4, .idleEntryDelayEnd 16,
      .koaRead adr 0 [(65536, 0, false)], .thmSensorPoll [] (List.replicate 26 0) (List.replicate 14 0),
      .thmSensorPoll (List.replicate 26 0) [] (List.replicate 14 0),
      .thmSensorPoll (List.replicate 26 0) (List.replicate 26 0) [], .avsStep [], .sergeCycle [],
      .scanSlot { samples := List.replicate 33 (0, 0), offs := 0 }, .scanSlot { samples := [], offs := 4294967296 },
      .calibrateDone false 4294967296 [] [], .calibrateDone false 0 [] [List.replicate 9 []], .discoverDone [(8, [])], .cameraLineRx 0 0 [2 ^ 64] 0, .trainingDone 0 [], .supDeadline 0 0,
      .ptpSyncRx { msg with domain := 256 }, .ptpAnnounceRx { ann with domain := 256 }, .secKeyProgram host [256],
      .sdoDownloadSegment false false [256]] : List Instr).all (fun c => !wf c) = true := by decide +kernel


end Sys2Proof.Tests
end

section
/-! SUPPORT. What a command that changes the world alone leaves once its events are delivered. -/

namespace Sys2Proof.Machine

/-! ### A meaning with its events delivered -/

/-- The state after a meaning of the world alone: it acts on the state as the command finds it, and its events are
delivered. -/
def runMeaning (f : World → World) (s : State) : State := { s with w := settle (f (fresh s).w) }

theorem onWorld_whenDo {c : Ctl → Bool} (f : Ctl → World → World) {s : State} (h : c s.ctl = true) :
    onWorld (fun k w => whenDo (c k) (f k) w) s = .next (runMeaning (f s.ctl) s) := by
  simp only [onWorld, whenDo, h, if_true]
  rfl

@[simp] theorem runMeaning_web (f : World → World) (s : State) : (runMeaning f s).w.web = (f (fresh s).w).web :=
  settle_web _

@[simp] theorem prbAt_runMeaning (f : World → World) (s : State) (n : Nat) :
    prbAt (runMeaning f s).w n = prbAt (f (fresh s).w) n := by simp [prbAt]

@[simp] theorem ssiAt_runMeaning (f : World → World) (s : State) (n : Nat) :
    ssiAt (runMeaning f s).w n = ssiAt (f (fresh s).w) n := by simp [ssiAt]

/-- Delivery writes two counters among the objects (R356, R454), and both lie beyond the objects of the web. -/
theorem getO_runMeaning (f : World → World) (s : State) {k : Nat} (h : k < Obj.EVT_LOG_DROPPED) :
    getO (runMeaning f s).w k = getO (f (fresh s).w) k :=
  getO_settle _ h.ne (h.trans (by decide)).ne

theorem getN_runMeaning (f : World → World) (s : State) {k : Nat} (h : k < Obj.EVT_LOG_DROPPED) :
    getN (runMeaning f s).w k = getN (f (fresh s).w) k := by simp [getN, getO_runMeaning f s h]

/-- The objects of the numbered web inputs lie below the counters of delivery. -/
theorem webKey_lt {a n : Nat} (ha : a < 0x220000) (hn : n < 8) : a + 0x100 * n < Obj.EVT_LOG_DROPPED :=
  show a + 0x100 * n < 0x2C0004 by omega

/-! ### Folds -/

/-- What every step of a fold keeps, the fold keeps. -/
theorem foldl_keeps {α β γ : Type} (p : α → β) {g : α → γ → α} (hg : ∀ a x, p (g a x) = p a) (l : List γ) (a : α) :
    p (l.foldl g a) = p a := by
  rw [← List.foldl_hom p (g₂ := fun b _ => b) fun a x => (hg a x).symm, List.foldl_fixed]

end Sys2Proof.Machine
end

section
/-! SUPPORT. The probes (R48 to R54, R477): what an accepted latch, the end of a window and its decision leave. -/

namespace Sys2Proof.Machine

variable (w : World)

/-! ### Reading through an update of a probe -/

@[simp] theorem getO_updPrb (n : Nat) (f : Probe → Probe) (k : Nat) : getO (updPrb w n f) k = getO w k := rfl
@[simp] theorem getN_updPrb (n : Nat) (f : Probe → Probe) (k : Nat) : getN (updPrb w n f) k = getN w k := rfl
@[simp] theorem prbAt_setO (k : Nat) (v : Int) (n : Nat) : prbAt (setO w k v) n = prbAt w n := rfl
@[simp] theorem prbAt_bump (k n : Nat) : prbAt (bump w k) n = prbAt w n := rfl
@[simp] theorem prbAt_raiseAt (c i d et : Nat) (p : Int) (n : Nat) : prbAt (raiseAt w c i d et p) n = prbAt w n := rfl

@[simp] theorem updPrb_prb_length (n : Nat) (f : Probe → Probe) :
    (updPrb w n f).web.prb.length = w.web.prb.length := by simp [updPrb]

theorem prbAt_congr {a b : World} (h : a.web = b.web) (n : Nat) : prbAt a n = prbAt b n := by simp only [prbAt, h]

theorem updPrb_web_congr {a b : World} (h : a.web = b.web) (n : Nat) (f : Probe → Probe) :
    (updPrb a n f).web = (updPrb b n f).web := by simp only [updPrb, h]

/-! ### The commands -/

theorem exec_probeEdge {s : State} (h : powered s.ctl.mode = true) (n : Nat) (rising : Bool) :
    exec (.probeEdge n rising) s = .next (runMeaning (probeEdge n rising s.ctl.mode) s) :=
  onWorld_whenDo (c := fun k => powered k.mode) (fun k => probeEdge n rising k.mode) h

theorem exec_prbWindowClose {s : State} (h : powered s.ctl.mode = true) (n : Nat) :
    exec (.prbWindowClose n) s = .next (runMeaning (winClose n) s) :=
  onWorld_whenDo (c := fun k => powered k.mode) (fun _ => winClose n) h

theorem exec_prbMissed {s : State} (h : powered s.ctl.mode = true) {n : Nat} (hn : n < 8) :
    exec (.prbMissed n) s = .next (runMeaning (prbMissed n) s) :=
  onWorld_whenDo (c := fun k => powered k.mode && decide (n < 8)) (fun _ => prbMissed n) (by simp [h, hn])

/-! ### Accepted latches -/

@[simp] theorem frameLatch_web (mode : DevState) (n : Nat) (mark : Int) : (frameLatch mode w n mark).web = w.web := by
  unfold frameLatch
  dsimp only
  split_ifs <;> rfl

/-- A latch of the frame-start probe counts a late mark (R90) and writes no other object. -/
theorem getO_frameLatch_ne (mode : DevState) (n : Nat) (mark : Int) {k : Nat} (h : Obj.JOB_MARKS_LATE ≠ k) :
    getO (frameLatch mode w n mark) k = getO w k := by
  unfold frameLatch
  dsimp only
  split_ifs
  · rfl
  · rfl
  · exact getO_bump_ne w h
  · rfl

/-- The count of late marks is no object of a probe. -/
theorem marksLate_ne {a : Nat} (n : Nat) (ha : 0x214000 ≤ a) : Obj.JOB_MARKS_LATE ≠ a + 0x100 * n :=
  show 0x202010 ≠ a + 0x100 * n by omega

/-- The record that an accepted latch leaves in the objects of its probe, in its state and as an event (R53). -/
def prbRecord (w : World) (n : Nat) (rising : Bool) (q : Int) (et : Nat) : World :=
  let pitch := match (prbAt w n).lastPos with | some l => posDiff q l | none => 0
  let w := setO (bump w (Obj.WEB_PRB_ACCEPTED n)) (Obj.WEB_PRB_PITCH n) pitch
  let mark := posDiff q (getO w (Obj.WEB_PRB_OFFSET n))
  let w := setO (setO (setO w (Obj.WEB_PRB_POS n) q) (Obj.WEB_PRB_ET n) et) (Obj.WEB_PRB_MARK n) mark
  let w := updPrb w n fun p => { p with lastPos := some q }
  raiseAt w Ev.PRB_LATCH n (b2n rising * 2147483648 + getN w (Obj.WEB_PRB_ACCEPTED n) % 2147483648) et q

/-- The frame-start probe's latch places its boundary after the record (R54); no other probe's does. -/
theorem prbAccept_cases (mode : DevState) (n : Nat) (rising : Bool) (q : Int) (et : Nat) :
    prbAccept mode w n rising q et = prbRecord w n rising q et ∨
      ∃ mark, prbAccept mode w n rising q et = frameLatch mode (prbRecord w n rising q et) n mark := by
  by_cases h : frameStartProbe (prbRecord w n rising q et) = some n
  · exact .inr ⟨_, if_pos h⟩
  · exact .inl (if_neg h)

theorem prbAccept_web (mode : DevState) (n : Nat) (rising : Bool) (q : Int) (et : Nat) :
    (prbAccept mode w n rising q et).web = (prbRecord w n rising q et).web := by
  obtain h | ⟨mark, h⟩ := prbAccept_cases w mode n rising q et <;> simp [h]

theorem getO_prbAccept (mode : DevState) (n : Nat) (rising : Bool) (q : Int) (et : Nat) {k : Nat}
    (hk : Obj.JOB_MARKS_LATE ≠ k) :
    getO (prbAccept mode w n rising q et) k = getO (prbRecord w n rising q et) k := by
  obtain h | ⟨mark, h⟩ := prbAccept_cases w mode n rising q et <;> simp [h, getO_frameLatch_ne _ _ _ _ hk]

theorem getN_prbRecord_accepted (n : Nat) (rising : Bool) (q : Int) (et : Nat) :
    getN (prbRecord w n rising q et) (Obj.WEB_PRB_ACCEPTED n) =
      (getN w (Obj.WEB_PRB_ACCEPTED n) + 1) % 4294967296 := by
  simp [prbRecord, getN_setO_ne]

theorem getO_prbRecord_pos (n : Nat) (rising : Bool) (q : Int) (et : Nat) :
    getO (prbRecord w n rising q et) (Obj.WEB_PRB_POS n) = q := by
  simp [prbRecord, getO_setO]

theorem getO_prbRecord_mark (n : Nat) (rising : Bool) (q : Int) (et : Nat) :
    getO (prbRecord w n rising q et) (Obj.WEB_PRB_MARK n) = posDiff q (getO w (Obj.WEB_PRB_OFFSET n)) := by
  simp [prbRecord, getO_setO_ne, getO_bump_ne]

theorem prbAt_prbRecord {n : Nat} (h : n < w.web.prb.length) (rising : Bool) (q : Int) (et : Nat) :
    prbAt (prbRecord w n rising q et) n = { prbAt w n with lastPos := some q } := by
  unfold prbRecord
  dsimp only
  rw [prbAt_raiseAt, prbAt_congr (updPrb_web_congr (b := w) _ n _), prbAt_updPrb_same w _ h]
  simp -implicitDefEqProofs only [setO_web, bump_web]

/-- An enabled edge of a probe without a window, before any accepted latch and with the web at its high-water mark, is
accepted (R48, R52). -/
theorem probeEdge_accepts {n : Nat} {rising : Bool} (mode : DevState) (hn : n < 8)
    (hen : bitOf (getN w (Obj.WEB_PRB_CFG n)) 0 = true)
    (hedge : bitOf (getN w (Obj.WEB_PRB_CFG n)) (if rising then 1 else 2) = true) (hwin : winOn w n = false)
    (htrk : w.web.trk = .forward) (hlast : (prbAt w n).lastPos = none) :
    probeEdge n rising mode w =
      prbAccept mode w n rising (latchPos w (prbDelay5 w n)) (latchEt w (prbDelay5 w n)) := by
  simp [probeEdge, hn, hen, hedge, hwin, htrk, hlast]

/-- What such an edge leaves: one latch more, its position and its mark coordinate (R48, R53). -/
theorem probeEdge_latches {n : Nat} {rising : Bool} (mode : DevState) (hn : n < 8) (hlen : n < w.web.prb.length)
    (hen : bitOf (getN w (Obj.WEB_PRB_CFG n)) 0 = true)
    (hedge : bitOf (getN w (Obj.WEB_PRB_CFG n)) (if rising then 1 else 2) = true) (hwin : winOn w n = false)
    (htrk : w.web.trk = .forward) (hlast : (prbAt w n).lastPos = none) :
    getN (probeEdge n rising mode w) (Obj.WEB_PRB_ACCEPTED n) = (getN w (Obj.WEB_PRB_ACCEPTED n) + 1) % 4294967296 ∧
      getO (probeEdge n rising mode w) (Obj.WEB_PRB_POS n) = latchPos w (prbDelay5 w n) ∧
      getO (probeEdge n rising mode w) (Obj.WEB_PRB_MARK n) =
        posDiff (latchPos w (prbDelay5 w n)) (getO w (Obj.WEB_PRB_OFFSET n)) ∧
      (prbAt (probeEdge n rising mode w) n).lastPos = some (latchPos w (prbDelay5 w n)) := by
  rw [probeEdge_accepts w mode hn hen hedge hwin htrk hlast]
  refine ⟨?_, ?_, ?_, ?_⟩
  · rw [getN, getO_prbAccept w _ _ _ _ _ (marksLate_ne n (by decide))]
    exact getN_prbRecord_accepted w n _ _ _
  · rw [getO_prbAccept w _ _ _ _ _ (marksLate_ne n (by decide))]
    exact getO_prbRecord_pos w n _ _ _
  · rw [getO_prbAccept w _ _ _ _ _ (marksLate_ne n (by decide))]
    exact getO_prbRecord_mark w n _ _ _
  · rw [prbAt_congr (prbAccept_web w _ _ _ _ _), prbAt_prbRecord w hlen]

/-! ### Windows -/

/-- An adjustment is objects, a record and an event (R328). Each rewrite is a step of its own (`-implicitDefEqProofs`):
left to definitional unfolding, the kernel would evaluate the defaults of the objects written. -/
@[simp] theorem adjust_web (k r src : Nat) (a b : Int) : (adjust w k r src a b).web = w.web := by
  unfold adjust
  dsimp only
  split <;> simp -implicitDefEqProofs only [setO_web, raise_web]

@[simp] theorem winClamp_web (n part src : Nat) (v : Int) : (winClamp w n part src v).web = w.web := by
  unfold winClamp
  dsimp only
  split
  · rfl
  · rw [storeLater_web, adjust_web, setO_web]

/-- The checks of R51 change window values, which are objects, and not the probe's state. -/
@[simp] theorem winCheck_web (n src : Nat) : (winCheck w n src).web = w.web := by
  unfold winCheck
  dsimp only
  split_ifs <;> simp only [winClamp_web]

/-- Putting the held writes in force leaves of a probe's state only that none is held. -/
theorem winApplyHeld_web (n : Nat) :
    (winApplyHeld w n).web = (updPrb w n fun p => { p with held := [none, none, none] }).web := by
  unfold winApplyHeld
  refine updPrb_web_congr (foldl_keeps World.web (fun a i => ?_) _ _) n _
  split
  · rw [storeLater_web, setO_web]
  · rfl

/-- The window of probe `n` as it waits for its decision from its end on (R51). -/
def endedWin (w : World) (n : Nat) : ClosedWin :=
  { start := winVal w n 0, stop := winVal w n 1, clk := w.clk, accepted := (prbAt w n).accepted
    extra := (prbAt w n).extraRaised }

/-- The window of probe `n` put behind those that wait, with what was accepted and raised in it. -/
def winShut (w : World) (n : Nat) : World :=
  updPrb w n fun p =>
    { p with closed := p.closed ++ [{ start := winVal w n 0, stop := winVal w n 1, clk := w.clk, accepted := p.accepted
                                      extra := p.extraRaised }]
             accepted := false, extraRaised := false }

/-- What follows the window [s, e): the window that held writes gave, else the one a period on, and none without a
period. -/
def winNext (w : World) (n : Nat) (s e : Int) (moved : Bool) : World :=
  if moved then w
  else
    let p := winVal w n 2
    if p = 0 then updPrb w n fun p => { p with armed := false }
    else
      let wrap := fun (v : Int) => if winEt w n then v % 4294967296 else wrapSigned 64 v
      setO (setO w (winKey n 0) (wrap (s + p))) (winKey n 1) (wrap (e + p))

/-- A window that ends waits, the held writes take effect with their checks, and the next window follows (R51). -/
theorem winClose_eq {n : Nat} (hn : n < 8) (hon : winOn w n = true) (harm : (prbAt w n).armed = true)
    (hend : winEnded w n = true) :
    ∃ any moved : Bool, winClose n w =
      winNext (if any then winCheck (winApplyHeld (winShut w n) n) n 0 else winApplyHeld (winShut w n) n) n
        (winVal w n 0) (winVal w n 1) moved := by
  let held := (prbAt (winShut w n) n).held
  let moved := (held.getD 0 none).isSome || (held.getD 1 none).isSome
  refine ⟨moved || (held.getD 2 none).isSome, moved, ?_⟩
  rw [winClose, if_pos ⟨hn, hon, harm, hend⟩]
  rfl

theorem prbAt_winShut {n : Nat} (h : n < w.web.prb.length) :
    (prbAt (winShut w n) n).closed = (prbAt w n).closed ++ [endedWin w n] ∧
      (prbAt (winShut w n) n).accepted = false := by
  rw [winShut, prbAt_updPrb_same w _ h]
  exact ⟨rfl, rfl⟩

theorem prbAt_winNext {n : Nat} (h : n < w.web.prb.length) (s e : Int) (moved : Bool) :
    (prbAt (winNext w n s e moved) n).closed = (prbAt w n).closed ∧
      (prbAt (winNext w n s e moved) n).accepted = (prbAt w n).accepted := by
  unfold winNext
  split
  · exact ⟨rfl, rfl⟩
  · dsimp only
    split
    · rw [prbAt_updPrb_same w _ h]
      exact ⟨rfl, rfl⟩
    · rw [prbAt_setO, prbAt_setO]
      exact ⟨rfl, rfl⟩

/-- What a window that ends leaves of its probe: it waits for its decision, and no latch is accepted in the next. -/
theorem prbAt_winClose {n : Nat} (hn : n < 8) (hlen : n < w.web.prb.length) (hon : winOn w n = true)
    (harm : (prbAt w n).armed = true) (hend : winEnded w n = true) :
    (prbAt (winClose n w) n).closed = (prbAt w n).closed ++ [endedWin w n] ∧
      (prbAt (winClose n w) n).accepted = false := by
  obtain ⟨any, moved, hrun⟩ := winClose_eq w hn hon harm hend
  have hweb : (if any then winCheck (winApplyHeld (winShut w n) n) n 0 else winApplyHeld (winShut w n) n).web =
      (updPrb (winShut w n) n fun p => { p with held := [none, none, none] }).web := by
    split <;> simp only [winCheck_web, winApplyHeld_web]
  have hshut : n < (winShut w n).web.prb.length := by rwa [winShut, updPrb_prb_length]
  obtain ⟨hclosed, haccepted⟩ := prbAt_winNext _ (by rwa [hweb, updPrb_prb_length]) (winVal w n 0) (winVal w n 1) moved
  rw [hrun, hclosed, haccepted, prbAt_congr hweb, prbAt_updPrb_same _ _ hshut]
  exact prbAt_winShut w hlen

/-! ### The decision -/

theorem getN_prbDecide_missed (n : Nat) {c : ClosedWin} (h : c.accepted = false) :
    getN (prbDecide w n c) (Obj.WEB_PRB_MISSED n) = (getN w (Obj.WEB_PRB_MISSED n) + 1) % 4294967296 := by
  simp [prbDecide, h]

@[simp] theorem prbDecide_web (n : Nat) (c : ClosedWin) : (prbDecide w n c).web = w.web := by
  unfold prbDecide
  split <;> rfl

/-- One window that has waited for T_d without a latch is decided: it waits no more, and counts as missed (R51). -/
theorem prbMissed_misses {n : Nat} {c : ClosedWin} (hlen : n < w.web.prb.length) (hclosed : (prbAt w n).closed = [c])
    (hmissed : c.accepted = false) (hdue : c.clk + prbTd w n ≤ w.clk) :
    (prbAt (prbMissed n w) n).closed = [] ∧
      getN (prbMissed n w) (Obj.WEB_PRB_MISSED n) = (getN w (Obj.WEB_PRB_MISSED n) + 1) % 4294967296 := by
  have hrun : prbMissed n w = prbDecide (updPrb w n fun p => { p with closed := [] }) n c := by
    simp [prbMissed, hclosed, hdue]
  rw [hrun, prbAt_congr (prbDecide_web _ n c), prbAt_updPrb_same w _ hlen, getN_prbDecide_missed _ n hmissed]
  exact ⟨rfl, rfl⟩

end Sys2Proof.Machine
end

section
/-! SUPPORT. The magnetic switches (R55, R56): what marking and inhibiting leave of the objects. -/

namespace Sys2Proof.Machine

variable (w : World)

theorem exec_hswChange {s : State} (h : powered s.ctl.mode = true) (n : Nat) (high : Bool) (pos : Int) (et : Nat) :
    exec (.hswChange n high pos et) s = .next (runMeaning (hswChange n high pos et s.ctl.mode) s) :=
  onWorld_whenDo (c := fun k => powered k.mode) (fun k => hswChange n high pos et k.mode) h

/-! ### Inhibits -/

@[simp] theorem getO_inhibitRow (kind r k : Nat) : getO (inhibitRow w kind r) k = getO w k := by
  unfold inhibitRow
  dsimp only
  split <;> rfl

@[simp] theorem getO_switchRelease (r k : Nat) : getO (switchRelease w r) k = getO w k := by
  unfold switchRelease
  dsimp only
  split_ifs <;> rfl

/-! ### Defect records -/

@[simp] theorem getO_noteWrite (area unit : Nat) (line : Int) (k : Nat) :
    getO (noteWrite area unit line w) k = getO w k := by
  unfold noteWrite
  dsimp only
  split
  · split <;> rfl
  · rfl

/-- A defect record counts in JOB_DEFECT_COUNT (R93) and writes no other object. -/
theorem getO_newDefect_ne (d : DefectRec) {k : Nat} (hk : Obj.JOB_DEFECT_COUNT ≠ k) :
    getO (newDefect w d) k = getO w k :=
  (getO_bump_ne _ hk).trans (getO_noteWrite w 0 0 0 k)

theorem getO_defectFrame_ne (no cause : Nat) (start stop : Int) {k : Nat} (hk : Obj.JOB_DEFECT_COUNT ≠ k) :
    getO (defectFrame w no cause start stop) k = getO w k := getO_newDefect_ne w _ hk

theorem getO_rangeFrames_ne (cause : Nat) (stop : Int) (fs : List FrameRec) (cur : Int) {k : Nat}
    (hk : Obj.JOB_DEFECT_COUNT ≠ k) : getO (rangeFrames cause stop fs cur w).2 k = getO w k := by
  induction fs generalizing cur w with
  | nil => rfl
  | cons f fs ih =>
    unfold rangeFrames
    split
    · exact ih w cur
    · dsimp only
      rw [ih, getO_defectFrame_ne _ _ _ _ _ hk]
      split
      · exact getO_defectFrame_ne w _ _ _ _ hk
      · rfl

theorem getO_defectRange_ne (printing : Bool) (cause : Nat) (start stop : Int) {k : Nat}
    (hk : Obj.JOB_DEFECT_COUNT ≠ k) : getO (defectRange w printing cause start stop) k = getO w k := by
  unfold defectRange
  dsimp only
  generalize (if printing then _ else stop) = known
  have hrange := getO_rangeFrames_ne w cause known w.job.frames start hk
  generalize rangeFrames cause known w.job.frames start w = r at hrange ⊢
  have hgap : getO (if r.1 < known then defectFrame r.2 0 cause r.1 known else r.2) k = getO w k := by
    split
    · exact (getO_defectFrame_ne _ _ _ _ _ hk).trans hrange
    · exact hrange
  split
  · exact hgap
  · exact hgap

/-! ### Levels -/

/-- The level that a switch takes is its bit of WEB_HSW_STATE (R55); no action of R56 writes that object. -/
theorem getN_hswChange_state {n : Nat} {high : Bool} (pos : Int) (et : Nat) (mode : DevState) (hn : n < 4)
    (hen : bitOf (getN w (Obj.WEB_HSW_CFG n)) 0 = true)
    (hnew : bitOf (getN w Obj.WEB_HSW_STATE) n ≠ (high == bitOf (getN w (Obj.WEB_HSW_CFG n)) 1)) :
    getN (hswChange n high pos et mode w) Obj.WEB_HSW_STATE =
      setBit (getN w Obj.WEB_HSW_STATE) n (high == bitOf (getN w (Obj.WEB_HSW_CFG n)) 1) := by
  have hset : getN (setO w Obj.WEB_HSW_STATE (setBit (getN w Obj.WEB_HSW_STATE) n
      (high == bitOf (getN w (Obj.WEB_HSW_CFG n)) 1) : Nat)) Obj.WEB_HSW_STATE =
      setBit (getN w Obj.WEB_HSW_STATE) n (high == bitOf (getN w (Obj.WEB_HSW_CFG n)) 1) := getN_setO_same w _ _
  refine Eq.trans (congrArg Int.toNat ?_) hset
  unfold hswChange
  rw [if_pos ⟨hn, hen, hnew⟩]
  dsimp only
  split
  · split
    · rfl
    · exact getO_defectRange_ne _ _ _ _ _ (by decide)
  · exact foldl_keeps (fun w => getO w Obj.WEB_HSW_STATE) (fun w r => getO_inhibitRow w 2 r _) _ _
  · split
    · rfl
    · exact foldl_keeps (fun w => getO w Obj.WEB_HSW_STATE) (fun w r => getO_switchRelease w r _) _ _
  · rfl

end Sys2Proof.Machine
end

section
/-! SUPPORT. The SSI masters (R57 to R60): the divider of the clock, and what a transfer leaves. -/

namespace Sys2Proof.Machine

variable (w : World)

theorem exec_ssiTransferStart {s : State} (h : powered s.ctl.mode = true) (n : Nat) :
    exec (.ssiTransferStart n) s = .next (runMeaning (ssiStart n) s) :=
  onWorld_whenDo (c := fun k => powered k.mode) (fun _ => ssiStart n) h

theorem exec_ssiTransferDone {s : State} (h : powered s.ctl.mode = true) {n : Nat} (hn : n < 2) (raw : Nat)
    (idleHigh err : Bool) :
    exec (.ssiTransferDone n raw idleHigh err) s = .next (runMeaning (ssiDone n raw idleHigh err) s) :=
  onWorld_whenDo (c := fun k => powered k.mode && decide (n < 2)) (fun _ => ssiDone n raw idleHigh err) (by simp [h, hn])

/-! ### The clock -/

theorem ceilDiv_le_iff {n d k : Nat} (hd : 0 < d) : ceilDiv n d ≤ k ↔ n ≤ d * k := by
  rw [ceilDiv, ← Nat.ceilDiv_eq_add_pred_div]
  exact ceilDiv_le_iff_le_mul hd

/-- From 100 kHz on no request needs a divider above 1,563: only the lower limit cuts the quotient (R58). -/
theorem ssiDiv_eq {hz : Nat} (hlo : 100000 ≤ hz) : ssiDiv hz = max 16 (ceilDiv 312500000 (2 * hz)) := by
  have h : ceilDiv 312500000 (2 * hz) ≤ 1563 := (ceilDiv_le_iff (by omega)).mpr (by omega)
  rw [ssiDiv, min_eq_right h]

/-- A divider from 16 on keeps to the request just when it is not below `ssiDiv` (R58). -/
theorem ssiDiv_le_iff {hz d : Nat} (hlo : 100000 ≤ hz) (hd : 16 ≤ d) : ssiDiv hz ≤ d ↔ 156250000 ≤ d * hz := by
  rw [ssiDiv_eq hlo, max_le_iff, ceilDiv_le_iff (by omega), mul_assoc, mul_comm hz d]
  omega

/-- The clock that a divider gives, rounded to the nearest Hz, halves upward. -/
theorem ssiClk_eq (hz : Nat) : ssiClk hz = (312500000 + ssiDiv hz) / (2 * ssiDiv hz) := by
  have h : roundDiv 312500000 (2 * ssiDiv hz) = ((2 * (312500000 + ssiDiv hz)) / (2 * (2 * ssiDiv hz)) : Nat) := by
    simp [roundDiv, mul_add]
  rw [ssiClk, h, Int.toNat_natCast, Nat.mul_div_mul_left _ _ (by norm_num)]

/-- WEB_SSI_CLK_ACT is computed, from the value in force of WEB_SSI_CLK_HZ. -/
theorem objRead_ssiClkAct (c : Ctl) {n : Nat} (hn : n < 2) (f : Bool) :
    objRead c w (Obj.WEB_SSI_CLK_ACT n) f = ssiClk (getN w (Obj.WEB_SSI_CLK_HZ n)) := by
  obtain rfl | rfl : n = 0 ∨ n = 1 := by omega
  · rfl
  · rfl

/-! ### Transfers -/

/-- The first transfer of an enabled master latches ET and position as it starts (R59). -/
theorem ssiAt_ssiStart {n : Nat} (hn : n < 2) (hlen : n < w.web.ssi.length)
    (hen : getF w (Obj.WEB_SSI_CFG n) 0 1 = 1) (hbusy : (ssiAt w n).busy = none)
    (hfirst : (ssiAt w n).lastStart = none) :
    (ssiAt (ssiStart n w) n).busy = some (nowEt w, webPos w) := by
  simp [ssiStart, hn, hen, hbusy, hfirst, hlen]

/-- A transfer whose data line is low before the first clock fails: an error counts, and the value stays (R60). -/
theorem ssiDone_fails {n raw : Nat} {err : Bool} {et : Nat} {pos : Int} (hlen : n < w.web.ssi.length)
    (hbusy : (ssiAt w n).busy = some (et, pos)) :
    (ssiAt (ssiDone n raw false err w) n).busy = none ∧
      getN (ssiDone n raw false err w) (Obj.WEB_SSI_ERRORS n) = (getN w (Obj.WEB_SSI_ERRORS n) + 1) % 4294967296 ∧
      getO (ssiDone n raw false err w) (Obj.WEB_SSI_VALUE n) = getO w (Obj.WEB_SSI_VALUE n) := by
  have hrun : ssiDone n raw false err w =
      raiseAt (bump (updSsi w n fun m => { m with busy := none }) (Obj.WEB_SSI_ERRORS n)) Ev.SSI_FAULT n 1 et pos := by
    simp [ssiDone, hbusy]
  rw [hrun, getN_raiseAt, getO_raiseAt, getN_bump_same, getO_bump_ne _ (by simp)]
  exact ⟨congrArg SsiM.busy (ssiAt_updSsi_same w _ hlen), rfl, rfl⟩

/-- A binary word short of all ones, from a master with neither error bit nor limit, is the new value, at the ET of its
start (R60). -/
theorem ssiDone_good {n raw : Nat} {err : Bool} {et : Nat} {pos : Int} (hbusy : (ssiAt w n).busy = some (et, pos))
    (hbin : getF w (Obj.WEB_SSI_CFG n) 1 1 = 0) (hnoErr : getF w (Obj.WEB_SSI_CFG n) 2 1 = 0)
    (hnoLim : getN w (Obj.WEB_SSI_MAX_DELTA n) = 0) (hraw : raw + 1 < 2 ^ getF w (Obj.WEB_SSI_CFG n) 8 8) :
    getO (ssiDone n raw true err w) (Obj.WEB_SSI_VALUE n) = raw ∧
      getO (ssiDone n raw true err w) (Obj.WEB_SSI_ET n) = et := by
  have hmod : raw % 2 ^ getF w (Obj.WEB_SSI_CFG n) 8 8 = raw := Nat.mod_eq_of_lt (by omega)
  have hrun : ssiDone n raw true err w =
      setO (setO (updSsi (updSsi w n fun m => { m with busy := none }) n fun m => { m with good := true })
        (Obj.WEB_SSI_VALUE n) raw) (Obj.WEB_SSI_ET n) et := by
    simp [ssiDone, hbusy, hbin, hnoErr, hnoLim, hmod, hraw.ne]
  rw [hrun, getO_setO_same, getO_setO_ne _ _ (by simp), getO_setO_same]
  exact ⟨rfl, rfl⟩

end Sys2Proof.Machine
end

section
/-! Obligation O13, from the rules of the probes, the switches and the SSI masters. -/

open Sys2Proof Sys2Proof.Machine

/-- Settles O13: each command runs its meaning in a powered state, and delivering its events leaves what the meaning
wrote. The divider of R58 is `ssiDiv` of the request. -/
theorem probesSwitchesAndSsi : Obligations.ProbesSwitchesAndSsi := by
  refine ⟨fun s n hpow hn hlen => ⟨?latch, ?window, ?decision⟩, fun s n hpow => ⟨?switch, ?clock, ?start, ?transfer⟩⟩
  case latch =>
    intro rising hen hedge hwin htrk hlast
    obtain ⟨hcount, hpos, hmark, hnew⟩ :=
      probeEdge_latches (fresh s).w s.ctl.mode hn hlen hen hedge hwin htrk hlast
    exact ⟨_, exec_probeEdge hpow n rising, (getN_runMeaning _ _ (webKey_lt (by decide) hn)).trans hcount,
      (getO_runMeaning _ _ (webKey_lt (by decide) hn)).trans hpos,
      (getO_runMeaning _ _ (webKey_lt (by decide) hn)).trans hmark, by rwa [prbAt_runMeaning]⟩
  case window =>
    intro hon harm hend
    refine ⟨_, exec_prbWindowClose hpow n, ?_⟩
    rw [prbAt_runMeaning]
    exact prbAt_winClose (fresh s).w hn hlen hon harm hend
  case decision =>
    intro c hclosed hmissed hdue
    obtain ⟨hnone, hcount⟩ := prbMissed_misses (fresh s).w hlen hclosed hmissed hdue
    exact ⟨_, exec_prbMissed hpow hn, by rwa [prbAt_runMeaning],
      (getN_runMeaning _ _ (webKey_lt (by decide) hn)).trans hcount⟩
  case switch =>
    intro high pos et hn hen hnew
    refine ⟨_, exec_hswChange hpow n high pos et, ?_⟩
    rw [getN_runMeaning _ _ (by decide)]
    exact getN_hswChange_state (fresh s).w pos et s.ctl.mode hn hen hnew
  case clock =>
    rintro hz hn rfl hlo hhi
    have hdiv := fun {d} => ssiDiv_le_iff (d := d) hlo
    refine ⟨ssiDiv (getN s.w (Obj.WEB_SSI_CLK_HZ n)), ?_, ?_, ?_, ?_, ?_⟩
    · exact le_max_left _ _
    · exact (hdiv (by norm_num)).mpr (by omega)
    · exact (hdiv (le_max_left _ _)).mp le_rfl
    · exact fun d' hd' h => (hdiv hd').mpr h
    · intro f
      rw [objRead_ssiClkAct s.w s.ctl hn, ssiClk_eq]
  case start =>
    intro hn hlen hen hbusy hfirst
    refine ⟨_, exec_ssiTransferStart hpow n, ?_⟩
    rw [ssiAt_runMeaning]
    exact ssiAt_ssiStart (fresh s).w hn hlen hen hbusy hfirst
  case transfer =>
    intro raw err et pos hn hlen hbusy
    have hn8 : n < 8 := by omega
    constructor
    · obtain ⟨hidle, hcount, hvalue⟩ := ssiDone_fails (fresh s).w (raw := raw) (err := err) hlen hbusy
      exact ⟨_, exec_ssiTransferDone hpow hn raw false err, by rwa [ssiAt_runMeaning],
        (getN_runMeaning _ _ (webKey_lt (by decide) hn8)).trans hcount,
        (getO_runMeaning _ _ (webKey_lt (by decide) hn8)).trans hvalue⟩
    · intro hbin hnoErr hnoLim hraw
      obtain ⟨hvalue, het⟩ := ssiDone_good (fresh s).w (err := err) hbusy hbin hnoErr hnoLim hraw
      exact ⟨_, exec_ssiTransferDone hpow hn raw true err,
        (getO_runMeaning _ _ (webKey_lt (by decide) hn8)).trans hvalue,
        (getO_runMeaning _ _ (webKey_lt (by decide) hn8)).trans het⟩
end

section
/-! SUPPORT. Frames of a command that changes the world alone: each shared update of the world names what it writes,
frames of updates compose, and delivering the events keeps them. -/

namespace Sys2Proof.Machine

/-! ### Parts under the shared updates -/

theorem samePart_trans {p : Part} {a b c : World} (hab : samePart p a b) (hbc : samePart p b c) : samePart p a c := by
  cases p
  case shadow =>
    obtain ⟨h, h'⟩ := hab
    exact ⟨hbc.1.trans h, hbc.2.trans h'⟩
  case stores =>
    obtain ⟨h1, h2, h3, h4, h5, h6⟩ := hab
    obtain ⟨g1, g2, g3, g4, g5, g6⟩ := hbc
    exact ⟨g1.trans h1, g2.trans h2, g3.trans h3, g4.trans h4, g5.trans h5, g6.trans h6⟩
  case net =>
    have h : { c.net with partners := a.net.partners } = { b.net with partners := a.net.partners } :=
      congrArg (fun n : Net => { n with partners := a.net.partners }) hbc
    exact h.trans hab
  case can =>
    have h : { c.can with emcyQ := a.can.emcyQ } = { b.can with emcyQ := a.can.emcyQ } :=
      congrArg (fun n : Can => { n with emcyQ := a.can.emcyQ }) hbc
    exact h.trans hab
  all_goals exact Eq.trans hbc hab

/-- The objects in force, the events, the pending records of the partners and the EMCY queue belong to no part. -/
theorem samePart_outside (p : Part) (a : World) (e : Evt) (o : KMap Int) (q : List EvRec) (ps : KMap Partner) :
    samePart p a { a with evt := e, dict := { a.dict with obj := o }, can := { a.can with emcyQ := q }
                          net := { a.net with partners := ps } } := by
  cases p <;> simp only [samePart, and_self]

theorem samePart_refl (p : Part) (w : World) : samePart p w w := samePart_outside p w _ _ _ _

theorem samePart_setO (p : Part) (w : World) (k : Nat) (v : Int) : samePart p w (setO w k v) :=
  samePart_outside p w _ _ _ _

theorem samePart_raise (p : Part) (w : World) (code inst data : Nat) : samePart p w (raise w code inst data) :=
  samePart_outside p w _ _ _ _

theorem samePart_settle (p : Part) (w : World) : samePart p w (settle w) := by
  obtain ⟨⟨e, o, q, ps, h⟩, -⟩ := settle_delivered w
  rw [h]
  exact samePart_outside p w e o q ps

/-- An update of Voile writes the part of Voile alone. -/
theorem samePart_voi {p : Part} (hp : p ≠ .voi) (w : World) (v : Voi) : samePart p w { w with voi := v } := by
  cases p
  case voi => exact absurd rfl hp
  all_goals simp only [samePart, and_self]

/-! ### Frames of worlds -/

/-- The frame of a meaning: every part but those listed stays, and every object but those that `objs` names. -/
def WorldFrame (parts : List Part) (objs : Nat → Bool) (a b : World) : Prop :=
  (∀ p, p ∉ parts → samePart p a b) ∧ ∀ k, objs k = false → getO b k = getO a k

section
variable {parts : List Part} {objs : Nat → Bool}

theorem WorldFrame.refl (a : World) : WorldFrame parts objs a a := ⟨fun p _ => samePart_refl p a, fun _ _ => rfl⟩

theorem WorldFrame.trans {a b c : World} (hab : WorldFrame parts objs a b) (hbc : WorldFrame parts objs b c) :
    WorldFrame parts objs a c := by
  obtain ⟨hpart, hobj⟩ := hab
  obtain ⟨hpart', hobj'⟩ := hbc
  exact ⟨fun p hp => samePart_trans (hpart p hp) (hpart' p hp), fun k hk => (hobj' k hk).trans (hobj k hk)⟩

theorem WorldFrame.setO {a b : World} (h : WorldFrame parts objs a b) {k : Nat} (hk : objs k = true) (v : Int) :
    WorldFrame parts objs a (setO b k v) := by
  refine h.trans ⟨fun p _ => samePart_setO p b k v, fun j hj => getO_setO_ne b v ?_⟩
  rintro rfl
  simp [hk] at hj

theorem WorldFrame.raise {a b : World} (h : WorldFrame parts objs a b) (code inst data : Nat) :
    WorldFrame parts objs a (raise b code inst data) :=
  h.trans ⟨fun p _ => samePart_raise p b code inst data, fun _ _ => rfl⟩

theorem WorldFrame.updVoi {a b : World} (h : WorldFrame parts objs a b) (hp : .voi ∈ parts) (f : Voi → Voi) :
    WorldFrame parts objs a (updVoi b f) :=
  h.trans ⟨fun _ hq => samePart_voi (ne_of_mem_of_not_mem hp hq).symm b _, fun _ _ => rfl⟩

theorem WorldFrame.updPair {a b : World} (h : WorldFrame parts objs a b) (hp : .voi ∈ parts) (i : Nat)
    (f : Pair → Pair) : WorldFrame parts objs a (updPair b i f) :=
  h.trans ⟨fun _ hq => samePart_voi (ne_of_mem_of_not_mem hp hq).symm b _, fun _ _ => rfl⟩

/-- Delivery keeps the frame of a meaning, and neither control block nor queue is in reach of a meaning. -/
theorem WorldFrame.touches {f : World → World} {s : State} (h : WorldFrame parts objs (fresh s).w (f (fresh s).w)) :
    Touches parts objs s (runMeaning f s) := by
  obtain ⟨hpart, hobj⟩ := h
  refine ⟨rfl, rfl, fun p hp => ?_, fun k hk hlog hemcy => (getO_settle _ hlog hemcy).trans (hobj k hk)⟩
  have hfresh : samePart p s.w (fresh s).w := by cases p <;> simp only [samePart, fresh, and_self]
  exact samePart_trans hfresh (samePart_trans (hpart p hp) (samePart_settle p _))

end

/-! ### The event of a command -/

theorem settle_eq_deliver {w : World} {r : EvRec} (h : w.evt.raised = [r]) :
    settle w = deliver { w with evt := { w.evt with raised := [] } } r := by
  simp [settle, h, evSort, evInsert]

/-- A meaning that raises one event on a quiet block reports it (R450). -/
theorem reports_runMeaning {f : World → World} {s : State} {w : World} {code inst data : Nat} (hq : Quiet s)
    (hf : f (fresh s).w = raise w code inst data) (hevt : w.evt = s.w.evt) :
    Reports s (runMeaning f s) code data := by
  have hraised : w.evt.raised = [] := by rw [hevt]; exact hq
  have hrun : (runMeaning f s).w = settle (raise w code inst data) := congrArg settle hf
  rw [Reports, lastData, hrun, settle_eq_deliver (by rw [raise, raiseAt, hraised]; rfl), deliver_seq, deliver_lastData,
    mapGetD_mapPutD_same, ← hevt]
  exact ⟨rfl, rfl⟩

end Sys2Proof.Machine
end

section
/-! SUPPORT. The loops of Voile (R274 to R278): what the end of a headroom period, a step of the power recovery and the
two commands of an unverified pair leave. -/

namespace Sys2Proof.Machine

variable (w : World)

/-! ### The commands -/

@[simp] theorem runMeaning_voi (f : World → World) (s : State) : (runMeaning f s).w.voi = (f (fresh s).w).voi :=
  settle_voi _

@[simp] theorem pairAt_runMeaning (f : World → World) (s : State) (n : Nat) :
    pairAt (runMeaning f s).w n = pairAt (f (fresh s).w) n := by simp [pairAt]

theorem onWorld_whileScanning (f : World → World) {s : State} (h : scanning s.ctl.mode s.w = true) :
    onWorld (fun c w => whenDo (scanning c.mode w) f w) s = .next (runMeaning f s) := by
  have hfresh : scanning s.ctl.mode { s.w with out := [] } = true := h
  simp only [onWorld, whenDo, hfresh, if_true]
  rfl

theorem exec_hrPeriodEnd {s : State} (h : scanning s.ctl.mode s.w = true) :
    exec .hrPeriodEnd s = .next (runMeaning hrPeriodEnd s) := onWorld_whileScanning hrPeriodEnd h

theorem exec_voiPwrRecoverStep {s : State} (h : scanning s.ctl.mode s.w = true) :
    exec .voiPwrRecoverStep s = .next (runMeaning pwrRecover s) := onWorld_whileScanning pwrRecover h

theorem exec_voiUnverify (k c : Nat) (s : State) :
    exec (.voiUnverify k c) s = .next (runMeaning (voiUnverify k c) s) := rfl

theorem exec_voiUnverified (k c : Nat) (s : State) :
    exec (.voiUnverified k c) s = .next (runMeaning (voiUnverified k c) s) := rfl

/-! ### The duty -/

/-- With HR_EN at 1 the duty is the value asked for, kept between 0 and VOI_HR_MAX. -/
theorem getO_setDuty_enabled (hen : bitOf (insN w Obj.VOI_CFG) 2 = true) (v : Int) :
    getO (setDuty w v) Obj.VOI_HR_DUTY = clampInt 0 (getO w Obj.VOI_HR_MAX) v := by
  rw [setDuty, getO_setO_same, if_pos hen]

theorem getO_setDuty_ne (v : Int) {k : Nat} (hk : Obj.VOI_HR_DUTY ≠ k) : getO (setDuty w v) k = getO w k :=
  getO_setO_ne _ _ hk

theorem worldFrame_setDuty (v : Int) {objs : Nat → Bool} (h : objs Obj.VOI_HR_DUTY = true) :
    WorldFrame [.voi] objs w (setDuty w v) :=
  ((WorldFrame.refl w).updVoi (by simp) _).setO h _

/-! ### The end of a headroom period -/

/-- The duty that the lowest sample of a period asks for (R274). -/
def hrDutyWanted (w : World) (m : Nat) : Int :=
  if (m : Int) < getO w Obj.VOI_HR_TARGET_MV - 100 then getO w Obj.VOI_HR_DUTY + 4
  else if getO w Obj.VOI_HR_TARGET_MV + 100 < (m : Int) then getO w Obj.VOI_HR_DUTY - 1
  else getO w Obj.VOI_HR_DUTY

/-- A period closed with the lowest sample shown: the next one begins without a sample. -/
def hrShown (w : World) (m : Nat) : World :=
  setO (updVoi w fun v => { v with hrScans := 0, vMin := none, lowPeriod := false }) Obj.VOI_VMIN_MV (min 40000 m : Nat)

/-- A period closed with the lowest sample shown and the duty moved. -/
def hrMoved (w : World) (m : Nat) : World := setDuty (hrShown w m) (hrDutyWanted w m)

theorem getO_hrShown_ne (m : Nat) {k : Nat} (hk : Obj.VOI_VMIN_MV ≠ k) : getO (hrShown w m) k = getO w k :=
  getO_setO_ne _ _ hk

theorem hrMoved_duty (m : Nat) (hen : bitOf (insN w Obj.VOI_CFG) 2 = true) :
    getO (hrMoved w m) Obj.VOI_HR_DUTY = clampInt 0 (getO w Obj.VOI_HR_MAX) (hrDutyWanted w m) := by
  have hen' : bitOf (insN (hrShown w m) Obj.VOI_CFG) 2 = true := hen
  rw [hrMoved, getO_setDuty_enabled _ hen', getO_hrShown_ne w m (by decide)]

theorem hrMoved_vmin (m : Nat) : getN (hrMoved w m) Obj.VOI_VMIN_MV = min 40000 m := by
  rw [getN, hrMoved, getO_setDuty_ne _ _ (by decide), hrShown, getO_setO_same, Int.toNat_natCast]

theorem worldFrame_hrMoved (m : Nat) :
    WorldFrame [.voi] (objsOf [Obj.VOI_VMIN_MV, Obj.VOI_HR_DUTY]) w (hrMoved w m) :=
  (((WorldFrame.refl w).updVoi (by simp) _).setO (by decide) _).trans (worldFrame_setDuty _ _ (by decide))

/-- A period that ends with a sample moves the duty, and may report the end of an episode of low samples. -/
theorem hrPeriodEnd_cases {m : Nat} (hper : getN w Obj.VOI_HR_PERIOD ≤ w.voi.hrScans) (hmin : w.voi.vMin = some m) :
    hrPeriodEnd w = hrMoved w m ∨
      hrPeriodEnd w = raise (updVoi (hrMoved w m) fun v => { v with episode := false, sat := false })
        Ev.VOI_HEADROOM 0 (m % 65536) := by
  have hwanted : hrDutyWanted (hrShown w m) m = hrDutyWanted w m := by
    simp only [hrDutyWanted, getO_hrShown_ne w m (k := Obj.VOI_HR_TARGET_MV) (by decide),
      getO_hrShown_ne w m (k := Obj.VOI_HR_DUTY) (by decide)]
  have hrun : hrPeriodEnd w =
      if w.voi.episode ∧ 500 ≤ m ∧ w.voi.lowPeriod = false then
        raise (updVoi (setDuty (hrShown w m) (hrDutyWanted (hrShown w m) m)) fun v =>
          { v with episode := false, sat := false }) Ev.VOI_HEADROOM 0 (m % 65536)
      else setDuty (hrShown w m) (hrDutyWanted (hrShown w m) m) := by
    rw [hrPeriodEnd, if_neg (by omega)]
    dsimp only
    rw [hmin]
    rfl
  rw [hrun, hwanted]
  split
  · exact .inr rfl
  · exact .inl rfl

/-- What the end of a period leaves (R274). -/
theorem hrPeriodEnd_spec {m : Nat} (hper : getN w Obj.VOI_HR_PERIOD ≤ w.voi.hrScans) (hmin : w.voi.vMin = some m)
    (hen : bitOf (insN w Obj.VOI_CFG) 2 = true) :
    (hrPeriodEnd w).voi.hrScans = 0 ∧ (hrPeriodEnd w).voi.vMin = none ∧
      getN (hrPeriodEnd w) Obj.VOI_VMIN_MV = min 40000 m ∧
      getO (hrPeriodEnd w) Obj.VOI_HR_DUTY = clampInt 0 (getO w Obj.VOI_HR_MAX) (hrDutyWanted w m) ∧
      WorldFrame [.voi] (objsOf [Obj.VOI_VMIN_MV, Obj.VOI_HR_DUTY]) w (hrPeriodEnd w) := by
  obtain h | h := hrPeriodEnd_cases w hper hmin
  · rw [h]
    exact ⟨rfl, rfl, hrMoved_vmin w m, hrMoved_duty w m hen, worldFrame_hrMoved w m⟩
  · rw [h, getN_raise, getO_raise]
    exact ⟨rfl, rfl, hrMoved_vmin w m, hrMoved_duty w m hen, ((worldFrame_hrMoved w m).updVoi (by simp) _).raise _ _ _⟩

/-! ### The power recovery -/

/-- A step of the recovery raises VOI_I_GLB_EFF by one code and begins the 64 scans anew (R275). -/
theorem pwrRecover_rises {c : Nat} (hbelow : w.voi.belowClk = some c) (hheld : c + secClk 1 ≤ w.clk)
    (hscans : 64 ≤ w.voi.sinceRise) (hcut : getO w Obj.VOI_I_GLB_EFF < insV w Obj.VOI_I_GLB) :
    pwrRecover w = updVoi (setO w Obj.VOI_I_GLB_EFF (getO w Obj.VOI_I_GLB_EFF + 1)) fun v => { v with sinceRise := 0 } := by
  simp only [pwrRecover, hbelow, hheld, hscans, hcut, decide_true, and_self, if_true]

/-! ### Unverified pairs -/

/-- A pair in use whose last measurement is VOI_VERIFY_MS old becomes UNVERIFIED (R277). -/
theorem voiUnverify_due {k c : Nat} (hk : k < 8) (hc : c < 32) (huse : pairInUse w k c = true)
    (hst : (pairAt w (32 * k + c)).st ≠ 3)
    (hdue : (pairAt w (32 * k + c)).measClk + msClk (getN w Obj.VOI_VERIFY_MS) ≤ w.clk) :
    voiUnverify k c w = updPair w (32 * k + c) fun p => { p with st := 3, unverClk := w.clk, toldClk := w.clk } :=
  if_pos ⟨hk, hc, hst, huse, hdue⟩

/-- A pair that has stayed UNVERIFIED for VOI_UNVER_MS since its last report is reported, with STRETCH_EN at 0 (R278). -/
theorem voiUnverified_due {k c : Nat} (hk : k < 8) (hc : c < 32) (huse : pairInUse w k c = true)
    (hst : (pairAt w (32 * k + c)).st = 3) (hstretch : bitOf (insN w Obj.VOI_CFG) 1 = false)
    (hdue : (pairAt w (32 * k + c)).toldClk + msClk (getN w Obj.VOI_UNVER_MS) ≤ w.clk) :
    voiUnverified k c w = raise (updPair w (32 * k + c) fun p => { p with toldClk := w.clk }) Ev.VOI_UNVERIFIED
      (32 * k + c) (clkMs (w.clk - (pairAt w (32 * k + c)).unverClk)) :=
  if_pos ⟨hk, hc, hst, huse, hstretch, hdue⟩

end Sys2Proof.Machine
end

section
/-! Obligation O31, from the rules of the loops of Voile. -/

open Sys2Proof Sys2Proof.Machine

/-- Settles O31: each command runs its meaning, the frame of the meaning is composed from its updates, and delivery
leaves what the meaning wrote. -/
theorem voileLoops : Obligations.VoileLoops := by
  refine fun s => ⟨?headroom, ?recovery, fun k c hk hc hlen huse => ⟨?unverify, ?unverified⟩⟩
  case headroom =>
    intro m hscan hper hmin hen
    obtain ⟨hscans, hnone, hvmin, hduty, hframe⟩ := hrPeriodEnd_spec (fresh s).w hper hmin hen
    exact ⟨_, exec_hrPeriodEnd hscan, by rwa [runMeaning_voi], by rwa [runMeaning_voi],
      (getN_runMeaning _ _ (by decide)).trans hvmin, (getO_runMeaning _ _ (by decide)).trans hduty, hframe.touches⟩
  case recovery =>
    intro c hscan hbelow hheld hscans hcut
    have hrun := pwrRecover_rises (fresh s).w hbelow hheld hscans hcut
    refine ⟨_, exec_voiPwrRecoverStep hscan, ?_, ?_, WorldFrame.touches ?_⟩
    · rw [getO_runMeaning _ _ (by decide), hrun]
      exact getO_setO_same (fresh s).w _ _
    · rw [runMeaning_voi, hrun, updVoi_voi]
    · rw [hrun]
      exact ((WorldFrame.refl _).setO (by decide) _).updVoi (by simp) _
  case unverify =>
    intro hst hdue
    have hrun := voiUnverify_due (fresh s).w hk hc huse hst hdue
    have hpair : pairAt (runMeaning (voiUnverify k c) s).w (32 * k + c) =
        { pairAt s.w (32 * k + c) with st := 3, unverClk := s.w.clk, toldClk := s.w.clk } := by
      rw [pairAt_runMeaning, hrun]
      exact pairAt_updPair_same (fresh s).w _ hlen
    refine ⟨_, exec_voiUnverify k c s, by rw [hpair], by rw [hpair], by rw [hpair], WorldFrame.touches ?_⟩
    rw [hrun]
    exact (WorldFrame.refl _).updPair (by simp) _ _
  case unverified =>
    intro hst hstretch hdue
    have hrun := voiUnverified_due (fresh s).w hk hc huse hst hstretch hdue
    have hpair : pairAt (runMeaning (voiUnverified k c) s).w (32 * k + c) =
        { pairAt s.w (32 * k + c) with toldClk := s.w.clk } := by
      rw [pairAt_runMeaning, hrun]
      exact pairAt_updPair_same (fresh s).w _ hlen
    refine ⟨_, exec_voiUnverified k c s, by rw [hpair], by rw [hpair]; exact hst, WorldFrame.touches ?_,
      fun hq => reports_runMeaning hq hrun rfl⟩
    rw [hrun]
    exact ((WorldFrame.refl _).updPair (by simp) _ _).raise _ _ _
end

section
/-! SUPPORT. The checks on a trailer (R347 to R349) in the order in which they are made, what a failed one leaves, and
where a write needs one (R351). -/

namespace Sys2Proof.Machine

section
variable {s : State} {source ix sub : Nat} {data : List Nat} {t : Trailer}

/-! ### The block of R349 -/

theorem lockoutEnd_of_unblocked (hb : s.ctl.sec.blockEnd = none) : lockoutEnd s = s := by
  simp only [lockoutEnd, hb]

theorem lockedOut_of_unblocked (hb : s.ctl.sec.blockEnd = none) : lockedOut s.ctl.sec s.w.clk = false := by
  simp only [lockedOut, hb]

/-- A block in force does not end early. -/
theorem lockoutEnd_of_blocked {b : Nat} (hb : s.ctl.sec.blockEnd = some b) (hclk : s.w.clk < b) : lockoutEnd s = s := by
  simp only [lockoutEnd, hb, if_pos hclk]

theorem lockedOut_of_blocked {b : Nat} (hb : s.ctl.sec.blockEnd = some b) (hclk : s.w.clk < b) :
    lockedOut s.ctl.sec s.w.clk = true := by
  simp only [lockedOut, hb, hclk, decide_true]

/-! ### The checks in their order -/

theorem authStep_some {e : WriteEnv} (he : e.auth = some t) (a : Bool) (source ix sub : Nat) (data : List Nat)
    (s : State) : authStep a source ix sub data e s = authCheck source ix sub data t s := by
  simp only [authStep, he]

theorem authCheck_malformed (hbad : 3 < t.slot ∨ t.pad ≠ 0) : authCheck source ix sub data t s = (St.type, s) :=
  if_pos hbad

theorem authCheck_blocked {b : Nat} (hslot : t.slot ≤ 3) (hpad : t.pad = 0) (hb : s.ctl.sec.blockEnd = some b)
    (hclk : s.w.clk < b) : authCheck source ix sub data t s = (St.lockedOut, s) := by
  have hwell : ¬(3 < t.slot ∨ t.pad ≠ 0) := by omega
  simp only [authCheck, if_neg hwell, lockoutEnd_of_blocked hb hclk, lockedOut_of_blocked hb hclk, if_true]

/-- A slot without a key fails before the tag and the counter are looked at. -/
theorem authCheck_keyless (hslot : t.slot ≤ 3) (hpad : t.pad = 0) (hb : s.ctl.sec.blockEnd = none)
    (hkey : isProgrammed (s.ctl.sec.slots.getD t.slot .empty) = false) :
    authCheck source ix sub data t s = (St.authFailed, authFail source ix t.slot 1 s) := by
  have hwell : ¬(3 < t.slot ∨ t.pad ≠ 0) := by omega
  simp only [authCheck, if_neg hwell, lockoutEnd_of_unblocked hb, lockedOut_of_unblocked hb, Bool.false_eq_true,
    if_false]
  cases hs : s.ctl.sec.slots.getD t.slot .empty with
  | empty => rfl
  | revoked => rfl
  | programmed key => rw [hs] at hkey; cases hkey

/-- With a key in the slot the tag decides before the counter. -/
theorem authCheck_keyed {key : List Nat} (hslot : t.slot ≤ 3) (hpad : t.pad = 0) (hb : s.ctl.sec.blockEnd = none)
    (hkey : s.ctl.sec.slots.getD t.slot .empty = .programmed key) :
    authCheck source ix sub data t s =
      if t.tag ≠ authTag key ix sub t.counter data then (St.authFailed, authFail source ix t.slot 2 s)
      else if t.counter ≤ s.ctl.sec.ctr.getD t.slot 0 then (St.authFailed, authFail source ix t.slot 3 s)
      else (St.ok, setSec s fun x => { x with ctr := x.ctr.set t.slot t.counter }) := by
  have hwell : ¬(3 < t.slot ∨ t.pad ≠ 0) := by omega
  simp only [authCheck, if_neg hwell, lockoutEnd_of_unblocked hb, lockedOut_of_unblocked hb, Bool.false_eq_true,
    if_false, hkey]

/-! ### A failed check -/

/-- A failed check counted, shown and raised, before a block that it may begin. -/
def failShown (source ix slot reason : Nat) (w : World) : World :=
  raise (setO (bump w Obj.SEC_FAILS) Obj.SEC_LAST_FAIL (ix * 65536 + source * 256 + reason * 16 + slot : Nat))
    Ev.AUTH_FAIL source (ix * 65536 + reason * 16 + slot)

theorem getO_failShown_lastFail (source ix slot reason : Nat) (w : World) :
    getO (failShown source ix slot reason w) Obj.SEC_LAST_FAIL =
      (ix * 65536 + source * 256 + reason * 16 + slot : Nat) := by
  rw [failShown, getO_raise, getO_setO_same]

theorem failShown_raises (source ix slot reason : Nat) (w : World) :
    ∃ r, r ∈ (failShown source ix slot reason w).evt.raised ∧ r.code = Ev.AUTH_FAIL :=
  ⟨_, List.mem_append_right _ (List.mem_singleton_self _), rfl⟩

/-- A failure on which a block begins reports that in a second event. -/
theorem authFail_w (source ix slot reason : Nat) (s : State) :
    (authFail source ix slot reason s).w = failShown source ix slot reason s.w ∨
      (authFail source ix slot reason s).w = raise (failShown source ix slot reason s.w) Ev.AUTH_LOCKOUT 0 1 := by
  simp only [authFail]
  split
  · exact .inr rfl
  · exact .inl rfl

theorem authFail_lastFail (source ix slot reason : Nat) (s : State) :
    getO (authFail source ix slot reason s).w Obj.SEC_LAST_FAIL =
      (ix * 65536 + source * 256 + reason * 16 + slot : Nat) := by
  obtain h | h := authFail_w source ix slot reason s
  · rw [h, getO_failShown_lastFail]
  · rw [h, getO_raise, getO_failShown_lastFail]

theorem authFail_raises (source ix slot reason : Nat) (s : State) :
    ∃ r, r ∈ (authFail source ix slot reason s).w.evt.raised ∧ r.code = Ev.AUTH_FAIL := by
  obtain ⟨r, hmem, hcode⟩ := failShown_raises source ix slot reason s.w
  obtain h | h := authFail_w source ix slot reason s
  · exact ⟨r, by rw [h]; exact hmem, hcode⟩
  · exact ⟨r, by rw [h]; exact List.mem_append_left _ hmem, hcode⟩

/-- The eighth failure that counts begins a block of 60 s (R349). -/
theorem authFail_blockEnd (source ix slot reason : Nat) (s : State) :
    (authFail source ix slot reason s).ctl.sec.blockEnd =
      if 7 ≤ (s.ctl.sec.fails.filter fun e => s.w.clk < e).length then some (s.w.clk + secClk 60)
      else s.ctl.sec.blockEnd := by
  exact if_congr decide_eq_true_iff rfl rfl

theorem authFail_fails (source ix slot reason : Nat) (s : State) :
    (authFail source ix slot reason s).ctl.sec.fails =
      s.ctl.sec.fails.filter (fun e => s.w.clk < e) ++ [s.w.clk + secClk 10] := rfl

theorem failedCheck_authFail (reason slot : Nat) (hb : s.ctl.sec.blockEnd = none) :
    FailedCheck reason source ix slot s (St.authFailed, authFail source ix slot reason s) := by
  refine ⟨rfl, authFail_lastFail _ _ _ _ _, authFail_raises _ _ _ _ _, rfl, rfl, authFail_fails _ _ _ _ _,
    fun hfull => ?_, fun hroom => ?_⟩
  · rw [authFail_blockEnd, if_pos hfull]
  · rw [authFail_blockEnd, if_neg (by omega), hb]

/-! ### Where a trailer is needed -/

/-- Under ALL_AUTH the path and the index decide where the object has no A (R351). -/
theorem authNeeded_allAuth (hall : getO s.w Obj.SEC_CFG = 1) (a : Bool) (ix : Nat) (p : Path) :
    authNeeded s a ix p = true ↔ a = true ∨ p ≠ .can ∨ ix < 0x1000 ∨ 0x1FFF < ix := by
  by_cases hkey : ix = 0x3D00
  · simp [authNeeded, hall, hkey]
  · simp only [authNeeded, hall, hkey, if_false, beq_self_eq_true, Bool.true_and, Bool.or_eq_true, Bool.not_eq_true',
      Bool.and_eq_false_iff, beq_eq_false_iff_ne, decide_eq_false_iff_not, not_le, or_assoc]

end

/-- SEC_CFG, which holds ALL_AUTH, is itself an object with A (R351). -/
theorem secCfg_authenticated : ∃ r n o, objRow Obj.SEC_CFG = some (r, n, o) ∧ r.a = true := ⟨_, _, _, rfl, rfl⟩

end Sys2Proof.Machine
end

section
/-! Obligation O42, from the rules of the checks on a trailer. -/

open Sys2Proof Sys2Proof.Machine

/-- Settles O42: a trailer is judged by `authCheck` in the order of R347, each failed check leaves what `authFail`
leaves, and under ALL_AUTH an object without A needs none only over CAN FD at an index of 0x1000 to 0x1FFF. -/
theorem authenticationChecks : Obligations.AuthenticationChecks := by
  refine ⟨fun a source ix sub data e s t he => ?trailer, fun s a ix p hall => ?allAuth, secCfg_authenticated⟩
  case trailer =>
    rw [authStep_some he]
    refine ⟨fun hbad => ⟨authCheck_malformed hbad, by decide⟩,
      fun b hslot hpad hb hclk => authCheck_blocked hslot hpad hb hclk,
      fun hslot hpad hb hkey => ?keyless,
      fun key hslot hpad hb hkey => ?keyed⟩
    case keyless =>
      rw [authCheck_keyless hslot hpad hb hkey]
      exact failedCheck_authFail 1 t.slot hb
    case keyed =>
      rw [authCheck_keyed hslot hpad hb hkey]
      refine ⟨fun htag => ?_, fun htag hold => ?_, fun htag hnew => ?_⟩
      · rw [if_pos htag]
        exact failedCheck_authFail 2 t.slot hb
      · rw [if_neg (not_not.mpr htag), if_pos hold]
        exact failedCheck_authFail 3 t.slot hb
      · rw [if_neg (not_not.mpr htag), if_neg (by omega)]
        rfl
  case allAuth =>
    refine ⟨fun hplace => (authNeeded_allAuth hall a ix p).mpr (.inr hplace), fun hcan hlo hhi => ?_⟩
    rw [← Bool.not_eq_true, authNeeded_allAuth hall]
    simp only [Bool.false_eq_true, hcan, ne_eq, not_true_eq_false, false_or]
    omega
end

section
/-! SUPPORT. Time keeping (R370, R371, R376, R377, R381): what the latch, the rate step, an anchor and the stored
frequency leave. -/

namespace Sys2Proof.Machine

variable (w : World)

/-! ### Commands whose condition reads the world -/

theorem onWorld_guarded {c : Ctl → World → Bool} (f : Ctl → World → World) {s : State}
    (h : c s.ctl (fresh s).w = true) :
    onWorld (fun k w => whenDo (c k w) (f k) w) s = .next (runMeaning (f s.ctl) s) := by
  have hrun : whenDo (c s.ctl (fresh s).w) (f s.ctl) (fresh s).w = f s.ctl (fresh s).w := if_pos h
  exact congrArg (fun x => Host.Outcome.next { s with w := settle x }) hrun

theorem exec_timNowSecRead {s : State} (h : powered s.ctl.mode = true) :
    exec .timNowSecRead s = .next (runMeaning latchNow s) :=
  onWorld_whenDo (c := fun k => powered k.mode) (fun _ => latchNow) h

theorem exec_rateStep {s : State} (h : powered s.ctl.mode = true) (hup : hostDown s.w = false) :
    exec .rateStep s = .next (runMeaning (rateStep s.ctl) s) :=
  onWorld_guarded (c := fun k w => powered k.mode && !hostDown w) rateStep
    (show (powered s.ctl.mode && !hostDown s.w) = true by rw [h, hup]; rfl)

theorem exec_timAnchor {s : State} (h : powered s.ctl.mode = true) (hroll : s.w.tim.rolled = true) :
    exec .timAnchor s = .next (runMeaning anchor s) :=
  onWorld_guarded (c := fun k w => powered k.mode && w.tim.rolled) (fun _ => anchor)
    (show (powered s.ctl.mode && s.w.tim.rolled) = true by rw [h, hroll]; rfl)

theorem exec_timFreqStore {s : State} (h : powered s.ctl.mode = true) (hlocked : getN s.w Obj.TIM_SERVO = 2)
    (hdue : s.w.tim.freqClk + secClk 600 ≤ s.w.clk) :
    exec .timFreqStore s = .next (runMeaning freqStore s) := by
  refine onWorld_guarded
    (c := fun k w => powered k.mode && getN w Obj.TIM_SERVO == 2 && decide (w.tim.freqClk + secClk 600 ≤ w.clk))
    (fun _ => freqStore) ?_
  have hlocked' : getN (fresh s).w Obj.TIM_SERVO = 2 := hlocked
  have hdue' : (fresh s).w.tim.freqClk + secClk 600 ≤ (fresh s).w.clk := hdue
  simp only [h, hlocked', hdue', beq_self_eq_true, decide_true, Bool.and_self]

@[simp] theorem runMeaning_tim (f : World → World) (s : State) : (runMeaning f s).w.tim = (f (fresh s).w).tim :=
  settle_tim _

/-! ### Frames of the time block -/

/-- An update of the time block writes that part alone. -/
theorem samePart_tim {p : Part} (hp : p ≠ .tim) (t : Tim) : samePart p w { w with tim := t } := by
  cases p
  case tim => exact absurd rfl hp
  all_goals simp only [samePart, and_self]

theorem WorldFrame.withTim {parts : List Part} {objs : Nat → Bool} {a b : World} (h : WorldFrame parts objs a b)
    (hp : .tim ∈ parts) (t : Tim) : WorldFrame parts objs a { b with tim := t } :=
  h.trans ⟨fun _ hq => samePart_tim b (ne_of_mem_of_not_mem hp hq).symm t, fun _ _ => rfl⟩

/-! ### The latch of TIM_NOW_SEC -/

theorem getO_latchNow_sec : getO (latchNow w) Obj.TIM_NOW_SEC = w.tim.sec := by
  simp [latchNow, getO_setO]

theorem getO_latchNow_ns : getO (latchNow w) Obj.TIM_NOW_NS = w.tim.ns := by
  simp [latchNow, getO_setO]

theorem getO_latchNow_et : getO (latchNow w) Obj.TIM_NOW_ET = nowEt w := getO_setO_same _ _ _

theorem worldFrame_latchNow :
    WorldFrame [] (objsOf [Obj.TIM_NOW_SEC, Obj.TIM_NOW_NS, Obj.TIM_NOW_ET]) w (latchNow w) :=
  (((WorldFrame.refl w).setO (by decide) _).setO (by decide) _).setO (by decide) _

/-- TIM_NOW_SEC is a scalar that can be read: an item of a READ that is answered takes the latch (R371). -/
theorem readItem_nowSec (c : Ctl) (f : Bool) (ha : answers w (Obj.TIM_NOW_SEC / 256) = true) :
    (readItem c (Obj.TIM_NOW_SEC / 256) (Obj.TIM_NOW_SEC % 256) f w).2.2.2 = latchNow w := by
  have hix : indexExists (Obj.TIM_NOW_SEC / 256) = true := by decide
  have hsub : subExists (Obj.TIM_NOW_SEC / 256) (Obj.TIM_NOW_SEC % 256) = true := by decide
  simp only [readItem, ha, hix, hsub, Bool.not_true, Bool.false_eq_true, if_false]
  rfl

/-- A read of TIM_NOW_NS returns the object in force, with and without IN_FORCE. -/
theorem objRead_nowNs (c : Ctl) (f : Bool) : objRead c w Obj.TIM_NOW_NS f = getO w Obj.TIM_NOW_NS := rfl

theorem objRead_nowEt (c : Ctl) (f : Bool) : objRead c w Obj.TIM_NOW_ET f = getO w Obj.TIM_NOW_ET := rfl

/-! ### The rate step -/

/-- The limits of R370, ±1,000 ppm about the nominal addend. -/
theorem addendOf_bounds (r : Frac) : 858134466 ≤ addendOf r ∧ addendOf r ≤ 859852452 := by
  rw [addendOf, clampInt]
  split_ifs <;> omega

/-- A port that changes its state shows it and reports it (R367). -/
theorem setPort_cases (v : Nat) :
    setPort w v = w ∨
      setPort w v = raise (setO w Obj.TIM_PORT_STATE v) Ev.TIM_PORT_STATE (getN w Obj.TIM_IFACE) v := by
  unfold setPort
  split
  · exact .inl rfl
  · exact .inr rfl

@[simp] theorem setPort_tim (v : Nat) : (setPort w v).tim = w.tim := by
  obtain h | h := setPort_cases w v <;> rw [h]
  rfl

theorem getO_setPort_ne (v : Nat) {k : Nat} (hk : Obj.TIM_PORT_STATE ≠ k) : getO (setPort w v) k = getO w k := by
  obtain h | h := setPort_cases w v <;> rw [h]
  rw [getO_raise, getO_setO_ne _ _ hk]

theorem worldFrame_setPort (v : Nat) {parts : List Part} {objs : Nat → Bool} (h : objs Obj.TIM_PORT_STATE = true) :
    WorldFrame parts objs w (setPort w v) := by
  obtain hrun | hrun := setPort_cases w v <;> rw [hrun]
  · exact .refl w
  · exact ((WorldFrame.refl w).setO h _).raise _ _ _

/-- The objects that a rate step can write. -/
def rateStepObjs : Nat → Bool :=
  objsOf [Obj.TIM_ADDEND, Obj.TIM_RATE_PPB, Obj.TIM_TC_PPB, Obj.TIM_TC_TEMP, Obj.TIM_PORT_STATE]

/-- The oscillator compensation shows itself and the temperature that it is of (R379). -/
theorem worldFrame_updateTc : WorldFrame [.tim] rateStepObjs w (updateTc w) := by
  unfold updateTc
  split
  · exact ((WorldFrame.refl w).withTim (by simp) _).setO (by decide) _
  · split
    · exact .refl w
    · split
      · exact .refl w
      · exact (((WorldFrame.refl w).withTim (by simp) _).setO (by decide) _).setO (by decide) _

theorem worldFrame_setRate (r : Frac) : WorldFrame [.tim] rateStepObjs w (setRate w r) :=
  (((WorldFrame.refl w).withTim (by simp) _).setO (by decide) _).setO (by decide) _

/-- The phase term lapses at its time (R374). -/
def phaseLapse (lapsed : Bool) (w : World) : World :=
  if lapsed then { w with tim := { w.tim with p := fracI 0, pUntil := none } } else w

/-- A port whose interface serves leaves INITIALIZING for LISTENING (R367). -/
def portListens (w : World) : World :=
  if getN w Obj.TIM_PORT_STATE = 1 && w.sys.hostUp && ifaceServes w (getN w Obj.TIM_IFACE) then
    setPort { w with tim := { w.tim with annClk := some w.clk } } 4
  else w

/-- The order of a rate step: phase, oscillator compensation, the rate in force, the port. -/
theorem rateStep_eq (c : Ctl) :
    ∃ lapsed r, rateStep c w = portListens (setRate (updateTc (phaseLapse lapsed w)) r) := ⟨_, _, rfl⟩

theorem worldFrame_phaseLapse (lapsed : Bool) : WorldFrame [.tim] rateStepObjs w (phaseLapse lapsed w) := by
  unfold phaseLapse
  split
  · exact (WorldFrame.refl w).withTim (by simp) _
  · exact .refl w

theorem worldFrame_portListens : WorldFrame [.tim] rateStepObjs w (portListens w) := by
  unfold portListens
  split
  · exact ((WorldFrame.refl w).withTim (by simp) _).trans (worldFrame_setPort _ _ (by decide))
  · exact .refl w

@[simp] theorem portListens_rate : (portListens w).tim.rate = w.tim.rate := by
  unfold portListens
  split
  · rw [setPort_tim]
  · rfl

theorem getO_portListens_ne {k : Nat} (hk : Obj.TIM_PORT_STATE ≠ k) : getO (portListens w) k = getO w k := by
  unfold portListens
  split
  · exact getO_setPort_ne _ _ hk
  · rfl

theorem worldFrame_rateStep (c : Ctl) : WorldFrame [.tim] rateStepObjs w (rateStep c w) := by
  obtain ⟨lapsed, r, h⟩ := rateStep_eq w c
  rw [h]
  exact (((worldFrame_phaseLapse w lapsed).trans (worldFrame_updateTc _)).trans (worldFrame_setRate _ r)).trans
    (worldFrame_portListens _)

/-- The addend shown is that of the rate in force (R370, R376). -/
theorem getO_rateStep_addend (c : Ctl) :
    getO (rateStep c w) Obj.TIM_ADDEND = addendOf (rateStep c w).tim.rate := by
  obtain ⟨lapsed, r, h⟩ := rateStep_eq w c
  rw [h, portListens_rate, getO_portListens_ne _ (by decide)]
  exact getO_setO_same _ _ _

theorem getO_rateStep_rate (c : Ctl) :
    getO (rateStep c w) Obj.TIM_RATE_PPB = fracFloor (rateStep c w).tim.rate := by
  obtain ⟨lapsed, r, h⟩ := rateStep_eq w c
  rw [h, portListens_rate, getO_portListens_ne _ (by decide), setRate, getO_setO_ne _ _ (by decide), getO_setO_same]
  rfl

/-! ### Anchors -/

/-- The web position reads of the objects the ratio of the active encoder alone, whose keys end in 0x002. -/
theorem webPos_setO {k : Nat} (hk : k % 0x1000 ≠ 0x002) (v : Int) : webPos (setO w k v) = webPos w := by
  have hne : k ≠ Obj.WEB_ENC_LPC w.web.active := show k ≠ 0x210002 + 0x1000 * w.web.active by omega
  have hlpc : lpcOf (setO w k v) w.web.active = lpcOf w w.web.active := getN_setO_ne w v hne
  have hmag : speedMag (setO w k v) = speedMag w := by
    simp only [speedMag, setO_web, hlpc]
    rfl
  have hraw : interpRaw (setO w k v) = interpRaw w := by
    simp only [interpRaw, setO_web, hmag, hlpc]
    rfl
  simp only [webPos, pos32, hraw, setO_web]

@[simp] theorem nowEt_setO (k : Nat) (v : Int) : nowEt (setO w k v) = nowEt w := rfl

@[simp] theorem linkTime_setO (k : Nat) (v : Int) : linkTime (setO w k v) = linkTime w := rfl

@[simp] theorem getO_withTim (t : Tim) (k : Nat) : getO { w with tim := t } k = getO w k := rfl

/-- The five objects of an anchor, all of one instant. -/
def anchorLatched (w : World) : World :=
  setO (setO (setO (setO (setO w Obj.TIM_ANCHOR_SEC w.tim.sec) Obj.TIM_ANCHOR_NS w.tim.ns) Obj.TIM_ANCHOR_ET (nowEt w))
    Obj.TIM_ANCHOR_LINK (linkTime w)) Obj.TIM_ANCHOR_POS (webPos w)

/-- An anchor latches its objects, clears the request and reports the second (R381). Each rewrite is a step of its own
(`-implicitDefEqProofs`): left to definitional unfolding, the kernel would evaluate the defaults of the objects. -/
theorem anchor_eq :
    anchor w = raise { anchorLatched w with tim := { w.tim with rolled := false, stepSinceAnchor := false } }
      Ev.TIM_ANCHOR 0 (w.tim.sec % 4294967296) := by
  have hpos : webPos (setO (setO (setO (setO w Obj.TIM_ANCHOR_SEC w.tim.sec) Obj.TIM_ANCHOR_NS w.tim.ns)
      Obj.TIM_ANCHOR_ET (nowEt w)) Obj.TIM_ANCHOR_LINK (linkTime w)) = webPos w := by
    rw [webPos_setO _ (by decide), webPos_setO _ (by decide), webPos_setO _ (by decide), webPos_setO _ (by decide)]
  simp -implicitDefEqProofs only [anchor, anchorLatched, setO_tim, nowEt_setO, linkTime_setO, hpos]

theorem getO_anchor (k : Nat) : getO (anchor w) k = getO (anchorLatched w) k := by
  rw [anchor_eq, getO_raise, getO_withTim]

theorem anchorLatched_values :
    getO (anchorLatched w) Obj.TIM_ANCHOR_SEC = w.tim.sec ∧ getO (anchorLatched w) Obj.TIM_ANCHOR_NS = w.tim.ns ∧
      getO (anchorLatched w) Obj.TIM_ANCHOR_ET = nowEt w ∧ getO (anchorLatched w) Obj.TIM_ANCHOR_LINK = linkTime w ∧
      getO (anchorLatched w) Obj.TIM_ANCHOR_POS = webPos w := by
  simp [anchorLatched, getO_setO]

theorem anchor_rolled : (anchor w).tim.rolled = false := by
  rw [anchor_eq]
  rfl

/-! ### The stored frequency -/

theorem getO_freqStore : getO (freqStore w) Obj.TIM_FREQ_STORED = fracFloor (yAvg w) := getO_setO_same _ _ _

theorem freqStore_fram :
    mapGet (freqStore w).dict.fram Obj.TIM_FREQ_STORED = some (fracFloor (yAvg w)) := mapGet_mapPut_same _ _ _

theorem freqStore_freqClk : (freqStore w).tim.freqClk = w.clk := rfl

end Sys2Proof.Machine
end

section
/-! Obligation O11, from the rules of time keeping. -/

open Sys2Proof Sys2Proof.Machine

/-- Settles O11: each command runs its meaning, and delivery leaves what the meaning wrote; a read over KOA runs the
meaning of the latch itself. -/
theorem timeKeeping : Obligations.TimeKeeping := by
  refine fun s hpow => ⟨?latch, ?read, ?rate, ?anchor, ?store⟩
  case latch =>
    exact ⟨_, exec_timNowSecRead hpow, (getO_runMeaning _ _ (by decide)).trans (getO_latchNow_sec _),
      (getO_runMeaning _ _ (by decide)).trans (getO_latchNow_ns _),
      (getO_runMeaning _ _ (by decide)).trans (getO_latchNow_et _), (worldFrame_latchNow _).touches⟩
  case read =>
    rintro f _ ha rfl
    rw [readItem_nowSec s.w s.ctl f ha, objRead_nowNs, objRead_nowEt]
    exact ⟨getO_latchNow_ns _, getO_latchNow_et _, getO_latchNow_ns _, getO_latchNow_et _, rfl, rfl⟩
  case rate =>
    intro hup
    have haddend : getO (runMeaning (rateStep s.ctl) s).w Obj.TIM_ADDEND =
        addendOf (runMeaning (rateStep s.ctl) s).w.tim.rate := by
      rw [getO_runMeaning _ _ (by decide), runMeaning_tim, getO_rateStep_addend]
    obtain ⟨hlo, hhi⟩ := addendOf_bounds (runMeaning (rateStep s.ctl) s).w.tim.rate
    refine ⟨_, exec_rateStep hpow hup, haddend, ?_, hlo.trans_eq haddend.symm, haddend.trans_le hhi,
      (worldFrame_rateStep _ _).touches⟩
    rw [getO_runMeaning _ _ (by decide), runMeaning_tim, getO_rateStep_rate]
  case anchor =>
    intro hroll
    obtain ⟨hsec, hns, het, hlink, hpos⟩ := anchorLatched_values (fresh s).w
    have hobj : ∀ {k}, k < Obj.EVT_LOG_DROPPED →
        getO (runMeaning anchor s).w k = getO (anchorLatched (fresh s).w) k :=
      fun hk => (getO_runMeaning _ _ hk).trans (getO_anchor _ _)
    refine ⟨_, exec_timAnchor hpow hroll, (hobj (by decide)).trans hsec, (hobj (by decide)).trans hns,
      (hobj (by decide)).trans het, (hobj (by decide)).trans hlink, (hobj (by decide)).trans hpos, ?_, fun hq => ?_⟩
    · rw [runMeaning_tim, anchor_rolled]
    · obtain ⟨hseq, hdata⟩ := reports_runMeaning hq (anchor_eq (fresh s).w) rfl
      exact ⟨hseq, hdata.trans (Nat.mod_mod _ _)⟩
  case store =>
    intro hlocked hdue
    refine ⟨_, exec_timFreqStore hpow hlocked hdue,
      (getO_runMeaning _ _ (by decide)).trans (getO_freqStore _), ?_, ?_⟩
    · exact (congrArg (mapGet · Obj.TIM_FREQ_STORED) (settle_dict_fram _)).trans (freqStore_fram _)
    · rw [runMeaning_tim, freqStore_freqClk]
      rfl
end

section
/-! SUPPORT. A write command that passes steps 1 to 5 of R325: what its steps 6 to 8 make of an action object and of a
value that no check changes, and what answering it and delivering its events leave. -/

namespace Sys2Proof.Machine

/-! ### The answer -/

/-- A world with the answer of a write sent and kept and its events delivered. -/
def answered (out : List OutMsg) (rep : List KoaStored) (w : World) : World :=
  settle { w with out := out, net := { w.net with replay := rep } }

/-- A write command that passes steps 1 to 5 ends in the state of steps 6 to 8, answered. -/
theorem runWrite_answered {e : WriteEnv} {k : Nat} {v : Int} {s u y : State} (h : Passes e k v s u)
    (hy : steps6to8 e k (valueBytes k v) u = y) :
    ∃ out rep, runWrite e k v s = .next { ctl := y.ctl, w := answered out rep y.w, pending := s.pending } := by
  obtain ⟨x, ⟨hctl, out, rep, hw⟩, hrun⟩ := runWrite_passes h
  rw [hy] at hctl hw
  exact ⟨out, rep, by rw [runWrite, hrun, hctl, hw]; rfl⟩

section
variable (out : List OutMsg) (rep : List KoaStored) (w : World)

theorem getO_answered {k : Nat} (hlog : k ≠ Obj.EVT_LOG_DROPPED) (hemcy : k ≠ Obj.NET_CAN_EMCY_LOST) :
    getO (answered out rep w) k = getO w k := getO_settle _ hlog hemcy

theorem getN_answered {k : Nat} (hlog : k ≠ Obj.EVT_LOG_DROPPED) (hemcy : k ≠ Obj.NET_CAN_EMCY_LOST) :
    getN (answered out rep w) k = getN w k := getN_settle _ hlog hemcy

@[simp] theorem answered_sys : (answered out rep w).sys = w.sys := settle_sys _
@[simp] theorem answered_sup : (answered out rep w).sup = w.sup := settle_sup _
@[simp] theorem answered_thm : (answered out rep w).thm = w.thm := settle_thm _
@[simp] theorem answered_dict_adj : (answered out rep w).dict.adj = w.dict.adj := settle_dict_adj _

end

/-! ### The event log under delivery -/

theorem deliver_log (w : World) (r : EvRec) : (deliver w r).evt.log = w.evt.log := by
  obtain ⟨-, -, -, hlog, -⟩ := deliver_core w r
  exact hlog

theorem deliver_head (w : World) (r : EvRec) : (deliver w r).evt.head = w.evt.head := by
  obtain ⟨-, -, -, -, hhead, -⟩ := deliver_core w r
  exact hhead

@[simp] theorem settle_log (w : World) : (settle w).evt.log = w.evt.log :=
  foldl_keeps (fun w : World => w.evt.log) deliver_log _ _

@[simp] theorem settle_head (w : World) : (settle w).evt.head = w.evt.head :=
  foldl_keeps (fun w : World => w.evt.head) deliver_head _ _

@[simp] theorem answered_log (out : List OutMsg) (rep : List KoaStored) (w : World) :
    (answered out rep w).evt.log = w.evt.log := settle_log _

@[simp] theorem answered_head (out : List OutMsg) (rep : List KoaStored) (w : World) :
    (answered out rep w).evt.head = w.evt.head := settle_head _

/-! ### The staging buffer under delivery -/

theorem staging_ite {l : List EvRec} {x : World} (c : Prop) [Decidable c] (f : World → World)
    (hf : ∀ y, (f y).evt.staging = y.evt.staging) (h : x.evt.staging = l) : (if c then f x else x).evt.staging = l := by
  split
  · exact (hf x).trans h
  · exact h

theorem deliverHost_staging (w : World) (r : EvRec) : (deliverHost w r).evt.staging = w.evt.staging := by
  simp only [deliverHost]

theorem deliverEmcy_staging (w : World) (r : EvRec) : (deliverEmcy w r).evt.staging = w.evt.staging := by
  unfold deliverEmcy
  split <;> rfl

theorem deliverOut_staging (w : World) (n : Nat) : (deliverOut w n).evt.staging = w.evt.staging := by
  unfold deliverOut
  dsimp only
  split <;> rfl

/-- Of the routes only LOG writes the staging buffer: a record goes behind what is staged there while it has room
(R452, R454). -/
theorem deliver_staging {w : World} {r : EvRec} (hroute : bitOf (routeOf w r.code) 0 = true)
    (hroom : w.evt.staging.length < 768) :
    (deliver w r).evt.staging =
      w.evt.staging ++ [{ r with seq := (w.evt.seq + 1) % 4294967296, serge := w.sys.voted && !hostServing w }] := by
  unfold deliver
  simp only []
  apply staging_ite _ (fun y => (List.range 4).foldl _ y)
  · exact fun y => foldl_keeps (fun w : World => w.evt.staging)
      (fun w n => staging_ite _ (fun y => deliverOut y n) (fun y => deliverOut_staging y n) rfl) _ y
  apply staging_ite _ (fun y => deliverEmcy y _) (fun y => deliverEmcy_staging y _)
  apply staging_ite _ (fun y => deliverNotify y _) (fun _ => rfl)
  apply staging_ite _ (fun y => deliverSerge y _) (fun _ => rfl)
  apply staging_ite _ (fun y => deliverHost y _) (fun y => deliverHost_staging y _)
  rw [if_pos hroute, deliverLog, if_pos hroom]

/-! ### Steps 6 to 8 -/

theorem steps6to8_action {e : WriteEnv} {k : Nat} {bytes : List Nat} {u : State} {r : ObjDesc} {n o : Nat}
    (hrow : objRow k = some (r, n, o)) (hact : r.action = true)
    (hin : inParts (actionParts r) (tyDecode r.ty bytes) = true) :
    steps6to8 e k bytes u = actionFx (pathSource e.path) r (tyDecode r.ty bytes).toNat u := by
  simp only [steps6to8, hrow, applyWrite, hact, actionWrite, hin, if_true]

/-- A value that steps 6 and 7 leave as it is, is put in force as it was written. -/
theorem steps6to8_unchanged {e : WriteEnv} {k : Nat} {v : Int} {u : State} {r : ObjDesc} {n o : Nat}
    (hrow : objRow k = some (r, n, o)) (hstr : r.ty ≠ .str) (hdom : r.ty ≠ .dom)
    (h : unchangedBy k v (pathSource e.path) u = true) :
    steps6to8 e k (valueBytes k v) u =
      { u with w := applyValue u.ctl.mode (pathSource e.path) r n o k v u.w } := by
  simp only [unchangedBy, hrow, Bool.and_eq_true, Bool.not_eq_true', Option.isNone_iff_eq_none, beq_iff_eq,
    decide_eq_true_eq] at h
  obtain ⟨⟨⟨hact, hstate⟩, hval⟩, hchecks⟩ := h
  have hnum : applyWrite (pathSource e.path) r n o k (valueBytes k v) u =
      numberWrite (pathSource e.path) r n o k (tyDecode (keyTy r k) (valueBytes k v)) u := by
    rw [applyWrite, hact, if_neg Bool.false_ne_true]
    split
    · next h => exact absurd h hstr
    · next h => exact absurd h hdom
    · rfl
  simp only [steps6to8, hrow, hnum]
  simp only [valueBytes, hrow, hval, numberWrite, hstate, hchecks]

end Sys2Proof.Machine
end

section
/-! SUPPORT. What the objects of the supervisor, THM_ACK, EVT_LOG_CLEAR and the fault history do once a write of them
passes steps 1 to 5 (R356, R392, R394, R422, R455). -/

namespace Sys2Proof.Machine

/-! ### Steps 6 to 8 of each object -/

theorem steps6to8_supResetHost (e : WriteEnv) (u : State) :
    steps6to8 e Obj.SUP_RESET (valueBytes Obj.SUP_RESET 1) u = { u with w := resetHost u.w } := by
  rw [steps6to8_action (k := Obj.SUP_RESET) rfl rfl rfl]
  rfl

theorem steps6to8_supResetDevice (e : WriteEnv) (u : State) :
    steps6to8 e Obj.SUP_RESET (valueBytes Obj.SUP_RESET 2) u = resetRemote u := by
  rw [steps6to8_action (k := Obj.SUP_RESET) rfl rfl rfl]
  rfl

theorem steps6to8_thmAck (e : WriteEnv) (u : State) :
    steps6to8 e Obj.THM_ACK (valueBytes Obj.THM_ACK 1) u = thmAck (pathSource e.path) u := by
  rw [steps6to8_action (k := Obj.THM_ACK) rfl rfl rfl]
  rfl

theorem steps6to8_evtLogClear (e : WriteEnv) (u : State) :
    steps6to8 e Obj.EVT_LOG_CLEAR (valueBytes Obj.EVT_LOG_CLEAR 1) u =
      { u with w := logClear u.ctl.mode (pathSource e.path) u.w } := by
  rw [steps6to8_action (k := Obj.EVT_LOG_CLEAR) rfl rfl rfl]
  rfl

theorem steps6to8_supStopCmd {e : WriteEnv} {u : State} {v : Nat}
    (h : unchangedBy Obj.SUP_STOP_CMD v (pathSource e.path) u = true) :
    steps6to8 e Obj.SUP_STOP_CMD (valueBytes Obj.SUP_STOP_CMD v) u =
      { u with w := stopCmd v (setO u.w Obj.SUP_STOP_CMD v) } := by
  rw [steps6to8_unchanged rfl (by decide) (by decide) h]
  rfl

theorem steps6to8_canErrHist {e : WriteEnv} {u : State}
    (h : unchangedBy (Obj.NET_CAN_ERR_HIST 0) 0 (pathSource e.path) u = true) :
    steps6to8 e (Obj.NET_CAN_ERR_HIST 0) (valueBytes (Obj.NET_CAN_ERR_HIST 0) 0) u = { u with w := clearHist u.w } := by
  rw [steps6to8_unchanged rfl (by decide) (by decide) h]
  rfl

/-! ### SUP_RESET -/

theorem resetHost_up {w : World} (h : w.sys.hostUp = true) :
    getO (resetHost w) Obj.SUP_HOST_STATE = 1 ∧
      getN (resetHost w) Obj.SUP_HOST_RESTARTS = (getN w Obj.SUP_HOST_RESTARTS + 1) % 4294967296 := by
  have hrun : ∀ k, getO (resetHost w) k = getO (setO (bump w Obj.SUP_HOST_RESTARTS) Obj.SUP_HOST_STATE 1) k := by
    intro k
    rw [resetHost, if_pos h]
    rfl
  constructor
  · rw [hrun, getO_setO_same]
  · rw [getN, hrun, getO_setO_ne _ _ (by decide)]
    exact getN_bump_same w _

/-- The state that the device leaves is its previous one, and the authentication block is kept (R349, R394). -/
theorem resetRemote_ctl (s : State) :
    (resetRemote s).ctl = { mode := .boot, prev := s.ctl.mode, sec := bootSec s.w.clk s.ctl.sec } := rfl

theorem getO_setMode (cause : Nat) (m : DevState) (s : State) (k : Nat) :
    getO (setMode cause m s).w k = getO s.w k := rfl

@[simp] theorem setMode_sup (cause : Nat) (m : DevState) (s : State) : (setMode cause m s).w.sup = s.w.sup := rfl

theorem getO_resetRemote_cause (s : State) : getO (resetRemote s).w Obj.SYS_RESET_CAUSE = 1 := by
  simp only [resetRemote, resetDevice, getO_setMode, getO_setO_same, Nat.cast_one]

theorem bootWorld_outs (w : World) (keep : List (Nat × Int × Nat)) (staging : List EvRec) :
    (bootWorld w keep staging).sup.outs = 0 := rfl

theorem resetRemote_outs (s : State) : (resetRemote s).w.sup.outs = 0 := by
  simp only [resetRemote, resetDevice, setMode_sup, setO_sup, bootWorld_outs]

/-! ### Web stop -/

theorem getN_stopSrc (w : World) (b : Nat) (on : Bool) :
    getN (stopSrc w b on) Obj.SUP_STOP_SRC = setBit (getN w Obj.SUP_STOP_SRC) b on := by
  unfold stopSrc
  dsimp only
  split
  · assumption
  · rw [getN_raise, getN_setO_same, Int.toNat_natCast]

theorem getO_stopSrc_ne (w : World) (b : Nat) (on : Bool) {k : Nat} (hk : Obj.SUP_STOP_SRC ≠ k) :
    getO (stopSrc w b on) k = getO w k := by
  unfold stopSrc
  dsimp only
  split
  · rfl
  · rw [getO_raise, getO_setO_ne _ _ hk]

@[simp] theorem stopSrc_sys (w : World) (b : Nat) (on : Bool) : (stopSrc w b on).sys = w.sys := by
  unfold stopSrc
  dsimp only
  split <;> rfl

/-! ### Leaving THERMAL_HOLD -/

@[simp] theorem noteChl_sys (m : DevState) (w : World) : (noteChl m w).sys = w.sys := by
  unfold noteChl
  dsimp only
  split <;> rfl

/-- Of what a change of the device state brings, the way from THERMAL_HOLD to CALIBRATE brings the start of the
adjustment of VCORE alone (R425). -/
theorem changeFx_holdToCalibrate (w : World) :
    changeFx .thermalHold .calibrate w = { w with thm := { w.thm with avsOn := true } } := rfl

theorem leaveHold_mode (code cause : Nat) (s : State) : (leaveHold code cause s).ctl.mode = .calibrate := rfl

theorem leaveHold_holdFlag (code cause : Nat) {s : State} (h : s.ctl.mode = .thermalHold) :
    (leaveHold code cause s).w.sys.holdFlag = false := by
  simp only [leaveHold, goTo, h, changeFx_holdToCalibrate, noteChl_sys]
  simp only [setMode, raise_sys, stopSrc_sys]

theorem thmAck_accepted (source : Nat) {s : State} (hmode : s.ctl.mode = .thermalHold) (hcool : allCool s.w = true) :
    thmAck source s = leaveHold 1 1 s := if_pos ⟨hmode, hcool⟩

/-! ### EVT_LOG_CLEAR -/

theorem logClear_allowed {m : DevState} (h : m = .idle ∨ m = .service) (source : Nat) (w : World) :
    logClear m source w = raise { w with evt := { w.evt with log := [], head := 0, staging := [] } } Ev.EVT_LOG_CLEARED 0
      (w.evt.log.length + w.evt.staging.length) := if_pos h

theorem logClear_refused {m : DevState} (hidle : m ≠ .idle) (hservice : m ≠ .service) (source : Nat) (w : World) :
    logClear m source w = adjust w Obj.EVT_LOG_CLEAR 6 source 1 0 := if_neg (not_or.mpr ⟨hidle, hservice⟩)

@[simp] theorem raise_log (w : World) (c i d : Nat) : (raise w c i d).evt.log = w.evt.log := rfl
@[simp] theorem raise_head (w : World) (c i d : Nat) : (raise w c i d).evt.head = w.evt.head := rfl
@[simp] theorem raise_staging (w : World) (c i d : Nat) : (raise w c i d).evt.staging = w.evt.staging := rfl

/-- On a quiet block with an empty staging buffer, the record of a command with LOG in its route is all that is staged. -/
theorem answered_raise_staging (out : List OutMsg) (rep : List KoaStored) {w : World} {code : Nat} (inst data : Nat)
    (hquiet : w.evt.raised = []) (hempty : w.evt.staging = []) (hroute : bitOf (routeOf w code) 0 = true) :
    (answered out rep (raise w code inst data)).evt.staging.map (·.code) = [code] := by
  rw [answered, settle_eq_deliver (by rw [raise, raiseAt, hquiet]; rfl), deliver_staging hroute]
  · simp [hempty]
  · simp [hempty]

/-! ### Adjustments -/

theorem getO_withEvt (w : World) (v : Evt) (k : Nat) : getO { w with evt := v } k = getO w k := rfl

/-- An adjustment is objects, a record and an event (R328); none of them is the log. Each rewrite is a step of its own
(`-implicitDefEqProofs`): left to definitional unfolding, the kernel would evaluate the defaults of the objects. -/
theorem adjust_log (w : World) (k r src : Nat) (a b : Int) : (adjust w k r src a b).evt.log = w.evt.log := by
  unfold adjust
  dsimp only
  split <;> simp -implicitDefEqProofs only [setO_evt, raise_log]

/-- An adjustment names its object and its reason in CFG_ADJ_OBJECT (R328). -/
theorem getO_adjust_object (w : World) (k r src : Nat) (a b : Int) :
    getO (adjust w k r src a b) Obj.CFG_ADJ_OBJECT = (k / 256 * 65536 + k % 256 * 256 + r : Nat) := by
  unfold adjust
  dsimp only
  split
  · simp -implicitDefEqProofs [getO_setO]
  · rw [getO_raise, getO_withEvt]
    simp -implicitDefEqProofs [getO_setO]

/-! ### Writes without a trailer -/

/-- An object with A takes no write without a trailer: whatever steps 1 to 4 say, step 5 of R325 ends it. -/
theorem gate_unsigned {e : WriteEnv} {ix sub : Nat} {r : ObjDesc} {n o : Nat}
    (hrow : objRow (ix * 256 + sub) = some (r, n, o)) (ha : r.a = true) (hkey : ix ≠ 0x3D00) (hauth : e.auth = none) (ty : Nat) (bytes : List Nat) (s : State) :
    ∃ x, gate e ix sub ty bytes s = .error x := by
  have hstep : authStep r.a (pathSource e.path) ix sub bytes e s = (St.authRequired, s) := by
    simp [authStep, hauth, authNeeded, hkey, ha]
  unfold gate
  simp only [hrow, hstep, if_pos (show St.authRequired ≠ St.ok by decide)]
  split_ifs <;> exact ⟨_, rfl⟩

theorem passesTo_of_gate_error {e : WriteEnv} {k ty : Nat} {bytes : List Nat} {s : State}
    (h : ∀ ty s, ∃ x, gate e (k / 256) (k % 256) ty bytes s = .error x) : passesTo e k ty bytes s = none := by
  have hgate : ∀ ty s, gateState e k ty bytes s = none := by
    intro ty s
    obtain ⟨x, hx⟩ := h ty s
    simp only [gateState, hx]
  unfold passesTo passesAt
  split <;> simp only [hgate, ite_self]

/-! ### The fault history -/

theorem getO_foldl_clear (l : List Nat) (w : World) (i : Nat) :
    getO (l.foldl (fun w j => setO w (Obj.NET_CAN_ERR_HIST j) 0) w) (Obj.NET_CAN_ERR_HIST i) =
      if i ∈ l then 0 else getO w (Obj.NET_CAN_ERR_HIST i) := by
  induction l generalizing w with
  | nil => rfl
  | cons j l ih =>
    rw [List.foldl_cons, ih, getO_setO]
    by_cases hl : i ∈ l
    · simp [hl]
    · simp [hl, eq_comm]

theorem getO_clearHist (w : World) {i : Nat} (hi : i < 9) : getO (clearHist w) (Obj.NET_CAN_ERR_HIST i) = 0 :=
  (getO_foldl_clear _ w i).trans (if_pos (List.mem_range.mpr hi))

end Sys2Proof.Machine
end

section
/-! Obligation O48, from the rules of its objects. -/

open Sys2Proof Sys2Proof.Machine

/-- Settles O48: each write acts on the state that passes steps 1 to 5 as its object says, and its answer and the delivery
of its events leave what it wrote; EVT_LOG_CLEAR is an object with A, so without a trailer no write of it passes step 5. -/
theorem supervisorWrites : Obligations.SupervisorWrites := by
  refine fun e s u => ⟨?host, ?device, ?stop, ?ack, ?clear, ?refused, ?unsigned, ?history⟩
  case host =>
    intro hpass hup
    obtain ⟨out, rep, hrun⟩ := runWrite_answered hpass (steps6to8_supResetHost e u)
    obtain ⟨hstate, hcount⟩ := resetHost_up hup
    exact ⟨_, hrun, (getO_answered _ _ _ (by decide) (by decide)).trans hstate,
      (getN_answered _ _ _ (by decide) (by decide)).trans hcount⟩
  case device =>
    intro hpass
    obtain ⟨out, rep, hrun⟩ := runWrite_answered hpass (steps6to8_supResetDevice e u)
    refine ⟨_, hrun, ?_, ?_, ?_, (getO_answered _ _ _ (by decide) (by decide)).trans (getO_resetRemote_cause u), ?_⟩
    · rw [resetRemote_ctl]
    · rw [resetRemote_ctl]
    · rw [resetRemote_ctl, bootSec]
    · rw [answered_sup, resetRemote_outs]
  case stop =>
    intro v hpass hfits
    obtain ⟨out, rep, hrun⟩ := runWrite_answered hpass (steps6to8_supStopCmd hfits)
    refine ⟨_, hrun, ?_, ?_⟩
    · rw [getO_answered _ _ _ (by decide) (by decide), stopCmd, getO_stopSrc_ne _ _ _ (by decide), getO_setO_same]
    · rw [getN_answered _ _ _ (by decide) (by decide), stopCmd, getN_stopSrc, getN_setO_ne _ _ (by decide)]
  case ack =>
    intro hpass hmode hcool
    obtain ⟨out, rep, hrun⟩ :=
      runWrite_answered hpass ((steps6to8_thmAck e u).trans (thmAck_accepted (pathSource e.path) hmode hcool))
    exact ⟨_, hrun, leaveHold_mode 1 1 u,
      (congrArg Sys.holdFlag (answered_sys _ _ _)).trans (leaveHold_holdFlag 1 1 hmode)⟩
  case clear =>
    intro hpass hmode
    obtain ⟨out, rep, hrun⟩ := runWrite_answered hpass (steps6to8_evtLogClear e u)
    rw [logClear_allowed hmode] at hrun
    refine ⟨_, hrun, ?_, ?_, ?_, ?_, fun hquiet hroute => ?_⟩
    · rw [answered_log, raise_log]
    · rw [answered_head, raise_head]
    · rw [answered_thm, raise_thm]
    · rw [answered_dict_adj, raise_dict]
    · exact answered_raise_staging _ _ _ _ hquiet rfl hroute
  case refused =>
    intro hpass hidle hservice
    obtain ⟨out, rep, hrun⟩ := runWrite_answered hpass (steps6to8_evtLogClear e u)
    rw [logClear_refused hidle hservice] at hrun
    refine ⟨_, hrun, ?_, ?_⟩
    · rw [answered_log, adjust_log]
    · rw [getO_answered _ _ _ (by decide) (by decide), getO_adjust_object]
  case unsigned =>
    exact fun v hauth => passesTo_of_gate_error (gate_unsigned rfl rfl (by decide) hauth · _ ·)
  case history =>
    intro i hi hpass hfits
    obtain ⟨out, rep, hrun⟩ := runWrite_answered hpass (steps6to8_canErrHist hfits)
    have hlog : Obj.NET_CAN_ERR_HIST i ≠ Obj.EVT_LOG_DROPPED := show 0x100300 + i ≠ 0x2C0004 by omega
    have hemcy : Obj.NET_CAN_ERR_HIST i ≠ Obj.NET_CAN_EMCY_LOST := show 0x100300 + i ≠ 0x2E2008 by omega
    exact ⟨_, hrun, (getO_answered _ _ _ hlog hemcy).trans (getO_clearHist u.w hi)⟩
end

section
/-! SUPPORT. What every command is: a meaning of the world alone, or one of the state that keeps to the table of R437 and
to R347 and R350. -/

namespace Sys2Proof.Machine

/-! ### The control block -/

/-- No slot that is revoked gets another key, and no counter falls (R347, R350). -/
def SecKept (a b : Sec) : Prop :=
  ∀ i, (a.slots.getD i .empty = .revoked → b.slots.getD i .empty = .revoked) ∧ a.ctr.getD i 0 ≤ b.ctr.getD i 0

/-- What a meaning may do to the control block. -/
def CtlRule (a b : Ctl) : Prop := stateChange a.mode b.mode = true ∧ SecKept a.sec b.sec

/-- What the checks on a trailer may do to the control block. -/
def AuthKept (a b : Ctl) : Prop := b.mode = a.mode ∧ SecKept a.sec b.sec

theorem SecKept.refl (a : Sec) : SecKept a a := fun _ => ⟨id, le_rfl⟩

theorem SecKept.trans {a b c : Sec} (hab : SecKept a b) (hbc : SecKept b c) : SecKept a c := fun i =>
  ⟨fun h => (hbc i).1 ((hab i).1 h), (hab i).2.trans (hbc i).2⟩

/-- The block of R349 is no part of what R347 and R350 keep. -/
theorem SecKept.of_eq {a b : Sec} (hslots : b.slots = a.slots) (hctr : b.ctr = a.ctr) : SecKept a b := fun i => by
  rw [hslots, hctr]
  exact ⟨id, le_rfl⟩

@[simp] theorem stateChange_self (m : DevState) : stateChange m m = true := by simp [stateChange]
@[simp] theorem stateChange_boot (m : DevState) : stateChange m .boot = true := by simp [stateChange]
@[simp] theorem stateChange_off (m : DevState) : stateChange m .off = true := by simp [stateChange]

theorem CtlRule.refl (a : Ctl) : CtlRule a a := ⟨stateChange_self _, .refl _⟩

theorem AuthKept.refl (a : Ctl) : AuthKept a a := ⟨rfl, .refl _⟩

theorem AuthKept.rule {a b : Ctl} (h : AuthKept a b) : CtlRule a b := ⟨by rw [h.1, stateChange_self], h.2⟩

/-- The checks on a trailer come before a meaning. -/
theorem AuthKept.trans_rule {a b c : Ctl} (hab : AuthKept a b) (hbc : CtlRule b c) : CtlRule a c :=
  ⟨by rw [← hab.1]; exact hbc.1, hab.2.trans hbc.2⟩

/-- A change of the device state that the table allows, with the authentication block as it was. -/
theorem CtlRule.of_mode {a b : Ctl} (hmode : stateChange a.mode b.mode = true) (hsec : b.sec = a.sec) : CtlRule a b :=
  ⟨hmode, by rw [hsec]; exact .refl _⟩

theorem bootSec_kept (clk : Nat) (x : Sec) : SecKept x (bootSec clk x) := .of_eq rfl rfl

/-! ### Causes of SAFE, pauses and arrivals -/

theorem goTo_rule {cause : Nat} {m : DevState} {c : Ctl} {s : State} (h : s.ctl = c)
    (hm : stateChange c.mode m = true) : CtlRule c (goTo cause m s).ctl := by
  subst h
  exact .of_mode hm rfl

theorem CtlRule.ite {c : Ctl} {p : Prop} [Decidable p] {x y : State} (hx : CtlRule c x.ctl) (hy : CtlRule c y.ctl) :
    CtlRule c (if p then x else y).ctl := by
  split
  · exact hx
  · exact hy

theorem safeFrom_stateChange {m : DevState} (h : safeFrom m = true) : stateChange m .safe = true := by
  revert h
  cases m <;> decide

theorem enterSafe_rule {c : Ctl} {s : State} (h : s.ctl = c) :
    CtlRule c (enterSafe s).ctl := by
  subst h
  unfold enterSafe
  split
  · next h => exact goTo_rule rfl (safeFrom_stateChange h)
  · split <;> exact .refl _

theorem noSliceSafe_rule {c : Ctl} {s : State} (h : s.ctl = c) :
    CtlRule c (noSliceSafe s).ctl := by
  subst h
  unfold noSliceSafe
  split
  · exact enterSafe_rule rfl
  · exact .refl _

/-- Arrivals kept from PRINTING leave ARMED and PAUSED, or bring IDLE (R260). -/
theorem settleArrivals_ctl (s : State) :
    (settleArrivals s).ctl = s.ctl ∨ (settleArrivals s).ctl.mode = .idle ∧ (settleArrivals s).ctl.sec = s.ctl.sec := by
  unfold settleArrivals
  split
  · exact .inr ⟨rfl, rfl⟩
  · exact .inl rfl

/-- A pause that completes brings PAUSED, or IDLE where an arrival was kept. -/
theorem pauseCheck_ctl (s : State) :
    (pauseCheck s).ctl = s.ctl ∨ inPrint s.ctl.mode = true ∧ s.ctl.mode ≠ .paused ∧
      (pauseCheck s).ctl.sec = s.ctl.sec ∧ ((pauseCheck s).ctl.mode = .paused ∨ (pauseCheck s).ctl.mode = .idle) := by
  unfold pauseCheck
  split
  · next h =>
    obtain ⟨hprint, hpaused, -⟩ := h
    refine .inr ⟨hprint, hpaused, ?_⟩
    obtain h | ⟨hmode, hsec⟩ := settleArrivals_ctl (goTo 5 .paused { s with w := { s.w with sys := { s.w.sys with pausePending := false } } })
    · rw [h]
      exact ⟨rfl, .inl rfl⟩
    · exact ⟨hsec, .inr hmode⟩
  · exact .inl rfl

theorem inPrint_stateChange {m n : DevState} (hm : inPrint m = true) (hp : m ≠ .paused) (hn : n = .paused ∨ n = .idle) :
    stateChange m n = true := by
  obtain rfl | rfl := hn <;> revert hm hp <;> cases m <;> decide

theorem pauseCheck_rule {c : Ctl} {s : State} (h : s.ctl = c) :
    CtlRule c (pauseCheck s).ctl := by
  subst h
  obtain h | ⟨hprint, hpaused, hsec, hmode⟩ := pauseCheck_ctl s
  · rw [h]
    exact .refl _
  · exact .of_mode (inPrint_stateChange hprint hpaused hmode) hsec

/-- The first line of a frame takes ARMED to PRINTING, and a pause that it completes takes the device on to a state that
ARMED reaches too. -/
theorem afterCommit_rule (x : Option Int) {c : Ctl} {s : State} (h : s.ctl = c) :
    CtlRule c (afterCommit x s).ctl := by
  subst h
  unfold afterCommit
  cases x with
  | none => exact pauseCheck_rule rfl
  | some x =>
    dsimp only
    split
    · next h =>
      obtain ⟨harmed, -⟩ := h
      obtain h | ⟨-, -, hsec, hmode⟩ := pauseCheck_ctl (goTo 6 .printing s)
      · rw [h]
        exact goTo_rule rfl (by rw [harmed]; rfl)
      · exact .of_mode (inPrint_stateChange (by rw [harmed]; rfl) (by rw [harmed]; decide) hmode) hsec
    · exact pauseCheck_rule rfl

theorem plugIdle_rule {c : Ctl} {s : State} (h : s.ctl = c) :
    CtlRule c (plugIdle s).ctl := by
  subst h
  unfold plugIdle
  split
  · next h => exact goTo_rule rfl (by obtain h | h := h <;> rw [h] <;> rfl)
  · exact .refl _

/-! ### SYS_CMD and SYS_SERVICE -/

theorem cmdArm_rule (source : Nat) (s : State) : CtlRule s.ctl (cmdArm source s).ctl := by
  unfold cmdArm
  dsimp only
  split
  · exact .refl _
  · next hidle =>
    split
    · exact .refl _
    · obtain h | ⟨hmode, hsec⟩ := settleArrivals_ctl (goTo 1 .armed { s with w := armWorld s.w })
      · rw [h]
        exact .of_mode (by rw [not_not.mp hidle]; rfl) rfl
      · exact .of_mode (by rw [hmode, not_not.mp hidle]; rfl) hsec

theorem cmdPause_rule (source : Nat) (s : State) : CtlRule s.ctl (cmdPause source s).ctl := by
  unfold cmdPause
  split
  · next harmed =>
    obtain h | ⟨hmode, hsec⟩ := settleArrivals_ctl (goTo 1 .paused s)
    · rw [h]
      exact .of_mode (by rw [harmed]; rfl) rfl
    · exact .of_mode (by rw [hmode, harmed]; rfl) hsec
  · exact pauseCheck_rule rfl
  · exact .refl _

theorem cmdResume_rule (source : Nat) (s : State) : CtlRule s.ctl (cmdResume source s).ctl := by
  unfold cmdResume
  split
  · next h => exact .of_mode (by rw [h]; rfl) rfl
  · split <;> exact .refl _

theorem cmdStop_rule (source : Nat) (s : State) : CtlRule s.ctl (cmdStop source s).ctl := by
  unfold cmdStop
  split
  · next h =>
    refine goTo_rule rfl ?_
    cases hm : s.ctl.mode <;> simp_all [stateChange, stateTable, inPrint]
  · exact .refl _

theorem releaseOk_mode {m : DevState} {w : World} (h : releaseOk m w = true) : m = .safe := by
  simp only [releaseOk, Bool.and_eq_true, beq_iff_eq] at h
  obtain ⟨⟨⟨⟨h, -⟩, -⟩, -⟩, -⟩ := h
  exact h

theorem cmdRelease_rule (source : Nat) (s : State) : CtlRule s.ctl (cmdRelease source s).ctl := by
  unfold cmdRelease
  split
  · next h => exact .of_mode (by rw [releaseOk_mode h]; cases s.w.sys.holdFlag <;> rfl) rfl
  · exact .refl _

theorem sysCmd_rule (source v : Nat) (s : State) : CtlRule s.ctl (sysCmd source v s).ctl := by
  unfold sysCmd
  split
  · exact cmdArm_rule source s
  · exact cmdPause_rule source s
  · exact cmdResume_rule source s
  · exact cmdStop_rule source s
  · exact cmdRelease_rule source s

theorem sysService_rule (source v : Nat) (s : State) : CtlRule s.ctl (sysService source v s).ctl := by
  unfold sysService
  split
  · next h => exact goTo_rule rfl (by rw [h.2]; rfl)
  · split
    · next h => exact goTo_rule rfl (by rw [h.2]; rfl)
    · exact .refl _

/-! ### Resets, shutdowns and power -/

theorem resetDevice_ctl (cause why : Nat) (s : State) :
    (resetDevice cause why s).ctl.mode = .boot ∧ SecKept s.ctl.sec (resetDevice cause why s).ctl.sec :=
  ⟨rfl, bootSec_kept _ _⟩

/-- A shutdown resets the device, or leaves it in THERMAL_HOLD or in standby (R421, R422). -/
theorem thermalShutdown_ctl (reason sensor : Nat) (reading : Int) (s : State) :
    ((thermalShutdown reason sensor reading s).ctl.mode = s.ctl.mode ∨
      (thermalShutdown reason sensor reading s).ctl.mode = .boot) ∧
      SecKept s.ctl.sec (thermalShutdown reason sensor reading s).ctl.sec := by
  unfold thermalShutdown
  split
  · exact ⟨.inl rfl, .refl _⟩
  · split
    · exact ⟨.inl rfl, .refl _⟩
    · exact ⟨.inr rfl, (resetDevice_ctl 3 2 _).2⟩

/-- A meaning after which the device is in the same state or in BOOT. -/
def StaysOrBoots (a b : Ctl) : Prop := (b.mode = a.mode ∨ b.mode = .boot) ∧ SecKept a.sec b.sec

theorem StaysOrBoots.refl (a : Ctl) : StaysOrBoots a a := ⟨.inl rfl, .refl _⟩

theorem StaysOrBoots.trans {a b c : Ctl} (hab : StaysOrBoots a b) (hbc : StaysOrBoots b c) : StaysOrBoots a c := by
  refine ⟨?_, hab.2.trans hbc.2⟩
  obtain h | h := hbc.1
  · rw [h]
    exact hab.1
  · exact .inr h

theorem StaysOrBoots.rule {a b : Ctl} (h : StaysOrBoots a b) : CtlRule a b := by
  refine ⟨?_, h.2⟩
  obtain h | h := h.1 <;> simp [h]

theorem limitStep_ctl (start : Int) {c : Ctl} {s : State} (h : s.ctl = c) :
    StaysOrBoots c (limitStep start s).ctl := by
  subst h
  unfold limitStep
  extract_lets w b
  split
  · exact .refl _
  · split
    · exact thermalShutdown_ctl 3 255 0 s
    · exact .refl _

theorem pollThrottle_ctl {c : Ctl} {s : State} (h : s.ctl = c) :
    StaysOrBoots c (pollThrottle s).ctl := by
  subst h
  unfold pollThrottle
  extract_lets kinds was old w
  split
  · split
    · exact .refl _
    · exact limitStep_ctl _ rfl
  · split <;> exact .refl _

theorem sensorPoll_ctl (raws : List Int) (diags mv : List Nat) (s : State) :
    StaysOrBoots s.ctl (sensorPoll raws diags mv s).ctl := by
  unfold sensorPoll
  extract_lets old w1 w2 w3 w4 p w5 lost w6 x
  have hpoll : StaysOrBoots s.ctl x.ctl := pollThrottle_ctl rfl
  clear_value x
  split
  · exact hpoll.trans (thermalShutdown_ctl _ _ _ x)
  · split
    · exact hpoll
    · exact hpoll.trans (thermalShutdown_ctl _ _ _ x)

theorem govLimitStep_ctl (s : State) : StaysOrBoots s.ctl (govLimitStep s).ctl := by
  unfold govLimitStep
  split
  · exact limitStep_ctl _ rfl
  · exact .refl _

theorem govEval_ctl (pin : Nat) (s : State) : StaysOrBoots s.ctl (govEval pin s).ctl := by
  unfold govEval
  extract_lets w l
  clear_value w
  split_ifs
  · exact .refl _
  · exact .refl _
  · exact .refl _
  · exact .refl _
  · exact thermalShutdown_ctl 3 255 0 { s with w := w }
  · exact .refl _
  · exact .refl _
  · exact .refl _

theorem leaveHold_rule (code cause : Nat) {s : State} (h : s.ctl.mode = .thermalHold) :
    CtlRule s.ctl (leaveHold code cause s).ctl := .of_mode (by rw [h]; rfl) rfl

theorem thmAck_rule (source : Nat) (s : State) : CtlRule s.ctl (thmAck source s).ctl := by
  unfold thmAck
  split
  · next h => exact leaveHold_rule 1 1 h.1
  · exact .refl _

theorem autoResume_rule (s : State) : CtlRule s.ctl (autoResume s).ctl := by
  unfold autoResume
  dsimp only
  split
  · next h => exact leaveHold_rule 2 3 h.1
  · exact .refl _

theorem powerFail_rule (kind inst mv : Nat) {c : Ctl} {s : State} (h : s.ctl = c) :
    CtlRule c (powerFail kind inst mv s).ctl := by
  subst h
  unfold powerFail
  extract_lets
  exact ⟨stateChange_off _, .of_eq rfl rfl⟩

theorem powerLoss_rule (mv : Nat) (s : State) : CtlRule s.ctl (powerLoss mv s).ctl := by
  unfold powerLoss
  split
  · exact powerFail_rule _ _ _ rfl
  · exact .refl _

theorem railCross_rule (r level : Nat) (high : Bool) (mv : Nat) (s : State) :
    CtlRule s.ctl (railCross r level high mv s).ctl := by
  unfold railCross
  extract_lets old new
  split
  · exact .refl _
  · split
    · split
      · exact powerFail_rule _ _ _ rfl
      · exact .refl _
    · split <;> exact .refl _

theorem refFail_rule (s : State) : CtlRule s.ctl (refFail s).ctl := by
  unfold refFail
  extract_lets
  split
  · exact powerFail_rule _ _ _ rfl
  · exact .refl _

theorem saveDone_rule (s : State) : CtlRule s.ctl (saveDone s).ctl := by
  unfold saveDone
  extract_lets
  split
  · next h =>
    split
    · exact .of_mode (by rw [h.2]; rfl) rfl
    · exact .refl _
  · exact .refl _

theorem vinOff_rule (s : State) : CtlRule s.ctl (vinOff s).ctl := by
  unfold vinOff
  extract_lets
  split
  · exact ⟨stateChange_off _, bootSec_kept _ _⟩
  · exact .refl _

theorem powerUp_rule (act : Int) (low : Bool) (mv : Nat) (s : State) : CtlRule s.ctl (powerUp act low mv s).ctl :=
  ⟨stateChange_boot _, bootSec_kept _ _⟩

theorem vinValid_rule (mv : Nat) (s : State) : CtlRule s.ctl (vinValid mv s).ctl := by
  unfold vinValid
  split
  · exact powerUp_rule _ _ mv s
  · exact .refl _

theorem pfLow_rule (mv : Nat) (s : State) : CtlRule s.ctl (pfLow mv s).ctl := by
  unfold pfLow
  split
  · exact powerUp_rule _ _ mv s
  · exact .refl _

/-! ### Serge and start-up -/

theorem stopInLow_rule {c : Ctl} {s : State} (h : s.ctl = c) :
    CtlRule c (stopInLow s).ctl := by
  subst h
  unfold stopInLow
  extract_lets
  split
  · exact .refl _
  · exact enterSafe_rule rfl

theorem sergeCycle_rule (res : List (Option (Nat × Nat))) (s : State) : CtlRule s.ctl (sergeCycle res s).ctl := by
  unfold sergeCycle
  split
  · exact .refl _
  · split
    · exact .refl _
    · split
      · exact enterSafe_rule rfl
      · exact .refl _

theorem firstVoted_rule (sums : List Int) (s : State) : CtlRule s.ctl (firstVoted sums s).ctl := by
  unfold firstVoted
  extract_lets
  split
  · split
    · exact stopInLow_rule rfl
    · exact .refl _
  · exact .refl _

theorem storedLoaded_rule (damaged : List Nat) (s : State) : CtlRule s.ctl (storedLoaded damaged s).ctl := by
  unfold storedLoaded
  extract_lets y w1 w2 w3
  clear_value w3
  split
  · next h => exact .of_mode (by rw [h.1]; rfl) rfl
  · exact .refl _

theorem selftestDone_rule (t : SelfTest) (s : State) : CtlRule s.ctl (selftestDone t s).ctl := by
  unfold selftestDone
  extract_lets
  split
  · next h =>
    refine goTo_rule rfl ?_
    rw [h]
    split <;> rfl
  · exact .refl _

theorem calibrateDone_rule (done : Bool) (sinks : Nat) (first : List (List (Nat × Nat)))
    (later : List (List (List (Nat × Nat)))) (s : State) :
    CtlRule s.ctl (calibrateDone done sinks first later s).ctl := by
  unfold calibrateDone
  extract_lets
  split
  · next h => exact .of_mode (by rw [h.1]; rfl) rfl
  · exact .refl _

theorem discoverDone_rule (dark : List (Nat × List Nat)) (s : State) : CtlRule s.ctl (discoverDone dark s).ctl := by
  unfold discoverDone
  extract_lets
  split
  · next h =>
    split
    · exact .of_mode (by rw [h.1]; rfl) rfl
    · exact .of_mode (by rw [h.1]; rfl) rfl
  · exact .refl _

/-! ### Trailers -/

theorem lockoutEnd_kept (s : State) : AuthKept s.ctl (lockoutEnd s).ctl := by
  unfold lockoutEnd
  split
  · exact .refl _
  · split
    · exact .refl _
    · exact ⟨rfl, .of_eq rfl rfl⟩

theorem dropFails_kept (s : State) : AuthKept s.ctl (dropFails s).ctl := ⟨rfl, .of_eq rfl rfl⟩

theorem authFail_kept (source ix slot reason : Nat) (s : State) : AuthKept s.ctl (authFail source ix slot reason s).ctl :=
  ⟨rfl, .of_eq rfl rfl⟩

theorem AuthKept.trans {a b c : Ctl} (hab : AuthKept a b) (hbc : AuthKept b c) : AuthKept a c :=
  ⟨hbc.1.trans hab.1, hab.2.trans hbc.2⟩

theorem le_getD_set {l : List Nat} {n v : Nat} (h : l.getD n 0 ≤ v) (i : Nat) : l.getD i 0 ≤ (l.set n v).getD i 0 := by
  by_cases hi : n = i
  · subst hi
    by_cases hn : n < l.length
    · simpa [List.getD_eq_getElem?_getD, hn] using h
    · simp [List.getD_eq_getElem?_getD, not_lt.mp hn]
  · simp [List.getD_eq_getElem?_getD, List.getElem?_set_ne hi]

/-- A trailer that passes sets its slot's counter above the last one (R348). -/
theorem setCounter_kept {n c : Nat} {s : State} (h : s.ctl.sec.ctr.getD n 0 < c) :
    AuthKept s.ctl (setSec s fun x => { x with ctr := x.ctr.set n c }).ctl :=
  ⟨rfl, fun i => ⟨id, le_getD_set h.le i⟩⟩

theorem authCheck_kept (source ix sub : Nat) (data : List Nat) (t : Trailer) (s : State) :
    AuthKept s.ctl (authCheck source ix sub data t s).2.ctl := by
  unfold authCheck
  dsimp only
  split
  · exact .refl _
  · refine (lockoutEnd_kept s).trans ?_
    generalize lockoutEnd s = s
    split
    · exact .refl _
    · split
      · split
        · exact authFail_kept _ _ _ _ s
        · split
          · exact authFail_kept _ _ _ _ s
          · next h => exact setCounter_kept (by omega)
      · exact authFail_kept _ _ _ _ s

theorem authStep_kept (a : Bool) (source ix sub : Nat) (data : List Nat) (e : WriteEnv) (s : State) :
    AuthKept s.ctl (authStep a source ix sub data e s).2.ctl := by
  unfold authStep
  split
  · exact authCheck_kept _ _ _ _ _ s
  · split <;> exact .refl _

/-! ### Writes -/

theorem getD_set_of_ne_revoked {l : List KeySlot} {n : Nat} {x : KeySlot} (h : l.getD n .empty ≠ .revoked) {i : Nat}
    (hi : l.getD i .empty = .revoked) : (l.set n x).getD i .empty = .revoked := by
  have hne : n ≠ i := by
    rintro rfl
    exact h hi
  rw [List.getD_eq_getElem?_getD, List.getElem?_set_ne hne, ← List.getD_eq_getElem?_getD, hi]

theorem keyWrite_rule (source : Nat) (bytes : List Nat) (s : State) : CtlRule s.ctl (keyWrite source bytes s).ctl := by
  unfold keyWrite
  split
  · next h =>
    simp only [keyAllowed, Bool.and_eq_true, beq_iff_eq] at h
    obtain ⟨-, hempty⟩ := h
    refine ⟨stateChange_self _, fun i => ⟨getD_set_of_ne_revoked ?_, le_rfl⟩⟩
    rw [hempty]
    decide
  · exact .refl _

theorem getD_set_revoked {l : List KeySlot} {n i : Nat} (hi : l.getD i .empty = .revoked) :
    (l.set n .revoked).getD i .empty = .revoked := by
  by_cases hn : n = i
  · subst hn
    have hlen : n < l.length := by
      by_contra hn
      rw [List.getD_eq_default _ _ (not_lt.mp hn)] at hi
      cases hi
    rw [List.getD_eq_getElem?_getD, List.getElem?_set_self hlen, Option.getD_some]
  · rw [List.getD_eq_getElem?_getD, List.getElem?_set_ne hn, ← List.getD_eq_getElem?_getD, hi]

/-- A slot that is revoked is one already, or becomes one for good (R350). -/
theorem keyRevoke_rule (slot : Nat) (s : State) : CtlRule s.ctl (keyRevoke slot s).ctl :=
  ⟨stateChange_self _, fun _ => ⟨getD_set_revoked, le_rfl⟩⟩

theorem resetRemote_rule (s : State) : CtlRule s.ctl (resetRemote s).ctl := ⟨stateChange_boot _, bootSec_kept _ _⟩

/-- Of the actions SYS_CMD, SYS_SERVICE, SEC_KEY_REVOKE, SUP_RESET and THM_ACK reach the control block. -/
theorem actionFx_rule (source : Nat) (r : ObjDesc) (v : Nat) (s : State) : CtlRule s.ctl (actionFx source r v s).ctl := by
  unfold actionFx
  extract_lets m onW
  have world : ∀ f : World → World, CtlRule s.ctl (onW f).ctl := fun _ => .refl _
  clear_value onW
  have unless0 : ∀ {p : Prop} [Decidable p] f, CtlRule s.ctl (if p then s else onW f).ctl :=
    fun f => .ite (.refl _) (world f)
  exact .ite (sysCmd_rule source v s) <| .ite (sysService_rule source v s) <| .ite (unless0 _) <| .ite (unless0 _) <|
    .ite (world _) <| .ite (world _) <| .ite (world _) <| .ite (unless0 _) <| .ite (world _) <| .ite (world _) <|
    .ite (.ite (world _) (world _)) <| .ite (world _) <| .ite (world _) <| .ite (world _) <| .ite (world _) <|
    .ite (world _) <| .ite (.ite (keyRevoke_rule v s) (world _)) <| .ite (.ite (world _) (resetRemote_rule s)) <|
    .ite (thmAck_rule source s) (world _)

theorem actionWrite_rule (source : Nat) (r : ObjDesc) (v : Int) (s : State) :
    CtlRule s.ctl (actionWrite source r v s).ctl := by
  unfold actionWrite
  exact .ite (actionFx_rule _ _ _ s) (.refl _)

theorem applyWrite_rule (source : Nat) (r : ObjDesc) (n o k : Nat) (bytes : List Nat) (s : State) :
    CtlRule s.ctl (applyWrite source r n o k bytes s).ctl := by
  unfold applyWrite
  refine .ite (actionWrite_rule _ _ _ s) ?_
  split
  · exact .refl _
  · exact keyWrite_rule source bytes s
  · unfold numberWrite
    dsimp only
    split <;> exact .refl _

/-- What steps 1 to 5 of R325 answer has, of the control block, what the trailer's check leaves. -/
def GateKept (c : Ctl) : Except (Nat × State) (State × ObjDesc × Nat × Nat) → Prop
  | .error x => AuthKept c x.2.ctl
  | .ok x => AuthKept c x.1.ctl

theorem GateKept.ite {c : Ctl} {p : Prop} [Decidable p] {x y : Except (Nat × State) (State × ObjDesc × Nat × Nat)}
    (hx : GateKept c x) (hy : GateKept c y) : GateKept c (if p then x else y) := by
  split
  · exact hx
  · exact hy

theorem gate_kept (e : WriteEnv) (ix sub ty : Nat) (bytes : List Nat) (s : State) :
    GateKept s.ctl (gate e ix sub ty bytes s) := by
  have fails : ∀ st, GateKept s.ctl (.error (st, s)) := fun _ => AuthKept.refl _
  unfold gate
  extract_lets k
  refine .ite (fails _) (.ite (fails _) (.ite (fails _) ?_))
  split
  · exact fails _
  · next r n o _ =>
    have hauth := authStep_kept r.a (pathSource e.path) ix sub bytes e s
    exact .ite (fails _) (.ite (fails _) (.ite (fails _) (.ite hauth hauth)))

theorem engine_rule (e : WriteEnv) (ix sub ty : Nat) (bytes : List Nat) {c : Ctl} {s : State} (h : s.ctl = c) :
    CtlRule c (engine e ix sub ty bytes s).2.ctl := by
  subst h
  have hgate := gate_kept e ix sub ty bytes s
  unfold engine
  generalize gate e ix sub ty bytes s = x at hgate
  cases x with
  | error x => exact AuthKept.rule hgate
  | ok x => exact AuthKept.trans_rule hgate (applyWrite_rule _ _ _ _ _ _ x.1)

theorem koaWrite_rule (a : Addr) (reqId : Nat) (e : WriteEnv) (ix sub ty : Nat) (bytes : List Nat) (s : State) :
    CtlRule s.ctl (koaWrite a reqId e ix sub ty bytes s).ctl := by
  unfold koaWrite
  extract_lets w req
  split
  · exact .refl _
  · exact engine_rule e ix sub ty bytes rfl

theorem canWrite_rule (e : WriteEnv) (ix sub : Nat) (bytes : List Nat) {c : Ctl} {s : State} (h : s.ctl = c) :
    CtlRule c (canWrite e ix sub bytes s).ctl := by
  unfold canWrite
  dsimp only
  split <;> exact engine_rule e ix sub 0 bytes h

theorem writeObj_rule (e : WriteEnv) (ix sub ty : Nat) (bytes : List Nat) (s : State) :
    CtlRule s.ctl (writeObj e ix sub ty bytes s).ctl := by
  unfold writeObj
  split
  · exact .ite (koaWrite_rule _ _ e ix sub ty bytes s) (.refl _)
  · exact .ite (canWrite_rule e ix sub bytes rfl) (.refl _)
  · exact .ite (engine_rule e ix sub ty bytes rfl) (.refl _)
  · exact .ite (engine_rule e ix sub ty bytes rfl) (.refl _)

theorem writeKey_rule (e : WriteEnv) (k : Nat) (v : Int) (s : State) : CtlRule s.ctl (writeKey e k v s).ctl := by
  unfold writeKey
  split
  · exact writeObj_rule _ _ _ _ _ s
  · exact .refl _

/-! ### SDO downloads -/

theorem initDownload_rule (ix sub : Nat) (expedited : Bool) (size : Nat) (data : List Nat) (s : State) :
    CtlRule s.ctl (initDownload ix sub expedited size data s).ctl := by
  unfold initDownload
  extract_lets w st
  exact .ite (canWrite_rule _ ix sub data rfl) (.ite (.refl _) (.refl _))

theorem finishDownload_rule (x : SdoXfer) {c : Ctl} {s : State} (h : s.ctl = c) :
    CtlRule c (finishDownload x s).ctl := by
  unfold finishDownload
  extract_lets n tr e
  have hrun := engine_rule e x.index x.sub 0 (if tr then x.bytes.take (n - 20) else x.bytes) h
  generalize engine e x.index x.sub 0 (if tr then x.bytes.take (n - 20) else x.bytes) s = y at hrun
  exact .ite hrun hrun

theorem downloadSegment_rule (toggle last : Bool) (data : List Nat) (s : State) :
    CtlRule s.ctl (downloadSegment toggle last data s).ctl := by
  unfold downloadSegment
  split
  · exact .refl _
  · exact .ite (.refl _) (.ite (.refl _) (.ite (finishDownload_rule _ rfl) (.refl _)))

/-! ### Every command -/

/-- A command's run: a meaning of the world alone, or one of the state that keeps the rule of the control block. -/
def Meaning (run : State → Host.Outcome State Fault Refusal) : Prop :=
  (∃ f, ∀ s, run s = onWorld f s) ∨ ∃ g, (∀ s, CtlRule s.ctl (g s).ctl) ∧ ∀ s, run s = onState g s

theorem Meaning.of_state {run : State → Host.Outcome State Fault Refusal} {g : State → State}
    (hrun : ∀ s, run s = onState g s) (h : ∀ s, CtlRule s.ctl (g s).ctl) : Meaning run := .inr ⟨g, h, hrun⟩

theorem Meaning.of_write {run : State → Host.Outcome State Fault Refusal} (e : WriteEnv) (k : Nat) (v : Int)
    (h : ∀ s, run s = runWrite e k v s) : Meaning run := .inr ⟨writeKey e k v, writeKey_rule e k v, h⟩

theorem exec_meaning (c : Instr) : Meaning (exec c) := by
  delta exec
  cases c
  case setupInstant => exact .of_state (fun _ => rfl) fun s => .ite (pauseCheck_rule rfl) (.refl _)
  case lineCommit r => exact .of_state (fun _ => rfl) fun s => .ite (afterCommit_rule _ rfl) (.refl _)
  case recoveryTimeout i =>
    exact .of_state (fun _ => rfl) fun s => .ite (.ite (plugIdle_rule rfl) (.refl _)) (.refl _)
  case hotplugArrival i serial =>
    exact .of_state (fun _ => rfl) fun s =>
      .ite (.ite (.refl _) (.ite (.refl _) (.ite (plugIdle_rule rfl) (.refl _)))) (.refl _)
  case webStandstill => exact .of_state (fun _ => rfl) fun s => .ite (noSliceSafe_rule rfl) (.refl _)
  case sliceInternalFault b tables => exact .of_state (fun _ => rfl) fun s => .ite (noSliceSafe_rule rfl) (.refl _)
  case sliceStall b => exact .of_state (fun _ => rfl) fun s => .ite (noSliceSafe_rule rfl) (.refl _)
  case memUe area addr unit line => exact .of_state (fun _ => rfl) fun s => .ite (noSliceSafe_rule rfl) (.refl _)
  case scrubPassDone => exact .of_state (fun _ => rfl) fun s => .ite (noSliceSafe_rule rfl) (.refl _)
  case sergeCycle res => exact .of_state (fun _ => rfl) fun s => .ite (sergeCycle_rule res s) (.refl _)
  case stopInLow => exact .of_state (fun _ => rfl) fun s => .ite (.refl _) (stopInLow_rule rfl)
  case thmSensorPoll raws diags mv =>
    exact .of_state (fun _ => rfl) fun s => .ite (sensorPoll_ctl raws diags mv s).rule (.refl _)
  case govLimitStep => exact .of_state (fun _ => rfl) fun s => .ite (govLimitStep_ctl s).rule (.refl _)
  case govEval pin => exact .of_state (fun _ => rfl) fun s => .ite (govEval_ctl pin s).rule (.refl _)
  case thmAutoResumeExit => exact .of_state (fun _ => rfl) autoResume_rule
  case powerFail mv => exact .of_state (fun _ => rfl) (powerLoss_rule mv)
  case vmonCrossing r level high mv => exact .of_state (fun _ => rfl) (railCross_rule r level high mv)
  case refclkFail => exact .of_state (fun _ => rfl) refFail_rule
  case powerSaveDone => exact .of_state (fun _ => rfl) saveDone_rule
  case vinOff => exact .of_state (fun _ => rfl) vinOff_rule
  case vinValid mv => exact .of_state (fun _ => rfl) (vinValid_rule mv)
  case pwrPfLow mv => exact .of_state (fun _ => rfl) (pfLow_rule mv)
  case firstVotedCycle sums => exact .of_state (fun _ => rfl) (firstVoted_rule sums)
  case storedValuesLoaded damaged =>
    exact .of_state (fun _ => rfl) fun s => .ite (storedLoaded_rule damaged s) (storedLoaded_rule damaged s)
  case selftestDone t => exact .of_state (fun _ => rfl) (selftestDone_rule t)
  case calibrateDone done sinks first later =>
    exact .of_state (fun _ => rfl) (calibrateDone_rule done sinks first later)
  case discoverDone dark => exact .of_state (fun _ => rfl) (discoverDone_rule dark)
  case authLockoutEnd => exact .of_state (fun _ => rfl) fun s => (lockoutEnd_kept s).rule
  case authFailureExpire => exact .of_state (fun _ => rfl) fun s => (dropFails_kept s).rule
  case objectWrite e ix sub ty bytes => exact .of_state (fun _ => rfl) (writeObj_rule e ix sub ty bytes)
  case secKeyProgram e bytes => exact .of_state (fun _ => rfl) (writeObj_rule e 0x3D00 0 0x0F bytes)
  case prbWindowWrite e n part v => exact .of_state (fun _ => rfl) fun s => .ite (writeKey_rule e _ v s) (.refl _)
  case jqNozStateWrite e b v => exact .of_state (fun _ => rfl) fun s => .ite (writeKey_rule e _ v s) (.refl _)
  case sdoInitiateDownload ix sub expedited size data =>
    exact .of_state (fun _ => rfl) fun s => .ite (initDownload_rule ix sub expedited size data s) (.refl _)
  case sdoDownloadSegment toggle last data =>
    exact .of_state (fun _ => rfl) fun s => .ite (downloadSegment_rule toggle last data s) (.refl _)
  case sysCmdArm e | sysCmdPause e | sysCmdResume e | sysCmdStop e | sysCmdRelease e | sysServiceEnter e |
      sysServiceLeave e | lckAlignStore e | jobCommit e | memPlanApply e | memLsClear e | jqHeadStore e | yqlDiscover e |
      insWhiteCapture e | insWhiteStore e | chlStore e | supResetHost e | supResetDevice e | thmAck e | evtLogClear e |
      canErrHistClear e => exact .of_write e _ _ fun _ => rfl
  case sysDebugEnWrite e v | sysBgenPinWrite e v | secKeyRevoke e v | timStepSet e v | timIfaceWrite e v |
      timDomainWrite e v | timCfgWrite e v | webPosSet e v | memLsDelete e v | memEccInject e v | jqSliceSwap e v |
      yqlRwDataWrite e v | insUplNow e v | chlRequal e v | chlRefTake e v | supStopCmdWrite e v =>
    exact .of_write e _ _ fun _ => rfl
  all_goals exact .inl ⟨_, fun _ => rfl⟩

/-- On an empty queue a step is one clock (assumption 2). -/
theorem step_of_empty {s : State} (h : s.pending = []) : step s = .next (tick s) := by rw [step, h]

theorem step_of_cons {s : State} {c : Instr} {rest : List Instr} (h : s.pending = c :: rest) :
    step s = exec c { s with pending := rest } := by rw [step, h]

/-- What every command leaves: the rule of the control block kept, the queue as it was, and no event without its number. -/
theorem exec_keeps {c : Instr} {s t : State} (h : exec c s = .next t) :
    CtlRule s.ctl t.ctl ∧ t.pending = s.pending ∧ Quiet t := by
  obtain ⟨f, hf⟩ | ⟨g, hrule, hg⟩ := exec_meaning c
  · rw [hf s] at h
    cases h
    exact ⟨.refl _, rfl, settle_raised _⟩
  · rw [hg s] at h
    cases h
    exact ⟨hrule { s with w := { s.w with out := [] } }, rfl, settle_raised _⟩

theorem exec_completes (c : Instr) (s : State) : ∃ t, exec c s = .next t := by
  obtain ⟨f, hf⟩ | ⟨g, -, hg⟩ := exec_meaning c
  · exact ⟨_, hf s⟩
  · exact ⟨_, hg s⟩

end Sys2Proof.Machine
end

section
/-! Obligations O1, O6 and O7, from what every command is. -/

open Sys2Proof Sys2Proof.Machine

/-- Settles O1: a step is defined by the front of the queue. -/
theorem stepRunsFront : Obligations.StepRunsFront := fun _ _ _ => step_of_cons

/-- What every step does to the control block. -/
theorem step_ctlRule {s t : State} (h : step s = .next t) : CtlRule s.ctl t.ctl := by
  cases hp : s.pending with
  | nil =>
    rw [step_of_empty hp] at h
    cases h
    exact .refl _
  | cons c rest =>
    rw [step_of_cons hp] at h
    exact (exec_keeps h).1

/-- Settles O6: a clock keeps the device state, and a command changes it along a row of the table. -/
theorem stateTable : Obligations.StateTable := fun _ _ h => (step_ctlRule h).1

/-- Settles O7: a clock keeps the authentication block, and of the commands only a trailer's counter, a key and a
revocation reach slots and counters. -/
theorem authenticationKept : Obligations.AuthenticationKept := fun _ _ i h => (step_ctlRule h).2 i
end

section
/-! SUPPORT. Frames of worlds: an update of one part writes that part alone, and frames compose along conditions, matches
and folds. -/

namespace Sys2Proof.Machine

section
variable {parts : List Part} {objs : Nat → Bool} (w : World)

/-! ### One part -/

theorem worldFrame_clk (hp : .clk ∈ parts) (v : Nat) : WorldFrame parts objs w { w with clk := v } := by
  refine ⟨fun p hq => ?_, fun _ _ => rfl⟩
  cases p
  case clk => exact absurd hp hq
  all_goals simp only [samePart, and_self]

theorem worldFrame_free (hp : .free ∈ parts) (v : Nat) : WorldFrame parts objs w { w with free := v } := by
  refine ⟨fun p hq => ?_, fun _ _ => rfl⟩
  cases p
  case free => exact absurd hp hq
  all_goals simp only [samePart, and_self]

theorem worldFrame_sys (hp : .sys ∈ parts) (v : Sys) : WorldFrame parts objs w { w with sys := v } := by
  refine ⟨fun p hq => ?_, fun _ _ => rfl⟩
  cases p
  case sys => exact absurd hp hq
  all_goals simp only [samePart, and_self]

theorem worldFrame_web (hp : .web ∈ parts) (v : Web) : WorldFrame parts objs w { w with web := v } := by
  refine ⟨fun p hq => ?_, fun _ _ => rfl⟩
  cases p
  case web => exact absurd hp hq
  all_goals simp only [samePart, and_self]

theorem worldFrame_lck (hp : .lck ∈ parts) (v : Lck) : WorldFrame parts objs w { w with lck := v } := by
  refine ⟨fun p hq => ?_, fun _ _ => rfl⟩
  cases p
  case lck => exact absurd hp hq
  all_goals simp only [samePart, and_self]

theorem worldFrame_job (hp : .job ∈ parts) (v : Job) : WorldFrame parts objs w { w with job := v } := by
  refine ⟨fun p hq => ?_, fun _ _ => rfl⟩
  cases p
  case job => exact absurd hp hq
  all_goals simp only [samePart, and_self]

theorem worldFrame_mem (hp : .mem ∈ parts) (v : Mem) : WorldFrame parts objs w { w with mem := v } := by
  refine ⟨fun p hq => ?_, fun _ _ => rfl⟩
  cases p
  case mem => exact absurd hp hq
  all_goals simp only [samePart, and_self]

theorem worldFrame_cal (hp : .cal ∈ parts) (v : Cal) : WorldFrame parts objs w { w with cal := v } := by
  refine ⟨fun p hq => ?_, fun _ _ => rfl⟩
  cases p
  case cal => exact absurd hp hq
  all_goals simp only [samePart, and_self]

theorem worldFrame_jq (hp : .jq ∈ parts) (v : Jq) : WorldFrame parts objs w { w with jq := v } := by
  refine ⟨fun p hq => ?_, fun _ _ => rfl⟩
  cases p
  case jq => exact absurd hp hq
  all_goals simp only [samePart, and_self]

theorem worldFrame_links (hp : .links ∈ parts) (v : List Link) : WorldFrame parts objs w { w with links := v } := by
  refine ⟨fun p hq => ?_, fun _ _ => rfl⟩
  cases p
  case links => exact absurd hp hq
  all_goals simp only [samePart, and_self]

theorem worldFrame_fire (hp : .fire ∈ parts) (v : List FirePort) : WorldFrame parts objs w { w with fire := v } := by
  refine ⟨fun p hq => ?_, fun _ _ => rfl⟩
  cases p
  case fire => exact absurd hp hq
  all_goals simp only [samePart, and_self]

theorem worldFrame_sup (hp : .sup ∈ parts) (v : Sup) : WorldFrame parts objs w { w with sup := v } := by
  refine ⟨fun p hq => ?_, fun _ _ => rfl⟩
  cases p
  case sup => exact absurd hp hq
  all_goals simp only [samePart, and_self]

theorem worldFrame_ins (hp : .ins ∈ parts) (v : Ins) : WorldFrame parts objs w { w with ins := v } := by
  refine ⟨fun p hq => ?_, fun _ _ => rfl⟩
  cases p
  case ins => exact absurd hp hq
  all_goals simp only [samePart, and_self]

theorem worldFrame_loop (hp : .loop ∈ parts) (v : Loop) : WorldFrame parts objs w { w with loop := v } := by
  refine ⟨fun p hq => ?_, fun _ _ => rfl⟩
  cases p
  case loop => exact absurd hp hq
  all_goals simp only [samePart, and_self]

theorem worldFrame_thm (hp : .thm ∈ parts) (v : Thm) : WorldFrame parts objs w { w with thm := v } := by
  refine ⟨fun p hq => ?_, fun _ _ => rfl⟩
  cases p
  case thm => exact absurd hp hq
  all_goals simp only [samePart, and_self]

theorem worldFrame_nvm (hp : .nvm ∈ parts) (v : Nvm) : WorldFrame parts objs w { w with nvm := v } := by
  refine ⟨fun p hq => ?_, fun _ _ => rfl⟩
  cases p
  case nvm => exact absurd hp hq
  all_goals simp only [samePart, and_self]

theorem worldFrame_net (hp : .net ∈ parts) (v : Net) : WorldFrame parts objs w { w with net := v } := by
  refine ⟨fun p hq => ?_, fun _ _ => rfl⟩
  cases p
  case net => exact absurd hp hq
  all_goals simp only [samePart, and_self]

theorem worldFrame_can (hp : .can ∈ parts) (v : Can) : WorldFrame parts objs w { w with can := v } := by
  refine ⟨fun p hq => ?_, fun _ _ => rfl⟩
  cases p
  case can => exact absurd hp hq
  all_goals simp only [samePart, and_self]

theorem worldFrame_tim (hp : .tim ∈ parts) (v : Tim) : WorldFrame parts objs w { w with tim := v } :=
  (WorldFrame.refl w).withTim hp v

theorem worldFrame_voi (hp : .voi ∈ parts) (v : Voi) : WorldFrame parts objs w { w with voi := v } :=
  (WorldFrame.refl w).updVoi hp fun _ => v

/-- The event system belongs to no part. -/
theorem worldFrame_evt (v : Evt) : WorldFrame parts objs w { w with evt := v } :=
  ⟨fun p _ => samePart_outside p w _ _ _ _, fun _ _ => rfl⟩

/-- Nor do the messages of the last command. -/
theorem worldFrame_out (v : List OutMsg) : WorldFrame parts objs w { w with out := v } := by
  refine ⟨fun p _ => ?_, fun _ _ => rfl⟩
  cases p <;> simp only [samePart, and_self]

theorem worldFrame_send (m : OutMsg) : WorldFrame parts objs w (send w m) := worldFrame_out w _

theorem worldFrame_raiseAt (code inst data et : Nat) (pos : Int) :
    WorldFrame parts objs w (raiseAt w code inst data et pos) := worldFrame_evt w _

theorem worldFrame_raise (code inst data : Nat) : WorldFrame parts objs w (raise w code inst data) := worldFrame_evt w _

theorem worldFrame_setO {k : Nat} (hk : objs k = true) (v : Int) : WorldFrame parts objs w (setO w k v) :=
  (WorldFrame.refl w).setO hk v

theorem worldFrame_bump {k : Nat} (hk : objs k = true) : WorldFrame parts objs w (bump w k) := worldFrame_setO w hk _

/-- The keyed stores beside the objects in force. -/
theorem worldFrame_stores (hp : .stores ∈ parts) (fram : KMap Int) (framWait : List (Nat × Int × Nat)) (nor : KMap Int)
    (norWait : List (Nat × Nat)) (hostName hostNameNv : List Nat) :
    WorldFrame parts objs w { w with dict := { w.dict with
      fram := fram, framWait := framWait, nor := nor, norWait := norWait, hostName := hostName, hostNameNv := hostNameNv } } := by
  refine ⟨fun p hq => ?_, fun _ _ => rfl⟩
  cases p
  case stores => exact absurd hp hq
  all_goals simp only [samePart, and_self]

theorem worldFrame_tbl (hp : .tables ∈ parts) (t : KMap Int) :
    WorldFrame parts objs w { w with dict := { w.dict with tbl := t } } := by
  refine ⟨fun p hq => ?_, fun _ _ => rfl⟩
  cases p
  case tables => exact absurd hp hq
  all_goals simp only [samePart, and_self]

/-! ### Composition -/

variable {w}

theorem WorldFrame.mono {parts' : List Part} {objs' : Nat → Bool} {a b : World} (h : WorldFrame parts objs a b)
    (hp : parts ⊆ parts') (ho : ∀ k, objs k = true → objs' k = true) : WorldFrame parts' objs' a b := by
  obtain ⟨hpart, hobj⟩ := h
  refine ⟨fun p hq => hpart p fun hp' => hq (hp hp'), fun k hk => hobj k ?_⟩
  cases hk' : objs k with
  | false => rfl
  | true => rw [ho k hk'] at hk; cases hk

theorem WorldFrame.ite {a x y : World} {p : Prop} [Decidable p] (hx : WorldFrame parts objs a x)
    (hy : WorldFrame parts objs a y) : WorldFrame parts objs a (if p then x else y) := by
  split
  · exact hx
  · exact hy

/-- A change that is made only where a condition holds. -/
theorem WorldFrame.whenSo {a x y : World} {p : Prop} [Decidable p] (hx : WorldFrame parts objs a x)
    (hy : WorldFrame parts objs x y) : WorldFrame parts objs a (if p then y else x) := .ite (hx.trans hy) hx

/-- A change that is left out where a condition holds. -/
theorem WorldFrame.unless {a x y : World} {p : Prop} [Decidable p] (hx : WorldFrame parts objs a x)
    (hy : WorldFrame parts objs x y) : WorldFrame parts objs a (if p then x else y) := .ite hx (hx.trans hy)

theorem WorldFrame.foldl {γ : Type} {g : World → γ → World} {l : List γ}
    (hg : ∀ b x, x ∈ l → WorldFrame parts objs b (g b x)) (a : World) : WorldFrame parts objs a (l.foldl g a) := by
  induction l generalizing a with
  | nil => exact .refl a
  | cons x l ih =>
    exact (hg a x (List.mem_cons_self ..)).trans (ih (fun b y hy => hg b y (List.mem_cons_of_mem _ hy)) _)

theorem WorldFrame.whenDo {a : World} {c : Bool} {f : World → World} (h : WorldFrame parts objs a (f a)) :
    WorldFrame parts objs a (whenDo c f a) := .ite h (.refl a)

/-- A command of the world alone has the frame of its meaning. -/
theorem touches_onWorld {f : Ctl → World → World} {s t : State} (h : onWorld f s = .next t)
    (hf : WorldFrame parts objs (fresh s).w (f s.ctl (fresh s).w)) : Touches parts objs s t := by
  cases h
  exact WorldFrame.touches (f := f s.ctl) hf

end

theorem objsOf_cons (a : Nat) (l : List Nat) (k : Nat) : objsOf (a :: l) k = (k == a || objsOf l k) := by
  simp only [objsOf, List.contains_cons]

@[simp] theorem objIn_key (g k : Nat) (l : List Nat) : objIn (g :: l) k = (k / 65536 == g || objIn l k) := by
  simp only [objIn, List.contains_cons]

/-! ### The lists of a world, part by part -/

section
variable {parts : List Part} {objs : Nat → Bool} (w : World)

theorem worldFrame_setLink (hp : .links ∈ parts) (i : Nat) (l : Link) : WorldFrame parts objs w (setLink w i l) :=
  worldFrame_links w hp _

theorem worldFrame_updLink (hp : .links ∈ parts) (i : Nat) (f : Link → Link) : WorldFrame parts objs w (updLink w i f) :=
  worldFrame_links w hp _

theorem worldFrame_updPort (hp : .fire ∈ parts) (i : Nat) (f : FirePort → FirePort) :
    WorldFrame parts objs w (updPort w i f) := worldFrame_fire w hp _

theorem worldFrame_putBlocks (hp : .links ∈ parts) (i ui : Nat) (bs : List Block) :
    WorldFrame parts objs w (putBlocks w i ui bs) := by
  unfold putBlocks
  extract_lets
  exact worldFrame_updLink w hp i _

theorem worldFrame_putSync (hp : .links ∈ parts) (i : Nat) : WorldFrame parts objs w (putSync w i) :=
  ((worldFrame_updLink w hp i _).trans (worldFrame_send _ _)).trans (worldFrame_putBlocks _ hp i _ _)

end

end Sys2Proof.Machine
end

section
/-! SUPPORT. A clock that passes with nothing commanded (R370): the timer, the line clock's times, the gaps of the ports
and the look-ahead. -/

namespace Sys2Proof.Machine

variable (w : World)

/-! ### What each part of a clock leaves -/

theorem worldFrame_syncGaps {parts : List Part} {objs : Nat → Bool} (hp : .links ∈ parts) :
    WorldFrame parts objs w (syncGaps w) :=
  .foldl (fun b x _ => .ite (worldFrame_putSync b hp x) (.refl b)) w

theorem worldFrame_noteLook {parts : List Part} {objs : Nat → Bool} (ha : objs Obj.MEM_LA_ACTUAL = true)
    (hm : objs Obj.MEM_LA_MIN = true) : WorldFrame parts objs w (noteLook w) :=
  .whenSo (worldFrame_setO w ha _) (worldFrame_setO _ hm _)

@[simp] theorem putSync_evt (i : Nat) : (putSync w i).evt = w.evt := rfl
@[simp] theorem putSync_tim (i : Nat) : (putSync w i).tim = w.tim := rfl
@[simp] theorem putSync_clk (i : Nat) : (putSync w i).clk = w.clk := rfl

theorem syncGaps_keeps {α : Type} (p : World → α) (hp : ∀ w i, p (putSync w i) = p w) : p (syncGaps w) = p w :=
  foldl_keeps p (fun w i => by split; exacts [hp w i, rfl]) _ w

theorem noteLook_keeps {α : Type} (p : World → α) (hp : ∀ w k v, p (setO w k v) = p w) : p (noteLook w) = p w := by
  unfold noteLook
  extract_lets a w1
  split
  · exact (hp _ _ _).trans (hp _ _ _)
  · exact hp _ _ _

/-- The world on a clock of a powered device. -/
def ranOn (w : World) : World := syncGaps (noteTimers (tickTimer { w with clk := w.clk + 1 }))

theorem tick_off {s : State} (h : powered s.ctl.mode = false) : tick s = { s with w := { s.w with clk := s.w.clk + 1 } } := by
  have hprint : inPrint s.ctl.mode = false := by
    revert h
    cases s.ctl.mode <;> decide
  simp only [tick, h, hprint, Bool.false_eq_true, if_false]

theorem tick_on {s : State} (h : powered s.ctl.mode = true) :
    tick s = { s with w := if inPrint s.ctl.mode then noteLook (ranOn s.w) else ranOn s.w } := by
  simp only [tick, h, if_true]
  rfl

theorem tick_idle {s : State} (h : powered s.ctl.mode = true) (hprint : inPrint s.ctl.mode = false) :
    (tick s).w = ranOn s.w := by
  simp only [tick_on h, hprint, Bool.false_eq_true, if_false]

theorem tick_printing {s : State} (h : powered s.ctl.mode = true) (hprint : inPrint s.ctl.mode = true) :
    (tick s).w = noteLook (ranOn s.w) := by
  simp only [tick_on h, hprint, if_true]

theorem tick_ctl (s : State) : (tick s).ctl = s.ctl := by unfold tick; split <;> rfl

theorem tick_pending (s : State) : (tick s).pending = s.pending := by unfold tick; split <;> rfl

/-- What a clock leaves of the world where its parts leave it. -/
theorem tick_keeps {α : Type} (p : World → α) (s : State) (hclk : ∀ w c, p { w with clk := c } = p w)
    (htim : ∀ w t, p { w with tim := t } = p w) (hlck : ∀ w t, p { w with lck := t } = p w)
    (hsync : ∀ w i, p (putSync w i) = p w) (hset : ∀ w k v, p (setO w k v) = p w) : p (tick s).w = p s.w := by
  cases h : powered s.ctl.mode with
  | false => rw [tick_off h]; exact hclk _ _
  | true =>
    have hran : p (ranOn s.w) = p s.w :=
      (syncGaps_keeps _ p hsync).trans ((hlck _ _).trans ((htim _ _).trans (hclk _ _)))
    rw [tick_on h]
    dsimp only
    split
    · exact (noteLook_keeps _ p hset).trans hran
    · exact hran

theorem tick_quiet {s : State} (h : Quiet s) : Quiet (tick s) :=
  (congrArg Evt.raised (tick_keeps World.evt s (fun _ _ => rfl) (fun _ _ => rfl) (fun _ _ => rfl) (fun _ _ => rfl)
    fun _ _ _ => rfl)).trans h

/-! ### The timer -/

theorem getN_withClk (c k : Nat) : getN { w with clk := c } k = getN w k := rfl

theorem ranOn_tim : (ranOn w).tim = (tickTimer w).tim := by
  have h : (ranOn w).tim = (tickTimer { w with clk := w.clk + 1 }).tim := syncGaps_keeps _ World.tim fun _ _ => rfl
  rw [h]
  simp only [tickTimer, getN_withClk]
  rfl

theorem ranOn_clk : (ranOn w).clk = w.clk + 1 := syncGaps_keeps _ World.clk fun _ _ => rfl

theorem worldFrame_ranOn {objs : Nat → Bool} : WorldFrame [.clk, .tim, .lck, .links] objs w (ranOn w) :=
  (((worldFrame_clk w (by decide) _).trans (worldFrame_tim _ (by decide) _)).trans (worldFrame_lck _ (by decide) _)).trans
    (worldFrame_syncGaps _ (by decide))

/-- The addend enters nanoseconds and fraction together, and a second goes on with each 10^9 ns (R370). -/
theorem tickTimer_carries (hns : w.tim.ns < 1000000000) (hadd : getN w Obj.TIM_ADDEND ≤ 859852452)
    (hfrac : w.tim.fracNs < 268435456) :
    (tickTimer w).tim.ns < 1000000000 ∧ (tickTimer w).tim.fracNs < 268435456 ∧
      ((tickTimer w).tim.sec = w.tim.sec → (tickTimer w).tim.ns * 268435456 + (tickTimer w).tim.fracNs =
        w.tim.ns * 268435456 + w.tim.fracNs + getN w Obj.TIM_ADDEND) ∧
      ((tickTimer w).tim.sec ≠ w.tim.sec → (tickTimer w).tim.sec = (w.tim.sec + 1) % 281474976710656 ∧
        ((tickTimer w).tim.ns + 1000000000) * 268435456 + (tickTimer w).tim.fracNs =
          w.tim.ns * 268435456 + w.tim.fracNs + getN w Obj.TIM_ADDEND) := by
  unfold tickTimer
  dsimp only
  generalize getN w Obj.TIM_ADDEND = a at hadd ⊢
  by_cases hbeyond : 1000000000 ≤ w.tim.ns + (w.tim.fracNs + a) / 268435456
  · simp only [hbeyond, if_true]
    have hsec : (w.tim.sec + 1) % 281474976710656 ≠ w.tim.sec := by omega
    refine ⟨?_, ?_, fun h => absurd h hsec, fun _ => ⟨trivial, ?_⟩⟩ <;> omega
  · simp only [hbeyond, if_false]
    refine ⟨?_, ?_, fun _ => ?_, fun h => absurd rfl h⟩ <;> omega

end Sys2Proof.Machine
end

section
/-! Obligations O2, O3 and O5, from the rules of a clock and of what every command is. -/

open Sys2Proof Sys2Proof.Machine

/-- Settles O5: a command ends in settling its events, and a clock raises none. -/
theorem eventsNumbered : Obligations.EventsNumbered := by
  intro s t hq h
  cases hp : s.pending with
  | nil =>
    rw [step_of_empty hp] at h
    cases h
    exact tick_quiet hq
  | cons c rest =>
    rw [step_of_cons hp] at h
    exact (exec_keeps h).2.2

/-- Settles O2: the timer's carry is `tickTimer_carries`, and the frame of a clock is composed from its parts. -/
theorem idleClock : Obligations.IdleClock := by
  refine fun s hempty => ⟨tick s, step_of_empty hempty, ?_⟩
  rw [tick_ctl, tick_pending]
  cases hpow : powered s.ctl.mode with
  | false =>
    rw [tick_off hpow]
    exact ⟨rfl, rfl, hempty, fun _ _ => rfl, (worldFrame_clk s.w (objs := noObj) (by decide) _).1,
      fun _ => ⟨rfl, rfl, rfl⟩, nofun⟩
  | true =>
    have htimer := tickTimer_carries s.w
    rw [← ranOn_tim] at htimer
    cases hprint : inPrint s.ctl.mode with
    | false =>
      rw [tick_idle hpow hprint]
      obtain ⟨hparts, hobjs⟩ := worldFrame_ranOn s.w (objs := noObj)
      exact ⟨ranOn_clk s.w, rfl, hempty, fun k _ => hobjs k rfl, hparts, nofun, fun _ => htimer⟩
    | true =>
      rw [tick_printing hpow hprint]
      obtain ⟨hparts, hobjs⟩ := (worldFrame_ranOn s.w).trans
        (worldFrame_noteLook (ranOn s.w) (objs := objsOf [Obj.MEM_LA_ACTUAL, Obj.MEM_LA_MIN]) (by decide) (by decide))
      have htim : (noteLook (ranOn s.w)).tim = (ranOn s.w).tim := noteLook_keeps _ World.tim fun _ _ _ => rfl
      have hclk : (noteLook (ranOn s.w)).clk = (ranOn s.w).clk := noteLook_keeps _ World.clk fun _ _ _ => rfl
      refine ⟨hclk.trans (ranOn_clk s.w), rfl, hempty, fun k hk => hobjs k ?_, hparts, nofun, fun _ => ?_⟩
      · obtain ⟨hactual, hmin⟩ := hk rfl
        simp [objsOf, hactual, hmin]
      · rw [htim]
        exact htimer

/-- Settles O3: every clause is read off the definition of the state after reset. -/
theorem resetState : Obligations.ResetState :=
  ⟨rfl, rfl, rfl, rfl, rfl, rfl, rfl, rfl, rfl, rfl, rfl, rfl, rfl, fun _ => ⟨rfl, rfl⟩⟩
end

section
/-! SUPPORT. Where the record of an event goes (R450, R452, R454), route by route. -/

namespace Sys2Proof.Machine

/-! ### Meanings under a condition -/

theorem whenDo_on {c : Bool} (h : c = true) (f : World → World) (w : World) : whenDo c f w = f w := if_pos h

theorem whenDo_off {c : Bool} (h : c = false) (f : World → World) (w : World) : whenDo c f w = w := by
  rw [whenDo, h]
  rfl

theorem whenDo_keeps {α : Type} (p : World → α) {c : Bool} {f : World → World} (hf : ∀ w, p (f w) = p w) (w : World) :
    p (whenDo c f w) = p w := by
  cases c
  · rfl
  · exact hf w

/-! ### The routes of a record -/

section
variable (w : World) (r : EvRec)

/-- The record of `r` with its number (R450). -/
def numbered : EvRec := { r with seq := (w.evt.seq + 1) % 4294967296, serge := w.sys.voted && !hostServing w }

/-- The block once the record has its number. -/
def counted : World :=
  { w with evt := { w.evt with seq := (w.evt.seq + 1) % 4294967296, lastData := mapPutD w.evt.lastData r.code r.data 0 } }

/-- LOG. -/
def atLog : World := whenDo (bitOf (routeOf w r.code) 0) (deliverLog · (numbered w r)) (counted w r)

/-- HOST. -/
def atHost : World :=
  whenDo (bitOf (routeOf w r.code) 1 && hostServing (atLog w r)) (deliverHost · (numbered w r)) (atLog w r)

/-- SERGE. -/
def atSerge : World := whenDo (bitOf (routeOf w r.code) 2) (deliverSerge · (numbered w r)) (atHost w r)

/-- NOTIFY and EMCY. -/
def atEmcy : World :=
  whenDo (bitOf (routeOf w r.code) 4) (deliverEmcy · (numbered w r))
    (whenDo (bitOf (routeOf w r.code) 3) (deliverNotify · (numbered w r)) (atSerge w r))

/-- OUT. -/
def atOut (rt : Nat) (w : World) : World :=
  whenDo w.sys.voted (fun w => (List.range 4).foldl (fun w n => if bitOf rt (8 + n) then deliverOut w n else w) w) w

theorem deliver_eq : deliver w r = atOut (routeOf w r.code) (atEmcy w r) := rfl

variable {α : Type} (p : World → α)

theorem atOut_keeps (hout : ∀ w n, p (deliverOut w n) = p w) (rt : Nat) : p (atOut rt w) = p w :=
  whenDo_keeps p (fun w => foldl_keeps p (fun w n => by split; exacts [hout w n, rfl]) _ w) w

theorem atSerge_keeps (hserge : ∀ w r, p (deliverSerge w r) = p w) : p (atSerge w r) = p (atHost w r) :=
  whenDo_keeps p (fun w => hserge w _) _

theorem atHost_keeps (hhost : ∀ w r, p (deliverHost w r) = p w) : p (atHost w r) = p (atLog w r) :=
  whenDo_keeps p (fun w => hhost w _) _

theorem atLog_keeps (hlog : ∀ w r, p (deliverLog w r) = p w) : p (atLog w r) = p (counted w r) :=
  whenDo_keeps p (fun w => hlog w _) _

/-- What neither NOTIFY nor EMCY nor OUT writes, stands as SERGE left it. -/
theorem deliver_afterSerge (hnotify : ∀ w r, p (deliverNotify w r) = p w) (hemcy : ∀ w r, p (deliverEmcy w r) = p w)
    (hout : ∀ w n, p (deliverOut w n) = p w) : p (deliver w r) = p (atSerge w r) :=
  calc p (deliver w r) = p (atEmcy w r) := atOut_keeps _ p hout _
    _ = _ := whenDo_keeps p (fun w => hemcy w _) _
    _ = _ := whenDo_keeps p (fun w => hnotify w _) _

/-- What only LOG writes. -/
theorem deliver_ofLog (hhost : ∀ w r, p (deliverHost w r) = p w) (hserge : ∀ w r, p (deliverSerge w r) = p w)
    (hnotify : ∀ w r, p (deliverNotify w r) = p w) (hemcy : ∀ w r, p (deliverEmcy w r) = p w)
    (hout : ∀ w n, p (deliverOut w n) = p w) : p (deliver w r) = p (atLog w r) :=
  calc p (deliver w r) = p (atSerge w r) := deliver_afterSerge w r p hnotify hemcy hout
    _ = p (atHost w r) := atSerge_keeps w r p hserge
    _ = _ := atHost_keeps w r p hhost

end

/-! ### What each route leaves -/

theorem deliverOut_evtKeeps {α : Type} (p : Evt → α) (h : ∀ e l o, p { e with outLevel := l, outEnd := o } = p e)
    (w : World) (n : Nat) : p (deliverOut w n).evt = p w.evt := by
  unfold deliverOut
  extract_lets
  split
  · exact h _ _ _
  · exact h w.evt _ w.evt.outEnd
  · exact h w.evt _ w.evt.outEnd

theorem getO_deliverOut (w : World) (n k : Nat) : getO (deliverOut w n) k = getO w k := by
  unfold deliverOut
  extract_lets
  split <;> rfl

theorem deliverOut_can (w : World) (n : Nat) : (deliverOut w n).can = w.can := by
  unfold deliverOut
  extract_lets
  split <;> rfl

theorem deliverHost_recent (w : World) (r : EvRec) :
    (deliverHost w r).evt.recent = lastN 1024 (w.evt.recent ++ [r]) := by
  simp only [deliverHost]

theorem deliverHost_can (w : World) (r : EvRec) : (deliverHost w r).can = w.can := by
  simp only [deliverHost]

theorem getO_deliverHost (w : World) (r : EvRec) (k : Nat) : getO (deliverHost w r) k = getO w k := by
  simp only [deliverHost, getO]

theorem deliverEmcy_evt (w : World) (r : EvRec) : (deliverEmcy w r).evt = w.evt := by
  unfold deliverEmcy
  split <;> rfl

theorem getO_deliverEmcy (w : World) (r : EvRec) {k : Nat} (hk : Obj.NET_CAN_EMCY_LOST ≠ k) :
    getO (deliverEmcy w r) k = getO w k := by
  unfold deliverEmcy
  split
  · rfl
  · exact getO_bump_ne _ hk

theorem deliverLog_can (w : World) (r : EvRec) : (deliverLog w r).can = w.can := by
  unfold deliverLog
  split <;> rfl

theorem deliverLog_recent (w : World) (r : EvRec) : (deliverLog w r).evt.recent = w.evt.recent := by
  unfold deliverLog
  split <;> rfl

theorem hostServing_deliverLog (w : World) (r : EvRec) : hostServing (deliverLog w r) = hostServing w := by
  have hstate : getO (deliverLog w r) Obj.SUP_HOST_STATE = getO w Obj.SUP_HOST_STATE :=
    (deliverLog_delivered w r).2 _ (by decide) (by decide)
  have hsys : (deliverLog w r).sys = w.sys := by
    unfold deliverLog
    split <;> rfl
  simp only [hostServing, hstate, hsys]

/-! ### The log, EVT_RECENT and the EMCY queue after a delivery -/

section
variable {w : World} {r : EvRec}

theorem deliver_recent (hroute : bitOf (routeOf w r.code) 1 = true) (hhost : hostServing w = true) :
    (deliver w r).evt.recent = lastN 1024 (w.evt.recent ++ [numbered w r]) := by
  have hserving : hostServing (atLog w r) = true := (atLog_keeps w r hostServing hostServing_deliverLog).trans hhost
  have hrecent : (atLog w r).evt.recent = w.evt.recent := atLog_keeps w r (fun w => w.evt.recent) deliverLog_recent
  calc (deliver w r).evt.recent = (atSerge w r).evt.recent :=
        deliver_afterSerge w r (fun w => w.evt.recent) (fun _ _ => rfl) (fun w r => by rw [deliverEmcy_evt])
          fun w n => deliverOut_evtKeeps Evt.recent (fun _ _ _ => rfl) w n
    _ = (atHost w r).evt.recent := atSerge_keeps w r (fun w => w.evt.recent) fun _ _ => rfl
    _ = lastN 1024 ((atLog w r).evt.recent ++ [numbered w r]) := by
      rw [atHost, whenDo_on (by rw [hroute, hserving]; rfl), deliverHost_recent]
    _ = _ := by rw [hrecent]

theorem deliver_last (hroute : bitOf (routeOf w r.code) 2 = true) :
    mapGet (deliver w r).evt.last r.code = some (numbered w r) := by
  have hlast : (deliver w r).evt.last = (atSerge w r).evt.last :=
    deliver_afterSerge w r (fun w => w.evt.last) (fun _ _ => rfl) (fun w r => by rw [deliverEmcy_evt])
      fun w n => deliverOut_evtKeeps Evt.last (fun _ _ _ => rfl) w n
  rw [hlast, atSerge, whenDo_on hroute]
  exact mapGet_mapPut_same _ _ _

theorem deliver_emcyQ : (deliver w r).can.emcyQ =
    (whenDo (bitOf (routeOf w r.code) 4) (deliverEmcy · (numbered w r))
      (whenDo (bitOf (routeOf w r.code) 3) (deliverNotify · (numbered w r)) (atSerge w r))).can.emcyQ :=
  congrArg Can.emcyQ (atOut_keeps _ World.can deliverOut_can _)

theorem emcyQ_beforeEmcy :
    (whenDo (bitOf (routeOf w r.code) 3) (deliverNotify · (numbered w r)) (atSerge w r)).can.emcyQ = w.can.emcyQ :=
  calc _ = (atSerge w r).can.emcyQ := whenDo_keeps (f := (deliverNotify · _)) (fun w => w.can.emcyQ) (fun _ => rfl) _
    _ = (atHost w r).can.emcyQ := atSerge_keeps w r (fun w => w.can.emcyQ) fun _ _ => rfl
    _ = (atLog w r).can.emcyQ := atHost_keeps w r (fun w => w.can.emcyQ) fun w r => by rw [deliverHost_can]
    _ = _ := atLog_keeps w r (fun w => w.can.emcyQ) fun w r => by rw [deliverLog_can]

theorem deliver_emcyQ_on (hroute : bitOf (routeOf w r.code) 4 = true) (hroom : w.can.emcyQ.length < 16) :
    (deliver w r).can.emcyQ = w.can.emcyQ ++ [numbered w r] := by
  rw [deliver_emcyQ, whenDo_on hroute, deliverEmcy, if_pos (by rw [emcyQ_beforeEmcy]; exact hroom)]
  exact congrArg (· ++ [numbered w r]) emcyQ_beforeEmcy

theorem deliver_emcyQ_off (hroute : bitOf (routeOf w r.code) 4 = false) : (deliver w r).can.emcyQ = w.can.emcyQ := by
  rw [deliver_emcyQ, whenDo_off hroute, emcyQ_beforeEmcy]

theorem deliver_stagingOfLog : (deliver w r).evt.staging = (atLog w r).evt.staging :=
  deliver_ofLog w r (fun w => w.evt.staging) deliverHost_staging (fun _ _ => rfl) (fun _ _ => rfl) deliverEmcy_staging
    deliverOut_staging

theorem deliver_staging_off (hroute : bitOf (routeOf w r.code) 0 = false) : (deliver w r).evt.staging = w.evt.staging := by
  rw [deliver_stagingOfLog, atLog, whenDo_off hroute]
  rfl

theorem atLog_full (hroute : bitOf (routeOf w r.code) 0 = true) (hfull : 768 ≤ w.evt.staging.length) :
    atLog w r = bump { counted w r with evt := { (counted w r).evt with dropRun := w.evt.dropRun + 1 } }
      Obj.EVT_LOG_DROPPED := by
  have hstaged : ¬ (counted w r).evt.staging.length < 768 := Nat.not_lt.mpr hfull
  rw [atLog, whenDo_on hroute, deliverLog, if_neg hstaged]
  rfl

/-- A record that finds the staging buffer full is dropped and counted (R454). -/
theorem deliver_dropped (hroute : bitOf (routeOf w r.code) 0 = true) (hfull : 768 ≤ w.evt.staging.length) :
    (deliver w r).evt.staging = w.evt.staging ∧ (deliver w r).evt.dropRun = w.evt.dropRun + 1 ∧
      getN (deliver w r) Obj.EVT_LOG_DROPPED = (getN w Obj.EVT_LOG_DROPPED + 1) % 4294967296 := by
  have hrun : (deliver w r).evt.dropRun = (atLog w r).evt.dropRun :=
    deliver_ofLog w r (fun w => w.evt.dropRun) (fun _ _ => by simp only [deliverHost]) (fun _ _ => rfl) (fun _ _ => rfl)
      (fun w r => by rw [deliverEmcy_evt]) fun w n => deliverOut_evtKeeps Evt.dropRun (fun _ _ _ => rfl) w n
  have hcount : getO (deliver w r) Obj.EVT_LOG_DROPPED = getO (atLog w r) Obj.EVT_LOG_DROPPED :=
    deliver_ofLog w r (getO · Obj.EVT_LOG_DROPPED) (fun w r => getO_deliverHost w r _) (fun _ _ => rfl) (fun _ _ => rfl)
      (fun w r => getO_deliverEmcy w r (by decide)) fun w n => getO_deliverOut w n _
  rw [deliver_stagingOfLog, hrun, getN, hcount, atLog_full hroute hfull]
  exact ⟨rfl, rfl, getN_bump_same _ _⟩

end

/-! ### Adjustments -/

theorem getN_of_getO {w : World} {k n : Nat} (h : getO w k = (n : Nat)) : getN w k = n := by
  rw [getN, h, Int.toNat_natCast]

/-- The record of an adjustment (R328). -/
def adjRec (w : World) (key reason source : Nat) (request applied : Int) : AdjRec :=
  { index := key / 256, sub := key % 256, reason := reason, source := source, request := adjValue key reason request
    applied := adjValue key reason applied, et := nowEt w, seq := (getN w Obj.CFG_ADJ_COUNT + 1) % 4294967296 }

theorem setO_adj (w : World) (k : Nat) (v : Int) : (setO w k v).dict.adj = w.dict.adj := rfl

theorem adjust_adj (w : World) (key reason source : Nat) (request applied : Int) :
    (adjust w key reason source request applied).dict.adj =
      lastN 256 (w.dict.adj ++ [adjRec w key reason source request applied]) := by
  unfold adjust adjRec
  dsimp only
  split <;> simp -implicitDefEqProofs only [raise_dict, setO_adj]

theorem getO_adjust_count (w : World) (k r src : Nat) (a b : Int) :
    getO (adjust w k r src a b) Obj.CFG_ADJ_COUNT = ((getN w Obj.CFG_ADJ_COUNT + 1) % 4294967296 : Nat) := by
  unfold adjust
  dsimp only
  split
  · simp -implicitDefEqProofs [getO_setO]
  · rw [getO_raise, getO_withEvt]
    simp -implicitDefEqProofs [getO_setO]

theorem getO_adjust_source (w : World) (k r src : Nat) (a b : Int) :
    getO (adjust w k r src a b) Obj.CFG_ADJ_SOURCE = src := by
  unfold adjust
  dsimp only
  split
  · simp -implicitDefEqProofs [getO_setO]
  · rw [getO_raise, getO_withEvt]
    simp -implicitDefEqProofs [getO_setO]

theorem lastN_length_le {α : Type} (n : Nat) (l : List α) : (lastN n l).length ≤ n := by
  rw [lastN, List.length_drop]
  omega

theorem lastN_getLast? {α : Type} {n : Nat} (hn : 0 < n) (l : List α) (x : α) : (lastN n (l ++ [x])).getLast? = some x := by
  rw [lastN, List.getLast?_drop, List.length_append, List.length_singleton, if_neg (by omega), List.getLast?_concat]

end Sys2Proof.Machine
end

section
/-! Obligations O58 and O59, from the routes of a record. -/

open Sys2Proof Sys2Proof.Machine

/-- Settles O58: one event is delivered alone, and each place it may go to is written by its own route only. -/
theorem eventDelivery : Obligations.EventDelivery := by
  intro w r q hraised hq
  have hq : q = numbered { w with evt := { w.evt with raised := [] } } r := hq
  rw [settle_eq_deliver hraised, hq]
  exact ⟨deliver_seq _ _, deliver_raised _ _, fun hroute hroom => deliver_staging hroute hroom,
    fun hroute hfull => deliver_dropped hroute hfull, fun hroute => deliver_staging_off hroute,
    fun hroute hhost => deliver_recent hroute hhost, fun hroute => deliver_last hroute,
    fun hroute hroom => deliver_emcyQ_on hroute hroom, fun hroute => deliver_emcyQ_off hroute⟩

/-- Settles O59: the objects are read back from the writes of the record. -/
theorem adjustments : Obligations.Adjustments := by
  intro w key reason source request applied
  rw [adjust_adj]
  exact ⟨lastN_length_le _ _, ⟨_, lastN_getLast? (by decide) _ _, rfl, rfl, rfl, rfl, rfl, rfl⟩,
    getN_of_getO (getO_adjust_count ..), getN_of_getO (getO_adjust_object ..), getN_of_getO (getO_adjust_source ..)⟩
end

section
/-! SUPPORT. The drain of the staged records writes the DRAM (R115, R456), so an injected error is taken up by it. -/

namespace Sys2Proof.Machine

theorem foldl_logPut_mem (l : List EvRec) (w : World) : (l.foldl logPut w).mem = w.mem :=
  foldl_keeps (g := logPut) World.mem (fun _ _ => rfl) l w

theorem drainLog_mem (w : World) : (drainLog w).mem = (noteWrite 0 0 0 w).mem := by
  unfold drainLog
  extract_lets _ _ u n _
  have hmem : u.mem = (noteWrite 0 0 0 w).mem := foldl_logPut_mem _ _
  split
  · exact hmem
  · rw [raise_mem]
    exact hmem

/-- The error that waits for a write of area 0 is gone once that area is written. -/
theorem noteWrite_inject (unit : Nat) (line : Int) {w : World} {double : Bool} (h : w.mem.inject = [(0, double)]) :
    (noteWrite 0 unit line w).mem.inject = [] := by
  simp [noteWrite, takeFree, h]

/-- A device whose voters pass, with one staged record and an error that waits for a write of the DRAM. -/
def stagedUnderInjection : State :=
  { ctl := { State.reset.ctl with mode := .idle }, pending := []
    w := { World.reset with
      sys := { World.reset.sys with voted := true }
      mem := { World.reset.mem with inject := [(0, true)] }
      evt := { World.reset.evt with
        staging := [{ code := Ev.EVT_OVERFLOW, serge := false, inst := 0, et := 0, pos := 0, data := 0, seq := 1 }] } } }

end Sys2Proof.Machine
end

section
/-! Obligation O60. -/
open Sys2Proof Sys2Proof.Machine

/-- Refutes O60: the drain of the staged records is a write of the DRAM, so an error that waits for one is taken up, and
the memory's part is not as it was. -/
theorem not_storesAndPorts : ¬ Obligations.StoresAndPorts := by
  unfold Obligations.StoresAndPorts
  intro h
  obtain ⟨-, -, hdrain, -⟩ := h stagedUnderInjection
  obtain ⟨t, ht, -, -, -, -, hparts, -⟩ := hdrain _ rfl rfl rfl rfl rfl
  have hrun : exec .evtStagingDrain stagedUnderInjection = .next (runMeaning drainLog stagedUnderInjection) :=
    onWorld_guarded (c := fun k w => powered k.mode && w.sys.voted) (fun _ => drainLog) rfl
  obtain rfl := Host.Outcome.next.inj (ht.symm.trans hrun)
  have hkept : (runMeaning drainLog stagedUnderInjection).w.mem = stagedUnderInjection.w.mem := hparts .mem (by simp)
  have htaken : (runMeaning drainLog stagedUnderInjection).w.mem.inject = [] := by
    rw [runMeaning, settle_mem, drainLog_mem]
    exact noteWrite_inject 0 0 rfl
  rw [hkept] at htaken
  exact List.cons_ne_nil _ _ htaken

end

section
/-! SUPPORT. Power loss, saving, core voltage and reference correction: one rule per shared operation (chapters 14 and
15). -/

namespace Sys2Proof.Machine

/-- The state after a meaning of the whole state, its events delivered. -/
def runState (f : State → State) (s : State) : State :=
  { ctl := (f (fresh s)).ctl, w := settle (f (fresh s)).w, pending := s.pending }

theorem onState_runState (f : State → State) (s : State) : onState f s = .next (runState f s) := rfl

theorem onWorld_powered (f : World → World) {s : State} (h : powered s.ctl.mode = true) :
    onWorld (fun c w => whenDo (powered c.mode) f w) s = .next (runMeaning f s) :=
  onWorld_whenDo (c := fun c => powered c.mode) (fun _ => f) h

/-! ### The power failure (R428) -/

section
variable (kind inst mv : Nat) (s : State)

theorem powerFail_mode : (powerFail kind inst mv s).ctl.mode = .off := rfl

theorem setMode_saving (cause : Nat) (m : DevState) (s : State) : (setMode cause m s).w.thm = s.w.thm := rfl

theorem setMode_sys (cause : Nat) (m : DevState) (s : State) :
    (setMode cause m s).w.sys = { s.w.sys with enterClk := s.w.clk } := rfl

@[simp] theorem putJournal_sys (w : World) (r : JrnRec) : (putJournal w r).sys = w.sys := by
  simp [putJournal, noteJournal]

/-- The device starts anew from a world that saves, with its reference as it was. -/
theorem powerFail_world : ∃ (u : World) (v : Voi) (d : Int), u.thm.saving = true ∧ u.sys.refclk = s.w.sys.refclk ∧
    (powerFail kind inst mv s).w = setO { setO (bootWorld u u.dict.framWait u.evt.staging) Obj.SUP_STOP_SRC 0x800 with
      voi := v } Obj.VOI_HR_DUTY d := by
  refine ⟨settle _, _, _, ?_, ?_, rfl⟩
  · rw [settle_thm]
    rfl
  · rw [settle_sys, setMode_sys]
    simp only [updThm, putJournal_sys, raise_sys, supSafe, setO_sys, stopSrc_sys, apply_ite World.sys, setNv, ite_self]

theorem powerFail_keeps : (powerFail kind inst mv s).w.sup.outs = 0 ∧ (powerFail kind inst mv s).w.thm.saving = true ∧
    (powerFail kind inst mv s).w.sys.refclk = s.w.sys.refclk := by
  obtain ⟨u, v, d, hsaving, hrefclk, h⟩ := powerFail_world kind inst mv s
  simp only [h, setO_sup, setO_thm, setO_sys]
  exact ⟨rfl, hsaving, hrefclk⟩

end

/-! ### Rails, saving and the references -/

theorem powerLoss_fails {mv : Nat} {s : State} (hon : powered s.ctl.mode = true) (harmed : s.w.thm.armed = true)
    (hlow : (mv : Int) < getO s.w Obj.THM_PF_ACT) :
    powerLoss mv s = powerFail 1 0 mv { s with w := updThm s.w fun t => { t with vin := mv } } :=
  if_pos ⟨harmed, hon, hlow⟩

theorem railCode_warn (high : Bool) : railCode 1 high = if high then 2 else 1 := by cases high <;> rfl
theorem railCode_normal (high : Bool) : railCode 0 high = 0 := rfl
theorem railCode_fault (high : Bool) : railCode 2 high = 3 := rfl

/-- A rail that crosses to a code other than 3 has that code; the control block stays. -/
theorem railCross_code {r level : Nat} {high : Bool} {mv : Nat} {s : State} (hr : r < 14)
    (hlen : r < s.w.thm.rails.length) (hon : powered s.ctl.mode = true)
    (hnew : s.w.thm.rails.getD r 0 ≠ railCode level high) (hfault : railCode level high ≠ 3) :
    (railCross r level high mv s).ctl = s.ctl ∧
      (railCross r level high mv s).w.thm.rails.getD r 0 = railCode level high := by
  have hset : (s.w.thm.rails.set r (railCode level high)).getD r 0 = railCode level high := by
    simp [List.getD_eq_getElem?_getD, hlen]
  have hrun : ¬(14 ≤ r ∨ s.w.thm.rails.getD r 0 = railCode level high ∨ powered s.ctl.mode = false ∨
      (r = 0 ∧ railCode level high = 3 ∧ high = false)) := by
    simp [-List.getD_eq_getElem?_getD, hr, hnew, hon, hfault]
  unfold railCross
  simp only [if_neg hrun, if_neg hfault]
  split <;> exact ⟨rfl, hset⟩

/-- A rail in fault fails the power while the device is armed (R424). -/
theorem railCross_fault {r : Nat} {high : Bool} {mv : Nat} {s : State} (hr : r < 14) (hon : powered s.ctl.mode = true)
    (hnew : s.w.thm.rails.getD r 0 ≠ 3) (hside : r ≠ 0 ∨ high = true) (harmed : s.w.thm.armed = true) :
    ∃ v u, railCross r 2 high mv s = powerFail 4 r v u := by
  have hrun : ¬(14 ≤ r ∨ s.w.thm.rails.getD r 0 = railCode 2 high ∨ powered s.ctl.mode = false ∨
      (r = 0 ∧ railCode 2 high = 3 ∧ high = false)) := by
    rw [railCode_fault]
    rcases hside with h | h <;> simp [-List.getD_eq_getElem?_getD, h, hr, hnew, hon]
  unfold railCross
  simp only [if_neg hrun, if_pos (railCode_fault high)]
  refine ⟨_, _, if_pos ?_⟩
  split <;> exact harmed

theorem foldl_framPut_framWait (l : List (Nat × Int × Nat)) (w : World) :
    (l.foldl (fun w e => framPut w e.1 e.2.1) w).dict.framWait = w.dict.framWait :=
  foldl_keeps (g := fun w (e : Nat × Int × Nat) => framPut w e.1 e.2.1) (fun w => w.dict.framWait)
    (fun w e => by unfold framPut; split <;> rfl) l w

theorem foldl_logPut_dict (l : List EvRec) (w : World) : (l.foldl logPut w).dict = w.dict :=
  foldl_keeps (g := logPut) World.dict (fun _ _ => rfl) l w

theorem saveTail_saved (w : World) : (saveTail w).thm.saving = false ∧ (saveTail w).dict.framWait = [] := by
  refine ⟨rfl, ?_⟩
  simp only [saveTail, updThm, foldl_logPut_dict]
  exact foldl_framPut_framWait _ _

theorem saveDone_saved {s : State} (hsaving : s.w.thm.saving = true) (hoff : s.ctl.mode = .off) :
    (saveDone s).w.thm.saving = false ∧ (saveDone s).w.dict.framWait = [] := by
  unfold saveDone
  rw [if_pos ⟨hsaving, hoff⟩]
  dsimp only
  split <;> exact saveTail_saved s.w

theorem vinOff_off {s : State} (hoff : s.ctl.mode = .off) (hmode : s.w.thm.saveMode = true) :
    (vinOff s).ctl.mode = .off ∧ (vinOff s).w.thm.saveMode = false := by
  unfold vinOff
  rw [if_pos (.inl ⟨hoff, hmode⟩)]
  exact ⟨rfl, rfl⟩

theorem refFail_refclk (s : State) : (refFail s).w.sys.refclk = false := by
  unfold refFail
  dsimp only
  split
  · obtain ⟨-, -, hrefclk⟩ := powerFail_keeps 4 14 s.w.thm.vin
      { s with w := { s.w with sys := { s.w.sys with refclk := false } } }
    exact hrefclk
  · rfl

theorem getN_congr {a b : World} {k : Nat} (h : getO a k = getO b k) : getN a k = getN b k := by rw [getN, getN, h]

/-! ### A run of writes of one numbered object -/

theorem getO_foldl_setO {key : Nat → Nat} (hkey : Function.Injective key) (v : Nat → Int) (l : List Nat) (w : World)
    (i : Nat) : getO (l.foldl (fun w j => setO w (key j) (v j)) w) (key i) = if i ∈ l then v i else getO w (key i) := by
  induction l generalizing w with
  | nil => rfl
  | cons j l ih =>
    rw [List.foldl_cons, ih, getO_setO]
    by_cases hl : i ∈ l
    · simp [hl]
    · by_cases hj : j = i <;> simp [hl, hj, hkey.eq_iff, eq_comm (a := i)]

theorem getO_foldl_setO_ne {key : Nat → Nat} (v : Nat → Int) {l : List Nat} (w : World) {k : Nat}
    (hk : ∀ j ∈ l, key j ≠ k) : getO (l.foldl (fun w j => setO w (key j) (v j)) w) k = getO w k := by
  induction l generalizing w with
  | nil => rfl
  | cons j l ih =>
    rw [List.foldl_cons, ih _ fun i hi => hk i (List.mem_cons_of_mem j hi),
      getO_setO_ne _ _ (hk j List.mem_cons_self)]

/-! ### The core voltage (R425) -/

section
variable (slack : List Int) (w : World)

/-- The slack of the 16 oscillators kept. -/
def avsNoted : World :=
  (List.range 16).foldl (fun w i => setO w (Obj.THM_RO_SLACK i) (clampInt (-32768) 32767 (slack.getD i 0))) w

/-- The core voltage moved by the least slack. -/
def avsMoved (least : Option (Nat × Int)) : World :=
  let v := getO w Obj.THM_VCORE_MV
  let hold := !w.thm.avsOn || getF w Obj.THM_CFG 2 1 == 0
  match least with
  | none => setVcore w 800
  | some (_, x) =>
    if hold then setVcore w 800
    else if x < getO w Obj.THM_AVS_MARGIN then setVcore w (min 800 (v + 5))
    else if getO w Obj.THM_AVS_MARGIN + 20 < x then setVcore w (max 700 (v - 5))
    else w

/-- The event of an oscillator that is too slow at full voltage. -/
def avsWarned (least : Option (Nat × Int)) : World :=
  match least with
  | some (i, x) =>
    if x < 0 ∧ getO w Obj.THM_VCORE_MV = 800 ∧ stampOk w w.thm.slowClk (secClk 3600) = true then
      raiseInt (updThm w fun t => { t with slowClk := some w.clk }) Ev.PROC_SLOW i x
    else w
  | none => w

theorem avsStep_eq : avsStep slack w =
    avsWarned (avsMoved (avsNoted slack w) (leastSlack slack)) (leastSlack slack) := by
  unfold avsStep avsNoted
  generalize List.foldl _ w (List.range 16) = u
  generalize leastSlack slack = least
  rcases least with _ | ⟨i, x⟩
  · rfl
  · rfl

theorem avsNoted_slack {i : Nat} (hi : i < 16) :
    getO (avsNoted slack w) (Obj.THM_RO_SLACK i) = clampInt (-32768) 32767 (slack.getD i 0) := by
  rw [avsNoted, getO_foldl_setO (key := Obj.THM_RO_SLACK) (fun i j h => by simpa using h),
    if_pos (List.mem_range.mpr hi)]

theorem avsNoted_else {k : Nat} (hk : ∀ i < 16, Obj.THM_RO_SLACK i ≠ k) : getO (avsNoted slack w) k = getO w k := by
  rw [avsNoted]
  exact getO_foldl_setO_ne (key := Obj.THM_RO_SLACK) _ w fun i hi => hk i (List.mem_range.mp hi)

theorem avsNoted_thm : (avsNoted slack w).thm = w.thm := by
  rw [avsNoted]
  exact foldl_keeps (g := fun w i => setO w (Obj.THM_RO_SLACK i) (clampInt (-32768) 32767 (slack.getD i 0))) World.thm
    (fun w _ => setO_thm w _ _) _ w

variable (least : Option (Nat × Int))

theorem avsWarned_objects (k : Nat) : getO (avsWarned w least) k = getO w k := by
  unfold avsWarned
  split
  · split
    · rw [getO_raiseInt]
      rfl
    · rfl
  · rfl

theorem getO_updThm (f : Thm → Thm) (k : Nat) : getO (updThm w f) k = getO w k := rfl

theorem setVcore_mv (v : Int) : getO (setVcore w v) Obj.THM_VCORE_MV = v := by
  unfold setVcore
  split
  · assumption
  · rw [getO_updThm, getO_bump_ne _ (by decide), getO_setO_same]

theorem setVcore_else (v : Int) {k : Nat} (hmv : Obj.THM_VCORE_MV ≠ k) (hsteps : Obj.THM_AVS_STEPS ≠ k) :
    getO (setVcore w v) k = getO w k := by
  unfold setVcore
  split
  · rfl
  · rw [getO_updThm, getO_bump_ne _ hsteps, getO_setO_ne _ _ hmv]

theorem avsMoved_else {k : Nat} (hmv : Obj.THM_VCORE_MV ≠ k) (hsteps : Obj.THM_AVS_STEPS ≠ k) :
    getO (avsMoved w least) k = getO w k := by
  unfold avsMoved
  dsimp only
  split
  · exact setVcore_else w _ hmv hsteps
  · split_ifs
    · exact setVcore_else w _ hmv hsteps
    · exact setVcore_else w _ hmv hsteps
    · exact setVcore_else w _ hmv hsteps
    · rfl

theorem avsMoved_held (h : least = none ∨ w.thm.avsOn = false ∨ getF w Obj.THM_CFG 2 1 = 0) :
    getO (avsMoved w least) Obj.THM_VCORE_MV = 800 := by
  unfold avsMoved
  dsimp only
  split
  case h_1 => exact setVcore_mv w 800
  case h_2 i x =>
    have hhold : (!w.thm.avsOn || getF w Obj.THM_CFG 2 1 == 0) = true := by
      rcases h with h | h | h
      · cases h
      · simp [h]
      · simp [h]
    rw [if_pos hhold]
    exact setVcore_mv w 800

/-- Where AVS is on, the least slack against the margin says which way the voltage moves. -/
theorem avsMoved_on (i : Nat) (x : Int) (hon : w.thm.avsOn = true) (hen : getF w Obj.THM_CFG 2 1 ≠ 0) :
    avsMoved w (some (i, x)) =
      if x < getO w Obj.THM_AVS_MARGIN then setVcore w (min 800 (getO w Obj.THM_VCORE_MV + 5))
      else if getO w Obj.THM_AVS_MARGIN + 20 < x then setVcore w (max 700 (getO w Obj.THM_VCORE_MV - 5)) else w := by
  simp [avsMoved, hon, hen]

theorem worldFrame_foldl_setO {parts : List Part} {objs : Nat → Bool} {key : Nat → Nat} (v : Nat → Int)
    {l : List Nat} (h : ∀ j ∈ l, objs (key j) = true) :
    WorldFrame parts objs w (l.foldl (fun w j => setO w (key j) (v j)) w) := by
  induction l generalizing w with
  | nil => exact .refl w
  | cons j l ih =>
    exact (worldFrame_setO w (h j List.mem_cons_self) _).trans (ih _ fun i hi => h i (List.mem_cons_of_mem j hi))

theorem avsStep_slack {i : Nat} (hi : i < 16) :
    getO (avsStep slack w) (Obj.THM_RO_SLACK i) = clampInt (-32768) 32767 (slack.getD i 0) := by
  have hmv : Obj.THM_VCORE_MV ≠ Obj.THM_RO_SLACK i := show 0x2B3001 ≠ 0x2B3101 + i by omega
  have hsteps : Obj.THM_AVS_STEPS ≠ Obj.THM_RO_SLACK i := show 0x2B3003 ≠ 0x2B3101 + i by omega
  rw [avsStep_eq, avsWarned_objects, avsMoved_else _ _ hmv hsteps, avsNoted_slack slack w hi]

theorem avsNoted_below {k : Nat} (hk : k < 0x2B3101) : getO (avsNoted slack w) k = getO w k :=
  avsNoted_else slack w fun i _ => show 0x2B3101 + i ≠ k by omega

theorem avsNoted_cfg : getF (avsNoted slack w) Obj.THM_CFG 2 1 = getF w Obj.THM_CFG 2 1 := by
  rw [getF, getF, getN_congr (avsNoted_below slack w (by decide))]

theorem avsStep_held (h : leastSlack slack = none ∨ w.thm.avsOn = false ∨ getF w Obj.THM_CFG 2 1 = 0) :
    getO (avsStep slack w) Obj.THM_VCORE_MV = 800 := by
  rw [avsStep_eq, avsWarned_objects]
  refine avsMoved_held _ _ ?_
  rwa [avsNoted_thm, avsNoted_cfg]

theorem avsStep_on {i : Nat} {x : Int} (hleast : leastSlack slack = some (i, x)) (hon : w.thm.avsOn = true)
    (hen : getF w Obj.THM_CFG 2 1 ≠ 0) : getO (avsStep slack w) Obj.THM_VCORE_MV =
      if x < getO w Obj.THM_AVS_MARGIN then min 800 (getO w Obj.THM_VCORE_MV + 5)
      else if getO w Obj.THM_AVS_MARGIN + 20 < x then max 700 (getO w Obj.THM_VCORE_MV - 5)
      else getO w Obj.THM_VCORE_MV := by
  have hmargin : getO (avsNoted slack w) Obj.THM_AVS_MARGIN = getO w Obj.THM_AVS_MARGIN :=
    avsNoted_below slack w (by decide)
  have hmv : getO (avsNoted slack w) Obj.THM_VCORE_MV = getO w Obj.THM_VCORE_MV := avsNoted_below slack w (by decide)
  rw [avsStep_eq, avsWarned_objects, hleast, avsMoved_on _ i x (by rwa [avsNoted_thm]) (by rwa [avsNoted_cfg]),
    hmargin, hmv]
  split_ifs
  · exact setVcore_mv _ _
  · exact setVcore_mv _ _
  · exact hmv

/-- The objects that the adjustment of the core voltage writes. -/
abbrev avsObjs : Nat → Bool := objsOf (Obj.THM_VCORE_MV :: Obj.THM_AVS_STEPS :: (List.range 16).map Obj.THM_RO_SLACK)

theorem worldFrame_setVcore (v : Int) : WorldFrame [.thm] avsObjs w (setVcore w v) := by
  unfold setVcore
  refine .ite (.refl w) ((worldFrame_setO w ?_ v).trans ((worldFrame_bump _ ?_).trans (worldFrame_thm _ ?_ _)))
  all_goals decide

theorem worldFrame_avsStep : WorldFrame [.thm] avsObjs w (avsStep slack w) := by
  rw [avsStep_eq]
  refine .trans (b := avsNoted slack w) (worldFrame_foldl_setO w _ fun j hj => ?_)
    (.trans (b := avsMoved (avsNoted slack w) (leastSlack slack)) ?_ ?_)
  · simp only [avsObjs, objsOf, List.contains_iff_mem]
    exact List.mem_cons_of_mem _ (List.mem_cons_of_mem _ (List.mem_map_of_mem hj))
  · unfold avsMoved
    dsimp only
    split
    · exact worldFrame_setVcore _ _
    · exact .ite (worldFrame_setVcore _ _) (.ite (worldFrame_setVcore _ _) (.ite (worldFrame_setVcore _ _) (.refl _)))
  · unfold avsWarned
    split
    · exact .whenSo (.refl _) ((worldFrame_thm _ (by decide) _).trans (worldFrame_raise _ _ _ _))
    · exact .refl _

end

/-! ### The reference correction, the life counters and the end of THERMAL_HOLD -/

theorem getO_bgRenew (w : World) : getO (bgRenew w) Obj.THM_BG_CORR =
    if getF w Obj.THM_CFG 1 1 = 0 then 0
    else if w.thm.bgFrozen = true ∨ (sensorAt w 0).hist = [] then getO w Obj.THM_BG_CORR
    else clampInt (getO w Obj.THM_BG_CORR - 50) (getO w Obj.THM_BG_CORR + 50) (bgTarget w) := by
  unfold bgRenew
  dsimp only
  split_ifs
  · exact getO_setO_same _ _ _
  · rfl
  · exact getO_setO_same _ _ _

theorem worldFrame_bgRenew (w : World) : WorldFrame [] (objsOf [Obj.THM_BG_CORR]) w (bgRenew w) := by
  unfold bgRenew
  refine .ite (worldFrame_setO w ?_ _) (.ite (.refl w) (worldFrame_setO w ?_ _))
  all_goals decide

theorem getO_lifeRenew_lines (w : World) : getO (lifeRenew w) Obj.THM_LIFE_LINES = lifeLines w :=
  getO_setO_same _ _ _

theorem autoResume_leaves {s : State} (hmode : s.ctl.mode = .thermalHold) (hauto : getO s.w Obj.THM_AUTO_RESUME = 1)
    (hsound : ∀ x, x ∈ s.w.thm.sensors → x.broken = 0)
    (hcool : heldFor s.w s.w.thm.coolClk (secClk (getN s.w Obj.THM_RECOVER_S)) = true) :
    autoResume s = leaveHold 2 3 s :=
  if_pos ⟨hmode, hauto, List.all_eq_true.mpr fun x hx => beq_iff_eq.mpr (hsound x hx), hcool⟩

theorem getO_noteChl (m : DevState) (w : World) {k : Nat} (hk : Obj.CHL_STATE ≠ k) : getO (noteChl m w) k = getO w k := by
  unfold noteChl
  dsimp only
  split
  · rfl
  · simp [getO_setO, hk]

theorem leaveHold_prev (code cause : Nat) (s : State) : (leaveHold code cause s).ctl.prev = s.ctl.mode := rfl

theorem getO_goTo_holdToCalibrate (cause : Nat) {s : State} (h : s.ctl.mode = .thermalHold) {k : Nat}
    (hk : Obj.CHL_STATE ≠ k) : getO (goTo cause .calibrate s).w k = getO s.w k := by
  unfold goTo
  extract_lets old u
  rw [show old = .thermalHold from h]
  exact (getO_noteChl _ _ hk).trans (getO_setMode cause .calibrate s k)

/-- The web-stop requests after the end of THERMAL_HOLD: only THERMAL_HOLD's own is gone. -/
theorem getN_leaveHold_stop (code cause : Nat) {s : State} (h : s.ctl.mode = .thermalHold) :
    getN (leaveHold code cause s).w Obj.SUP_STOP_SRC = setBit (getN s.w Obj.SUP_STOP_SRC) 8 false := by
  unfold leaveHold
  extract_lets _ _ w
  refine .trans ?_ (getN_stopSrc w 8 false)
  refine getN_congr ?_
  rw [getO_goTo_holdToCalibrate cause ?_ (by decide), getO_raise]
  exact h

end Sys2Proof.Machine
end

section
/-! Obligations O4 and O22, from the rules of power and temperature. -/
open Sys2Proof Sys2Proof.Machine

/-- Settles O4: every meaning answers a next state, and each of the named commands meets its rule under its condition. -/
theorem commandsComplete : Obligations.CommandsComplete := by
  refine ⟨fun c s => ?complete, fun s mv hon harmed hlow => ?powerFail, fun s r high mv hon hr hlen => ?rails,
    fun s hoff => ⟨fun hsaving => ?saveDone, fun hmode => ?vinOff⟩, fun s => ⟨?fail, ?back⟩, fun s hon => ?powered⟩
  case complete =>
    obtain ⟨t, ht⟩ := exec_completes c s
    obtain ⟨-, hpending, -⟩ := exec_keeps ht
    exact ⟨t, ht, hpending⟩
  case powerFail =>
    have hrun := powerLoss_fails (s := fresh s) hon harmed hlow
    refine ⟨_, onState_runState (powerLoss mv) s, ?_⟩
    simp only [runState, hrun, settle_sup, settle_thm]
    obtain ⟨houts, hsaving, -⟩ := powerFail_keeps 1 0 mv
      { fresh s with w := updThm (fresh s).w fun t => { t with vin := mv } }
    exact ⟨powerFail_mode _ _ _ _, houts, hsaving⟩
  case rails =>
    refine ⟨fun hnew => ?warn, fun hnew => ?normal, fun hnew hside harmed => ?fault⟩
    case warn =>
      obtain ⟨hctl, hcode⟩ := railCross_code (level := 1) (mv := mv) (s := fresh s) hr hlen hon
        (by rwa [railCode_warn]) (by cases high <;> decide)
      refine ⟨_, onState_runState (railCross r 1 high mv) s, hctl, ?_⟩
      rw [runState, settle_thm, hcode, railCode_warn]
    case normal =>
      obtain ⟨hctl, hcode⟩ := railCross_code (level := 0) (mv := mv) (s := fresh s) hr hlen hon hnew
        (Nat.zero_ne_add_one 2)
      refine ⟨_, onState_runState (railCross r 0 high mv) s, hctl, ?_⟩
      rw [runState, settle_thm, hcode, railCode_normal]
    case fault =>
      obtain ⟨v, u, hrun⟩ := railCross_fault (mv := mv) (s := fresh s) hr hon hnew hside harmed
      refine ⟨_, onState_runState (railCross r 2 high mv) s, ?_⟩
      obtain ⟨houts, -, -⟩ := powerFail_keeps 4 r v u
      simp only [runState, hrun, settle_sup]
      exact ⟨powerFail_mode _ _ _ _, houts⟩
  case saveDone =>
    obtain ⟨hdone, hwait⟩ := saveDone_saved (s := fresh s) hsaving hoff
    refine ⟨_, onState_runState saveDone s, ?_, ?_⟩
    · rw [runState, settle_thm, hdone]
    · rw [runState, settle_dict_framWait, hwait]
  case vinOff =>
    obtain ⟨hstays, hdone⟩ := vinOff_off (s := fresh s) hoff hmode
    refine ⟨_, onState_runState vinOff s, hstays, ?_⟩
    rw [runState, settle_thm, hdone]
  case fail =>
    refine ⟨_, onState_runState refFail s, ?_⟩
    rw [runState, settle_sys, refFail_refclk]
  case back =>
    refine ⟨_, rfl, ?_⟩
    rw [settle_sys]
  case powered =>
    refine ⟨?life, fun slack i hi => ?avs, fun hen hmoves hhist => ?bg, fun hmode hauto hsound hcool => ?resume⟩
    case life =>
      refine ⟨_, onWorld_powered lifeRenew hon, ?_⟩
      rw [getO_runMeaning _ _ (by decide), getO_lifeRenew_lines]
      rfl
    case avs =>
      refine ⟨_, onWorld_powered (avsStep slack) hon, ?_⟩
      rw [getO_runMeaning _ _ (show 0x2B3101 + i < 0x2C0004 by omega), avsStep_slack slack _ hi]
    case bg =>
      refine ⟨_, onWorld_powered bgRenew hon, ?_⟩
      rw [getO_runMeaning _ _ (by decide)]
      have hmove : ¬((fresh s).w.thm.bgFrozen = true ∨ (sensorAt (fresh s).w 0).hist = []) :=
        not_or.mpr ⟨Bool.eq_false_iff.mp hmoves, hhist⟩
      exact (getO_bgRenew _).trans ((if_neg (hen.trans_ne one_ne_zero)).trans (if_neg hmove))
    case resume =>
      have hrun := autoResume_leaves (s := fresh s) hmode hauto hsound hcool
      refine ⟨_, onState_runState autoResume s, ?_⟩
      rw [runState, hrun]
      exact ⟨leaveHold_mode 2 3 _, (leaveHold_prev 2 3 _).trans hmode⟩

/-- Settles O22. -/
theorem resumeAndCompensation : Obligations.ResumeAndCompensation := by
  refine fun s => ⟨fun hmode hauto hsound hcool => ?resume, fun slack hon => ?avs, fun hon => ?bg⟩
  case resume =>
    have hrun := autoResume_leaves (s := fresh s) hmode hauto hsound hcool
    refine ⟨_, onState_runState autoResume s, ?_⟩
    rw [runState, hrun]
    refine ⟨leaveHold_mode 2 3 _, (leaveHold_prev 2 3 _).trans hmode, ?_, ?_⟩
    · rw [settle_sys, leaveHold_holdFlag 2 3 (s := fresh s) hmode]
    · rw [getN_settle _ (by decide) (by decide), getN_leaveHold_stop 2 3 (s := fresh s) hmode]
      rfl
  case avs =>
    have hframe : WorldFrame [.thm] avsObjs (fresh s).w (avsStep slack (fresh s).w) := worldFrame_avsStep slack _
    refine ⟨_, onWorld_powered (avsStep slack) hon, fun i hi => ?_, fun h => ?_,
      fun i x hleast havs hen => ?_, hframe.touches⟩
    · rw [getO_runMeaning _ _ (show 0x2B3101 + i < 0x2C0004 by omega), avsStep_slack slack _ hi]
    · rw [getO_runMeaning _ _ (by decide)]
      exact avsStep_held slack (fresh s).w h
    · have hmv := avsStep_on slack (fresh s).w hleast havs hen
      rw [getO_runMeaning _ _ (by decide), hmv]
      refine ⟨fun h => if_pos h, fun h => ?_, fun hlow hhigh => ?_⟩
      · exact (if_neg (not_lt.mpr ((le_add_of_nonneg_right (by decide)).trans h.le))).trans (if_pos h)
      · exact (if_neg (not_lt.mpr hlow)).trans (if_neg (not_lt.mpr hhigh))
  case bg =>
    have hframe : WorldFrame [] (objsOf [Obj.THM_BG_CORR]) (fresh s).w (bgRenew (fresh s).w) := worldFrame_bgRenew _
    refine ⟨_, onWorld_powered bgRenew hon, hframe.touches, ?_⟩
    rw [getO_runMeaning _ _ (by decide)]
    exact getO_bgRenew (fresh s).w
end

section
/-! SUPPORT. Frames of what several chapters share: what the links send, the web-stop requests and the effects of a read. -/

namespace Sys2Proof.Machine

/-! ### What a frame says of one part -/

section
variable {parts : List Part} {objs : Nat → Bool} {a b : World} (h : WorldFrame parts objs a b)
include h

theorem WorldFrame.clk (hp : .clk ∉ parts) : b.clk = a.clk := h.1 .clk hp

theorem WorldFrame.canFields (hp : .can ∉ parts) : { b.can with emcyQ := a.can.emcyQ } = a.can := h.1 .can hp

theorem WorldFrame.canNode (hp : .can ∉ parts) : b.can.node = a.can.node := by
  have hsame := congrArg Can.node (h.canFields hp)
  exact hsame

theorem WorldFrame.canSdo (hp : .can ∉ parts) : b.can.sdo = a.can.sdo := by
  have hsame := congrArg Can.sdo (h.canFields hp)
  exact hsame

theorem WorldFrame.canTpdoClk (hp : .can ∉ parts) : b.can.tpdoClk = a.can.tpdoClk := by
  have hsame := congrArg Can.tpdoClk (h.canFields hp)
  exact hsame

end

/-! ### Commands on the links (R247) -/

section
variable {parts : List Part} {objs : Nat → Bool} (w : World)

theorem worldFrame_raiseInt (code inst : Nat) (data : Int) : WorldFrame parts objs w (raiseInt w code inst data) :=
  worldFrame_raise w _ _ _

theorem worldFrame_stopSrc (hk : objs Obj.SUP_STOP_SRC = true) (b : Nat) (on : Bool) :
    WorldFrame parts objs w (stopSrc w b on) :=
  .unless (.refl w) ((worldFrame_setO w hk _).raise _ _ _)

theorem worldFrame_exitIdle (hl : .links ∈ parts) (hf : .fire ∈ parts) (p : Nat) :
    WorldFrame parts objs w (exitIdle w p) := by
  unfold exitIdle
  dsimp only
  split
  · exact .refl w
  · exact ((worldFrame_updPort w hf _ _).trans (worldFrame_updLink _ hl _ _)).trans (worldFrame_send _ _)

theorem worldFrame_takeTag (hl : .links ∈ parts) (hf : .fire ∈ parts) (i : Nat) :
    WorldFrame parts objs w (takeTag w i).2 := by
  unfold takeTag
  dsimp only
  exact .trans (.ite (worldFrame_exitIdle w hl hf i) (.refl w)) (worldFrame_updLink _ hl _ _)

theorem worldFrame_emitCmd (hl : .links ∈ parts) (i addr op tag arg : Nat) (data : List Nat) :
    WorldFrame parts objs w (emitCmd w i addr op tag arg data) :=
  (worldFrame_send w _).trans (worldFrame_putBlocks _ hl _ _ _)

theorem worldFrame_sendRaw (hl : .links ∈ parts) (hf : .fire ∈ parts) (i addr op arg : Nat) :
    WorldFrame parts objs w (sendRaw w i addr op arg) :=
  (worldFrame_takeTag w hl hf i).trans (worldFrame_emitCmd _ hl _ _ _ _ _ _)

theorem worldFrame_sendCmd (hl : .links ∈ parts) (hf : .fire ∈ parts) (i addr op arg : Nat) (data : List Nat) :
    WorldFrame parts objs w (sendCmd w i addr op arg data) :=
  .trans (worldFrame_takeTag w hl hf i)
    (.trans (worldFrame_updLink _ hl _ _) (.unless (.refl _) (worldFrame_emitCmd _ hl _ _ _ _ _ _)))

theorem worldFrame_flushCmds (hl : .links ∈ parts) (i : Nat) : WorldFrame parts objs w (flushCmds w i) :=
  (worldFrame_updLink w hl i _).trans (.foldl (fun _ _ _ => worldFrame_emitCmd _ hl _ _ _ _ _ _) _)

theorem worldFrame_sendPhases (hl : .links ∈ parts) (hf : .fire ∈ parts) (p : Nat) (sets : Nat → BarSet) (now : Bool) :
    WorldFrame parts objs w (sendPhases w p sets now) :=
  .foldl (fun _ _ _ => .foldl (fun _ _ _ => worldFrame_sendCmd _ hl hf _ _ _ _ _) _) _

/-! ### The effects of a read (R334) -/

/-- The parts that a read can move: the free values and, where it sends a command, the links and their ports. -/
abbrev readParts : List Part := [.free, .links, .fire]

/-- The time objects that a read latches (R371). -/
abbrev readObjs : Nat → Bool := objsOf [Obj.TIM_NOW_SEC, Obj.TIM_NOW_NS, Obj.TIM_NOW_ET]

theorem worldFrame_readFx (k : Nat) : WorldFrame readParts readObjs w (readFx k w) := by
  have hfree : WorldFrame readParts readObjs w { w with free := w.free + 1 } := worldFrame_free w (by decide) _
  unfold readFx
  refine .ite ?_ (.ite (hfree.trans ?_) (.ite hfree (.refl w)))
  · exact (worldFrame_latchNow w).mono (List.nil_subset _) fun _ => id
  · exact worldFrame_sendCmd _ (by decide) (by decide) _ _ _ _ _

/-- A read that answers has the effects of its object; one that does not has none. -/
theorem readItem_world (c : Ctl) (ix sub : Nat) (inForce : Bool) :
    (readItem c ix sub inForce w).2.2.2 = w ∨ (readItem c ix sub inForce w).2.2.2 = readFx (ix * 256 + sub) w := by
  unfold readItem
  dsimp only
  split_ifs
  · exact .inl rfl
  · exact .inl rfl
  · exact .inl rfl
  · split
    · exact .inl rfl
    · split_ifs
      · exact .inl rfl
      · exact .inl rfl
      · exact .inr rfl

theorem worldFrame_readItem {c : Ctl} {ix sub st code : Nat} {inForce : Bool} {data : List Nat} {u : World}
    (h : readItem c ix sub inForce w = (st, code, data, u)) : WorldFrame readParts readObjs w u := by
  rcases readItem_world w c ix sub inForce with hw | hw
  · obtain rfl : u = w := by simpa [h] using hw
    exact .refl u
  · obtain rfl : u = readFx (ix * 256 + sub) w := by simpa [h] using hw
    exact worldFrame_readFx w _

end
end Sys2Proof.Machine
end

section
/-! SUPPORT. The CAN FD port (R353 to R358). -/

namespace Sys2Proof.Machine

theorem onWorld_when {c : World → Bool} (f : World → World) {s : State} (h : c (fresh s).w = true) :
    onWorld (fun _ w => whenDo (c w) f w) s = .next (runMeaning f s) :=
  onWorld_guarded (c := fun _ => c) (fun _ => f) h

@[simp] theorem runMeaning_out (f : World → World) (s : State) : (runMeaning f s).w.out = (f (fresh s).w).out :=
  settle_out _

section
variable {objs : Nat → Bool} (w : World)

theorem worldFrame_updCan (f : Can → Can) : WorldFrame [.can] objs w (updCan w f) := worldFrame_can w (by decide) _

theorem getO_updCan (f : Can → Can) (k : Nat) : getO (updCan w f) k = getO w k := rfl

theorem getN_updCan (f : Can → Can) (k : Nat) : getN (updCan w f) k = getN w k := rfl

theorem worldFrame_sdoSend {parts : List Part} (l : List Nat) : WorldFrame parts objs w (sdoSend l w) := worldFrame_send w _

theorem worldFrame_sdoAbort {parts : List Part} (ix sub code : Nat) : WorldFrame parts objs w (sdoAbort ix sub code w) :=
  worldFrame_sdoSend w _

end

/-! ### NMT and heartbeats -/

theorem nmtMine_of {w : World} {node : Nat} (hup : canUp w = true) (hnode : node = 0 ∨ node = w.can.node) :
    nmtMine w node = true := by
  rcases hnode with h | h <;> simp [nmtMine, hup, h]

theorem worldFrame_heardNode {objs : Nat → Bool} (node : Nat) (w : World) (i : Nat) :
    WorldFrame [.can] objs w (heardNode node w i) := by
  unfold heardNode
  split
  · refine .ite (.refl w) (.trans (worldFrame_updCan w _) (.whenSo (.refl _) (worldFrame_raise _ _ _ _)))
  · exact .refl w

theorem watched_congr {a b : World} (h : ∀ j, getO b (Obj.NET_CAN_HB_CONS j) = getO a (Obj.NET_CAN_HB_CONS j))
    (i : Nat) : watched b i = watched a i := by rw [watched, watched, getN_congr (h i)]

theorem heardNode_watched (node : Nat) (w : World) (i j : Nat) : watched (heardNode node w i) j = watched w j := by
  obtain ⟨-, hobj⟩ := worldFrame_heardNode (objs := noObj) node w i
  exact watched_congr (fun _ => hobj _ rfl) j

/-- A heartbeat renews the watch of its node and no other. -/
theorem heardNode_hb (node : Nat) (w : World) (i : Nat) : (heardNode node w i).can.hb =
    if (watched w i).any (·.1 == node) then mapPut w.can.hb i (w.clk, false) else w.can.hb := by
  rcases h : watched w i with _ | ⟨n, ms⟩
  · simp [heardNode, h]
  · by_cases hn : n = node
    · simp only [heardNode, h, hn, ne_eq, not_true_eq_false, if_false, apply_ite (fun w : World => w.can.hb), raise_can,
        ite_self, Option.any_some, beq_self_eq_true, if_true]
      rfl
    · simp [heardNode, h, hn]

/-- Every watch of the node is renewed, whichever watches are gone through before and after it. -/
theorem foldl_heardNode_hb {w : World} {node ms i : Nat} (h : watched w i = some (node, ms)) (l : List Nat) :
    mapGet (l.foldl (heardNode node) w).can.hb i =
      if i ∈ l then some (w.clk, false) else mapGet w.can.hb i := by
  induction l generalizing w with
  | nil => rfl
  | cons j l ih =>
    have hwatch : watched (heardNode node w j) i = some (node, ms) := (heardNode_watched node w j i).trans h
    have hclk : (heardNode node w j).clk = w.clk := (worldFrame_heardNode (objs := noObj) node w j).clk (by decide)
    rw [List.foldl_cons, ih hwatch, hclk, heardNode_hb]
    by_cases hij : i = j
    · subst hij
      simp [h]
    · have hput (m : KMap (Nat × Bool)) (v : Nat × Bool) : mapGet (mapPut m j v) i = mapGet m i :=
        mapGet_mapPut_ne m v (Ne.symm hij)
      by_cases hl : i ∈ l
      · simp [hl]
      · simp only [hl, hij, List.mem_cons, or_self, if_false]
        split <;> simp only [hput]

theorem stopSrc_can (w : World) (b : Nat) (on : Bool) : (stopSrc w b on).can = w.can := by
  unfold stopSrc
  dsimp only
  split <;> rfl

theorem heartbeatRx_hb (node : Nat) (w : World) :
    (heartbeatRx node w).can.hb = ((List.range 4).foldl (heardNode node) w).can.hb := by
  unfold heartbeatRx
  dsimp only
  split
  · rfl
  · rw [stopSrc_can]

theorem worldFrame_heartbeatRx (node : Nat) (w : World) :
    WorldFrame [.can] (objsOf [Obj.SUP_STOP_SRC]) w (heartbeatRx node w) :=
  .trans (.foldl (fun b i _ => worldFrame_heardNode node b i) w) (.unless (.refl _) (worldFrame_stopSrc _ (by decide) _ _))

/-- A watched node that misses its time is noted as lost, and with HB_ACT it asks for a web stop. -/
theorem hbLost_due {w : World} {i node ms c : Nat} (h : watched w i = some (node, ms))
    (hb : mapGet w.can.hb i = some (c, false)) (hdue : c + msClk ms ≤ w.clk) : hbLost i w =
      let u := raise (updCan w fun x => { x with hb := mapPut x.hb i (c, true) }) Ev.CAN_HB_LOST node 1
      if bitOf w.can.cfg.toNat 7 then stopSrc u 4 true else u := by
  simp only [hbLost, h, hb, if_neg (not_lt.mpr hdue)]
  rfl

theorem heartbeat_due {w : World} (hms : getN w Obj.NET_CAN_HB_PROD ≠ 0)
    (hdue : w.can.hbClk + msClk (getN w Obj.NET_CAN_HB_PROD) ≤ w.clk) : heartbeat w =
      canSendNmt (match w.can.nmt with | 1 => 0x7F | 2 => 5 | _ => 4) (updCan w fun c => { c with hbClk := w.clk }) :=
  (if_neg (not_or.mpr ⟨hms, not_lt.mpr hdue⟩)).trans rfl

/-! ### The start of communication -/

theorem stopSrc_out (w : World) (b : Nat) (on : Bool) : (stopSrc w b on).out = w.out := by
  unfold stopSrc
  dsimp only
  split <;> rfl

theorem canStart_starts (w : World) :
    (canStart w).can.nmt = b2n (bitOf (getO w Obj.NET_CAN_CFG).toNat 0) ∧
      (canStart w).can.node = getN w Obj.NET_CAN_NODE ∧ (canStart w).can.hb = [] ∧ (canStart w).can.sdo = none ∧
      (canStart w).out = w.out ++ (if bitOf (getO w Obj.NET_CAN_CFG).toNat 0 then
        [.can (0x700 + getN w Obj.NET_CAN_NODE) [0] false] else []) := by
  have hout : (canKeys.foldl (fun u k => setO u k ((mapGet u.dict.fram k).getD (canDefault (getN w Obj.NET_CAN_NODE) k)))
      w).out = w.out := foldl_keeps (g := fun u k => setO u k ((mapGet u.dict.fram k).getD
        (canDefault (getN w Obj.NET_CAN_NODE) k))) World.out (fun _ _ => rfl) canKeys w
  unfold canStart
  dsimp only
  split
  next hon =>
    simp only [hon, canSendNmt, send, stopSrc_can, stopSrc_out, hout, and_self]
  next hon =>
    simp only [hon, stopSrc_can, stopSrc_out, hout, List.append_nil, and_self]

end Sys2Proof.Machine
end

section
/-! Obligation O55, from the rules of the port. -/
open Sys2Proof Sys2Proof.Machine

/-- Settles O55. -/
theorem nmtAndHeartbeats : Obligations.NmtAndHeartbeats := by
  refine ⟨fun s node hup hnode => ?nmt, fun s => ⟨fun hup hms hdue => ?produce,
    fun i node ms hi hup hwatch => ?heard, fun i node ms c hvoted hnmt hwatch hb hdue => ?lost⟩⟩
  case nmt =>
    have hmine : nmtMine (fresh s).w node = true := nmtMine_of hup hnode
    have hrun (f : World → World) : onWorld (fun _ w => whenDo (nmtMine w node) f w) s = .next (runMeaning f s) :=
      onWorld_when f hmine
    have hframe (v : Nat) : WorldFrame [.can] noObj (fresh s).w (setNmt v (fresh s).w) := worldFrame_updCan _ _
    refine ⟨⟨_, hrun (setNmt 2), ?_, (hframe 2).touches⟩, ⟨_, hrun (setNmt 3), ?_, ?_, (hframe 3).touches⟩,
      ⟨_, hrun (setNmt 1), ?_, (hframe 1).touches⟩, fun c hc => ?_⟩
    · exact settle_can_nmt _
    · exact settle_can_nmt _
    · exact settle_can_sdo _
    · exact settle_can_nmt _
    · have hstart : exec c s = .next (runMeaning canStart s) := by
        rcases hc with rfl | rfl
        · exact hrun canStart
        · exact hrun canStart
      obtain ⟨hnmt, hnode, hhb, hsdo, hout⟩ := canStart_starts (fresh s).w
      refine ⟨_, hstart, rfl, (settle_can_nmt _).trans hnmt, (settle_can_node _).trans hnode,
        (settle_can_hb _).trans hhb, (settle_can_sdo _).trans hsdo, (settle_out _).trans hout⟩
  case produce =>
    have hdone := heartbeat_due (w := (fresh s).w) hms hdue
    refine ⟨_, onWorld_when heartbeat hup, ?_, WorldFrame.touches ?_, ?_⟩
    · rw [runMeaning, settle_can_hbClk, hdone]
      rfl
    · rw [hdone]
      exact (worldFrame_updCan _ _).trans (worldFrame_send _ _)
    · rw [runMeaning_out, hdone]
      rfl
  case heard =>
    have hheard := foldl_heardNode_hb (w := (fresh s).w) hwatch (List.range 4)
    rw [if_pos (List.mem_range.mpr hi)] at hheard
    refine ⟨_, onWorld_when (heartbeatRx node) hup, ?_, rfl, (worldFrame_heartbeatRx node _).touches⟩
    rw [runMeaning, settle_can_hb, heartbeatRx_hb]
    exact hheard
  case lost =>
    have hdone := hbLost_due (w := (fresh s).w) hwatch hb hdue
    have hup : ((fresh s).w.sys.voted && (fresh s).w.can.nmt != 0) = true := by
      simp only [fresh, hvoted, Bool.true_and, bne_iff_ne]
      exact hnmt
    refine ⟨_, onWorld_when (c := fun w => w.sys.voted && w.can.nmt != 0) (hbLost i) hup, ?_, ?_, WorldFrame.touches ?_⟩
    · rw [runMeaning, settle_can_hb, hdone]
      dsimp only
      split
      · rw [stopSrc_can]
        exact mapGet_mapPut_same _ _ _
      · exact mapGet_mapPut_same _ _ _
    · rw [getN_runMeaning _ _ (by decide), hdone]
      by_cases hact : bitOf s.w.can.cfg.toNat 7 = true
      · have hact' : bitOf (fresh s).w.can.cfg.toNat 7 = true := hact
        simp only [hact, hact', if_true, getN_stopSrc, getN_raise, getN_updCan]
        rfl
      · have hact' : ¬bitOf (fresh s).w.can.cfg.toNat 7 = true := hact
        simp only [hact, hact']
        rfl
    · rw [hdone]
      exact .trans ((worldFrame_updCan _ _).trans (worldFrame_raise _ _ _ _))
        (.whenSo (.refl _) (worldFrame_stopSrc _ (by decide) _ _))

end

section
/-! SUPPORT. What else the port sends (R353, R356, R358). -/

namespace Sys2Proof.Machine

/-! ### EMCY -/

/-- Without an event to deliver the port stays. -/
theorem settle_can_quiet {w : World} (h : w.evt.raised = []) : (settle w).can = w.can := by
  rw [settle, h]
  rfl

/-- A fold leaves what each of its steps leaves. -/
theorem foldl_keeps_mem {α β γ : Type} (p : α → γ) {g : α → β → α} {l : List β} (hg : ∀ a, ∀ x ∈ l, p (g a x) = p a)
    (a : α) : p (l.foldl g a) = p a := by
  induction l generalizing a with
  | nil => rfl
  | cons x l ih =>
    rw [List.foldl_cons, ih fun b y hy => hg b y (List.mem_cons_of_mem x hy), hg a x List.mem_cons_self]

theorem pushHist_keeps {α : Type} (p : World → α) (hp : ∀ w k v, p (setO w k v) = p w) (code : Nat) (w : World) :
    p (pushHist code w) = p w := by
  unfold pushHist
  dsimp only
  rw [hp]
  exact foldl_keeps (g := fun w (e : Int × Nat) => setO w (Obj.NET_CAN_ERR_HIST (e.2 + 1)) e.1) p (fun w e => hp w _ _) _ w

/-- The newest fault of the history. -/
theorem getO_pushHist_newest (code : Nat) (w : World) : getO (pushHist code w) (Obj.NET_CAN_ERR_HIST 1) = code := by
  have hlater : ∀ e ∈ ((List.range 7).map fun i => getO w (Obj.NET_CAN_ERR_HIST (i + 1))).zip [1, 2, 3, 4, 5, 6, 7],
      Obj.NET_CAN_ERR_HIST (e.2 + 1) ≠ Obj.NET_CAN_ERR_HIST 1 := by
    intro e he
    have hmem : e.2 ∈ [1, 2, 3, 4, 5, 6, 7] := (List.of_mem_zip he).2
    have hpos : e.2 ≠ 0 := by
      rintro h
      rw [h] at hmem
      simp at hmem
    show 0x100300 + (e.2 + 1) ≠ 0x100300 + 1
    omega
  unfold pushHist
  dsimp only
  rw [getO_setO_ne _ _ (by decide), show List.range 8 = 0 :: [1, 2, 3, 4, 5, 6, 7] from rfl, List.zip_cons_cons,
    List.foldl_cons]
  refine (foldl_keeps_mem (fun w => getO w (Obj.NET_CAN_ERR_HIST 1)) (fun u e he => getO_setO_ne u _ (hlater e he)) _).trans ?_
  exact getO_setO_same _ _ _

/-- The oldest queued event goes out once the inhibit time is over. -/
theorem emcySend_oldest {m : DevState} {w : World} {r : EvRec} {q : List EvRec} (hq : w.can.emcyQ = r :: q)
    (hvalid : bitOf (getN w Obj.NET_CAN_EMCY_COB) 31 = false)
    (hfree : ∀ c, w.can.emcyClk = some c → c + usClk (100 * getN w Obj.NET_CAN_EMCY_INH) ≤ w.clk) :
    emcySend m w = pushHist (0xFF00 + r.code) (emcyFrame (0xFF00 + r.code) (canErrReg m w) r.inst r.data
      (updCan w fun c => { c with emcyQ := q })) := by
  rcases hc : w.can.emcyClk with _ | c
  · simp [emcySend, hc, hvalid, hq]
  · simp [emcySend, hc, hvalid, hq, hfree c hc]

/-! ### TPDOs -/

/-- The world once the entries of a TPDO are read. -/
def tpdoRead (n : Nat) (w : World) : World := (mapEntries w n).foldl (fun w v => readFx (v / 256) w) w

theorem worldFrame_tpdoRead (n : Nat) (w : World) : WorldFrame readParts readObjs w (tpdoRead n w) :=
  .foldl (fun w _ _ => worldFrame_readFx w _) w

/-- A TPDO whose event timer has run out carries its mapped objects. -/
theorem tpdoSend_timed {c : Ctl} {n : Nat} {w : World}
    (hvalid : bitOf (getN w (Obj.NET_CAN_TPDO_COMM n 0)) 31 = false) (hes : mapEntries w n ≠ [])
    (htimer : getN w (Obj.NET_CAN_TPDO_COMM n 4) ≠ 0)
    (hdue : w.can.tpdoClk.getD n 0 + msClk (getN w (Obj.NET_CAN_TPDO_COMM n 4)) ≤ w.clk)
    (hfd : bitOf (getN w Obj.NET_CAN_TPDO_FD) n = false) : ∃ now, tpdoSend c n w =
      send (updCan (tpdoRead n w) fun x =>
        { x with tpdoClk := x.tpdoClk.set n (tpdoRead n w).clk, tpdoLast := x.tpdoLast.set n now })
        (.can (getN w (Obj.NET_CAN_TPDO_COMM n 0) % 536870912) ((mapEntries w n).flatMap (mapData c w)) false) := by
  have htimed : (getN w (Obj.NET_CAN_TPDO_COMM n 4) != 0 &&
      decide (w.can.tpdoClk.getD n 0 + msClk (getN w (Obj.NET_CAN_TPDO_COMM n 4)) ≤ w.clk)) = true := by
    rw [decide_eq_true hdue, Bool.and_true, bne_iff_ne]
    exact htimer
  have hgo : ¬(bitOf (getN w (Obj.NET_CAN_TPDO_COMM n 0)) 31 = true ∨ mapEntries w n = []) :=
    not_or.mpr ⟨Bool.eq_false_iff.mp hvalid, hes⟩
  refine ⟨(ofLe (mapData c w ((mapEntries w n).headD 0)) : Nat), ?_⟩
  unfold tpdoSend
  dsimp only
  rw [if_neg hgo, if_pos (.inl htimed), hfd]
  simp only [Bool.false_eq_true, false_and, if_false]
  rfl

/-! ### The error states -/

theorem canBus_leaves (st rec_ tec : Nat) (w : World) : (canBus st rec_ tec w).can.bus = st ∧
    getN (canBus st rec_ tec w) Obj.NET_CAN_ERRCNT = min 255 rec_ * 256 + min 255 tec := by
  have hcount (u : World) : getN (setO u Obj.NET_CAN_ERRCNT (min 255 rec_ * 256 + min 255 tec : Nat))
      Obj.NET_CAN_ERRCNT = min 255 rec_ * 256 + min 255 tec := by rw [getN_setO_same, Int.toNat_natCast]
  unfold canBus
  dsimp only
  split
  next hbus => exact ⟨hbus, hcount w⟩
  next => exact ⟨rfl, by rw [getN_raise, getN_updCan, hcount]⟩

theorem worldFrame_canBus (st rec_ tec : Nat) (w : World) :
    WorldFrame [.can] (objsOf [Obj.NET_CAN_ERRCNT]) w (canBus st rec_ tec w) :=
  .unless (worldFrame_setO w (by decide) _) ((worldFrame_updCan _ _).trans (worldFrame_raise _ _ _ _))

end Sys2Proof.Machine
end

section
/-! Obligation O56, from the rules of the port. -/
open Sys2Proof Sys2Proof.Machine

/-- Settles O56. -/
theorem canTransmit : Obligations.CanTransmit := by
  refine fun s => ⟨fun r q hup hq hvalid hfree => ?emcy,
    fun n hup hnmt hserve hn hlen hvalid hes htimer hdue hfd => ?tpdo, fun st rec_ tec hst hvoted hnmt => ?bus,
    fun hvoted hoff => ?recover⟩
  case emcy =>
    have hdone := emcySend_oldest (m := s.ctl.mode) (w := (fresh s).w) hq hvalid hfree
    refine ⟨_, onWorld_guarded (c := fun _ w => canUp w) (fun c => emcySend c.mode) hup, ?_, ?_, fun hquiet => ?_, ?_⟩
    · rw [getO_runMeaning _ _ (by decide), hdone, getO_pushHist_newest]
    · rw [runMeaning, settle_can_emcyClk, hdone, pushHist_keeps World.can (fun _ _ _ => rfl)]
      rfl
    · have hraised : (emcySend s.ctl.mode (fresh s).w).evt.raised = [] := by
        rw [hdone, pushHist_keeps World.evt (fun _ _ _ => rfl)]
        exact hquiet
      rw [runMeaning, settle_can_quiet hraised, hdone, pushHist_keeps World.can (fun _ _ _ => rfl)]
      rfl
    · rw [runMeaning_out, hdone, pushHist_keeps World.out (fun _ _ _ => rfl)]
      rfl
  case tpdo =>
    obtain ⟨now, hdone⟩ := tpdoSend_timed (c := s.ctl) (w := (fresh s).w) hvalid hes htimer hdue hfd
    have hread := worldFrame_tpdoRead n (fresh s).w
    have hguard : (canUp (fresh s).w && (fresh s).w.can.nmt == 2 && hostServing (fresh s).w && decide (n < 4)) = true := by
      show (canUp s.w && s.w.can.nmt == 2 && hostServing s.w && decide (n < 4)) = true
      simp [hup, hnmt, hserve, hn]
    refine ⟨_, onWorld_guarded (c := fun _ w => canUp w && w.can.nmt == 2 && hostServing w && decide (n < 4))
      (fun c => tpdoSend c n) hguard, ?_, rfl, ?_⟩
    · rw [runMeaning, settle_can_tpdoClk, hdone]
      show ((tpdoRead n (fresh s).w).can.tpdoClk.set n (tpdoRead n (fresh s).w).clk).getD n 0 = s.w.clk
      rw [hread.canTpdoClk (by decide), hread.clk (by decide)]
      exact (List.getD_eq_getElem _ _ (by simpa [fresh] using hlen)).trans (List.getElem_set_self _)
    · rw [runMeaning_out, hdone, send]
      exact List.getLast?_concat
  case bus =>
    obtain ⟨hbus, hcount⟩ := canBus_leaves st rec_ tec (fresh s).w
    have hguard : ((fresh s).w.sys.voted && (fresh s).w.can.nmt != 0 && decide (st ≤ 2)) = true := by
      show (s.w.sys.voted && s.w.can.nmt != 0 && decide (st ≤ 2)) = true
      simp [hvoted, hnmt, hst]
    refine ⟨_, onWorld_when (c := fun w => w.sys.voted && w.can.nmt != 0 && decide (st ≤ 2)) (canBus st rec_ tec) hguard,
      (settle_can_bus _).trans hbus, ?_, (worldFrame_canBus st rec_ tec _).touches⟩
    rw [runMeaning, getN_settle _ (by decide) (by decide), hcount]
  case recover =>
    have hguard : ((fresh s).w.sys.voted && (fresh s).w.can.bus == 2) = true := by
      show (s.w.sys.voted && s.w.can.bus == 2) = true
      simp [hvoted, hoff]
    refine ⟨_, onWorld_when (c := fun w => w.sys.voted && w.can.bus == 2) busRecover hguard, settle_can_bus _, ?_,
      WorldFrame.touches ?_, fun hquiet => reports_runMeaning hquiet rfl rfl⟩
    · rw [runMeaning, getN_settle _ (by decide) (by decide), busRecover, getN_raise, getN_setO_same]
      rfl
    · exact ((worldFrame_updCan _ _).trans (worldFrame_setO _ (by decide) _)).trans (worldFrame_raise _ _ _ _)

end

section
/-! SUPPORT. SDO transfers (R357). -/

namespace Sys2Proof.Machine

/-! ### Frames of meanings of the whole state -/

/-- A meaning of the whole state that keeps the control block has the frame of its world. -/
theorem WorldFrame.touchesState {parts : List Part} {objs : Nat → Bool} {f : State → State} {s : State}
    (h : WorldFrame parts objs (fresh s).w (f (fresh s)).w) (hctl : (f (fresh s)).ctl = s.ctl) :
    Touches parts objs s (runState f s) := by
  obtain ⟨-, -, hpart, hobj⟩ := WorldFrame.touches (f := fun _ => (f (fresh s)).w) h
  exact ⟨hctl, rfl, hpart, hobj⟩

theorem runState_congr {f g : State → State} {s : State} (h : f (fresh s) = g (fresh s)) :
    runState f s = runState g s := by rw [runState, h, runState]

/-- A meaning under a condition that the state meets. -/
theorem onState_when {c : State → Bool} (f : State → State) {s : State} (h : c (fresh s) = true) :
    onState (fun s => if c s then f s else s) s = .next (runState f s) :=
  (onState_runState _ s).trans (congrArg Host.Outcome.next (runState_congr (if_pos h)))

theorem onState_sdo (f : State → State) {s : State} (h : sdoUp s.w = true) :
    onState (fun s => if sdoUp s.w then f s else s) s = .next (runState f s) :=
  onState_when (c := fun s => sdoUp s.w) f h

/-! ### Downloads -/

theorem initDownload_accepted {ix sub size : Nat} {data : List Nat} {s : State}
    (h : downloadStatus (setSdo none s.w) ix sub = St.ok) : initDownload ix sub false size data s =
      { s with w := sdoSend (0x60 :: leBytes 2 ix ++ [sub]) (setSdo (some { upload := false, index := ix, sub := sub, size := size, bytes := [], toggle := false, clk := s.w.clk }) (setSdo none s.w)) } := by
  simp only [initDownload, h, ne_eq, not_true_eq_false, if_false, Bool.false_eq_true]
  rfl

theorem initDownload_refused {ix sub size : Nat} {data : List Nat} {s : State}
    (h : downloadStatus (setSdo none s.w) ix sub ≠ St.ok) : initDownload ix sub false size data s =
      { s with w := sdoAbort ix sub (abortCode (downloadStatus (setSdo none s.w) ix sub)) (setSdo none s.w) } := by
  simp only [initDownload, h, ne_eq, not_false_eq_true, if_true, Bool.false_eq_true, if_false]

section
variable {x : SdoXfer} {data : List Nat} {s : State} (hx : s.w.can.sdo = some x)
include hx

/-- A segment out of turn aborts the transfer. -/
theorem downloadSegment_outOfTurn : downloadSegment (!x.toggle) false data s =
    { s with w := sdoAbort x.index x.sub 0x05040001 (setSdo none s.w) } := by
  simp only [downloadSegment, hx]
  exact if_pos (.inr (by cases x.toggle <;> decide))

/-- A segment in turn that the transfer has room for, and is not the last, is kept. -/
theorem downloadSegment_kept (hdown : x.upload = false) (hsize : x.size = 0 ∨ (x.bytes ++ data).length ≤ x.size)
    (hroom : (x.bytes ++ data).length ≤ 276) : downloadSegment x.toggle false data s =
      { s with w := sdoSend [0x20 + 16 * b2n x.toggle] (setSdo (some { x with bytes := x.bytes ++ data, toggle := !x.toggle, clk := s.w.clk }) (setSdo none s.w)) } := by
  simp only [downloadSegment, hx, hdown, Bool.false_eq_true, ne_eq, not_true_eq_false, or_self, if_false, false_and,
    or_false]
  rw [if_neg (by omega)]
  rfl

/-- The last segment of a complete transfer ends it. -/
theorem downloadSegment_last (hdown : x.upload = false) (hsize : x.size = 0 ∨ (x.bytes ++ data).length = x.size)
    (hroom : (x.bytes ++ data).length ≤ 276) : downloadSegment x.toggle true data s =
      finishDownload { x with bytes := x.bytes ++ data } { s with w := setSdo none s.w } := by
  simp only [downloadSegment, hx, hdown, Bool.false_eq_true, ne_eq, not_true_eq_false, or_self, if_false, true_and,
    if_true]
  exact if_neg (by omega)

end

/-- A write that passes steps 1 to 5 is answered. -/
theorem engine_passed {e : WriteEnv} {ix sub ty : Nat} {bytes : List Nat} {s u : State} (hsub : sub < 256)
    (h : gateState e (ix * 256 + sub) ty bytes s = some u) : (engine e ix sub ty bytes s).1 ≤ 1 := by
  have hix : (ix * 256 + sub) / 256 = ix := by omega
  have hsub' : (ix * 256 + sub) % 256 = sub := by omega
  rw [gateState, hix, hsub'] at h
  unfold engine
  rcases hg : gate e ix sub ty bytes s with y | ⟨u', r, n, o⟩
  · simp [hg] at h
  · dsimp only
    split <;> decide

theorem finishDownload_answered {x : SdoXfer} {s u : State} (htrailer : hasTrailer s x.index x.sub x.bytes.length = false)
    (h : gateState { path := .can, auth := none } (x.index * 256 + x.sub) 0 x.bytes s = some u) (hsub : x.sub < 256) :
    finishDownload x s = { (engine { path := .can, auth := none } x.index x.sub 0 x.bytes s).2 with
      w := sdoSend [0x20 + 16 * b2n x.toggle] (engine { path := .can, auth := none } x.index x.sub 0 x.bytes s).2.w } := by
  have hst := engine_passed hsub h
  simp only [finishDownload, htrailer, Bool.false_eq_true, if_false]
  exact if_pos hst

/-! ### Time-out and uploads -/

theorem sdoTimeout_due {w : World} {x : SdoXfer} (hx : w.can.sdo = some x) (hdue : x.clk + secClk 1 ≤ w.clk) :
    sdoTimeout w = sdoAbort x.index x.sub 0x05040000 (setSdo none w) := by
  simp only [sdoTimeout, hx]
  exact if_pos hdue

theorem uploadSegment_inTurn {w : World} {x : SdoXfer} (hx : w.can.sdo = some x) (hup : x.upload = true) :
    uploadSegment x.toggle w = sdoSend ((16 * b2n x.toggle + 2 * (7 - (x.bytes.take 7).length) +
        b2n (x.bytes.drop 7 == [])) :: x.bytes.take 7)
      (setSdo (if x.bytes.drop 7 = [] then none
        else some { x with bytes := x.bytes.drop 7, toggle := !x.toggle, clk := w.clk }) w) := by
  simp only [uploadSegment, hx, hup, Bool.not_true, Bool.false_eq_true, ne_eq, not_true_eq_false, or_self, if_false]

theorem initUpload_short {c : Ctl} {w u : World} {ix sub code : Nat} {data : List Nat}
    (h : readItem c ix sub false (setSdo none w) = (St.ok, code, data, u)) (hlow : 1 ≤ data.length)
    (hhigh : data.length ≤ 4) :
    initUpload ix sub c w = sdoSend ((0x43 + 4 * (4 - data.length)) :: leBytes 2 ix ++ [sub] ++ data) u := by
  simp only [initUpload, h, ne_eq, not_true_eq_false, if_false]
  exact if_pos ⟨hlow, hhigh⟩

theorem initUpload_long {c : Ctl} {w u : World} {ix sub code : Nat} {data : List Nat}
    (h : readItem c ix sub false (setSdo none w) = (St.ok, code, data, u)) (hlong : 4 < data.length) :
    initUpload ix sub c w = sdoSend (0x41 :: leBytes 2 ix ++ [sub] ++ leBytes 4 data.length) (setSdo (some { upload := true, index := ix, sub := sub, size := data.length, bytes := data, toggle := false, clk := u.clk }) u) := by
  simp only [initUpload, h, ne_eq, not_true_eq_false, if_false]
  exact if_neg (by omega)

end Sys2Proof.Machine
end

section
/-! Obligation O57, from the rules of the transfers. -/
open Sys2Proof Sys2Proof.Machine

/-- Settles O57. -/
theorem sdoTransfers : Obligations.SdoTransfers := by
  refine ⟨fun s hup => ⟨fun ix sub size data hok => ?accepted, fun ix sub size data hno => ?refused,
    fun x data hx hdown => ⟨fun hsize hroom => ?kept, ?outOfTurn, fun u hsize hroom htrailer hgate hsub => ?last⟩, ?abort,
    fun x hx hdue => ?timeout⟩, fun s hup => ⟨fun ix sub code data u hread => ⟨fun hlow hhigh => ?short, fun hlong => ?long⟩,
    fun x hx hup' => ?segment⟩⟩
  case accepted =>
    have hdone := initDownload_accepted (size := size) (data := data) (s := fresh s) hok
    refine ⟨_, onState_sdo (initDownload ix sub false size data) hup, WorldFrame.touchesState ?_ ?_, ?_, ?_⟩
    · rw [hdone]
      exact ((worldFrame_updCan _ _).trans (worldFrame_updCan _ _)).trans (worldFrame_sdoSend _ _)
    · rw [hdone]
      rfl
    · rw [runState, settle_can_sdo, hdone]
      rfl
    · rw [runState, settle_out, hdone]
      rfl
  case refused =>
    have hdone := initDownload_refused (size := size) (data := data) (s := fresh s) hno
    refine ⟨_, onState_sdo (initDownload ix sub false size data) hup, WorldFrame.touchesState ?_ ?_, ?_, ?_⟩
    · rw [hdone]
      exact (worldFrame_updCan _ _).trans (worldFrame_sdoAbort _ _ _ _)
    · rw [hdone]
      rfl
    · rw [runState, settle_can_sdo, hdone]
      rfl
    · rw [runState, settle_out, hdone]
      rfl
  case kept =>
    have hdone := downloadSegment_kept (s := fresh s) hx hdown hsize hroom
    refine ⟨_, onState_sdo (downloadSegment x.toggle false data) hup, WorldFrame.touchesState ?_ ?_, ?_, ?_⟩
    · rw [hdone]
      exact ((worldFrame_updCan _ _).trans (worldFrame_updCan _ _)).trans (worldFrame_sdoSend _ _)
    · rw [hdone]
      rfl
    · rw [runState, settle_can_sdo, hdone]
      rfl
    · rw [runState, settle_out, hdone]
      rfl
  case outOfTurn =>
    have hdone := downloadSegment_outOfTurn (data := data) (s := fresh s) hx
    refine ⟨_, onState_sdo (downloadSegment (!x.toggle) false data) hup, WorldFrame.touchesState ?_ ?_, ?_, ?_⟩
    · rw [hdone]
      exact (worldFrame_updCan _ _).trans (worldFrame_sdoAbort _ _ _ _)
    · rw [hdone]
      rfl
    · rw [runState, settle_can_sdo, hdone]
      rfl
    · rw [runState, settle_out, hdone]
      rfl
  case last =>
    have hdone := (downloadSegment_last (s := fresh s) hx hdown hsize hroom).trans
      (finishDownload_answered (x := { x with bytes := x.bytes ++ data }) htrailer hgate hsub)
    refine ⟨_, onState_sdo (downloadSegment x.toggle true data) hup, ?_⟩
    rw [runState, settle_out, settle_can_node, hdone, sdoSend, send]
    exact List.getLast?_concat
  case abort =>
    exact ⟨_, onWorld_when (setSdo none) hup, settle_can_sdo _, settle_out _, (worldFrame_updCan _ _).touches⟩
  case timeout =>
    have hdone := sdoTimeout_due (w := (fresh s).w) hx hdue
    refine ⟨_, onWorld_when sdoTimeout hup, ?_, WorldFrame.touches ?_, ?_⟩
    · rw [runMeaning, settle_can_sdo, hdone]
      rfl
    · rw [hdone]
      exact (worldFrame_updCan _ _).trans (worldFrame_sdoAbort _ _ _ _)
    · rw [runMeaning_out, hdone]
      rfl
  case short =>
    have hdone := initUpload_short (w := (fresh s).w) hread hlow hhigh
    have hframe := worldFrame_readItem _ hread
    refine ⟨_, onWorld_guarded (c := fun _ => sdoUp) (fun c => initUpload ix sub c) hup, rfl, ?_, ?_⟩
    · rw [runMeaning, settle_can_sdo, hdone]
      exact hframe.canSdo (by decide)
    · rw [runMeaning_out, hdone, sdoSend, send, hframe.canNode (by decide)]
      exact List.getLast?_concat
  case long =>
    have hdone := initUpload_long (w := (fresh s).w) hread hlong
    refine ⟨_, onWorld_guarded (c := fun _ => sdoUp) (fun c => initUpload ix sub c) hup, rfl, ?_⟩
    rw [runMeaning, settle_can_sdo, hdone]
    rfl
  case segment =>
    have hdone := uploadSegment_inTurn (w := (fresh s).w) hx hup'
    refine ⟨_, onWorld_when (uploadSegment x.toggle) hup, WorldFrame.touches ?_, ?_, ?_⟩
    · rw [hdone]
      exact (worldFrame_updCan _ _).trans (worldFrame_sdoSend _ _)
    · rw [runMeaning, settle_can_sdo, hdone]
      rfl
    · rw [runMeaning_out, hdone]
      rfl

end

section
/-! SUPPORT. Frames of what the partner table brings when a partner comes or goes (R339, R345, R172). -/

namespace Sys2Proof.Machine

section
variable {parts : List Part} {objs : Nat → Bool} (w : World)

theorem worldFrame_updNet (hn : .net ∈ parts) (f : Net → Net) : WorldFrame parts objs w (updNet w f) :=
  worldFrame_net w hn _

theorem worldFrame_updCal (hc : .cal ∈ parts) (f : Cal → Cal) : WorldFrame parts objs w (updCal w f) :=
  worldFrame_cal w hc _

theorem worldFrame_setPartner (hn : .net ∈ parts) (n : Nat) (p : Partner) :
    WorldFrame parts objs w (setPartner w n p) := worldFrame_updNet w hn _

theorem worldFrame_prvDrop (hc : .cal ∈ parts) (hk : objs Obj.JOB_PRV_DROPPED = true) (frame : Nat) :
    WorldFrame parts objs w (prvDrop frame w) :=
  (worldFrame_bump w hk).trans (.unless (.refl _) ((worldFrame_updCal _ hc _).trans (worldFrame_raise _ _ _ _)))

theorem worldFrame_prvGone (hn : .net ∈ parts) (hc : .cal ∈ parts) (hk : objs Obj.JOB_PRV_DROPPED = true) (n : Nat) :
    WorldFrame parts objs w (prvGone n w) := by
  unfold prvGone
  exact .whenSo (.refl w) (.trans (.trans (.trans (.foldl (fun b _ _ => worldFrame_prvDrop b hc hk _) w)
    (worldFrame_updNet _ hn _)) (worldFrame_updCal _ hc _)) (worldFrame_raise _ _ _ _))

theorem worldFrame_prvBack (hc : .cal ∈ parts) (n : Nat) : WorldFrame parts objs w (prvBack n w) :=
  .whenSo (.refl w) ((worldFrame_updCal w hc _).trans (worldFrame_raise _ _ _ _))

theorem worldFrame_arrive (hn : .net ∈ parts) (hc : .cal ∈ parts) (n : Nat) (p : Partner) :
    WorldFrame parts objs w (arrive n p w) :=
  ((worldFrame_setPartner w hn _ _).trans (worldFrame_raise _ _ _ _)).trans (worldFrame_prvBack _ hc _)

theorem worldFrame_depart (hn : .net ∈ parts) (hc : .cal ∈ parts) (hk : objs Obj.JOB_PRV_DROPPED = true) (n : Nat) :
    WorldFrame parts objs w (depart n w) := by
  unfold depart
  split
  · exact .refl w
  · exact .unless (.refl w) (((worldFrame_setPartner w hn _ _).trans (worldFrame_raise _ _ _ _)).trans
      (worldFrame_prvGone _ hn hc hk _))

theorem worldFrame_fixedEval (hn : .net ∈ parts) (hc : .cal ∈ parts) (hk : objs Obj.JOB_PRV_DROPPED = true) (n : Nat) :
    WorldFrame parts objs w (fixedEval w n) := by
  unfold fixedEval
  refine .unless (.refl w) (.ite (.unless (.refl w) (worldFrame_arrive w hn hc _ _)) (worldFrame_depart w hn hc hk n))

theorem worldFrame_fixedEvalAll (hn : .net ∈ parts) (hc : .cal ∈ parts) (hk : objs Obj.JOB_PRV_DROPPED = true) :
    WorldFrame parts objs w (fixedEvalAll w) := .foldl (fun b n _ => worldFrame_fixedEval b hn hc hk n) w

end

theorem WorldFrame.sys {parts : List Part} {objs : Nat → Bool} {a b : World} (h : WorldFrame parts objs a b)
    (hp : .sys ∉ parts) : b.sys = a.sys := h.1 .sys hp

end Sys2Proof.Machine
end

section
/-! SUPPORT. Power-up and the phases of BOOT (R427, R432, R437, R443, R444). -/

namespace Sys2Proof.Machine

/-! ### Power-up -/

section
variable (act : Int) (low : Bool) (mv : Nat) (s : State)

theorem powerUp_ctl : (powerUp act low mv s).ctl =
    { mode := .boot, prev := s.ctl.mode, sec := bootSec s.w.clk s.ctl.sec } := rfl

theorem powerUp_thm : (powerUp act low mv s).w.thm.armed = true ∧ (powerUp act low mv s).w.thm.pfLow = low := by
  unfold powerUp
  dsimp only
  cases low <;> exact ⟨rfl, rfl⟩

theorem getO_powerUp (k : Nat) : getO (powerUp act low mv s).w k =
    getO (setO (setO (bootWorld s.w [] []) Obj.SYS_RESET_CAUSE (if s.w.thm.saveMode then 3 else 0)) Obj.THM_PF_ACT act) k := by
  unfold powerUp
  dsimp only
  rw [getO_setMode]
  cases low
  · exact getO_updThm _ _ _
  · exact (getO_raise _ _ _ _ _).trans (getO_updThm _ _ _)

theorem getO_powerUp_act : getO (powerUp act low mv s).w Obj.THM_PF_ACT = act := by
  rw [getO_powerUp, getO_setO_same]

theorem getO_powerUp_cause :
    getO (powerUp act low mv s).w Obj.SYS_RESET_CAUSE = if s.w.thm.saveMode then 3 else 0 := by
  rw [getO_powerUp, getO_setO_ne _ _ (by decide), getO_setO_same]

end

/-! ### BOOT -/

@[simp] theorem stopSrc_sup (w : World) (b : Nat) (on : Bool) : (stopSrc w b on).sup = w.sup := by
  unfold stopSrc
  dsimp only
  split <;> rfl

theorem crossZone_keeps {α : Type} (p : World → α) (hthm : ∀ w t, p { w with thm := t } = p w)
    (hraise : ∀ w c i d, p (raise w c i d) = p w) (hnv : ∀ w n v, p (setNv w (Obj.THM_XOFS n) v) = p w)
    (sums : List Int) (w : World) (z : Nat) : p (crossZone sums w z) = p w := by
  unfold crossZone
  dsimp only
  split
  · rfl
  · refine foldl_keeps p (fun u n => ?_) _ w
    split
    · exact (hraise _ _ _ _).trans (hthm u _)
    · exact hnv u n _

theorem crossOffsets_sup (sums : List Int) (w : World) : (crossOffsets sums w).sup = w.sup := by
  unfold crossOffsets
  dsimp only
  rw [setO_sup]
  refine (foldl_keeps World.sup (crossZone_keeps _ (fun _ _ => rfl) (fun _ _ _ _ => rfl) (fun _ _ _ => rfl) sums) _ _).trans ?_
  exact foldl_keeps (g := fun w n => setO w (Obj.THM_XOFS n) ((mapGet w.dict.fram (Obj.THM_XOFS n)).getD 0)) World.sup
    (fun _ _ => rfl) _ w

theorem xofs_ne_stop (n : Nat) : Obj.THM_XOFS n ≠ Obj.SUP_STOP_SRC :=
  show 0x2B1501 + n ≠ 0x2A0003 by omega

theorem getO_crossOffsets_stop (sums : List Int) (w : World) :
    getO (crossOffsets sums w) Obj.SUP_STOP_SRC = getO w Obj.SUP_STOP_SRC := by
  have hzone := crossZone_keeps (getO · Obj.SUP_STOP_SRC) (fun _ _ => rfl) (fun w c i d => getO_raise w c i d _)
    (fun w n v => getO_setO_ne w v (xofs_ne_stop n)) sums
  unfold crossOffsets
  dsimp only
  rw [getO_setO_ne _ _ (by decide)]
  refine (foldl_keeps (getO · Obj.SUP_STOP_SRC) hzone _ _).trans ?_
  exact foldl_keeps (g := fun w n => setO w (Obj.THM_XOFS n) ((mapGet w.dict.fram (Obj.THM_XOFS n)).getD 0))
    (getO · Obj.SUP_STOP_SRC) (fun w n => getO_setO_ne w _ (xofs_ne_stop n)) _ w

/-- The first voted cycle ends BOOT_HOLD. -/
theorem firstVoted_eq {sums : List Int} {s : State} (hboot : s.ctl.mode = .boot) (hvoted : s.w.sys.voted = false)
    (hstop : s.w.sup.stopLow = false) : ∃ y o, y.voted = true ∧ firstVoted sums s =
      { s with w := updSup (stopSrc { crossOffsets sums s.w with sys := y } 10 false) fun x => { x with outs := o } } := by
  refine ⟨_, _, rfl, (if_pos ⟨hboot, hvoted⟩).trans (if_neg ?_)⟩
  simp only [updSup, stopSrc_sup, crossOffsets_sup, hstop, Bool.false_eq_true, not_false_eq_true]

theorem getO_withSys (w : World) (y : Sys) (k : Nat) : getO { w with sys := y } k = getO w k := rfl

theorem getO_updSup (w : World) (f : Sup → Sup) (k : Nat) : getO (updSup w f) k = getO w k := rfl

theorem firstVoted_ends {sums : List Int} {s : State} (hboot : s.ctl.mode = .boot) (hvoted : s.w.sys.voted = false)
    (hstop : s.w.sup.stopLow = false) : (firstVoted sums s).ctl = s.ctl ∧ (firstVoted sums s).w.sys.voted = true ∧
      getN (firstVoted sums s).w Obj.SUP_STOP_SRC = setBit (getN s.w Obj.SUP_STOP_SRC) 10 false := by
  obtain ⟨y, o, hy, h⟩ := firstVoted_eq (sums := sums) hboot hvoted hstop
  refine ⟨by rw [h], ?_, ?_⟩
  · rw [h, updSup, stopSrc_sys]
    exact hy
  · rw [h, getN_congr (getO_updSup _ _ _), getN_stopSrc, getN_congr (getO_withSys _ _ _),
      getN_congr (getO_crossOffsets_stop sums s.w)]

theorem hostBoot_first (why : Nat) (w : World) : ∃ data, hostBoot 0 why w =
    raise (updSup (setO { w with sys := { w.sys with hostUp := true } } Obj.SUP_HOST_STATE 0)
      fun x => { x with hostClk := w.clk }) Ev.SYS_BOOT 0 data := ⟨_, rfl⟩

theorem hostBoot_none (why : Nat) (w : World) :
    hostBoot 2 why w = raise { w with sys := { w.sys with bootFail := true } } Ev.SYS_BOOT_FAIL 0 0 := rfl

theorem worldFrame_dramInit (w : World) : WorldFrame [.sys, .mem] noObj w (dramInit w) := by
  unfold dramInit
  refine .trans (worldFrame_sys w ?_ _) (worldFrame_mem { w with sys := { w.sys with dramDone := true } } ?_ _)
  all_goals decide

theorem changeFx_bootToSelftest (w : World) : changeFx .boot .selftest w = w := rfl

/-- STORED_VALUES_LOADED with the entries of fixed addresses (R345). -/
def withFixed (damaged : List Nat) (s : State) : State :=
  let t := storedLoaded damaged s
  if t.w.sys.loaded && !s.w.sys.loaded then { t with w := fixedEvalAll t.w } else t

theorem withFixed_keeps (damaged : List Nat) (s : State) : (withFixed damaged s).ctl = (storedLoaded damaged s).ctl ∧
    (withFixed damaged s).w.sys = (storedLoaded damaged s).w.sys := by
  unfold withFixed
  dsimp only
  split
  · refine ⟨rfl, (worldFrame_fixedEvalAll (parts := [.net, .cal]) (objs := fun _ => true) _ ?_ ?_ rfl).sys ?_⟩
    all_goals decide
  · exact ⟨rfl, rfl⟩

/-- The stored values end BOOT. -/
theorem storedLoaded_ends {damaged : List Nat} {s : State} (hboot : s.ctl.mode = .boot) (hvoted : s.w.sys.voted = true)
    (hhost : s.w.sys.hostUp = true) (hdram : s.w.sys.dramDone = true) :
    (storedLoaded damaged s).ctl.mode = .selftest ∧ (storedLoaded damaged s).ctl.prev = .boot ∧
      (storedLoaded damaged s).w.sys.loaded = true := by
  unfold storedLoaded
  extract_lets y w0 w1 w2
  rw [if_pos ⟨hboot, hvoted, hhost, hdram⟩]
  refine ⟨rfl, hboot, ?_⟩
  simp only [goTo, hboot, changeFx_bootToSelftest, noteChl_sys, setMode_sys]

end Sys2Proof.Machine
end

section
/-! Obligation O36, from the rules of power-up and BOOT. -/
open Sys2Proof Sys2Proof.Machine

/-- Settles O36. -/
theorem powerUpAndBoot : Obligations.PowerUpAndBoot := by
  refine ⟨fun s mv hoff hsaving => ⟨fun hvin => ?valid, fun hlow hhigh => ?low⟩, fun s hboot =>
    ⟨fun sums hvoted hstop => ?voted, fun hvoted href hhost hfail => ⟨fun why => ?host, fun why => ?noImage⟩,
      fun hhost => ?dram, fun damaged hvoted hhost hdram => ?loaded⟩⟩
  case valid =>
    have hrun : vinValid mv (fresh s) = powerUp (storedPf s.w) false mv (fresh s) := if_pos ⟨hoff, hsaving, hvin⟩
    obtain ⟨harmed, -⟩ := powerUp_thm (storedPf s.w) false mv (fresh s)
    refine ⟨_, onState_runState (vinValid mv) s, ?_, ?_, ?_, ?_, ?_, ?_⟩
    · rw [runState, hrun, powerUp_ctl]
    · rw [runState, hrun, powerUp_ctl]
      exact hoff
    · rw [runState, hrun, powerUp_ctl]
      rfl
    · rw [runState, getO_settle _ (by decide) (by decide), hrun, getO_powerUp_act]
    · rw [runState, getO_settle _ (by decide) (by decide), hrun, getO_powerUp_cause]
      rfl
    · rw [runState, settle_thm, hrun, harmed]
  case low =>
    have hrun : pfLow mv (fresh s) = powerUp 6500 true mv (fresh s) := if_pos ⟨hoff, hsaving, hlow, hhigh⟩
    obtain ⟨-, hpf⟩ := powerUp_thm 6500 true mv (fresh s)
    refine ⟨_, onState_runState (pfLow mv) s, ?_, ?_, ?_, ?_⟩
    · rw [runState, hrun, powerUp_ctl]
    · rw [runState, hrun, powerUp_ctl]
      exact hoff
    · rw [runState, getO_settle _ (by decide) (by decide), hrun, getO_powerUp_act]
    · rw [runState, settle_thm, hrun, hpf]
  case voted =>
    obtain ⟨hctl, hon, hsrc⟩ := firstVoted_ends (sums := sums) (s := fresh s) hboot hvoted hstop
    refine ⟨_, onState_runState (firstVoted sums) s, ?_, hctl, ?_⟩
    · rw [runState, settle_sys, hon]
    · rw [runState, getN_settle _ (by decide) (by decide), hsrc]
      rfl
  case host =>
    obtain ⟨data, hrun⟩ := hostBoot_first why (fresh s).w
    have hguard : (s.ctl.mode == .boot && s.w.sys.voted && s.w.sys.refclk && !s.w.sys.hostUp && !s.w.sys.bootFail &&
        decide (0 ≤ 2)) = true := by simp [hboot, hvoted, href, hhost, hfail]
    refine ⟨_, onWorld_guarded (c := fun c w => c.mode == .boot && w.sys.voted && w.sys.refclk && !w.sys.hostUp &&
      !w.sys.bootFail && decide (0 ≤ 2)) (fun _ => hostBoot 0 why) hguard, ?_, ?_, fun hquiet => ?_⟩
    · rw [runMeaning, settle_sys, hrun]
      rfl
    · rw [runMeaning, getO_settle _ (by decide) (by decide), hrun, getO_raise]
      exact getO_setO_same _ _ _
    · exact (reports_runMeaning hquiet hrun rfl).1
  case noImage =>
    have hguard : (s.ctl.mode == .boot && s.w.sys.voted && s.w.sys.refclk && !s.w.sys.hostUp && !s.w.sys.bootFail &&
        decide (2 ≤ 2)) = true := by simp [hboot, hvoted, href, hhost, hfail]
    refine ⟨_, onWorld_guarded (c := fun c w => c.mode == .boot && w.sys.voted && w.sys.refclk && !w.sys.hostUp &&
      !w.sys.bootFail && decide (2 ≤ 2)) (fun _ => hostBoot 2 why) hguard, ?_, ?_,
      fun hquiet => reports_runMeaning hquiet (hostBoot_none why _) rfl⟩
    · rw [runMeaning, settle_sys, hostBoot_none]
      rfl
    · rw [runMeaning, settle_sys, hostBoot_none]
      exact hhost
  case dram =>
    have hguard : (s.ctl.mode == .boot && s.w.sys.hostUp) = true := by simp [hboot, hhost]
    refine ⟨_, onWorld_guarded (c := fun c w => c.mode == .boot && w.sys.hostUp) (fun _ => dramInit) hguard, ?_, ?_, ?_,
      ?_, ?_, (worldFrame_dramInit _).touches⟩
    · rw [runMeaning, settle_sys]
      rfl
    all_goals
      rw [runMeaning, settle_mem]
      rfl
  case loaded =>
    obtain ⟨hmode, hprev, hloaded⟩ := storedLoaded_ends (damaged := damaged) (s := fresh s) hboot hvoted hhost hdram
    obtain ⟨hctl, hsys⟩ := withFixed_keeps damaged (fresh s)
    refine ⟨_, onState_runState (withFixed damaged) s, ?_, ?_, ?_⟩
    · rw [runState, hctl, hmode]
    · rw [runState, hctl, hprev]
    · rw [runState, settle_sys, hsys, hloaded]

end

section
/-! SUPPORT. The phases after BOOT (R437, R445 to R447): what the tests, the calibration and discovery leave. -/

namespace Sys2Proof.Machine

/-! ### SELFTEST -/

section
variable (t : SelfTest) (f : Nat) (w : World)

theorem testCores_sys : (testCores f w).sys = w.sys :=
  foldl_keeps World.sys (fun _ _ => by split <;> rfl) _ w

theorem testVoters_sys : (testVoters f w).sys = w.sys := by
  unfold testVoters
  split <;> rfl

theorem testFails_sys (code n : Nat) : (testFails t code n f w).sys = w.sys :=
  foldl_keeps World.sys (fun _ _ => by rfl) _ w

theorem noteGen_sys : (noteGen w).sys = w.sys := by
  unfold noteGen
  dsimp only
  split
  · rfl
  · split <;> rfl

theorem testMuslin_sys : (testMuslin t f w).sys = w.sys := by
  unfold testMuslin
  dsimp only
  rw [noteGen_sys, setO_sys]
  exact testFails_sys t f w _ _

theorem testCalico_sys : (testCalico t f w).sys = w.sys := by
  unfold testCalico
  dsimp only
  exact testFails_sys t f w _ _

theorem swapSlice_sys (b : Nat) : (swapSlice w b).sys = w.sys := by rw [swapSlice, setO_sys, mapSlice, raise_sys, setO_sys]

theorem testSlices_sys : (testSlices t f w).sys = w.sys := by
  unfold testSlices
  extract_lets u v
  have hsys : v.sys = w.sys := by
    rw [setO_sys]
    exact testFails_sys t f w _ _
  split
  · split
    · exact (swapSlice_sys v _).trans hsys
    · exact hsys
  · exact hsys

theorem testFire_sys : (testFire t f w).sys = w.sys :=
  foldl_keeps World.sys (fun _ _ => by dsimp only; split <;> rfl) _ w

theorem linkSelftest_sys (ok : List Bool) (delays : List Nat) : (linkSelftest w ok delays).sys = w.sys :=
  foldl_keeps World.sys (fun _ _ => by dsimp only; split <;> rfl) _ w

theorem testInspect_sys (sinks : Nat) : (testInspect t f sinks w).sys = w.sys := by
  refine .trans ?_ (testFails_sys t f w Ev.INS_UNIT_FAULT 3)
  unfold testInspect
  dsimp only
  rw [updVoi_sys, updIns_sys]
  exact foldl_keeps (g := fun w c => testFail t Ev.INS_UNIT_FAULT w (32 + c)) World.sys (fun _ _ => by rfl) _ _

end

/-- SELFTEST ends in CALIBRATE, or in THERMAL_HOLD under the hold flag. -/
theorem selftestDone_ctl {t : SelfTest} {s : State} (h : s.ctl.mode = .selftest) :
    (selftestDone t s).ctl.prev = .selftest ∧
      (selftestDone t s).ctl.mode = if s.w.sys.holdFlag then .thermalHold else .calibrate := by
  unfold selftestDone
  rw [if_pos h]
  extract_lets mus slices mask w1 w2 few w3 w4
  have hsys : w4.sys = s.w.sys :=
    calc w4.sys = w2.sys := by rw [raise_sys, setO_sys]; rfl
      _ = w1.sys := by rw [testInspect_sys, linkSelftest_sys, testFire_sys]
      _ = s.w.sys := by rw [testSlices_sys, testCalico_sys, testMuslin_sys, testVoters_sys, testCores_sys]
  refine ⟨h, ?_⟩
  rw [hsys]
  rfl

/-! ### CALIBRATE -/

theorem changeFx_calibrateToDiscover (w : World) : changeFx .calibrate .discover w = w := rfl

/-- Where the change of state brings nothing with it, it leaves every object but CHL_STATE. -/
theorem getO_goTo {cause : Nat} {new : DevState} {s : State} (hfx : ∀ w, changeFx s.ctl.mode new w = w) {k : Nat}
    (hk : Obj.CHL_STATE ≠ k) : getO (goTo cause new s).w k = getO s.w k := by
  unfold goTo
  dsimp only
  rw [hfx, getO_noteChl _ _ hk, getO_setMode]

theorem getO_discoverAll (w : World) (k : Nat) : getO (discoverAll w) k = getO w k := by
  refine foldl_keeps (getO · k) (fun w i => ?_) _ w
  split
  · rfl
  · split <;> rfl

/-- CALIBRATE ends in DISCOVER once its steps are done and the core voltage has stood, and keeps how long it took. -/
theorem calibrateDone_stable {sinks : Nat} {first : List (List (Nat × Nat))} {later : List (List (List (Nat × Nat)))}
    {s : State} (h : s.ctl.mode = .calibrate) (hstable : s.w.thm.vcoreClk + secClk 1 ≤ s.w.clk) :
    (calibrateDone true sinks first later s).ctl.mode = .discover ∧
      (calibrateDone true sinks first later s).ctl.prev = .calibrate ∧
      getO (calibrateDone true sinks first later s).w Obj.SYS_CAL_MS = clkMs (s.w.clk - s.w.sys.enterClk) := by
  unfold calibrateDone
  extract_lets w stable limit ms w1 w2 u
  have hdone : stable = true := by
    simp only [stable, Bool.true_and, decide_eq_true_eq]
    exact hstable
  have hms : getO w2 Obj.SYS_CAL_MS = ms := by rw [getO_raise, getO_setO_same]
  clear_value w2 stable limit
  rw [if_pos ⟨h, .inl hdone⟩]
  refine ⟨rfl, h, ?_⟩
  have hfx (w : World) : changeFx s.ctl.mode .discover w = w := h ▸ changeFx_calibrateToDiscover w
  rw [getO_discoverAll]
  exact (getO_goTo (s := { s with w := w2 }) hfx (by decide)).trans hms

/-! ### DISCOVER -/

theorem notePixels_sup (w : World) : (notePixels w).sup = w.sup := by
  simp only [notePixels, setO_sup, updIns]
  exact foldl_keeps World.sup (fun _ _ => by split <;> rfl) _ w

theorem putTable_sup (w : World) (ix : Nat) (t : KMap Int) : (putTable w ix t).sup = w.sup :=
  foldl_keeps World.sup (fun _ _ => by rfl) t w

theorem takeDark_sup (w : World) (c m : Nat) (samples : List Nat) : (takeDark w c m samples).sup = w.sup := by
  simp only [takeDark, updIns]

theorem applyDark_sup (t : KMap Int) (w : World) : (applyDark t w).sup = w.sup := by
  simp only [applyDark, bump_sup, putTable_sup]

theorem firstDark_sup (dark : List (Nat × List Nat)) (w : World) : (firstDark dark w).sup = w.sup := by
  unfold firstDark
  extract_lets cams w1 w2 t w3
  have hdark : w2.sup = w1.sup := foldl_keeps World.sup (fun w e => takeDark_sup w e.1 0 e.2) dark w1
  split
  · rfl
  · clear_value t
    rw [notePixels_sup, tellDark, raise_sup, applyDark_sup, updIns_sup, hdark]
    exact updIns_sup _ _

/-- DISCOVER ends in IDLE, or in SAFE for a cause that waited. -/
theorem discoverDone_due {dark : List (Nat × List Nat)} {s : State} (h : s.ctl.mode = .discover)
    (hdue : s.w.sys.enterClk + secClk 2 ≤ s.w.clk) : (discoverDone dark s).ctl.prev = .discover ∧
      (discoverDone dark s).ctl.mode = if s.w.sup.safePending then .safe else .idle := by
  unfold discoverDone
  extract_lets all w up w' y
  have hsup : w'.sup = s.w.sup := by rw [raise_sup, firstDark_sup]
  rw [if_pos ⟨h, .inr hdue⟩, hsup]
  clear_value w' y
  split
  · exact ⟨h, rfl⟩
  · exact ⟨h, rfl⟩

end Sys2Proof.Machine
end

section
/-! Obligation O37, from the rules of the phases. -/
open Sys2Proof Sys2Proof.Machine

/-- Settles O37. -/
theorem startupPhases : Obligations.StartupPhases := by
  refine fun s => ⟨fun f h => ?selftest, fun sinks first later h hstable => ?calibrate, fun dark h hdue => ?discover⟩
  case selftest => exact ⟨_, onState_runState (selftestDone f) s, selftestDone_ctl (s := fresh s) h⟩
  case calibrate =>
    obtain ⟨hmode, hprev, hms⟩ := calibrateDone_stable (sinks := sinks) (first := first) (later := later)
      (s := fresh s) h hstable
    refine ⟨_, onState_runState (calibrateDone true sinks first later) s, hmode, hprev, ?_⟩
    rw [runState, getO_settle _ (by decide) (by decide), hms]
    rfl
  case discover => exact ⟨_, onState_runState (discoverDone dark) s, discoverDone_due (s := fresh s) h hdue⟩

end

section
/-! SUPPORT. What ARM, PAUSE and RESUME keep of the links and of SYS_CMD (R440 to R442): no arrival waits after ARM that
did not wait before it. -/

namespace Sys2Proof.Machine

/-! ### Arrivals that wait -/

/-- The arrivals that wait at the links (R260). -/
def arrivals (w : World) : List Bool := w.links.map fun l => l.arrival.isSome

theorem any_arrival (w : World) : w.links.any (·.arrival.isSome) = (arrivals w).any id := by
  simp only [arrivals, List.any_map, Function.comp_def, id_eq]

theorem arrivals_updLink {f : Link → Link} (hf : ∀ l, (f l).arrival = l.arrival) (w : World) (i : Nat) :
    arrivals (updLink w i f) = arrivals w := by
  simp only [arrivals, updLink, setLink, linkAt, List.map_set, hf]
  refine List.ext_getElem? fun j => ?_
  rw [List.getElem?_set]
  split
  next hij =>
    subst hij
    split
    next hlen =>
      rw [List.length_map] at hlen
      simp [List.getElem?_eq_getElem hlen]
    next hlen =>
      rw [List.length_map] at hlen
      simp [List.getElem?_eq_none (not_lt.mp hlen)]
  next => rfl

section
variable (w : World)

theorem arrivals_send (m : OutMsg) : arrivals (send w m) = arrivals w := rfl

theorem arrivals_putBlocks (i ui : Nat) (bs : List Block) : arrivals (putBlocks w i ui bs) = arrivals w :=
  arrivals_updLink (fun _ => by rfl) w i

theorem arrivals_emitCmd (i addr op tag arg : Nat) (data : List Nat) :
    arrivals (emitCmd w i addr op tag arg data) = arrivals w := arrivals_putBlocks _ _ _ _

theorem arrivals_exitIdle (p : Nat) : arrivals (exitIdle w p) = arrivals w := by
  unfold exitIdle
  dsimp only
  split
  · rfl
  · rw [arrivals_send, arrivals_updLink (fun _ => by rfl)]
    rfl

theorem arrivals_takeTag (i : Nat) : arrivals (takeTag w i).2 = arrivals w := by
  unfold takeTag
  dsimp only
  rw [arrivals_updLink (fun _ => by rfl)]
  split
  · exact arrivals_exitIdle w i
  · rfl

theorem arrivals_sendCmd (i addr op arg : Nat) (data : List Nat) : arrivals (sendCmd w i addr op arg data) = arrivals w := by
  unfold sendCmd
  dsimp only
  split
  · rw [arrivals_updLink (fun _ => by rfl), arrivals_takeTag]
  · rw [arrivals_emitCmd, arrivals_updLink (fun _ => by rfl), arrivals_takeTag]

theorem arrivals_sendPhases (p : Nat) (sets : Nat → BarSet) (now : Bool) :
    arrivals (sendPhases w p sets now) = arrivals w :=
  foldl_keeps arrivals (fun _ _ => foldl_keeps arrivals (fun _ _ => arrivals_sendCmd _ _ _ _ _ _) _ _) _ w

theorem arrivals_of_links {a b : World} (h : b.links = a.links) : arrivals b = arrivals a := by
  rw [arrivals, h, arrivals]

theorem arrivals_setO (k : Nat) (v : Int) : arrivals (setO w k v) = arrivals w := rfl

theorem adjust_links (k r src : Nat) (a b : Int) : (adjust w k r src a b).links = w.links := by
  unfold adjust
  dsimp only
  split <;> simp -implicitDefEqProofs only [setO_links, raise_links]

theorem arrivals_adjust (k r src : Nat) (a b : Int) : arrivals (adjust w k r src a b) = arrivals w :=
  arrivals_of_links (adjust_links w k r src a b)

/-! ### ARM -/

theorem arrivals_dedupProfiles : arrivals (dedupProfiles w) = arrivals w := by
  refine foldl_keeps arrivals (fun w k => ?_) _ w
  dsimp only
  split
  · exact (arrivals_of_links (storeLater_links _ _ _)).trans ((arrivals_adjust _ _ _ _ _ _).trans (arrivals_setO w _ _))
  · rfl

theorem arrivals_applyProfile (k : Nat) : arrivals (applyProfile w k) = arrivals w := by
  unfold applyProfile
  extract_lets c w1 src w2 w3
  have hcorrected : arrivals w3 = arrivals w2 :=
    foldl_keeps (g := fun w (e : Nat × Nat × Nat) => adjust w e.1 7 0 e.2.1 e.2.2) arrivals
      (fun w e => arrivals_adjust w e.1 7 0 _ _) c w2
  clear_value w3
  split
  · rfl
  · split
    · exact hcorrected
    · split
      · exact hcorrected
      · exact hcorrected

theorem arrivals_armProfiles : arrivals (armProfiles w) = arrivals w :=
  (foldl_keeps arrivals arrivals_applyProfile _ _).trans (arrivals_dedupProfiles w)

theorem arrivals_withLck (y : Lck) : arrivals { w with lck := y } = arrivals w := rfl

theorem arrivals_armLook : arrivals (armLook w) = arrivals w := by
  unfold armLook
  dsimp only
  rw [arrivals_withLck]
  split
  · rfl
  · exact arrivals_adjust _ _ _ _ _ _

theorem arrivals_armBar (b : Nat) : arrivals (armBar w b) = arrivals w := rfl

theorem arrivals_armClock : arrivals (armClock w) = arrivals w := by
  unfold armClock
  dsimp only
  exact foldl_keeps arrivals (fun _ _ => by rfl) _ _

theorem arrivals_armPasses (b : Nat) : arrivals (armPasses w b) = arrivals w := by
  unfold armPasses takeCkpt
  dsimp only
  exact foldl_keeps arrivals (fun _ _ => by rfl) _ w

theorem arrivals_armPorts : arrivals (armPorts w) = arrivals w := by
  refine foldl_keeps arrivals (fun u p => ?_) _ w
  dsimp only
  simp only [arrivals_setO]
  rw [arrivals_updLink (fun _ => by rfl)]
  rfl

theorem arrivals_frameOrigin : arrivals (frameOrigin w).2 = arrivals w := by
  unfold frameOrigin
  split
  · split
    · dsimp only
      split
      · rfl
      · exact arrivals_adjust _ _ _ _ _ _
    · rfl
  · rfl

theorem arrivals_armFrames : arrivals (armFrames w) = arrivals w := by
  refine .trans ?_ (arrivals_frameOrigin w)
  unfold armFrames
  dsimp only
  split_ifs <;> rfl

theorem arrivals_armCompose : arrivals (armCompose w) = arrivals w := by
  unfold armCompose
  dsimp only
  rw [arrivals_setO, arrivals_setO]
  rfl

theorem arrivals_armLoop : arrivals (armLoop w) = arrivals w := rfl

theorem arrivals_armWorld : arrivals (armWorld w) = arrivals w := by
  unfold armWorld
  extract_lets w1 w2 w3 w4 w5 w6 _ _ _ w7
  have hlook : arrivals w1 = arrivals w := (arrivals_armLook (armProfiles w)).trans (arrivals_armProfiles w)
  have hbars : arrivals w2 = arrivals w1 := foldl_keeps arrivals arrivals_armBar (List.range 8) w1
  have hpasses : arrivals w4 = arrivals w2 :=
    (foldl_keeps arrivals arrivals_armPasses (List.range 8) w3).trans (arrivals_armClock w2)
  have hports : arrivals w5 = arrivals w4 := (arrivals_armPorts _).trans (arrivals_armFrames w4)
  have hloop : arrivals w6 = arrivals w5 := (arrivals_armLoop (armCompose w5)).trans (arrivals_armCompose w5)
  clear_value w6 w5 w4 w2 w1
  have hlast : arrivals w7 = arrivals w6 := arrivals_of_links rfl
  clear_value w7
  refine (foldl_keeps arrivals (fun u p => arrivals_sendPhases u p _ _) _ w7).trans ?_
  rw [hlast, hloop, hports, hpasses, hbars, hlook]

end

/-! ### The commands -/

theorem settleArrivals_none {s : State} (h : s.w.links.any (·.arrival.isSome) = false) : settleArrivals s = s :=
  if_neg fun ⟨_, _, hsome⟩ => absurd (h.symm.trans hsome) Bool.false_ne_true

theorem noteChl_links (m : DevState) (w : World) : (noteChl m w).links = w.links := by
  unfold noteChl
  dsimp only
  split <;> rfl

theorem dropCapture_links (w : World) : (dropCapture w).links = w.links := by
  unfold dropCapture
  split <;> rfl

theorem changeFx_idleToArmed_links (w : World) : (changeFx .idle .armed w).links = w.links := dropCapture_links w

theorem changeFx_armedToPaused (w : World) : changeFx .armed .paused w = w := rfl

theorem changeFx_pausedToArmed (w : World) : changeFx .paused .armed w = w := rfl

theorem setMode_links (cause : Nat) (m : DevState) (s : State) : (setMode cause m s).w.links = s.w.links := rfl

/-- ARM in IDLE without a condition of SYS_ARM_BLOCK. -/
theorem cmdArm_accepted (source : Nat) {s : State} (hidle : s.ctl.mode = .idle) (hblock : armBlock s.w = 0)
    (harrival : s.w.links.any (·.arrival.isSome) = false) :
    cmdArm source s = goTo 1 .armed { s with w := armWorld s.w } := by
  have hlinks : (goTo 1 .armed { s with w := armWorld s.w }).w.links = (armWorld s.w).links := by
    unfold goTo
    dsimp only
    rw [noteChl_links, hidle, changeFx_idleToArmed_links, setMode_links]
  have hnone : (goTo 1 .armed { s with w := armWorld s.w }).w.links.any (·.arrival.isSome) = false := by
    rw [hlinks, any_arrival, arrivals_armWorld, ← any_arrival]
    exact harrival
  unfold cmdArm
  simp only [hidle, hblock, ne_eq, not_true_eq_false, if_false]
  exact settleArrivals_none hnone

theorem cmdPause_armed (source : Nat) {s : State} (harmed : s.ctl.mode = .armed)
    (harrival : s.w.links.any (·.arrival.isSome) = false) : cmdPause source s = goTo 1 .paused s := by
  have hlinks : (goTo 1 .paused s).w.links = s.w.links := by
    unfold goTo
    dsimp only
    rw [noteChl_links, harmed, changeFx_armedToPaused, setMode_links]
  unfold cmdPause
  rw [harmed]
  exact settleArrivals_none (hlinks ▸ harrival)

/-- PAUSE in PRINTING waits for the frames that are open. -/
theorem cmdPause_printing (source : Nat) {s : State} (hprint : s.ctl.mode = .printing)
    (hopen : s.w.job.frames.any (fun f => !f.done) = true) :
    cmdPause source s = { s with w := { s.w with sys := { s.w.sys with pausePending := true } } } := by
  have hnot : s.w.job.frames.all (·.done) = false := by
    rw [← Bool.not_eq_true, List.all_eq_not_any_not, hopen]
    decide
  unfold cmdPause
  rw [hprint]
  refine if_neg fun ⟨_, _, hcomplete⟩ => ?_
  simp [pauseComplete, hnot] at hcomplete

theorem resumeFrames_sys (m : DevState) (w : World) :
    (resumeFrames m w).sys = { w.sys with pausePending := false } := by
  unfold resumeFrames
  dsimp only
  split_ifs <;> rfl

theorem cmdResume_paused (source : Nat) {s : State} (hpaused : s.ctl.mode = .paused) :
    (cmdResume source s).ctl.mode = .armed ∧ (cmdResume source s).ctl.prev = .paused ∧
      (cmdResume source s).w.sys.pausePending = false := by
  unfold cmdResume
  rw [if_pos hpaused]
  refine ⟨rfl, hpaused, ?_⟩
  unfold goTo
  dsimp only
  rw [noteChl_sys, hpaused, changeFx_pausedToArmed, setMode_sys, resumeFrames_sys]

theorem cmdStop_accepted (source : Nat) {s : State} (h : inPrint s.ctl.mode = true ∨ s.ctl.mode = .service) :
    cmdStop source s = goTo 1 .idle s := if_pos h

theorem goTo_ctl (cause : Nat) (new : DevState) (s : State) :
    (goTo cause new s).ctl = { s.ctl with mode := new, prev := s.ctl.mode } := rfl

/-! ### Writes of SYS_CMD -/

section
variable (e : WriteEnv) (u : State)

theorem steps6to8_sysCmdArm : steps6to8 e Obj.SYS_CMD (valueBytes Obj.SYS_CMD 1) u = cmdArm (pathSource e.path) u := by
  rw [steps6to8_action (k := Obj.SYS_CMD) rfl rfl rfl]
  rfl

theorem steps6to8_sysCmdPause :
    steps6to8 e Obj.SYS_CMD (valueBytes Obj.SYS_CMD 2) u = cmdPause (pathSource e.path) u := by
  rw [steps6to8_action (k := Obj.SYS_CMD) rfl rfl rfl]
  rfl

theorem steps6to8_sysCmdResume :
    steps6to8 e Obj.SYS_CMD (valueBytes Obj.SYS_CMD 3) u = cmdResume (pathSource e.path) u := by
  rw [steps6to8_action (k := Obj.SYS_CMD) rfl rfl rfl]
  rfl

theorem steps6to8_sysCmdStop : steps6to8 e Obj.SYS_CMD (valueBytes Obj.SYS_CMD 4) u = cmdStop (pathSource e.path) u := by
  rw [steps6to8_action (k := Obj.SYS_CMD) rfl rfl rfl]
  rfl

end

end Sys2Proof.Machine
end

section
/-! Obligation O39, from the rules of SYS_CMD. -/
open Sys2Proof Sys2Proof.Machine

/-- Settles O39. -/
theorem systemCommands : Obligations.SystemCommands := by
  refine fun e s u => ⟨fun hpass hidle hblock harrival => ?arm, fun hpass harmed harrival => ?pause,
    fun hpass hprint hopen => ?pending, fun hpass hpaused => ?resume, fun hpass h => ?stop⟩
  case arm =>
    obtain ⟨out, rep, hrun⟩ := runWrite_answered hpass
      ((steps6to8_sysCmdArm e u).trans (cmdArm_accepted (pathSource e.path) hidle hblock harrival))
    exact ⟨_, hrun, rfl, hidle⟩
  case pause =>
    obtain ⟨out, rep, hrun⟩ := runWrite_answered hpass
      ((steps6to8_sysCmdPause e u).trans (cmdPause_armed (pathSource e.path) harmed harrival))
    exact ⟨_, hrun, rfl, harmed⟩
  case pending =>
    obtain ⟨out, rep, hrun⟩ := runWrite_answered hpass
      ((steps6to8_sysCmdPause e u).trans (cmdPause_printing (pathSource e.path) hprint hopen))
    refine ⟨_, hrun, hprint, ?_⟩
    rw [answered_sys]
  case resume =>
    obtain ⟨out, rep, hrun⟩ := runWrite_answered hpass (steps6to8_sysCmdResume e u)
    obtain ⟨hmode, hprev, hpending⟩ := cmdResume_paused (pathSource e.path) hpaused
    exact ⟨_, hrun, hmode, hprev, (congrArg Sys.pausePending (answered_sys _ _ _)).trans hpending⟩
  case stop =>
    obtain ⟨out, rep, hrun⟩ := runWrite_answered hpass
      ((steps6to8_sysCmdStop e u).trans (cmdStop_accepted (pathSource e.path) h))
    exact ⟨_, hrun, rfl, rfl⟩

end

section
/-! SUPPORT. The host core, the analysis engines and the deadlines (R395 to R398, R408). -/

namespace Sys2Proof.Machine

theorem onWorld_always (f : World → World) (s : State) : onWorld (fun _ w => f w) s = .next (runMeaning f s) := rfl

/-! ### Deadlines -/

theorem getO_withSup (w : World) (y : Sup) (k : Nat) : getO { w with sup := y } k = getO w k := rfl

theorem getO_dlMiss (w : World) (n us k : Nat) : getO (dlMiss w n us) k = getO (bump w (Obj.SUP_DL_MISS (n - 1))) k := by
  unfold dlMiss
  dsimp only
  split
  · rw [getO_raise, getO_withSup]
  · rfl

theorem getO_dlMiss_ne (w : World) {n us k : Nat} (h : Obj.SUP_DL_MISS (n - 1) ≠ k) :
    getO (dlMiss w n us) k = getO w k := (getO_dlMiss w n us k).trans (getO_bump_ne w h)

theorem getN_dlMiss_same (w : World) (n us : Nat) : getN (dlMiss w n us) (Obj.SUP_DL_MISS (n - 1)) =
    (getN w (Obj.SUP_DL_MISS (n - 1)) + 1) % 4294967296 :=
  (getN_congr (getO_dlMiss w n us _)).trans (getN_bump_same w _)

/-- A missed deadline moves the stamp of its event and no other field of the block. -/
theorem dlMiss_sup (w : World) (n us : Nat) : { (dlMiss w n us).sup with dlStamp := w.sup.dlStamp } = w.sup := by
  unfold dlMiss
  dsimp only
  split <;> rfl

@[simp] theorem dlMiss_clk (w : World) (n us : Nat) : (dlMiss w n us).clk = w.clk := by
  unfold dlMiss
  dsimp only
  split <;> rfl

@[simp] theorem dlMiss_sys (w : World) (n us : Nat) : (dlMiss w n us).sys = w.sys := by
  unfold dlMiss
  dsimp only
  split <;> rfl

theorem dlMiss_hostFails (w : World) (n us : Nat) : (dlMiss w n us).sup.hostFails = w.sup.hostFails := by
  have hsup := congrArg Sup.hostFails (dlMiss_sup w n us)
  exact hsup

/-! ### The host core -/

theorem hostServing_congr {a b : World} (hsys : b.sys = a.sys) (hstate : getO b Obj.SUP_HOST_STATE = getO a Obj.SUP_HOST_STATE) :
    hostServing b = hostServing a := by simp only [hostServing, hsys, hstate]

/-- What a failure of the host core leaves (R395). -/
structure HostFailed (a b : World) : Prop where
  restarts : (recent600 a a.sup.hostFails).length + 1 < getN a Obj.SUP_HOST_RESTART_MAX →
    getO b Obj.SUP_HOST_STATE = 1 ∧ b.sup.hostClk = a.clk ∧
      b.sup.hostFails = recent600 a a.sup.hostFails ++ [a.clk] ∧
      getN b Obj.SUP_HOST_RESTARTS = (getN a Obj.SUP_HOST_RESTARTS + 1) % 4294967296
  heldOut : getN a Obj.SUP_HOST_RESTART_MAX ≤ (recent600 a a.sup.hostFails).length + 1 →
    getO b Obj.SUP_HOST_STATE = 2 ∧ getN b Obj.SUP_STOP_SRC = setBit (getN a Obj.SUP_STOP_SRC) 9 true

theorem hostRestart_leaves (w : World) (n : Nat) : getO (hostRestart w n) Obj.SUP_HOST_STATE = 1 ∧
    (hostRestart w n).sup.hostClk = w.clk ∧ (hostRestart w n).sup.hostFails = w.sup.hostFails ∧
    getN (hostRestart w n) Obj.SUP_HOST_RESTARTS = (getN w Obj.SUP_HOST_RESTARTS + 1) % 4294967296 := by
  have hobj (k : Nat) : getO (hostRestart w n) k = getO (setO (bump w Obj.SUP_HOST_RESTARTS) Obj.SUP_HOST_STATE 1) k := by
    rw [hostRestart, getO_raise, getO_updSup]
  refine ⟨by rw [hobj, getO_setO_same], rfl, rfl, ?_⟩
  rw [getN_congr (hobj _), getN_setO_ne _ _ (by decide), getN_bump_same]

/-- The failures of the last 600 s and the one of now. -/
def failuresNow (w : World) : List Nat := recent600 w w.sup.hostFails ++ [w.clk]

/-- The world with that list kept. -/
def notedFailure (w : World) : World := updSup w fun x => { x with hostFails := failuresNow w }

theorem failuresNow_length (w : World) : (failuresNow w).length = (recent600 w w.sup.hostFails).length + 1 :=
  List.length_append

theorem hostFail_eq {w : World} (h : hostServing w = true) : hostFail w =
    if getN w Obj.SUP_HOST_RESTART_MAX ≤ (failuresNow w).length then
      raise (stopSrc (setO (notedFailure w) Obj.SUP_HOST_STATE 2) 9 true) Ev.SUP_RESTART 0
        (3221225472 + (failuresNow w).length % 65536)
    else hostRestart (notedFailure w) (failuresNow w).length := by
  unfold hostFail
  rw [if_neg (not_not.mpr h)]
  rfl

theorem hostFail_failed {w : World} (h : hostServing w = true) : HostFailed w (hostFail w) := by
  rw [hostFail_eq h, failuresNow_length]
  constructor
  · intro hfew
    rw [if_neg (not_le.mpr hfew)]
    obtain ⟨hstate, hclk, hfails, hcount⟩ := hostRestart_leaves (notedFailure w)
      ((recent600 w w.sup.hostFails).length + 1)
    exact ⟨hstate, hclk, hfails, hcount⟩
  · intro hmany
    rw [if_pos hmany]
    constructor
    · rw [getO_raise, getO_stopSrc_ne _ _ _ (by decide), getO_setO_same]
    · rw [getN_raise, getN_stopSrc, getN_setO_ne _ _ (by decide)]
      rfl

theorem HostFailed.trans {a b c : World} (hclk : b.clk = a.clk) (hfails : b.sup.hostFails = a.sup.hostFails)
    (hobj : ∀ k, k = Obj.SUP_HOST_RESTART_MAX ∨ k = Obj.SUP_HOST_RESTARTS ∨ k = Obj.SUP_STOP_SRC → getO b k = getO a k)
    (h : HostFailed b c) : HostFailed a c := by
  obtain ⟨hrestarts, hout⟩ := h
  have hmax := getN_congr (hobj Obj.SUP_HOST_RESTART_MAX (.inl rfl))
  have hcount := getN_congr (hobj Obj.SUP_HOST_RESTARTS (.inr (.inl rfl)))
  have hstop := getN_congr (hobj Obj.SUP_STOP_SRC (.inr (.inr rfl)))
  have hrecent : recent600 b b.sup.hostFails = recent600 a a.sup.hostFails := by rw [recent600, hclk, hfails, recent600]
  rw [hrecent, hmax, hcount, hclk] at hrestarts
  rw [hrecent, hmax, hstop] at hout
  exact ⟨hrestarts, hout⟩

theorem hostSignal_kept {w : World} (h : hostServing w = true)
    (hdue : msClk (getN w Obj.SUP_HOST_WD_MS) ≤ 4 * (w.clk - w.sup.hostClk)) :
    hostSignal w = updSup w fun x => { x with hostClk := w.clk } :=
  (if_neg (not_not.mpr h)).trans (if_neg (not_lt.mpr hdue))

theorem hostSignal_early {w : World} (h : hostServing w = true)
    (hearly : 4 * (w.clk - w.sup.hostClk) < msClk (getN w Obj.SUP_HOST_WD_MS)) : hostSignal w = hostFail w :=
  (if_neg (not_not.mpr h)).trans (if_pos hearly)

theorem hostTimeout_failed {w : World} (h : hostServing w = true)
    (hlate : w.sup.hostClk + msClk (getN w Obj.SUP_HOST_WD_MS) ≤ w.clk) : HostFailed w (hostTimeout w) := by
  have hrun : ∃ us, hostTimeout w = hostFail (dlMiss w 7 us) := ⟨_, if_pos ⟨h, hlate⟩⟩
  obtain ⟨us, hrun⟩ := hrun
  have hserve : hostServing (dlMiss w 7 us) = true :=
    (hostServing_congr (dlMiss_sys w 7 us) (getO_dlMiss_ne w (by decide))).trans h
  rw [hrun]
  refine (hostFail_failed hserve).trans (dlMiss_clk w 7 us) (dlMiss_hostFails w 7 us) ?_
  rintro k (rfl | rfl | rfl)
  · exact getO_dlMiss_ne w (by decide)
  · exact getO_dlMiss_ne w (by decide)
  · exact getO_dlMiss_ne w (by decide)

/-- Each failure of the host core: a signal too early, none in time, a trap. -/
theorem exec_hostFailed {c : Instr} {s : State} (hserve : hostServing s.w = true)
    (hc : (c = .hostWdSignal ∧ 4 * (s.w.clk - s.w.sup.hostClk) < msClk (getN s.w Obj.SUP_HOST_WD_MS)) ∨
      (c = .hostWdTimeout ∧ s.w.sup.hostClk + msClk (getN s.w Obj.SUP_HOST_WD_MS) ≤ s.w.clk) ∨ c = .hostTrap) :
    ∃ f, exec c s = .next (runMeaning f s) ∧ HostFailed (fresh s).w (f (fresh s).w) := by
  have hserve' : hostServing (fresh s).w = true := hserve
  rcases hc with ⟨rfl, hearly⟩ | ⟨rfl, hlate⟩ | rfl
  · exact ⟨hostSignal, rfl, (hostSignal_early hserve' hearly) ▸ hostFail_failed hserve'⟩
  · exact ⟨hostTimeout, rfl, hostTimeout_failed hserve' hlate⟩
  · exact ⟨hostFail, rfl, hostFail_failed hserve'⟩

theorem hostRestarted_serves {w : World} (h : getO w Obj.SUP_HOST_STATE = 1) : ∃ data, hostRestarted w =
    raise (updSup (setO w Obj.SUP_HOST_STATE 0) fun x => { x with hostClk := w.clk }) Ev.SUP_RESTART 0 data :=
  ⟨_, if_neg (not_not.mpr h)⟩

/-- Without a close that waits, the end of the restart is all (R396). -/
theorem restartCloses_none {w : World} (h : ∀ b ∈ w.net.bulkIn, b.closing = none)
    (hnet : (hostRestarted w).net = w.net) : restartCloses w = hostRestarted w := by
  unfold restartCloses
  extract_lets u
  split
  · exact foldl_keeps_mem id (fun v b hb => by rw [h b (hnet ▸ hb)]) u
  · rfl

/-! ### The analysis engines -/

theorem getD_modify_same {α : Type} {l : List α} {i : Nat} (h : i < l.length) (f : α → α) (d : α) :
    (l.modify i f).getD i d = f (l.getD i d) := by
  simp [List.getD_eq_getElem?_getD, List.getElem?_eq_getElem h]

@[simp] theorem noteChl_sup (m : DevState) (w : World) : (noteChl m w).sup = w.sup := by
  unfold noteChl
  dsimp only
  split <;> rfl

section
variable {e : Nat} {m : DevState} {w : World}

/-- An engine that misses its watchdog stops; on the third failure within 600 s it is out. -/
theorem engineTimeout_sup (hserve : (w.sup.engines.getD e Engine.reset).serving = true) :
    (engineTimeout e m w).sup = { w.sup with engines := w.sup.engines.modify e fun g =>
      { g with serving := false
               out := decide (3 ≤ (recent600 w (w.sup.engines.getD e Engine.reset).fails ++ [w.clk]).length)
               fails := recent600 w (w.sup.engines.getD e Engine.reset).fails ++ [w.clk]
               clk := w.clk } } := by
  unfold engineTimeout
  dsimp only
  rw [if_neg (not_not.mpr hserve), noteChl_sup, raise_sup]
  split <;> rfl

theorem getN_engineTimeout_miss (hserve : (w.sup.engines.getD e Engine.reset).serving = true) :
    getN (engineTimeout e m w) (Obj.SUP_DL_MISS 6) = (getN w (Obj.SUP_DL_MISS 6) + 1) % 4294967296 := by
  refine .trans ?_ (getN_bump_same w (Obj.SUP_DL_MISS 6))
  refine getN_congr ?_
  unfold engineTimeout
  dsimp only
  rw [if_neg (not_not.mpr hserve), getO_noteChl _ _ (by decide), getO_raise]
  split
  · rw [getO_updSup]
  · rw [getO_bump_ne _ (by decide), getO_updSup]

theorem engineRestarted_sup (hserve : (w.sup.engines.getD e Engine.reset).serving = false)
    (hout : (w.sup.engines.getD e Engine.reset).out = false) : (engineRestarted e m w).sup =
      { w.sup with engines := w.sup.engines.modify e fun g => { g with serving := true, clk := w.clk } } := by
  unfold engineRestarted
  dsimp only
  rw [if_neg (by simp only [hserve, hout, Bool.false_eq_true, or_self, not_false_eq_true]), noteChl_sup, raise_sup]
  rfl

end

end Sys2Proof.Machine
end

section
/-! Obligation O28, from the rules of the watchdogs and deadlines. -/
open Sys2Proof Sys2Proof.Machine

/-- Settles O28. -/
theorem hostEnginesAndDeadlines : Obligations.HostEnginesAndDeadlines := by
  refine ⟨fun s hserve => ⟨fun hdue => ?signal, fun c hc => ⟨fun hfew => ?restart, fun hmany => ?heldOut⟩⟩, fun s =>
    ⟨fun hstate hnone => ?restarted, fun e he hlen hon => ⟨fun hserve => ?engineOut, fun hserve hout => ?engineBack⟩,
      fun us hon => ⟨?checkpoint, ?sync⟩⟩⟩
  case signal =>
    have hdone := hostSignal_kept (w := (fresh s).w) hserve hdue
    refine ⟨_, onWorld_always hostSignal s, ?_, WorldFrame.touches ?_⟩
    · rw [runMeaning, settle_sup, hdone]
      rfl
    · rw [hdone]
      exact worldFrame_sup _ (List.mem_singleton.mpr rfl) _
  case restart =>
    obtain ⟨f, hrun, hfailed⟩ := exec_hostFailed hserve hc
    obtain ⟨hstate, hclk, hfails, hcount⟩ := hfailed.restarts hfew
    refine ⟨_, hrun, rfl, ?_, ?_, ?_, ?_⟩
    · rw [getO_runMeaning _ _ (by decide), hstate]
    · rw [runMeaning, settle_sup, hclk]
      rfl
    · rw [runMeaning, settle_sup, hfails]
      rfl
    · rw [getN_runMeaning _ _ (by decide), hcount]
      rfl
  case heldOut =>
    obtain ⟨f, hrun, hfailed⟩ := exec_hostFailed hserve hc
    obtain ⟨hstate, hstop⟩ := hfailed.heldOut hmany
    refine ⟨_, hrun, rfl, ?_, ?_⟩
    · rw [getO_runMeaning _ _ (by decide), hstate]
    · rw [getN_runMeaning _ _ (by decide), hstop]
      rfl
  case restarted =>
    obtain ⟨data, hserves⟩ := hostRestarted_serves (w := (fresh s).w) hstate
    have hdone := (restartCloses_none (w := (fresh s).w) hnone (by rw [hserves]; rfl)).trans hserves
    refine ⟨_, onWorld_always restartCloses s, ?_, ?_, WorldFrame.touches ?_⟩
    · rw [getO_runMeaning _ _ (by decide), hdone, getO_raise, getO_updSup, getO_setO_same]
    · rw [runMeaning, settle_sup, hdone]
      rfl
    · rw [hdone]
      exact ((worldFrame_setO _ (by decide) _).trans (worldFrame_sup _ (List.mem_singleton.mpr rfl) _)).trans
        (worldFrame_raise _ _ _ _)
  case engineOut =>
    have hsup := engineTimeout_sup (m := s.ctl.mode) (w := (fresh s).w) hserve
    have hguard : (decide (e < 2) && powered s.ctl.mode) = true := by simp [he, hon]
    refine ⟨_, onWorld_whenDo (c := fun c => decide (e < 2) && powered c.mode) (fun c => engineTimeout e c.mode) hguard,
      rfl, ?_, ?_, ?_⟩
    · rw [runMeaning, settle_sup, hsup]
      exact congrArg Engine.serving (getD_modify_same hlen _ _)
    · rw [runMeaning, settle_sup, hsup]
      refine (congrArg Engine.out (getD_modify_same hlen _ _)).trans ?_
      rw [List.length_append]
      exact decide_eq_decide.mpr (Nat.add_le_add_iff_right (m := 2) (n := 1))
    · rw [getN_runMeaning _ _ (by decide), getN_engineTimeout_miss (w := (fresh s).w) hserve]
      rfl
  case engineBack =>
    have hsup := engineRestarted_sup (m := s.ctl.mode) (w := (fresh s).w) hserve hout
    have hguard : (decide (e < 2) && powered s.ctl.mode) = true := by simp [he, hon]
    refine ⟨_, onWorld_whenDo (c := fun c => decide (e < 2) && powered c.mode) (fun c => engineRestarted e c.mode) hguard,
      rfl, ?_⟩
    rw [runMeaning, settle_sup, hsup]
    exact congrArg Engine.serving (getD_modify_same hlen _ _)
  case checkpoint =>
    refine ⟨_, onWorld_powered (deadline 3 us) hon, rfl, ?_, ?_⟩
    · rw [getN_runMeaning _ _ (by decide), deadline, getN_congr (getO_dlMiss_ne _ (by decide)), getN_bump_same]
      rfl
    · rw [getN_runMeaning _ _ (by decide)]
      refine (getN_dlMiss_same (bump (fresh s).w Obj.SUP_CKPT_LATE) 3 us).trans ?_
      rw [getN_bump_ne _ (by decide)]
      rfl
  case sync =>
    refine ⟨_, onWorld_powered (deadline 6 us) hon, rfl, ?_⟩
    rw [getN_runMeaning _ _ (by decide)]
    exact getN_dlMiss_same (fresh s).w 6 us

end

section
/-! SUPPORT. The power governor and thermal shutdown (R417 to R423). -/

namespace Sys2Proof.Machine

theorem getN_updThm (w : World) (f : Thm → Thm) (k : Nat) : getN (updThm w f) k = getN w k := rfl

/-! ### Shedding levels -/

theorem getO_noteGen_ne (w : World) {k : Nat} (hk : Obj.MUS_GEN_STATE ≠ k) : getO (noteGen w) k = getO w k := by
  unfold noteGen
  dsimp only
  split_ifs
  · rw [getO_raise, getO_setO_ne _ _ hk]
  · rw [getO_raise, getO_setO_ne _ _ hk]
  · rw [getO_setO_ne _ _ hk]

theorem noteGen_thm (w : World) : (noteGen w).thm = w.thm := by
  unfold noteGen
  dsimp only
  split_ifs <;> rfl

theorem setLevel_thm (w : World) (l : Nat) : (setLevel w l).thm = { w.thm with levelClk := w.clk } := by
  unfold setLevel
  dsimp only
  rw [noteGen_thm]
  rfl

theorem getO_setLevel (w : World) (l : Nat) {k : Nat} (hk : Obj.MUS_GEN_STATE ≠ k) :
    getO (setLevel w l) k = getO (setO w Obj.THM_SHED_LEVEL l) k := by
  unfold setLevel
  dsimp only
  rw [getO_noteGen_ne _ hk, getO_raise, getO_updThm]

theorem worldFrame_updThm {objs : Nat → Bool} (w : World) (f : Thm → Thm) : WorldFrame [.thm] objs w (updThm w f) :=
  worldFrame_thm w (List.mem_singleton.mpr rfl) _

theorem worldFrame_noteGen {parts : List Part} {objs : Nat → Bool} (w : World) (hk : objs Obj.MUS_GEN_STATE = true) :
    WorldFrame parts objs w (noteGen w) := by
  have hset : WorldFrame parts objs w (setO w Obj.MUS_GEN_STATE (genState w)) := worldFrame_setO w hk _
  unfold noteGen
  dsimp only
  exact .ite (hset.raise _ _ _) (.ite (hset.raise _ _ _) hset)

theorem worldFrame_setLevel {objs : Nat → Bool} (w : World) (l : Nat) (hlevel : objs Obj.THM_SHED_LEVEL = true)
    (hgen : objs Obj.MUS_GEN_STATE = true) : WorldFrame [.thm] objs w (setLevel w l) :=
  .trans (.trans (.trans (worldFrame_setO w hlevel _) (worldFrame_updThm _ _)) (worldFrame_raise _ _ _ _))
    (worldFrame_noteGen _ hgen)

/-- The speed of the rows depends on no part of the governor and on none of its objects. -/
theorem frowHz_congr {objs : Nat → Bool} {a b : World} (h : WorldFrame [.thm] objs a b)
    (hmode : objs Obj.LCK_ROW_MODE = false) (hres : objs Obj.LCK_RES_MODE = false)
    (hlpc : ∀ n, objs (Obj.WEB_ENC_LPC n) = false) : frowHz b = frowHz a := by
  obtain ⟨hpart, hobj⟩ := h
  have hclk : b.clk = a.clk := hpart .clk (by decide)
  have htim : b.tim = a.tim := hpart .tim (by decide)
  have hweb : b.web = a.web := hpart .web (by decide)
  have hlck : b.lck = a.lck := hpart .lck (by decide)
  have hjq : b.jq = a.jq := hpart .jq (by decide)
  have hspace (n : Nat) (x : Int) : setSpacing (setFor b n x) = setSpacing (setFor a n x) := by
    simp only [setFor, barAt, hjq]
    cases pickSet (a.jq.bars.getD n BarJq.reset).sets x
    · simp only [Option.getD_none, makeSet, setSpacing, hobj _ hmode, hobj _ hres, hlck]
    · rfl
  have hper (n : Nat) : lpcOf b n = lpcOf a n := getN_congr (hobj _ (hlpc n))
  have hedge : edgeElapsed b = edgeElapsed a := by rw [edgeElapsed, nowEt, htim, hweb, hclk, edgeElapsed, nowEt]
  have hmag : speedMag b = speedMag a := by rw [speedMag, hweb, hper, hedge, speedMag]
  have hrow (r : Nat) : rowDemand b r = rowDemand a r := by
    simp only [rowDemand, nextSet, rowAt, hlck, demandAt, hspace, speedLps, hmag, hweb]
  simp only [frowHz, hrow]

theorem getO_setCeiling (w : World) (v : Nat) : getN (setCeiling w v) Obj.LCK_CEIL_HZ = v := by
  unfold setCeiling
  split
  · assumption
  · rw [getN_raise, getN_setO_same, Int.toNat_natCast]

theorem getO_setCeiling_ne (w : World) (v : Nat) {k : Nat} (hk : Obj.LCK_CEIL_HZ ≠ k) :
    getO (setCeiling w v) k = getO w k := by
  unfold setCeiling
  split
  · rfl
  · rw [getO_raise, getO_setO_ne _ _ hk]

theorem setCeiling_thm (w : World) (v : Nat) : (setCeiling w v).thm = w.thm := by
  unfold setCeiling
  split <;> rfl

theorem lowerCeiling_thm (w : World) : (lowerCeiling w).thm = { w.thm with lowerClk := w.clk, underClk := none } := by
  rw [lowerCeiling, setCeiling_thm]
  rfl

/-! ### GOV_EVAL -/

/-- The world once the input power is taken. -/
def powerTaken (pin : Nat) (w : World) : World := noteGov (setO w Obj.THM_P_IN (min 65535 pin : Nat))

section
variable (pin : Nat) (s : State)

theorem getO_noteGov (w : World) (k : Nat) : getO (noteGov w) k = getO w k := rfl

theorem getO_powerTaken_pin : getO (powerTaken pin s.w) Obj.THM_P_IN = (min 65535 pin : Nat) := by
  rw [powerTaken, getO_noteGov, getO_setO_same]

theorem getO_powerTaken_ne {k : Nat} (hk : Obj.THM_P_IN ≠ k) : getO (powerTaken pin s.w) k = getO s.w k := by
  rw [powerTaken, getO_noteGov, getO_setO_ne _ _ hk]

theorem worldFrame_powerTaken : WorldFrame [.thm] (objsOf [Obj.THM_P_IN]) s.w (powerTaken pin s.w) := by
  refine (worldFrame_setO s.w ?_ _).trans (worldFrame_thm _ ?_ _)
  all_goals decide

end

/-- At or below the limit the level stays. -/
theorem govEval_within {pin : Nat} {s : State} (h : ((min 65535 pin : Nat) : Int) ≤ getO s.w Obj.THM_PLIM_EFF) :
    govEval pin s = { s with w := powerTaken pin s.w } := by
  have hle : getO (powerTaken pin s.w) Obj.THM_P_IN ≤ getO (powerTaken pin s.w) Obj.THM_PLIM_EFF := by
    rw [getO_powerTaken_pin, getO_powerTaken_ne _ _ (by decide)]
    exact h
  exact if_pos hle

/-- The next level, which at level 4 lowers the ceiling (R417). -/
def shedTo (l : Nat) (w : World) : World := if l = 4 then lowerCeiling (setLevel w l) else setLevel w l

/-- Above the limit for the time of a level, the next level is taken. -/
theorem govEval_above {pin : Nat} {s : State} (h : getO s.w Obj.THM_PLIM_EFF < ((min 65535 pin : Nat) : Int))
    (hdue : s.w.thm.levelClk + msClk 500 ≤ s.w.clk) (hlevel : getN s.w Obj.THM_SHED_LEVEL < 4) :
    govEval pin s = { s with w := shedTo (getN s.w Obj.THM_SHED_LEVEL + 1) (powerTaken pin s.w) } := by
  have hkept : getN (powerTaken pin s.w) Obj.THM_SHED_LEVEL = getN s.w Obj.THM_SHED_LEVEL :=
    getN_congr (getO_powerTaken_ne pin s (by decide))
  have hnot : ¬getO (powerTaken pin s.w) Obj.THM_P_IN ≤ getO (powerTaken pin s.w) Obj.THM_PLIM_EFF := by
    rw [getO_powerTaken_pin, getO_powerTaken_ne _ _ (by decide)]
    exact not_le.mpr h
  rw [← hkept] at hlevel ⊢
  exact (if_neg hnot).trans ((if_pos hlevel).trans (if_pos hdue))

theorem shedTo_below {l : Nat} (h : l < 4) (w : World) : shedTo l w = setLevel w l := if_neg h.ne

theorem govEval_last {pin : Nat} {s : State} (h : getO s.w Obj.THM_PLIM_EFF < ((min 65535 pin : Nat) : Int))
    (hdue : s.w.thm.levelClk + msClk 500 ≤ s.w.clk) (hlevel : getN s.w Obj.THM_SHED_LEVEL = 3) :
    govEval pin s = { s with w := lowerCeiling (setLevel (powerTaken pin s.w) 4) } := by
  rw [govEval_above h hdue (by omega), hlevel]
  rfl

/-- The objects that an evaluation of the governor writes. -/
abbrev govObjs : Nat → Bool := objsOf [Obj.THM_P_IN, Obj.THM_SHED_LEVEL, Obj.MUS_GEN_STATE]

theorem govObjs_lpc (n : Nat) : govObjs (Obj.WEB_ENC_LPC n) = false := by
  have hpin : 0x210002 + 0x1000 * n ≠ 0x2B0005 := by omega
  have hlevel : 0x210002 + 0x1000 * n ≠ 0x2B0006 := by omega
  have hgen : 0x210002 + 0x1000 * n ≠ 0x240005 := by omega
  simp [govObjs, objsOf, hpin, hlevel, hgen]

theorem worldFrame_shed (pin l : Nat) (w : World) : WorldFrame [.thm] govObjs w (setLevel (powerTaken pin w) l) := by
  refine .trans (.trans (worldFrame_setO w ?_ _) (worldFrame_thm _ ?_ _)) (worldFrame_setLevel _ _ ?_ ?_)
  all_goals decide

/-- At level 4 the ceiling is lowered from the lower of the ceiling and the speed of the rows (R417). -/
theorem getN_lowerCeiling_shed (pin l : Nat) (w : World) :
    getN (lowerCeiling (setLevel (powerTaken pin w) l)) Obj.LCK_CEIL_HZ = max (getN w Obj.THM_CEIL_MIN_HZ)
      (min (getN w Obj.LCK_CEIL_HZ) (frowHz w) * (100 - getN w Obj.THM_CEIL_STEP_PCT) / 100) := by
  have hframe := worldFrame_shed pin l w
  have hrow := frowHz_congr hframe (by decide) (by decide) govObjs_lpc
  obtain ⟨-, hobj⟩ := hframe
  rw [lowerCeiling, getO_setCeiling, hrow, getN_congr (hobj Obj.THM_CEIL_MIN_HZ (by decide)),
    getN_congr (hobj Obj.LCK_CEIL_HZ (by decide)), getN_congr (hobj Obj.THM_CEIL_STEP_PCT (by decide))]

/-! ### Thermal shutdown (R423) -/

theorem noteWrite_keeps {α : Type} (p : World → α) (hmem : ∀ w m, p { w with mem := m } = p w)
    (hfree : ∀ w f, p { w with free := f } = p w) (area unit : Nat) (line : Int) (w : World) :
    p (noteWrite area unit line w) = p w := by
  unfold noteWrite
  dsimp only
  split
  · split
    · rfl
    · exact hmem w _
  · exact (hmem _ _).trans (hfree w _)

theorem drainLog_keeps {α : Type} (p : World → α) (hmem : ∀ w m, p { w with mem := m } = p w)
    (hfree : ∀ w f, p { w with free := f } = p w) (hevt : ∀ w e, p { w with evt := e } = p w) (w : World) :
    p (drainLog w) = p w := by
  have hput (l : List EvRec) (u : World) : p (l.foldl logPut u) = p u := foldl_keeps p (fun u r => by exact hevt u _) l u
  have hnoted : p (noteWrite 0 0 0 w) = p w := noteWrite_keeps p hmem hfree 0 0 0 w
  have hstaged : p (w.evt.staging.foldl logPut { noteWrite 0 0 0 w with evt := { w.evt with staging := [] } }) = p w :=
    (hput _ _).trans ((hevt _ _).trans hnoted)
  unfold drainLog
  dsimp only
  split
  · exact hstaged
  · exact (hevt _ _).trans ((hevt _ _).trans hstaged)

theorem bootWorld_holdFlag (w : World) (keep : List (Nat × Int × Nat)) (staging : List EvRec) :
    (bootWorld w keep staging).sys.holdFlag = w.sys.holdFlag := rfl

theorem bootWorld_journal (w : World) (keep : List (Nat × Int × Nat)) (staging : List EvRec) :
    (bootWorld w keep staging).thm.journal = w.thm.journal := rfl

theorem setMode_thm (cause : Nat) (m : DevState) (s : State) : (setMode cause m s).w.thm = s.w.thm := rfl

/-- What a reset of the device keeps. -/
theorem resetDevice_keeps (cause why : Nat) (s : State) : (resetDevice cause why s).ctl.mode = .boot ∧
    (resetDevice cause why s).ctl.prev = s.ctl.mode ∧
    (resetDevice cause why s).w.sys.holdFlag = s.w.sys.holdFlag ∧
    (resetDevice cause why s).w.thm.journal = s.w.thm.journal := by
  refine ⟨rfl, rfl, ?_, ?_⟩
  · unfold resetDevice
    dsimp only
    rw [setMode_sys, setO_sys]
    rw [bootWorld_holdFlag, settle_sys, drainLog_keeps World.sys (fun _ _ => rfl) (fun _ _ => rfl) (fun _ _ => rfl), settle_sys]
  · unfold resetDevice
    dsimp only
    rw [setMode_thm, setO_thm]
    rw [bootWorld_journal, settle_thm, drainLog_keeps World.thm (fun _ _ => rfl) (fun _ _ => rfl) (fun _ _ => rfl), settle_thm]

theorem putJournal_head (w : World) (r : JrnRec) : (putJournal w r).thm.journal.head? = some r := by
  simp only [putJournal, noteJournal, setO_thm, List.take_succ_cons, List.head?_cons]

theorem thermalShutdown_resets (reason sensor : Nat) (reading : Int) {s : State} (hmode : s.ctl.mode ≠ .thermalHold)
    (hstandby : s.w.sys.standby = false) : ∃ u y, y.holdFlag = true ∧ thermalShutdown reason sensor reading s =
      resetDevice 3 2 { s with w := { putJournal u (journalRec s.ctl.mode u 2 sensor reason) with sys := y } } :=
  ⟨_, _, rfl, (if_neg (by rw [hstandby]; exact Bool.false_ne_true)).trans (if_neg hmode)⟩

/-- Out of THERMAL_HOLD a thermal shutdown takes the device to BOOT, under the hold flag and with its journal record. -/
theorem thermalShutdown_boot (reason sensor : Nat) (reading : Int) {s : State} (hmode : s.ctl.mode ≠ .thermalHold)
    (hstandby : s.w.sys.standby = false) : (thermalShutdown reason sensor reading s).ctl.mode = .boot ∧
      (thermalShutdown reason sensor reading s).ctl.prev = s.ctl.mode ∧
      (thermalShutdown reason sensor reading s).w.sys.holdFlag = true ∧
      (thermalShutdown reason sensor reading s).w.thm.journal.head?.map (fun r => (r.kind, r.reason)) = some (2, reason) := by
  obtain ⟨u, y, hy, h⟩ := thermalShutdown_resets reason sensor reading hmode hstandby
  obtain ⟨hboot, hprev, hhold, hjournal⟩ := resetDevice_keeps 3 2
    { s with w := { putJournal u (journalRec s.ctl.mode u 2 sensor reason) with sys := y } }
  rw [h]
  refine ⟨hboot, hprev, hhold.trans hy, ?_⟩
  rw [hjournal]
  exact congrArg (Option.map fun r => (r.kind, r.reason)) (putJournal_head u (journalRec s.ctl.mode u 2 sensor reason))

/-! ### The power limit (R418, R419) -/

/-- A step of the limit with a sensor that is sound above its threshold. -/
def limitTaken (w : World) : World :=
  setLimit (updThm w fun t => { t with brokenSteps := t.brokenSteps + 0 })
    (getO w Obj.THM_PLIM_EFF - 10 * getO w Obj.THM_STEP_W)

theorem govLimitStep_due {s : State} (hthr : s.w.thm.throttle = true)
    (hdue : s.w.thm.stepClk + secClk (getN s.w Obj.THM_STEP_S) ≤ s.w.clk) (hsound : onlyBroken s.w = false) :
    govLimitStep s =
      if getO s.w Obj.THM_PLIM_EFF - 10 * getO s.w Obj.THM_STEP_W < 240 then govShutdown s
      else { s with w := limitTaken s.w } := by
  refine (if_pos ⟨hthr, hdue⟩).trans ?_
  unfold limitStep
  simp only [hsound, Bool.false_eq_true, false_and, if_false]
  rfl

theorem getO_setLimit (w : World) (v : Int) : getO (setLimit w v) Obj.THM_PLIM_EFF = v := by
  rw [setLimit, getO_raise, getO_updThm, getO_setO_same]

theorem setLimit_thm (w : World) (v : Int) : (setLimit w v).thm = { w.thm with stepClk := w.clk } := rfl

theorem worldFrame_setLimit (w : World) (v : Int) : WorldFrame [.thm] (objsOf [Obj.THM_PLIM_EFF]) w (setLimit w v) := by
  refine .trans (.trans (worldFrame_setO w ?_ v) (worldFrame_updThm _ _)) (worldFrame_raise _ _ _ _)
  decide

theorem govRecover_due {w : World} {c : Nat} (hcool : w.thm.coolClk = some c) (hthr : w.thm.throttle = false)
    (hlow : getO w Obj.THM_PLIM_EFF < getO w Obj.THM_PLIM_W)
    (hdue : max c w.thm.riseClk + secClk (getN w Obj.THM_RECOVER_S) ≤ w.clk) : govRecover w =
      setLimit (updThm w fun t => { t with riseClk := w.clk })
        (min (getO w Obj.THM_PLIM_W) (getO w Obj.THM_PLIM_EFF + 10 * getO w Obj.THM_STEP_W)) := by
  simp only [govRecover, hcool]
  exact if_pos ⟨hthr, hlow, hdue⟩

theorem govUnshed_due {w : World} {c : Nat} (hlow : 1 ≤ getN w Obj.THM_SHED_LEVEL)
    (hhigh : getN w Obj.THM_SHED_LEVEL ≤ 3) (hmargin : w.thm.marginClk = some c) (hheld : c + secClk 10 ≤ w.clk)
    (hundo : w.thm.undoClk + secClk 10 ≤ w.clk) : govUnshed w =
      setLevel (updThm w fun t => { t with undoClk := w.clk }) (getN w Obj.THM_SHED_LEVEL - 1) := by
  have hfor : heldFor w w.thm.marginClk (secClk 10) = true := by
    rw [hmargin]
    exact decide_eq_true hheld
  have hgo : ¬(getN w Obj.THM_SHED_LEVEL = 0 ∨ heldFor w w.thm.marginClk (secClk 10) = false) := by
    rw [hfor]
    simp only [Bool.true_eq_false, or_false]
    omega
  have hnot : ¬getN w Obj.THM_SHED_LEVEL = 4 := by omega
  exact (if_neg hgo).trans ((if_neg hnot).trans (if_pos hundo))

end Sys2Proof.Machine
end

section
/-! Obligation O21, from the rules of the governor. -/
open Sys2Proof Sys2Proof.Machine

/-- Settles O21. -/
theorem powerGovernor : Obligations.PowerGovernor := by
  refine ⟨fun s pin hon => ⟨fun hin => ?within, fun hover hdue => ⟨fun hlevel => ?next, fun hlevel => ?last⟩⟩,
    fun s hon => ⟨fun hthr hdue hsound => ⟨fun hstep => ?step, fun hlow hmode hstandby => ?shutdown⟩,
      fun c hcool hthr hlow hdue => ?recover, fun c hlow hhigh hmargin hheld hundo => ?unshed⟩⟩
  case within =>
    have hdone := govEval_within (s := fresh s) hin
    refine ⟨_, onState_when (c := fun s => powered s.ctl.mode) (govEval pin) hon, ?_, WorldFrame.touchesState ?_ ?_⟩
    · rw [runState, getN_settle _ (by decide) (by decide), hdone]
      exact getN_of_getO (getO_powerTaken_pin pin (fresh s))
    · rw [hdone]
      exact worldFrame_powerTaken pin (fresh s)
    · rw [hdone]
      rfl
  case next =>
    have hdone := (govEval_above (s := fresh s) hover hdue (Nat.lt_succ_of_lt hlevel)).trans
      (congrArg (fun w => { fresh s with w := w }) (shedTo_below (by exact Nat.succ_lt_succ hlevel) _))
    refine ⟨_, onState_when (c := fun s => powered s.ctl.mode) (govEval pin) hon, ?_, ?_, ?_, ?_, ?_⟩
    · rw [runState, getN_settle _ (by decide) (by decide), hdone, getN_congr (getO_setLevel _ _ (by decide)),
        getN_setO_ne _ _ (by decide)]
      exact getN_of_getO (getO_powerTaken_pin pin (fresh s))
    · rw [runState, hdone]
      rfl
    · rw [runState, getN_settle _ (by decide) (by decide), hdone, getN_congr (getO_setLevel _ _ (by decide)),
        getN_setO_same]
      exact Int.toNat_natCast _
    · rw [runState, settle_thm, hdone, setLevel_thm]
      rfl
    · rw [runState, getN_settle _ (by decide) (by decide), hdone, getN_congr (getO_setLevel _ _ (by decide)),
        getN_setO_ne _ _ (by decide), getN_congr (getO_powerTaken_ne pin (fresh s) (by decide))]
      rfl
  case last =>
    have hdone := govEval_last (s := fresh s) hover hdue hlevel
    refine ⟨_, onState_when (c := fun s => powered s.ctl.mode) (govEval pin) hon, ?_, ?_, ?_, ?_⟩
    · rw [runState, getN_settle _ (by decide) (by decide), hdone, lowerCeiling,
        getN_congr (getO_setCeiling_ne _ _ (by decide)), getN_updThm, getN_congr (getO_setLevel _ _ (by decide)),
        getN_setO_same]
      rfl
    · rw [runState, hdone]
      rfl
    · rw [runState, settle_thm, hdone, lowerCeiling_thm]
      exact (worldFrame_shed pin 4 (fresh s).w).clk (by decide)
    · rw [runState, getN_settle _ (by decide) (by decide), hdone, getN_lowerCeiling_shed]
      rfl
  case step =>
    have hdone := (govLimitStep_due (s := fresh s) hthr hdue hsound).trans (if_neg (not_lt.mpr hstep))
    refine ⟨_, onState_when (c := fun s => powered s.ctl.mode) govLimitStep hon, ?_, ?_, ?_⟩
    · rw [runState, hdone]
      rfl
    · rw [runState, settle_thm, hdone, limitTaken, setLimit_thm]
      rfl
    · rw [runState, getO_settle _ (by decide) (by decide), hdone, limitTaken, getO_setLimit]
      rfl
  case shutdown =>
    have hdone := (govLimitStep_due (s := fresh s) hthr hdue hsound).trans (if_pos hlow)
    obtain ⟨hboot, -, hhold, hjournal⟩ := thermalShutdown_boot 3 255 0 (s := fresh s) hmode hstandby
    refine ⟨_, onState_when (c := fun s => powered s.ctl.mode) govLimitStep hon, ?_, ?_, ?_⟩
    · rw [runState, hdone]
      exact hboot
    · rw [runState, settle_sys, hdone]
      exact hhold
    · rw [runState, settle_thm, hdone]
      exact hjournal
  case recover =>
    have hdone := govRecover_due (w := (fresh s).w) hcool hthr hlow hdue
    refine ⟨_, onWorld_powered govRecover hon, ?_, ?_, WorldFrame.touches ?_⟩
    · rw [runMeaning, settle_thm, hdone, setLimit_thm]
      rfl
    · rw [getO_runMeaning _ _ (by decide), hdone, getO_setLimit]
      rfl
    · rw [hdone]
      exact (worldFrame_updThm _ _).trans (worldFrame_setLimit _ _)
  case unshed =>
    have hdone := govUnshed_due (w := (fresh s).w) hlow hhigh hmargin hheld hundo
    refine ⟨_, onWorld_powered govUnshed hon, ?_, ?_, ?_⟩
    · rw [getN_runMeaning _ _ (by decide), hdone, getN_congr (getO_setLevel _ _ (by decide)), getN_setO_same]
      exact Int.toNat_natCast _
    · rw [runMeaning, settle_thm, hdone, setLevel_thm]
      rfl
    · rw [runMeaning, settle_thm, hdone, setLevel_thm]
      rfl

end

section
/-! SUPPORT. Sensor polls (R411 to R416, R421). -/

namespace Sys2Proof.Machine

/-! ### One sensor judged -/

/-- The sensor with its reading taken. -/
def sensorTaken (raw : Int) (k clk : Nat) (s : Sensor) : Sensor :=
  { s with raw := raw, hist := (raw :: s.hist).take 1001, sameClk := if raw = s.raw then s.sameClk else clk
           goodClk := if k = 0 then some (s.goodClk.getD clk) else none }

/-- A reading taken makes a sensor no longer at rest. -/
theorem sensorTaken_same {raw : Int} {k clk d : Nat} {s : Sensor} (hd : 0 < d)
    (h : (sensorTaken raw k clk s).sameClk + d ≤ clk) : s.sameClk + d ≤ clk := by
  unfold sensorTaken at h
  dsimp only at h
  split at h
  · exact h
  · omega

section
variable (raws : List Int) (diags : List Nat) (w : World) (n : Nat)

/-- The world with the reading of sensor `n` taken. -/
def readingTaken : World :=
  updSensor w n (sensorTaken (raws.getD n 0) (brokenKind (raws.getD n 0) (diags.getD n 0)) w.clk)

/-- Whether a broken sensor is restored. -/
def restores : Bool :=
  if (sensorAt w n).broken ≤ 3 then
    match (sensorAt (readingTaken raws diags w n) n).goodClk with
    | some c => decide (c + secClk 10 ≤ w.clk)
    | none => false
  else if (sensorAt w n).broken = 4 then decide (8 ≤ (raws.getD n 0 - (sensorAt w n).stuckAt).natAbs) else false

theorem judgeSensor_eq : judgeSensor raws diags w n =
    if brokenKind (raws.getD n 0) (diags.getD n 0) ≠ 0 ∧ ((sensorAt w n).broken = 0 ∨ (sensorAt w n).broken = 4) then
      raise (updSensor (readingTaken raws diags w n) n fun s => { s with broken := brokenKind (raws.getD n 0) (diags.getD n 0) })
        Ev.THM_SENSOR_BROKEN n (brokenKind (raws.getD n 0) (diags.getD n 0))
    else if (sensorAt w n).broken = 0 then
      if stuck (readingTaken raws diags w n) raws n then
        raise (updSensor (readingTaken raws diags w n) n fun s => { s with broken := 4, stuckAt := raws.getD n 0 })
          Ev.THM_SENSOR_BROKEN n 4
      else readingTaken raws diags w n
    else if restores raws diags w n then
      raise (updSensor (readingTaken raws diags w n) n fun s => { s with broken := 0, hist := [raws.getD n 0] })
        Ev.THM_SENSOR_BROKEN n 0
    else readingTaken raws diags w n := rfl

theorem sensorAt_raise (c i d m : Nat) : sensorAt (raise w c i d) m = sensorAt w m := rfl

theorem getO_updSensor (f : Sensor → Sensor) (k : Nat) : getO (updSensor w n f) k = getO w k := rfl

/-- Judging a sensor leaves the others. -/
theorem judgeSensor_others {k : Nat} (h : k ≠ n) : sensorAt (judgeSensor raws diags w n) k = sensorAt w k := by
  have htaken : sensorAt (readingTaken raws diags w n) k = sensorAt w k := sensorAt_updSensor_ne _ _ h.symm
  rw [judgeSensor_eq]
  split_ifs
  · rw [sensorAt_raise, sensorAt_updSensor_ne _ _ h.symm, htaken]
  · rw [sensorAt_raise, sensorAt_updSensor_ne _ _ h.symm, htaken]
  · exact htaken
  · rw [sensorAt_raise, sensorAt_updSensor_ne _ _ h.symm, htaken]
  · exact htaken

theorem getO_judgeSensor (k : Nat) : getO (judgeSensor raws diags w n) k = getO w k := by
  have htaken : getO (readingTaken raws diags w n) k = getO w k := getO_updSensor _ _ _ _
  rw [judgeSensor_eq]
  split_ifs
  · rw [getO_raise, getO_updSensor, htaken]
  · rw [getO_raise, getO_updSensor, htaken]
  · exact htaken
  · rw [getO_raise, getO_updSensor, htaken]
  · exact htaken

variable {w n} (hn : n < w.thm.sensors.length)
include hn

theorem readingTaken_same : sensorAt (readingTaken raws diags w n) n =
    sensorTaken (raws.getD n 0) (brokenKind (raws.getD n 0) (diags.getD n 0)) w.clk (sensorAt w n) :=
  sensorAt_updSensor_same _ _ hn

theorem readingTaken_upd (f : Sensor → Sensor) : sensorAt (updSensor (readingTaken raws diags w n) n f) n =
    f (sensorTaken (raws.getD n 0) (brokenKind (raws.getD n 0) (diags.getD n 0)) w.clk (sensorAt w n)) := by
  rw [sensorAt_updSensor_same, readingTaken_same raws diags hn]
  simpa [readingTaken, updSensor, updThm] using hn

/-- A sound sensor, or one that was stuck, whose reading or diagnostic is bad is broken. -/
theorem judgeSensor_breaks (hsound : (sensorAt w n).broken = 0 ∨ (sensorAt w n).broken = 4)
    (hbad : brokenKind (raws.getD n 0) (diags.getD n 0) ≠ 0) :
    (sensorAt (judgeSensor raws diags w n) n).broken = brokenKind (raws.getD n 0) (diags.getD n 0) := by
  rw [judgeSensor_eq, if_pos ⟨hbad, hsound⟩, sensorAt_raise, readingTaken_upd raws diags hn]

/-- A sensor broken by reading or diagnostic is restored after 10 s of good readings, and not before. -/
theorem judgeSensor_restores {c : Nat} (hlow : 1 ≤ (sensorAt w n).broken) (hhigh : (sensorAt w n).broken ≤ 3)
    (hgood : brokenKind (raws.getD n 0) (diags.getD n 0) = 0) (hclk : (sensorAt w n).goodClk = some c) :
    (sensorAt (judgeSensor raws diags w n) n).raw = raws.getD n 0 ∧
      (sensorAt (judgeSensor raws diags w n) n).broken =
        if c + secClk 10 ≤ w.clk then 0 else (sensorAt w n).broken := by
  have hback : restores raws diags w n = decide (c + secClk 10 ≤ w.clk) := by
    simp only [restores, if_pos hhigh, readingTaken_same raws diags hn, sensorTaken, hgood, hclk, if_true,
      Option.getD_some]
  rw [judgeSensor_eq, if_neg (fun h => h.1 hgood), if_neg (Nat.one_le_iff_ne_zero.mp hlow), hback]
  by_cases hdue : c + secClk 10 ≤ w.clk
  · simp only [hdue, decide_true, if_true]
    rw [sensorAt_raise, readingTaken_upd raws diags hn]
    exact ⟨rfl, rfl⟩
  · simp only [hdue, decide_false, Bool.false_eq_true, if_false]
    rw [readingTaken_same raws diags hn]
    exact ⟨rfl, rfl⟩

/-- A sound sensor with a good reading that is not stuck has its reading taken and nothing more. -/
theorem judgeSensor_sound (hsound : (sensorAt w n).broken = 0)
    (hgood : brokenKind (raws.getD n 0) (diags.getD n 0) = 0) (hstuck : stuck w raws n = false) :
    judgeSensor raws diags w n = readingTaken raws diags w n := by
  have hstill : stuck (readingTaken raws diags w n) raws n = false := by
    refine Bool.eq_false_iff.mpr fun h => Bool.eq_false_iff.mp hstuck ?_
    simp only [stuck, Bool.and_eq_true, decide_eq_true_eq] at h ⊢
    obtain ⟨⟨hlen, hsame⟩, hmean⟩ := h
    refine ⟨⟨hlen, ?_⟩, hmean⟩
    rw [readingTaken_same raws diags hn] at hsame
    exact sensorTaken_same (by decide) hsame
  rw [judgeSensor_eq, if_neg (fun h => h.1 hgood), if_pos hsound, hstill]
  rfl

end

/-! ### What a poll keeps -/

/-- The reading of each sensor and whether it is broken. -/
def readings (w : World) : List (Int × Nat) := w.thm.sensors.map fun x => (x.raw, x.broken)

/-- What the rest of a poll leaves once the readings are taken. -/
structure PollKeeps (a b : World) : Prop where
  readings : readings b = readings a
  throttle : b.thm.throttle = a.thm.throttle
  sys : b.sys = a.sys

theorem PollKeeps.trans {a b c : World} (hab : PollKeeps a b) (hbc : PollKeeps b c) : PollKeeps a c :=
  ⟨hbc.readings.trans hab.readings, hbc.throttle.trans hab.throttle, hbc.sys.trans hab.sys⟩

theorem PollKeeps.refl (a : World) : PollKeeps a a := ⟨rfl, rfl, rfl⟩

theorem PollKeeps.foldl {β : Type} {g : World → β → World} (hg : ∀ w x, PollKeeps w (g w x)) (l : List β) (w : World) :
    PollKeeps w (l.foldl g w) := by
  induction l generalizing w with
  | nil => exact .refl w
  | cons x l ih => exact (hg w x).trans (ih _)

theorem map_modify_of_eq {α β : Type} {g : α → β} {f : α → α} (hf : ∀ x, g (f x) = g x) (l : List α) (n : Nat) :
    (l.modify n f).map g = l.map g := by
  refine List.ext_getElem? fun i => ?_
  rw [List.getElem?_map, List.getElem?_modify, List.getElem?_map]
  cases l[i]? with
  | none => rfl
  | some x =>
    by_cases h : n = i
    · simp [h, hf]
    · simp [h]

theorem readings_updSensor {f : Sensor → Sensor} (hf : ∀ x, (f x).raw = x.raw ∧ (f x).broken = x.broken) (w : World)
    (n : Nat) : readings (updSensor w n f) = readings w := by
  exact map_modify_of_eq (fun x => Prod.ext (hf x).1 (hf x).2) _ n

theorem pollKeeps_setO (w : World) (k : Nat) (v : Int) : PollKeeps w (setO w k v) := ⟨rfl, rfl, rfl⟩

theorem pollKeeps_raise (w : World) (c i d : Nat) : PollKeeps w (raise w c i d) := ⟨rfl, rfl, rfl⟩

theorem pollKeeps_updSensor {f : Sensor → Sensor} (hf : ∀ x, (f x).raw = x.raw ∧ (f x).broken = x.broken) (w : World)
    (n : Nat) : PollKeeps w (updSensor w n f) := ⟨readings_updSensor hf w n, rfl, rfl⟩

theorem pollKeeps_judgeWarn (w : World) (n : Nat) : PollKeeps w (judgeWarn w n) := by
  unfold judgeWarn
  extract_lets u s on w1
  have hset : PollKeeps w w1 := pollKeeps_setO w _ _
  split
  · exact hset
  · exact hset.trans ((pollKeeps_updSensor (fun _ => by exact ⟨rfl, rfl⟩) w1 n).trans (pollKeeps_raise _ _ _ _))

theorem getO_judgeWarn (w : World) (n k : Nat) :
    getO (judgeWarn w n) k = getO (setO w (Obj.THM_TEMP n) (inUse w n)) k := by
  unfold judgeWarn
  extract_lets u s on w1
  split
  · rfl
  · rw [getO_raise, getO_updSensor]

theorem pollKeeps_noteRails (mv : List Nat) (w : World) : PollKeeps w (noteRails mv w) := by
  unfold noteRails
  extract_lets w1
  have hrails : PollKeeps w w1 := .foldl (fun w r => pollKeeps_setO w _ _) _ w
  clear_value w1
  exact hrails.trans ⟨rfl, rfl, rfl⟩

theorem getO_noteSensors (old w : World) (k : Nat) : getO (noteSensors old w) k = getO w k := by
  unfold noteSensors
  dsimp only
  split_ifs <;> rfl

theorem pollKeeps_noteSensors (old w : World) : PollKeeps w (noteSensors old w) := by
  unfold noteSensors
  dsimp only
  split_ifs <;> exact ⟨rfl, rfl, rfl⟩

/-- While the throttle condition stands, judging it moves neither readings nor objects. -/
theorem pollThrottle_standing {s : State} (h : s.w.thm.throttle = true) : (pollThrottle s).ctl = s.ctl ∧
    readings (pollThrottle s).w = readings s.w ∧ (pollThrottle s).w.sys = s.w.sys ∧
    ∀ k, getO (pollThrottle s).w k = getO s.w k := by
  unfold pollThrottle
  extract_lets kinds was old w1
  have hkinds : PollKeeps s.w w1 := .foldl (fun w n => pollKeeps_updSensor (fun _ => by exact ⟨rfl, rfl⟩) w n) _ s.w
  have hobj (k : Nat) : getO w1 k = getO s.w k :=
    foldl_keeps (g := fun w n => updSensor w n fun x => { x with thr := kinds.getD n 0 }) (getO · k) (fun _ _ => rfl) _ s.w
  have hwas : was = true := h
  clear_value w1 kinds was
  split
  · rw [if_pos hwas]
    exact ⟨rfl, hkinds.readings, hkinds.sys, hobj⟩
  · rw [if_pos hwas]
    refine ⟨rfl, hkinds.readings, hkinds.sys, fun k => ?_⟩
    rw [getO_raise, getO_updThm]
    exact hobj k

/-! ### A poll of sound sensors -/

section
variable {g : World → Nat → World} {key : Nat → Nat} {v : World → Nat → Int} {l : List Nat}
  (hg : ∀ w i k, getO (g w i) k = getO (setO w (key i) (v w i)) k) (hv : ∀ w, ∀ i ∈ l, ∀ j, v (g w i) j = v w j)
include hg hv

/-- A fold that notes in each object a value that the notes do not move: what an object holds afterwards. -/
theorem getO_foldl_noted (hkey : Function.Injective key) (w : World) (i : Nat) :
    getO (l.foldl g w) (key i) = if i ∈ l then v w i else getO w (key i) := by
  induction l generalizing w with
  | nil => rfl
  | cons j l ih =>
    rw [List.foldl_cons, ih fun w i hi => hv w i (List.mem_cons_of_mem j hi), hv w j List.mem_cons_self, hg, getO_setO]
    by_cases hl : i ∈ l
    · simp [hl]
    · by_cases hj : j = i <;> simp [hl, hj, hkey.eq_iff, eq_comm (a := i)]

omit hv in
theorem getO_foldl_noted_ne (w : World) {k : Nat} (hk : ∀ j ∈ l, key j ≠ k) :
    getO (l.foldl g w) k = getO w k :=
  foldl_keeps_mem (getO · k) (fun a j hj => (hg a j k).trans (getO_setO_ne _ _ (hk j hj))) w

end

theorem sensorAt_readings (w : World) (n : Nat) :
    ((sensorAt w n).raw, (sensorAt w n).broken) = (readings w).getD n (Sensor.reset.raw, Sensor.reset.broken) :=
  (List.getD_map (f := fun x : Sensor => (x.raw, x.broken)) ..).symm

theorem inUse_congr {a b : World} (h : readings b = readings a) {n : Nat}
    (hthr : getO b (Obj.THM_THROTTLE n) = getO a (Obj.THM_THROTTLE n))
    (hofs : getO b (Obj.THM_XOFS n) = getO a (Obj.THM_XOFS n)) : inUse b n = inUse a n := by
  have hsame : ((sensorAt b n).raw, (sensorAt b n).broken) = ((sensorAt a n).raw, (sensorAt a n).broken) := by
    rw [sensorAt_readings, h, sensorAt_readings]
  obtain ⟨hraw, hbroken⟩ := Prod.mk.inj hsame
  rw [inUse, inUse, hraw, hbroken, hthr, hofs]

theorem inUse_judgeWarn (w : World) {i : Nat} (hi : i < 26) (j : Nat) : inUse (judgeWarn w i) j = inUse w j := by
  refine inUse_congr (pollKeeps_judgeWarn w i).readings ?_ ?_
  · rw [getO_judgeWarn]
    exact getO_setO_ne _ _ (by simp only [Obj.THM_TEMP, Obj.THM_THROTTLE]; omega)
  · rw [getO_judgeWarn]
    exact getO_setO_ne _ _ (by simp only [Obj.THM_TEMP, Obj.THM_XOFS]; omega)

theorem stuck_congr {a b : World} (hmin : b.thm.minute = a.thm.minute) (hclk : b.clk = a.clk) {n : Nat}
    (hs : sensorAt b n = sensorAt a n) (raws : List Int) : stuck b raws n = stuck a raws n := by
  simp only [stuck, hmin, hclk, hs]

/-- All 26 sensors are sound with good readings. -/
def AllSound (raws : List Int) (diags : List Nat) (w : World) : Prop :=
  ∀ n, n < 26 → (sensorAt w n).broken = 0 ∧ brokenKind (raws.getD n 0) (diags.getD n 0) = 0 ∧ stuck w raws n = false

/-- What judging the first `m` sensors has taken, each being sound. -/
structure Judged (raws : List Int) (m : Nat) (a b : World) : Prop where
  length : b.thm.sensors.length = a.thm.sensors.length
  taken : ∀ n, n < m → (sensorAt b n).raw = raws.getD n 0 ∧ (sensorAt b n).broken = 0
  later : ∀ n, m ≤ n → sensorAt b n = sensorAt a n
  minute : b.thm.minute = a.thm.minute
  throttle : b.thm.throttle = a.thm.throttle
  clk : b.clk = a.clk
  sys : b.sys = a.sys

theorem judged_foldl {raws : List Int} {diags : List Nat} {w : World} (hlen : w.thm.sensors.length = 26)
    (hall : AllSound raws diags w) {m : Nat} (hm : m ≤ 26) :
    Judged raws m w ((List.range m).foldl (judgeSensor raws diags) w) := by
  induction m with
  | zero => exact ⟨rfl, fun _ h => absurd h (Nat.not_lt_zero _), fun _ _ => rfl, rfl, rfl, rfl, rfl⟩
  | succ m ih =>
    rw [List.range_succ, List.foldl_append, List.foldl_cons, List.foldl_nil]
    have h := ih (Nat.le_of_succ_le hm)
    generalize (List.range m).foldl (judgeSensor raws diags) w = u at h ⊢
    obtain ⟨hsound, hgood, hstuck⟩ := hall m hm
    have hu : m < u.thm.sensors.length := by rw [h.length, hlen]; exact hm
    have hat := h.later m (Nat.le_refl m)
    have htaken := readingTaken_same raws diags hu
    rw [judgeSensor_sound raws diags hu (hat ▸ hsound) hgood ((stuck_congr h.minute h.clk hat raws).trans hstuck)]
    refine ⟨(List.length_modify ..).trans h.length, fun n hn => ?_, fun n hn => ?_, h.minute, h.throttle, h.clk, h.sys⟩
    · rcases Nat.lt_succ_iff_lt_or_eq.mp hn with hn | rfl
      · rw [readingTaken, sensorAt_updSensor_ne _ _ (Nat.ne_of_gt hn)]
        exact h.taken n hn
      · rw [htaken]
        exact ⟨rfl, (congrArg Sensor.broken hat).trans hsound⟩
    · rw [readingTaken, sensorAt_updSensor_ne _ _ (Nat.ne_of_lt hn)]
      exact h.later n (Nat.le_of_succ_le hn)

/-- The readings of 26 sound sensors. -/
def soundReadings (raws : List Int) : List (Int × Nat) := (List.range 26).map fun n => (raws.getD n 0, 0)

theorem readings_judged {raws : List Int} {a b : World} (hlen : a.thm.sensors.length = 26) (h : Judged raws 26 a b) :
    readings b = soundReadings raws := by
  have hb : b.thm.sensors.length = 26 := h.length.trans hlen
  refine List.ext_getElem (by simp [readings, soundReadings, hb]) fun n hn _ => ?_
  have hn26 : n < 26 := by simpa [readings, hb] using hn
  obtain ⟨hraw, hbroken⟩ := h.taken n hn26
  have hat : sensorAt b n = b.thm.sensors[n] := List.getD_eq_getElem _ _ (hb.symm ▸ hn26)
  simp [readings, soundReadings, -List.getD_eq_getElem?_getD, ← hat, hraw, hbroken]

section
variable {raws : List Int} {w : World} (h : readings w = soundReadings raws)
include h

theorem sensorAt_sound {n : Nat} (hn : n < 26) : (sensorAt w n).raw = raws.getD n 0 ∧ (sensorAt w n).broken = 0 := by
  refine Prod.mk.inj ((sensorAt_readings w n).trans ?_)
  rw [h, soundReadings, List.getD_eq_getElem _ _ (by simpa using hn)]
  simp

theorem inUse_sound {n : Nat} (hn : n < 26) : inUse w n = raws.getD n 0 + getO w (Obj.THM_XOFS n) := by
  obtain ⟨hraw, hbroken⟩ := sensorAt_sound h hn
  rw [inUse, if_neg (fun hb => hb hbroken), hraw]

theorem ofBits_sound : ofBits (w.thm.sensors.map fun x => x.broken != 0) = 0 := by
  have hbits : (w.thm.sensors.map fun x => x.broken != 0) = (readings w).map (·.2 != 0) := by
    rw [readings, List.map_map]
    rfl
  have hnone : ((·.2 != 0) ∘ fun n => (raws.getD n 0, 0) : Nat → Bool) = fun _ => false := rfl
  rw [hbits, h, soundReadings, List.map_map, hnone]
  decide

theorem newLost_sound : newLost w = [] := by
  have hfirst : ∀ z ∈ List.range 6, ∃ n ∈ zoneSensors z, n < 26 := by decide
  refine List.filter_eq_nil_iff.mpr fun z hz hlost => ?_
  obtain ⟨n, hn, hn26⟩ := hfirst z hz
  have hbroken := List.all_eq_true.mp (Bool.and_eq_true_iff.mp hlost).2 n hn
  rw [(sensorAt_sound h hn26).2] at hbroken
  exact absurd hbroken (by decide)

end

/-- The sensors judged, and the rail voltages of the poll shown. -/
def pollJudged (raws : List Int) (diags mv : List Nat) (w : World) : World :=
  noteRails mv ((List.range 26).foldl (judgeSensor raws diags) w)

/-- The readings in use and the broken sensors shown. -/
def pollShown (old w : World) : World :=
  noteSensors old ((List.range 26).foldl judgeWarn
    (setO w Obj.THM_BROKEN (ofBits (w.thm.sensors.map fun x => x.broken != 0) : Nat)))

/-- The poll counted. -/
def pollCounted (raws : List Int) (w : World) : World :=
  updThm w fun t => { t with polls := if w.thm.polls + 1 = 1000 then 0 else w.thm.polls + 1
                             minute := if w.thm.polls + 1 = 1000 then (raws :: t.minute).take 61 else t.minute
                             coolClk := if allCool w then some (t.coolClk.getD w.clk) else none }

/-- The lost zones noted. -/
def pollLost (w : World) : World :=
  (newLost w).foldl (fun w z => raise (updThm w fun t => { t with zoneLost := t.zoneLost ++ [z] }) Ev.THM_ZONE_LOST z
    (zoneSensors z).length) w

/-- What a poll ends with once the throttle condition is judged. -/
def pollEnd (lost : List Nat) (s : State) : State :=
  match (List.range 26).find? fun n => getO s.w (Obj.THM_SHUTDOWN n) ≤ inUse s.w n with
  | some n => thermalShutdown 1 n (inUse s.w n) s
  | none => if lost = [] then s else thermalShutdown 2 255 0 s

/-- The world that a poll has taken and counted, before the lost zones and the throttle condition. -/
def pollTaken (raws : List Int) (diags mv : List Nat) (w : World) : World :=
  pollCounted raws (pollShown w (pollJudged raws diags mv w))

theorem sensorPoll_eq (raws : List Int) (diags mv : List Nat) (s : State) : sensorPoll raws diags mv s =
    pollEnd (newLost (pollTaken raws diags mv s.w))
      (pollThrottle { s with w := pollLost (pollTaken raws diags mv s.w) }) := by
  unfold sensorPoll
  extract_lets old w1 w2 w3 w4 p w5 lost w6
  have hjudged : w1 = pollJudged raws diags mv s.w := rfl
  clear_value w1
  have hshown : w4 = pollShown s.w w1 := rfl
  clear_value w4
  have hcounted : w5 = pollTaken raws diags mv s.w := by
    rw [pollTaken, ← hjudged, ← hshown]
    rfl
  clear_value p w5
  subst hcounted
  have hlost : w6 = pollLost (pollTaken raws diags mv s.w) := rfl
  clear_value w6
  rw [← hlost]
  rfl

/-- What a poll of sound sensors has taken when it comes to the shutdown thresholds. -/
structure Polled (raws : List Int) (mv : List Nat) (a b : World) : Prop where
  readings : readings b = soundReadings raws
  sys : b.sys = a.sys
  broken : getO b Obj.THM_BROKEN = 0
  temps : ∀ n, n < 26 → getO b (Obj.THM_TEMP n) = raws.getD n 0 + getO a (Obj.THM_XOFS n)
  rails : ∀ r, r < 14 → r < mv.length → getO b (Obj.VMON_MV r) = bgCorrect a (mv.getD r 0)
  offsets : ∀ n, n < 26 → getO b (Obj.THM_XOFS n) = getO a (Obj.THM_XOFS n)
  limits : ∀ n, n < 26 → getO b (Obj.THM_SHUTDOWN n) = getO a (Obj.THM_SHUTDOWN n)

theorem bgCorrect_setRail (w : World) {r : Nat} (hr : r < 14) (mv : Nat) (v : Int) :
    bgCorrect (setO w (Obj.VMON_MV r) v) mv = bgCorrect w mv := by
  rw [bgCorrect, bgCorrect, getO_setO_ne _ _ (by simp only [Obj.VMON_MV, Obj.THM_BG_CORR]; omega)]

theorem lt_of_mem_rails {mv : List Nat} {r : Nat} (h : r ∈ List.range (min 14 mv.length)) : r < 14 :=
  lt_of_lt_of_le (List.mem_range.mp h) (min_le_left _ _)

theorem getO_noteRails (mv : List Nat) (w : World) {r : Nat} (hr : r < 14) (hlen : r < mv.length) :
    getO (noteRails mv w) (Obj.VMON_MV r) = bgCorrect w (mv.getD r 0) := by
  rw [noteRails, getO_updThm, getO_foldl_noted (key := Obj.VMON_MV) (v := fun w r => bgCorrect w (mv.getD r 0))
    (fun _ _ _ => by rfl) (fun w i hi j => bgCorrect_setRail w (lt_of_mem_rails hi) _ _) (fun _ _ h => by simpa using h),
    if_pos (List.mem_range.mpr (lt_min hr hlen))]

theorem getO_noteRails_ne (mv : List Nat) (w : World) {k : Nat} (hk : ∀ r < 14, Obj.VMON_MV r ≠ k) :
    getO (noteRails mv w) k = getO w k := by
  rw [noteRails, getO_updThm, getO_foldl_noted_ne (key := Obj.VMON_MV) (v := fun w r => bgCorrect w (mv.getD r 0))
    (fun _ _ _ => by rfl) _ fun j hj => hk j (lt_of_mem_rails hj)]

theorem polled_of_sound {raws : List Int} {diags mv : List Nat} {w : World} (hlen : w.thm.sensors.length = 26)
    (hall : AllSound raws diags w) : Polled raws mv w (pollTaken raws diags mv w) ∧
      (pollTaken raws diags mv w).thm.throttle = w.thm.throttle := by
  have hjudged := judged_foldl hlen hall (Nat.le_refl 26)
  have hobj (k : Nat) : getO ((List.range 26).foldl (judgeSensor raws diags) w) k = getO w k :=
    foldl_keeps (getO · k) (fun w n => getO_judgeSensor raws diags w n k) _ w
  have hread := readings_judged hlen hjudged
  unfold pollTaken pollCounted pollShown pollJudged
  generalize (List.range 26).foldl (judgeSensor raws diags) w = w1 at hjudged hobj hread ⊢
  have hrails := pollKeeps_noteRails mv w1
  have hread2 := hrails.readings.trans hread
  have hval (r : Nat) (hr : r < 14) (hl : r < mv.length) := getO_noteRails mv w1 hr hl
  have hrest (k : Nat) (hk : ∀ r < 14, Obj.VMON_MV r ≠ k) := getO_noteRails_ne mv w1 hk
  generalize noteRails mv w1 = w2 at hrails hread2 hval hrest ⊢
  rw [ofBits_sound hread2]
  have hwarn : PollKeeps (setO w2 Obj.THM_BROKEN ((0 : Nat) : Int))
      ((List.range 26).foldl judgeWarn (setO w2 Obj.THM_BROKEN ((0 : Nat) : Int))) :=
    .foldl pollKeeps_judgeWarn _ _
  have htemp (n : Nat) := getO_foldl_noted (key := Obj.THM_TEMP) getO_judgeWarn
    (l := List.range 26) (fun w i hi j => inUse_judgeWarn w (List.mem_range.mp hi) j) (fun _ _ h => by simpa using h) (setO w2 Obj.THM_BROKEN ((0 : Nat) : Int)) n
  have hkeep (k : Nat) (hk : ∀ j ∈ List.range 26, Obj.THM_TEMP j ≠ k) := getO_foldl_noted_ne (key := Obj.THM_TEMP) getO_judgeWarn
    (setO w2 Obj.THM_BROKEN ((0 : Nat) : Int)) hk
  generalize (List.range 26).foldl judgeWarn (setO w2 Obj.THM_BROKEN ((0 : Nat) : Int)) = w3 at hwarn htemp hkeep ⊢
  have hobj4 (k : Nat) := getO_noteSensors w w3 k
  have hnoted := hwarn.trans (pollKeeps_noteSensors w w3)
  generalize noteSensors w w3 = w4 at hnoted hobj4 ⊢
  have hoffset (n : Nat) (hn : n < 26) : getO w2 (Obj.THM_XOFS n) = getO w (Obj.THM_XOFS n) :=
    (hrest _ fun r hr => by simp only [Obj.VMON_MV, Obj.THM_XOFS]; omega).trans (hobj _)
  have hread3 : readings (setO w2 Obj.THM_BROKEN ((0 : Nat) : Int)) = soundReadings raws := hread2
  refine ⟨⟨hnoted.readings.trans hread2, ?_, ?_, fun n hn => ?_, fun r hr hl => ?_, fun n hn => ?_, fun n hn => ?_⟩,
    hnoted.throttle.trans (hrails.throttle.trans hjudged.throttle)⟩
  · exact hnoted.sys.trans (hrails.sys.trans hjudged.sys)
  · rw [getO_updThm, hobj4, hkeep _ fun j hj => by
      have hj := List.mem_range.mp hj
      simp only [Obj.THM_TEMP, Obj.THM_BROKEN]; omega]
    exact getO_setO_same _ _ _
  · rw [getO_updThm, hobj4, htemp, if_pos (List.mem_range.mpr hn), inUse_sound hread3 hn,
      getO_setO_ne _ _ (by simp only [Obj.THM_BROKEN, Obj.THM_XOFS]; omega), hoffset n hn]
  · rw [getO_updThm, hobj4, hkeep _ fun j hj => by
      have hj := List.mem_range.mp hj
      simp only [Obj.THM_TEMP, Obj.VMON_MV]; omega,
      getO_setO_ne _ _ (by simp only [Obj.THM_BROKEN, Obj.VMON_MV]; omega), hval r hr hl, bgCorrect, hobj, bgCorrect]
  · rw [getO_updThm, hobj4, hkeep _ fun j hj => by
      have hj := List.mem_range.mp hj
      simp only [Obj.THM_TEMP, Obj.THM_XOFS]; omega,
      getO_setO_ne _ _ (by simp only [Obj.THM_BROKEN, Obj.THM_XOFS]; omega), hoffset n hn]
  · rw [getO_updThm, hobj4, hkeep _ fun j hj => by
      have hj := List.mem_range.mp hj
      simp only [Obj.THM_TEMP, Obj.THM_SHUTDOWN]; omega,
      getO_setO_ne _ _ (by simp only [Obj.THM_BROKEN, Obj.THM_SHUTDOWN]; omega),
      hrest _ fun r hr => by simp only [Obj.VMON_MV, Obj.THM_SHUTDOWN]; omega]
    exact hobj _

/-- What a poll has taken is read off the readings, the objects and the system state. -/
theorem Polled.of_eq {raws : List Int} {mv : List Nat} {a b c : World} (h : Polled raws mv a b)
    (hread : Machine.readings c = Machine.readings b) (hsys : c.sys = b.sys) (hobj : ∀ k, getO c k = getO b k) :
    Polled raws mv a c where
  readings := hread.trans h.readings
  sys := hsys.trans h.sys
  broken := (hobj _).trans h.broken
  temps n hn := (hobj _).trans (h.temps n hn)
  rails r hr hl := (hobj _).trans (h.rails r hr hl)
  offsets n hn := (hobj _).trans (h.offsets n hn)
  limits n hn := (hobj _).trans (h.limits n hn)

section
variable {raws : List Int} {diags mv : List Nat} {s : State} (hlen : s.w.thm.sensors.length = 26)
  (hall : AllSound raws diags s.w) (hthr : s.w.thm.throttle = true)
include hlen hall hthr

/-- A poll of sound sensors while the throttle condition stands comes to the shutdown thresholds with the mode as it was
and the readings taken. -/
theorem sensorPoll_sound : ∃ t, sensorPoll raws diags mv s = pollEnd [] t ∧ t.ctl = s.ctl ∧ Polled raws mv s.w t.w := by
  obtain ⟨hpolled, htaken⟩ := polled_of_sound (mv := mv) hlen hall
  have hnone := newLost_sound hpolled.readings
  obtain ⟨hctl, hread, hsys, hobj⟩ := pollThrottle_standing
    (s := { s with w := pollTaken raws diags mv s.w }) (htaken.trans hthr)
  refine ⟨_, ?_, hctl, hpolled.of_eq hread hsys hobj⟩
  rw [sensorPoll_eq, pollLost, hnone, List.foldl_nil]

variable {t : State} (ht : Polled raws mv s.w t.w)

omit hlen hall hthr
include ht

theorem shutsDown_iff {n : Nat} (hn : n < 26) : getO t.w (Obj.THM_SHUTDOWN n) ≤ inUse t.w n ↔
    getO s.w (Obj.THM_SHUTDOWN n) ≤ raws.getD n 0 + getO s.w (Obj.THM_XOFS n) := by
  rw [inUse_sound ht.readings hn, ht.offsets n hn, ht.limits n hn]

theorem pollEnd_cool (hcool : ∀ n, n < 26 → raws.getD n 0 + getO s.w (Obj.THM_XOFS n) < getO s.w (Obj.THM_SHUTDOWN n)) :
    pollEnd [] t = t := by
  have hnone : ((List.range 26).find? fun n => getO t.w (Obj.THM_SHUTDOWN n) ≤ inUse t.w n) = none := by
    refine List.find?_eq_none.mpr fun n hn => ?_
    rw [decide_eq_true_iff, shutsDown_iff ht (List.mem_range.mp hn)]
    exact not_le.mpr (hcool n (List.mem_range.mp hn))
  rw [pollEnd, hnone]
  exact if_pos rfl

theorem pollEnd_hot (hhot : ∃ n, n < 26 ∧ getO s.w (Obj.THM_SHUTDOWN n) ≤ raws.getD n 0 + getO s.w (Obj.THM_XOFS n)) :
    ∃ n v, pollEnd [] t = thermalShutdown 1 n v t := by
  obtain ⟨n, hn, hle⟩ := hhot
  have hsome : ((List.range 26).find? fun n => getO t.w (Obj.THM_SHUTDOWN n) ≤ inUse t.w n).isSome := by
    refine List.find?_isSome.mpr ⟨n, List.mem_range.mpr hn, ?_⟩
    rw [decide_eq_true_iff, shutsDown_iff ht hn]
    exact hle
  obtain ⟨m, hm⟩ := Option.isSome_iff_exists.mp hsome
  refine ⟨m, inUse t.w m, ?_⟩
  rw [pollEnd, hm]

end

end Sys2Proof.Machine
end

section
/-! Obligation O20. -/
open Sys2Proof Sys2Proof.Machine

/-- Settles O20: a poll of sound sensors comes to the shutdown thresholds with the readings taken, and each judging of a
sensor is one case of `judgeSensor_eq`. -/
theorem sensorPolls : Obligations.SensorPolls := by
  refine ⟨fun s raws diags mv hon hthr hlen hall => ⟨fun hcool => ?cool, fun hhot hmode hstandby => ?hot⟩,
    fun w raws diags n hn => ⟨fun hsound hbad => ?broken, fun c hlow hhigh hgood hclk => ⟨fun hdue => ?restored, fun hearly => ?early⟩,
      fun k hk => judgeSensor_others raws diags w n hk⟩⟩
  case cool =>
    obtain ⟨t, hpoll, hctl, ht⟩ := sensorPoll_sound (s := fresh s) (mv := mv) hlen hall hthr
    have hdone := hpoll.trans (pollEnd_cool (s := fresh s) ht hcool)
    refine ⟨_, onState_when (c := fun s => powered s.ctl.mode) (sensorPoll raws diags mv) hon, ?_, ?_, fun n hn => ?_,
      fun r hr hl => ?_⟩
    · rw [runState, hdone]
      exact hctl
    · rw [runState, getO_settle _ (by decide) (by decide), hdone]
      exact ht.broken
    · rw [runState, getO_settle _ (by simp only [Obj.THM_TEMP, Obj.EVT_LOG_DROPPED]; omega)
        (by simp only [Obj.THM_TEMP, Obj.NET_CAN_EMCY_LOST]; omega), hdone]
      exact ht.temps n hn
    · rw [runState, getO_settle _ (by simp only [Obj.VMON_MV, Obj.EVT_LOG_DROPPED]; omega)
        (by simp only [Obj.VMON_MV, Obj.NET_CAN_EMCY_LOST]; omega), hdone]
      exact ht.rails r hr hl
  case hot =>
    obtain ⟨t, hpoll, hctl, ht⟩ := sensorPoll_sound (s := fresh s) (mv := mv) hlen hall hthr
    obtain ⟨n, v, hend⟩ := pollEnd_hot (s := fresh s) ht hhot
    have hdone := hpoll.trans hend
    have hmode' : t.ctl.mode = s.ctl.mode := congrArg Ctl.mode hctl
    obtain ⟨hboot, hprev, hhold, hjournal⟩ := thermalShutdown_boot 1 n v (s := t) (hmode' ▸ hmode) (ht.sys ▸ hstandby)
    refine ⟨_, onState_when (c := fun s => powered s.ctl.mode) (sensorPoll raws diags mv) hon, ?_, ?_, ?_, ?_⟩
    · rw [runState, hdone]
      exact hboot
    · rw [runState, hdone]
      exact hprev.trans hmode'
    · rw [runState, settle_sys, hdone]
      exact hhold
    · rw [runState, settle_thm, hdone]
      exact hjournal
  case broken =>
    have hbroken := judgeSensor_breaks raws diags hn hsound hbad
    refine ⟨hbroken, ?_⟩
    rw [inUse, if_pos (hbroken ▸ hbad), getO_judgeSensor]
  case restored =>
    obtain ⟨hraw, hbroken⟩ := judgeSensor_restores raws diags hn hlow hhigh hgood hclk
    rw [if_pos hdue] at hbroken
    refine ⟨hbroken, ?_⟩
    rw [inUse, if_neg (fun h => h hbroken), hraw, getO_judgeSensor]
  case early =>
    exact (judgeSensor_restores raws diags hn hlow hhigh hgood hclk).2.trans (if_neg (not_le.mpr hearly))

end

section
/-! SUPPORT. The half-line switch and overspeed (R76 to R80). -/

namespace Sys2Proof.Machine

theorem WorldFrame.lck {parts : List Part} {objs : Nat → Bool} {a b : World} (h : WorldFrame parts objs a b)
    (hp : .lck ∉ parts) : b.lck = a.lck := h.1 .lck hp

/-! ### The half-line switch -/

section
variable {parts : List Part} {objs : Nat → Bool} (w : World)

theorem worldFrame_updBar (hp : .jq ∈ parts) (b : Nat) (f : BarJq → BarJq) : WorldFrame parts objs w (updBar w b f) :=
  worldFrame_jq w hp _

variable (hj : .jq ∈ parts) (hl : .links ∈ parts) (hf : .fire ∈ parts)
include hj hl hf

/-- A switch is handed to every bar and sent to the heads before the line clock notes it. -/
theorem insertSwitch_hands (to600 : Bool) (wB : Int) (tag : Nat) : ∃ u, WorldFrame parts objs w u ∧
    insertSwitch w to600 wB tag =
      { u with lck := { u.lck with hlWant := none, hlAfter := none, hl600 := to600, hlLast := some wB } } := by
  unfold insertSwitch
  extract_lets w1 w2
  have hbars : WorldFrame parts objs w w1 := .foldl (fun u b _ => worldFrame_updBar u hj b _) w
  have hsent : WorldFrame parts objs w1 w2 :=
    .foldl (fun _ _ _ => .foldl (fun u _ _ => worldFrame_sendPhases u hl hf _ _ _) _) _
  exact ⟨w2, hbars.trans hsent, rfl⟩

theorem worldFrame_placeSwitch (hk : .lck ∈ parts) : WorldFrame parts objs w (placeSwitch w) := by
  unfold placeSwitch
  split
  · refine .ite (worldFrame_lck w hk _) ?_
    obtain ⟨u, hu, hdone⟩ := insertSwitch_hands (parts := parts) (objs := objs) w hj hl hf _ _ _
    rw [hdone]
    exact hu.trans (worldFrame_lck u hk _)
  · exact .refl w

end

/-- A wanted switch is placed, or stays wanted: what the line clock keeps of it. -/
theorem placeSwitch_cases (w : World) : (placeSwitch w).lck = w.lck ∨
    (∃ x, (placeSwitch w).lck = { w.lck with hlAfter := x }) ∨
    ∃ to600 x, w.lck.hlWant = some to600 ∧
      (placeSwitch w).lck = { w.lck with hlWant := none, hlAfter := none, hl600 := to600, hlLast := x } := by
  unfold placeSwitch
  split
  · next to600 e es hwant hbounds =>
    split
    · exact .inr (.inl ⟨_, rfl⟩)
    · obtain ⟨u, hu, hdone⟩ := insertSwitch_hands (parts := [.jq, .links, .fire]) (objs := noObj) w (by decide) (by decide)
        (by decide) to600 e.1 e.2
      refine .inr (.inr ⟨to600, some e.1, hwant, ?_⟩)
      rw [hdone, ← hu.lck (by decide)]
  · exact .inl rfl

theorem placeSwitch_overRow (w : World) : (placeSwitch w).lck.overRow = w.lck.overRow := by
  rcases placeSwitch_cases w with h | ⟨x, h⟩ | ⟨to600, x, -, h⟩ <;> rw [h]

theorem placeSwitch_returnSince (w : World) : (placeSwitch w).lck.returnSince = w.lck.returnSince := by
  rcases placeSwitch_cases w with h | ⟨x, h⟩ | ⟨to600, x, -, h⟩ <;> rw [h]

/-- A switch that is wanted stays wanted, or its resolution is in force. -/
theorem placeSwitch_wanted {w : World} {to600 : Bool} (hwant : w.lck.hlWant = some to600) :
    (placeSwitch w).lck.hlWant = some to600 ∨ (placeSwitch w).lck.hl600 = to600 := by
  rcases placeSwitch_cases w with h | ⟨x, h⟩ | ⟨res, x, hres, h⟩
  · exact .inl (by rw [h, hwant])
  · exact .inl (by rw [h, hwant])
  · exact .inr (by rw [h]; exact Option.some.inj (hres.symm.trans hwant))

/-! ### What is sent plays no part in the demand -/

section
variable (s : State)

theorem chainOfHeads_fresh (d h base : Nat) (l : List Head) :
    chainOfHeads (fresh s).w d h base l = chainOfHeads s.w d h base l := by
  induction l generalizing h base with
  | nil => rfl
  | cons x l ih => exact congrArg₂ List.cons rfl (ih _ _)

theorem chainOfDrivers_fresh (d base : Nat) (l : List Driver) :
    chainOfDrivers (fresh s).w d base l = chainOfDrivers s.w d base l := by
  induction l generalizing d base with
  | nil => rfl
  | cons x l ih =>
    rw [chainOfDrivers, chainOfDrivers, chainOfHeads_fresh]
    exact congrArg _ (ih _ _)

theorem chain_fresh (p : Nat) : chain (fresh s).w p = chain s.w p := if_congr Iff.rfl (chainOfDrivers_fresh s 0 0 _) rfl

theorem fMax_fresh (b : Nat) : fMax (fresh s).w b = fMax s.w b := by
  simp only [fMax, attachedHeads, chain_fresh]
  rfl

theorem demandAbove_fresh (r : Nat) (pct : Int) : demandAbove (fresh s).w r pct = demandAbove s.w r pct := by
  rw [demandAbove, fMax_fresh]
  rfl

theorem rowAbove_fresh (pct : Int) : rowAbove (fresh s).w pct = rowAbove s.w pct := by
  simp only [rowAbove, demandAbove_fresh]

theorem aboveStop_fresh (r : Nat) : aboveStop (fresh s).w r = aboveStop s.w r := by
  rw [aboveStop, fMax_fresh]
  rfl

theorem belowReturn_fresh : belowReturn (fresh s).w = belowReturn s.w := by
  simp only [belowReturn, fMax_fresh]
  rfl

end

/-! ### Episodes of overspeed -/

section
variable {w : World}

theorem overWarn_begins {r : Nat} (hnone : w.lck.warnRow = none)
    (habove : rowAbove w (getO w Obj.LCK_OVS_WARN_PCT) = some r) :
    overWarn w = raise { w with lck := { w.lck with warnRow := some r } } Ev.OVERSPEED_WARN r 1 := by
  rw [overWarn, hnone, habove]

theorem overWarnEnd_ends {r : Nat} (hrow : w.lck.warnRow = some r)
    (hbelow : rowAbove w (getO w Obj.LCK_OVS_WARN_PCT - 2) = none) :
    overWarnEnd w = raise { w with lck := { w.lck with warnRow := none } } Ev.OVERSPEED_WARN r 0 := by
  rw [overWarnEnd, hrow, hbelow]

theorem overspeed_begins (print : Bool) {r : Nat} (hnone : w.lck.overRow = none) (habove : rowAbove w 100 = some r) :
    ∃ u, u.lck.overRow = some r ∧ overspeed print w = placeSwitch u := by
  unfold overspeed
  rw [hnone, habove]
  exact ⟨_, rfl, rfl⟩

theorem overspeedEnd_ends (hbelow : rowAbove w 100 = none) : (overspeedEnd w).lck.overRow = none := by
  rw [overspeedEnd, hbelow]

/-- The world that has taken the request of overspeed into its line clock. -/
def stopAsked (w : World) (r : Nat) : World :=
  { raise w Ev.OVERSPEED_STOP r (fracRound (rowDemand w r)).toNat with
    lck := { w.lck with stopReq := true, belowSince := none } }

theorem overStop_asks {r : Nat} (hrow : ((List.range 16).find? fun r =>
      decide (getN w Obj.LCK_OVS_STOP_LINES ≤ (rowAt w r).stopRun) && aboveStop w r) = some r)
    (hreq : w.lck.stopReq = false) : overStop w = stopSrc (stopAsked w r) 0 true := by
  rw [overStop, hrow]
  exact if_neg (Bool.eq_false_iff.mp hreq)

theorem overStopRelease_due {c : Nat} (hbelow : rowAbove w 100 = none) (hsince : w.lck.belowSince = some c)
    (hreq : w.lck.stopReq = true) (hdue : c + msClk 100 ≤ w.clk) :
    overStopRelease w = stopSrc { w with lck := { w.lck with stopReq := false } } 0 false := by
  rw [overStopRelease, hbelow, hsince]
  exact if_pos ⟨hreq, hdue⟩

theorem halflineReturn_due {c : Nat} (h600 : w.lck.hl600 = true) (hset : (nextSet w 0).res600 = true)
    (hmode : getO w Obj.LCK_RES_MODE = 2) (hbelow : belowReturn w = true) (hsince : w.lck.returnSince = some c)
    (hdue : c + msClk (getN w Obj.LCK_HL_HOLD_MS) ≤ w.clk) :
    halflineReturn w = placeSwitch { w with lck := { w.lck with hlWant := some false, returnSince := none } } := by
  have hgo : ¬ (¬ w.lck.hl600 ∨ getO w Obj.LCK_RES_MODE ≠ 2 ∨ (nextSet w 0).res600 = false) := by
    simp [h600, hset, hmode]
  rw [halflineReturn, if_neg hgo, if_neg (not_not.mpr hbelow), hsince]
  exact if_pos hdue

end

theorem stopSrc_lck (w : World) (b : Nat) (on : Bool) : (stopSrc w b on).lck = w.lck :=
  (worldFrame_stopSrc (parts := []) (objs := objsOf [Obj.SUP_STOP_SRC]) w (by decide) b on).lck (by decide)

end Sys2Proof.Machine
end

section
/-! Obligation O15. -/
open Sys2Proof Sys2Proof.Machine

/-- Settles O15: each command meets its rule under its condition, and the placement of a switch keeps the episode. -/
theorem overspeedEpisodes : Obligations.OverspeedEpisodes := by
  refine fun s hon => ⟨fun r hnone habove => ?warn, fun r hrow hbelow => ?warnEnd, fun r hnone habove => ?begins,
    fun hbelow => ?overEnd, fun r hrow hprint hreq => ?stop, fun c hbelow hsince hreq hdue => ?release,
    fun c hprint h600 hset hmode hbelow hsince hdue => ?ret⟩
  case warn =>
    have hdone := overWarn_begins (w := (fresh s).w) hnone ((rowAbove_fresh s _).trans habove)
    refine ⟨_, onWorld_powered overWarn hon, ?_, fun hquiet => reports_runMeaning hquiet hdone rfl⟩
    rw [runMeaning, settle_lck, hdone]
    rfl
  case warnEnd =>
    have hdone := overWarnEnd_ends (w := (fresh s).w) hrow ((rowAbove_fresh s _).trans hbelow)
    refine ⟨_, onWorld_powered overWarnEnd hon, ?_, fun hquiet => reports_runMeaning hquiet hdone rfl⟩
    rw [runMeaning, settle_lck, hdone]
    rfl
  case begins =>
    obtain ⟨u, hu, hdone⟩ := overspeed_begins (w := (fresh s).w) (inPrint s.ctl.mode) hnone
      ((rowAbove_fresh s 100).trans habove)
    refine ⟨_, onWorld_whenDo (c := fun c => powered c.mode) (fun c => overspeed (inPrint c.mode)) hon, ?_⟩
    rw [runMeaning, settle_lck, hdone, placeSwitch_overRow, hu]
  case overEnd =>
    refine ⟨_, onWorld_powered overspeedEnd hon, ?_⟩
    rw [runMeaning, settle_lck]
    exact overspeedEnd_ends (w := (fresh s).w) ((rowAbove_fresh s 100).trans hbelow)
  case stop =>
    have hfirst : ((List.range 16).find? fun r => decide (getN (fresh s).w Obj.LCK_OVS_STOP_LINES ≤ (rowAt (fresh s).w r).stopRun) &&
        aboveStop (fresh s).w r) = some r := by
      simp only [aboveStop_fresh]
      exact hrow
    have hdone := overStop_asks (w := (fresh s).w) hfirst hreq
    refine ⟨_, onWorld_whenDo (c := fun c => inPrint c.mode) (fun _ => overStop) hprint, ?_, ?_⟩
    · rw [runMeaning, settle_lck, hdone, stopSrc_lck]
      rfl
    · rw [runMeaning, getN_settle _ (by decide) (by decide), hdone, getN_stopSrc]
      rfl
  case release =>
    have hdone := overStopRelease_due (w := (fresh s).w) ((rowAbove_fresh s 100).trans hbelow) hsince hreq hdue
    refine ⟨_, onWorld_always overStopRelease s, ?_, ?_⟩
    · rw [runMeaning, settle_lck, hdone, stopSrc_lck]
    · rw [runMeaning, getN_settle _ (by decide) (by decide), hdone, getN_stopSrc]
      rfl
  case ret =>
    have hdone := halflineReturn_due (w := (fresh s).w) h600 hset hmode ((belowReturn_fresh s).trans hbelow) hsince hdue
    refine ⟨_, onWorld_whenDo (c := fun c => inPrint c.mode) (fun _ => halflineReturn) hprint, ?_, ?_⟩
    · rw [runMeaning, settle_lck, hdone, placeSwitch_returnSince]
    · rw [runMeaning, settle_lck, hdone]
      exact placeSwitch_wanted rfl

end

section
/-! SUPPORT. What a change of the device state may write (R436 to R442). -/

namespace Sys2Proof.Machine

/-! ### Stores -/

theorem mapGet_mapFilter_of {α : Type} {p : Nat → Bool} {k : Nat} (h : p k = true) (m : KMap α) :
    mapGet (mapFilter m p) k = mapGet m k := by
  induction m with
  | nil => rfl
  | cons e r ih =>
    obtain ⟨j, v⟩ := e
    by_cases hj : p j = true
    · rw [mapFilter, List.filter_cons_of_pos (p := fun e : Nat × α => p e.1) hj, mapGet, mapGet]
      exact if_congr Iff.rfl rfl ih
    · have hne : j ≠ k := fun hjk => hj (hjk ▸ h)
      rw [mapFilter, List.filter_cons_of_neg (p := fun e : Nat × α => p e.1) hj, mapGet, if_neg hne]
      exact ih

theorem mapGet_mapMerge_of {α : Type} {k : Nat} (n : KMap α) (h : ∀ e ∈ n, e.1 ≠ k) (m : KMap α) :
    mapGet (mapMerge m n) k = mapGet m k :=
  foldl_keeps_mem (mapGet · k) (fun a e he => mapGet_mapPut_ne a e.2 (h e he)) m

/-- Replacing the part of a store whose keys satisfy `p` leaves the other keys. -/
theorem mapGet_mapReplace_of {α : Type} {p : Nat → Bool} {k : Nat} (h : p k = false) (m n : KMap α) :
    mapGet (mapReplace m n p) k = mapGet m k := by
  rw [mapReplace, mapGet_mapMerge_of, mapGet_mapFilter_of (p := fun k => !p k) (by rw [h]; rfl)]
  rintro e he rfl
  have hp : p e.1 = true := (List.mem_filter.mp he).2
  exact Bool.false_ne_true (h.symm.trans hp)

/-! ### Bits -/

theorem bitOf_eq_testBit (n i : Nat) : bitOf n i = n.testBit i := by
  rw [bitOf, Nat.testBit_eq_decide_div_mod_eq]
  rfl

/-- The halves of a number at bit `a`, with that bit set. -/
theorem setBit_eq (x a : Nat) (v : Bool) : setBit x a v = 2 ^ a * (2 * (x / 2 ^ a / 2) + b2n v) + x % 2 ^ a := by
  have hv : b2n v % 2 = b2n v := by cases v <;> rfl
  have hx : 2 ^ a * (x / 2 ^ a) + x % 2 ^ a = x := Nat.div_add_mod x (2 ^ a)
  have hq : 2 * (x / 2 ^ a / 2) + x / 2 ^ a % 2 = x / 2 ^ a := Nat.div_add_mod _ 2
  have hsplit : 2 ^ a * (2 * (x / 2 ^ a / 2)) + 2 ^ a * (x / 2 ^ a % 2) = 2 ^ a * (x / 2 ^ a) := by rw [← Nat.mul_add, hq]
  rw [setBit, setField, field, pow_one, hv, Nat.mul_add, Nat.mul_comm (x / 2 ^ a % 2), Nat.mul_comm (b2n v)]
  omega

theorem bitOf_setBit_ne (x : Nat) {a b : Nat} (v : Bool) (h : a ≠ b) : bitOf (setBit x a v) b = bitOf x b := by
  have hlow : x % 2 ^ a < 2 ^ a := Nat.mod_lt _ (Nat.two_pow_pos a)
  have hx : x.testBit b = (2 ^ a * (x / 2 ^ a) + x % 2 ^ a).testBit b := by rw [Nat.div_add_mod]
  rw [bitOf_eq_testBit, bitOf_eq_testBit, setBit_eq, hx, Nat.testBit_two_pow_mul_add _ hlow, Nat.testBit_two_pow_mul_add _ hlow]
  split
  · rfl
  · obtain ⟨k, hk⟩ : ∃ k, b - a = k + 1 := ⟨b - a - 1, by omega⟩
    have hv : b2n v < 2 := by cases v <;> decide
    have hdiv : (2 * (x / 2 ^ a / 2) + b2n v) / 2 = x / 2 ^ a / 2 := by omega
    rw [hk, Nat.testBit_succ, Nat.testBit_succ, hdiv]

theorem bitOf_setBit_same (x a : Nat) (v : Bool) : bitOf (setBit x a v) a = v := by
  have hlow : x % 2 ^ a < 2 ^ a := Nat.mod_lt _ (Nat.two_pow_pos a)
  rw [bitOf_eq_testBit, setBit_eq, Nat.testBit_two_pow_mul_add _ hlow, if_neg (Nat.lt_irrefl a), Nat.sub_self]
  cases v <;> simp [b2n, Nat.testBit_zero]
/-! ### Frames of the stores -/

section
variable {parts : List Part} {objs : Nat → Bool} (w : World)

theorem worldFrame_setSh (hp : .shadow ∈ parts) (k : Nat) (v : Int) : WorldFrame parts objs w (setSh w k v) := by
  refine ⟨fun p hq => ?_, fun _ _ => rfl⟩
  cases p
  case shadow => exact absurd hp hq
  all_goals simp only [samePart, setSh, and_self]

theorem worldFrame_adjustments (hp : .adjustments ∈ parts) (l : List AdjRec) :
    WorldFrame parts objs w { w with dict := { w.dict with adj := l } } := by
  refine ⟨fun p hq => ?_, fun _ _ => rfl⟩
  cases p
  case adjustments => exact absurd hp hq
  all_goals simp only [samePart, and_self]

/-- Replacing objects in force moves those that the replacement covers. -/
theorem worldFrame_replace {p : Nat → Bool} (h : ∀ k, p k = true → objs k = true) (m : KMap Int) :
    WorldFrame parts objs w { w with dict := { w.dict with obj := mapReplace w.dict.obj m p } } := by
  refine ⟨fun q hq => ?_, fun k hk => ?_⟩
  · cases q <;> simp only [samePart, and_self]
  · have hp : p k = false := Bool.eq_false_iff.mpr fun hp => by rw [h k hp] at hk; cases hk
    simp only [getO, mapGetD, mapGet_mapReplace_of hp]

theorem worldFrame_storeLater (hp : .stores ∈ parts) (k : Nat) (v : Int) : WorldFrame parts objs w (storeLater w k v) :=
  worldFrame_stores w hp _ _ _ _ _ _

theorem worldFrame_storeTableLater (hp : .stores ∈ parts) (ix : Nat) : WorldFrame parts objs w (storeTableLater w ix) :=
  worldFrame_stores w hp _ _ _ _ _ _

theorem worldFrame_noteWrite (hf : .free ∈ parts) (hm : .mem ∈ parts) (area unit : Nat) (line : Int) :
    WorldFrame parts objs w (noteWrite area unit line w) := by
  unfold noteWrite
  dsimp only
  split
  · exact .ite (.refl w) (worldFrame_mem w hm _)
  · exact (worldFrame_free w hf _).trans (worldFrame_mem _ hm _)

end

/-! ### What a change of the device state may write -/

/-- The parts that leaving a state writes, besides the web. -/
def leaveParts : List Part :=
  [.free, .sys, .shadow, .tables, .stores, .adjustments, .tim, .lck, .job, .mem, .cal, .jq, .links, .fire, .voi, .ins, .loop]

/-- The objects that leaving a state writes, but for the web-stop requests: those of a commit, and the status of the
chapters of print. -/
def leaveObjs (k : Nat) : Bool := isC k || isHeldKey k || objIn [0x20, 0x21, 0x22, 0x23, 0x26, 0x28, 0x29, 0x2C] k

theorem leaveObjs_held {k : Nat} (h : isHeldKey k = true) : leaveObjs k = true := by
  rw [leaveObjs, h, Bool.or_true, Bool.true_or]

theorem leaveObjs_commit {k : Nat} (h : (isC k && !isHeldKey k) = true) : leaveObjs k = true := by
  rw [leaveObjs, (Bool.and_eq_true_iff.mp h).1, Bool.true_or, Bool.true_or]

abbrev LeaveFrame : World → World → Prop := WorldFrame leaveParts leaveObjs

theorem leaveObjs_page {k : Nat} (h : objIn [0x20, 0x21, 0x22, 0x23, 0x26, 0x28, 0x29, 0x2C] k = true) : leaveObjs k = true := by
  rw [leaveObjs, h, Bool.or_true]

section
variable (w : World)

theorem leaveFrame_setO {k : Nat} (h : objIn [0x20, 0x21, 0x22, 0x23, 0x26, 0x28, 0x29, 0x2C] k = true) (v : Int) :
    LeaveFrame w (setO w k v) := worldFrame_setO w (leaveObjs_page h) v

theorem leaveFrame_adjust (key reason source : Nat) (request applied : Int) :
    LeaveFrame w (adjust w key reason source request applied) := by
  unfold adjust
  extract_lets n ix sub word q a r _ w1 w2 w3 w4 w5 w6 w7 w8
  have h1 : LeaveFrame w w1 := worldFrame_adjustments w (by decide) _
  have h8 : LeaveFrame w1 w8 :=
    .trans (leaveFrame_setO _ (by decide) _) (.trans (leaveFrame_setO _ (by decide) _) (.trans (leaveFrame_setO _ (by decide) _)
      (.trans (leaveFrame_setO _ (by decide) _) (.trans (leaveFrame_setO _ (by decide) _)
        (.trans (leaveFrame_setO _ (by decide) _) (leaveFrame_setO _ (by decide) _))))))
  exact (h1.trans h8).unless (.trans (worldFrame_evt w8 _) (worldFrame_raise _ _ _ _))

/-! ### The rules of a commit -/

theorem leaveFrame_clampSh (k : Nat) (new : Int) : LeaveFrame w (clampSh w k new) := by
  unfold clampSh
  dsimp only
  exact .unless (.refl w) (.trans (worldFrame_setSh w (by decide) _ _) (.trans (worldFrame_storeLater _ (by decide) _ _)
    (.trans (leaveFrame_adjust _ _ _ _ _ _) (leaveFrame_setO _ (by decide) _))))

theorem leaveFrame_ruleFrameStart : LeaveFrame w (ruleFrameStart w) := by
  unfold ruleFrameStart
  dsimp only
  split
  · exact .refl w
  · exact .foldl (fun u n _ => .ite (leaveFrame_clampSh u _ _) (.refl u)) w

theorem leaveFrame_keepRows : LeaveFrame w (keepRows w) :=
  .foldl (fun u _ _ => .trans (.ite (.refl u) (leaveFrame_clampSh u _ _)) (leaveFrame_clampSh _ _ _)) w

theorem leaveFrame_ruleRows (print : Bool) (rs : List Nat) : LeaveFrame w (ruleRows print rs w) := by
  induction rs generalizing w with
  | nil => exact .refl w
  | cons r rs ih =>
    rw [ruleRows]
    exact .ite (.ite (.ite (leaveFrame_keepRows w) ((leaveFrame_clampSh w _ _).trans (ih _)))
      ((leaveFrame_clampSh w _ _).trans (ih _))) (ih w)

theorem leaveFrame_ruleReturn : LeaveFrame w (ruleReturn w) :=
  .ite (.trans (leaveFrame_setO w (by decide) _) (.trans (worldFrame_storeLater _ (by decide) _ _)
    (.trans (leaveFrame_adjust _ _ _ _ _ _) (leaveFrame_setO _ (by decide) _)))) (.refl w)

theorem leaveFrame_ruleLayer (atSetup : Bool) (n : Nat) : LeaveFrame w (ruleLayer atSetup n w) := by
  have hclamp (u : World) (k : Nat) (v : Int) (p : Prop) [Decidable p] : LeaveFrame u (if p then clampSh u k v else u) :=
    .ite (leaveFrame_clampSh u k v) (.refl u)
  unfold ruleLayer
  extract_lets k cfg w1 w2 w3 w4 m map alpha w5 _ w6 ko bad
  have h1 : LeaveFrame w w1 := hclamp w _ _ _
  have h2 : LeaveFrame w1 w2 := .ite (leaveFrame_clampSh w1 _ _) (hclamp w1 _ _ _)
  have h3 : LeaveFrame w2 w3 := hclamp w2 _ _ _
  have h4 : LeaveFrame w3 w4 := hclamp w3 _ _ _
  have h5 : LeaveFrame w4 w5 := .ite (.refl w4) (leaveFrame_clampSh w4 _ _)
  have h6 : LeaveFrame w5 w6 := by
    clear_value w5
    simp only [w6]
    split
    · exact .refl w5
    · split
      · exact .refl w5
      · refine .trans (.ite (worldFrame_cal w5 (by decide) _) (.refl w5)) (.trans (leaveFrame_clampSh _ _ _) (hclamp _ _ _ _))
  exact h1.trans (h2.trans (h3.trans (h4.trans (h5.trans (h6.trans (leaveFrame_clampSh w6 _ _))))))

theorem leaveFrame_ruleSpan (print : Bool) : LeaveFrame w (ruleSpan print w) := .ite (leaveFrame_keepRows w) (.refl w)

theorem leaveFrame_ruleRedist (b : Nat) : LeaveFrame w (ruleRedist b w) := .ite (leaveFrame_clampSh w _ _) (.refl w)

theorem leaveFrame_ruleInspect : LeaveFrame w (ruleInspect w) := .ite (leaveFrame_clampSh w _ _) (.refl w)

theorem leaveFrame_commitRules (print atSetup : Bool) : LeaveFrame w (commitRules print atSetup w) := by
  unfold commitRules
  extract_lets w1 w2 w3 w4 w5
  have h1 : LeaveFrame w w1 := worldFrame_evt w _
  have h2 : LeaveFrame w1 w2 := leaveFrame_ruleFrameStart w1
  clear_value w2
  have h3 : LeaveFrame w2 w3 := .trans (leaveFrame_ruleRows w2 _ _) (.trans (leaveFrame_ruleReturn _)
    (leaveFrame_ruleSpan _ print))
  clear_value w3
  have h4 : LeaveFrame w3 w4 := .foldl (fun u n _ => leaveFrame_ruleLayer u _ n) w3
  clear_value w4
  have h5 : LeaveFrame w4 w5 := .foldl (fun u b _ => leaveFrame_ruleRedist u b) w4
  clear_value w5
  exact h1.trans (h2.trans (h3.trans (h4.trans (h5.trans (.trans (leaveFrame_ruleInspect w5) (worldFrame_evt _ _))))))

/-! ### The probe windows and the trims -/

theorem winKey_page {n part : Nat} (hn : n < 8) (hp : part < 3) :
    objIn [0x20, 0x21, 0x22, 0x23, 0x26, 0x28, 0x29, 0x2C] (winKey n part) = true := by
  have hpage : winKey n part / 65536 = 0x21 := by
    simp only [winKey, Obj.WEB_PRB_WIN_START]
    omega
  rw [objIn, hpage]
  decide

theorem leaveFrame_winClamp {n part : Nat} (hn : n < 8) (hp : part < 3) (source : Nat) (new : Int) :
    LeaveFrame w (winClamp w n part source new) :=
  .unless (.refl w) (.trans (leaveFrame_setO w (winKey_page hn hp) _) (.trans (leaveFrame_adjust _ _ _ _ _ _)
    (worldFrame_storeLater _ (by decide) _ _)))

theorem leaveFrame_winCheck {n : Nat} (hn : n < 8) (source : Nat) : LeaveFrame w (winCheck w n source) := by
  have hclamp (u : World) (part : Nat) (hp : part < 3) (v : Int) := leaveFrame_winClamp u hn hp source v
  unfold winCheck
  dsimp only
  split
  · exact .trans (.unless (.refl w) (hclamp w 1 (by decide) _)) (.ite (hclamp _ 2 (by decide) _) (.refl _))
  · exact .trans (.unless (.refl w) (hclamp w 1 (by decide) _)) (.ite (hclamp _ 2 (by decide) _) (.refl _))

theorem leaveFrame_newTrims {b : Nat} (hb : b < 8) (row : Nat) : LeaveFrame w (newTrims w b row) := by
  have hgain : objIn [0x20, 0x21, 0x22, 0x23, 0x26, 0x28, 0x29, 0x2C] (Obj.CHL_GAIN b) = true := by
    have hpage : Obj.CHL_GAIN b / 65536 = 0x28 := by
      simp only [Obj.CHL_GAIN]
      omega
    rw [objIn, hpage]
    decide
  unfold newTrims
  extract_lets _ w1
  have h1 : LeaveFrame w w1 := worldFrame_jq w (by decide) _
  exact .ite (h1.trans (worldFrame_loop w1 (by decide) _))
    (h1.trans (.trans (worldFrame_loop w1 (by decide) _) (leaveFrame_setO _ hgain _)))

/-! ### Leaving the print states -/

theorem leaveFrame_chlStore : LeaveFrame w (chlStore w) := by
  have hpair (l : List (Nat × ChainHead)) (a : World × Nat) : LeaveFrame a.1 (l.foldl (fun (a : World × Nat) e =>
      match tablePlace e.2.head.serial (attachedSerials a.1) (a.1.loop.recs.map fun r => (r.1, r.2.serial, r.2.date)) with
      | some i => (updLoop a.1 fun s => { s with recs := mapPut s.recs i (loopRecNow a.1 e.1 e.2) }, a.2 + 1)
      | none => a) a).1 := by
    induction l generalizing a with
    | nil => exact .refl a.1
    | cons e l ih =>
      rw [List.foldl_cons]
      refine .trans ?_ (ih _)
      split
      · exact worldFrame_loop a.1 (by decide) _
      · exact .refl a.1
  have hstored := hpair (allHeads w) (w, 0)
  exact .trans hstored (.trans (worldFrame_loop _ (by decide) _) (.trans (leaveFrame_setO _ (by decide) _)
    (.trans (worldFrame_storeTableLater _ (by decide) _) (worldFrame_raise _ _ _ _))))

theorem leaveFrame_autoStore : LeaveFrame w (autoStore w) := by
  unfold autoStore
  dsimp only
  exact .ite (leaveFrame_chlStore w) (.refl w)

theorem leaveFrame_endSkips (r : Nat) : LeaveFrame w (endSkips w r) := by
  unfold endSkips
  dsimp only
  exact .unless (.refl w) (.trans (worldFrame_lck w (by decide) _) (worldFrame_raise _ _ _ _))

theorem leaveFrame_endShift (r : Nat) : LeaveFrame w (endShift w r) := by
  unfold endShift
  extract_lets n w1
  have h1 : LeaveFrame w w1 := worldFrame_lck w (by decide) _
  exact h1.unless (worldFrame_raise w1 _ _ _)

theorem leaveFrame_endBlank {r : Nat} (hr : r < 16) : LeaveFrame w (endBlank w r) := by
  unfold endBlank
  extract_lets b n w1 w2
  have h2 : LeaveFrame w w2 := .trans (worldFrame_jq w (by decide) _) (worldFrame_raise w1 _ _ _)
  refine .unless (.refl w) (h2.trans (.foldl (fun u p hp => .trans (leaveFrame_setO u ?_ _) (worldFrame_fire _ (by decide) _)) w2))
  have hp16 : p < 16 := by
    simp only [barPorts, List.mem_cons, List.not_mem_nil, or_false] at hp
    omega
  have hpage : Obj.FIR_SWITCH_BLANK_CNT p / 65536 = 0x26 := by
    simp only [Obj.FIR_SWITCH_BLANK_CNT]
    omega
  rw [objIn, hpage]
  decide

theorem leaveFrame_endPhase (b row : Nat) : LeaveFrame w (endPhase w b row) := by
  unfold endPhase
  dsimp only
  exact .unless (.refl w) (.trans (worldFrame_jq w (by decide) _) (worldFrame_raise _ _ _ _))

theorem leaveFrame_leavePorts : LeaveFrame w (leavePorts w) := by
  unfold leavePorts
  extract_lets w1 w2
  have h1 : LeaveFrame w w1 := .foldl (fun u r hr => leaveFrame_endBlank u (List.mem_range.mp hr)) w
  have h2 : LeaveFrame w1 w2 := .foldl (fun u r _ => leaveFrame_endPhase u _ _) w1
  exact h1.trans (h2.trans (.foldl (fun u p _ => .trans (.foldl (fun v e _ => worldFrame_raise v _ _ _) u)
    (worldFrame_fire _ (by decide) _)) w2))

theorem leaveFrame_newDefect (d : DefectRec) : LeaveFrame w (newDefect w d) :=
  .trans (worldFrame_noteWrite w (by decide) (by decide) 0 0 0) (.trans (worldFrame_job _ (by decide) _)
    (.trans (leaveFrame_setO _ (by decide) _) (worldFrame_job _ (by decide) _)))

theorem leaveFrame_reportFrame (f : FrameRec) (status : Nat) : LeaveFrame w (reportFrame w f status) :=
  .trans (worldFrame_job w (by decide) _) (.trans (leaveFrame_setO _ (by decide) _) (.trans (leaveFrame_setO _ (by decide) _)
    (worldFrame_raise _ _ _ _)))

theorem leaveFrame_takeDeferredStep : LeaveFrame w (takeDeferredStep w) := by
  have hstep (d : Frac) : LeaveFrame w (stepTimer w d false) := by
    unfold stepTimer
    extract_lets w1 n w2 w3 w4 _ w5
    have h4 : LeaveFrame w w4 := .trans (worldFrame_tim w (by decide) _) (.trans (leaveFrame_setO w1 (by decide) _)
      (.trans (leaveFrame_setO w2 (by decide) _) (leaveFrame_setO w3 (by decide) _)))
    exact h4.trans ((worldFrame_tim w4 (by decide) _).trans (worldFrame_raiseInt w5 _ _ _))
  unfold takeDeferredStep
  split
  · exact .refl w
  · exact .ite (hstep _) (.trans (worldFrame_tim w (by decide) _) (leaveFrame_setO _ (by decide) _))

theorem leaveFrame_flushTrims (b : Nat) : LeaveFrame w (flushTrims w b) :=
  .trans (worldFrame_jq w (by decide) _) (.foldl (fun u e _ => .ite (worldFrame_jq u (by decide) _)
    (worldFrame_jq u (by decide) _)) _)

theorem leaveFrame_stopScan : LeaveFrame w (stopScan w) :=
  .trans (worldFrame_voi w (by decide) _) (worldFrame_ins _ (by decide) _)

theorem leaveFrame_dropCapture : LeaveFrame w (dropCapture w) := by
  unfold dropCapture
  split
  · exact .refl w
  · exact .trans (worldFrame_ins w (by decide) _) (worldFrame_raise _ _ _ _)

theorem leaveFrame_leaveService : LeaveFrame w (leaveService w) :=
  .ite (.refl w) (.trans (leaveFrame_setO w (by decide) _) (worldFrame_raise _ _ _ _))

theorem worldFrame_startEnum {parts : List Part} {objs : Nat → Bool} (hl : .links ∈ parts) (hf : .fire ∈ parts) (i : Nat)
    (keep : Bool) : WorldFrame parts objs w (startEnum w i keep) := by
  unfold startEnum
  extract_lets w1 w2 a
  have h1 : WorldFrame parts objs w w1 := worldFrame_updLink w hl i _
  have h2 : WorldFrame parts objs w1 w2 := .ite (.refl w1) (worldFrame_sendRaw w1 hl hf _ _ _ _)
  exact h1.trans (h2.trans (.trans (worldFrame_updLink w2 hl i _) (worldFrame_sendRaw _ hl hf _ _ _ _)))

theorem worldFrame_discoverArrival {parts : List Part} {objs : Nat → Bool} (hl : .links ∈ parts) (hf : .fire ∈ parts)
    (i : Nat) : WorldFrame parts objs w (discoverArrival w i) :=
  .trans (worldFrame_updLink w hl i _) (worldFrame_startEnum _ hl hf i _)

theorem leaveFrame_heldArrivals : LeaveFrame w (heldArrivals w) :=
  .ite (.refl w) (.foldl (fun u i _ => .ite (worldFrame_discoverArrival u (by decide) (by decide) i) (.refl u)) w)

theorem leaveFrame_noteChl (m : DevState) : LeaveFrame w (noteChl m w) := by
  unfold noteChl
  dsimp only
  exact .unless (.refl w) (.trans (leaveFrame_setO w (by decide) _) (worldFrame_raise _ _ _ _))

end

/-! ### A change of the device state -/

/-- What a change of the device state keeps: all but the parts and objects that leaving a state writes, of the web whether its
speed is valid and whether it stands still, and of the web-stop requests all but those that leaving the print states ends. -/
structure Leaves (a b : World) : Prop where
  frame : WorldFrame (.web :: leaveParts) (fun k => leaveObjs k || k == Obj.SUP_STOP_SRC) a b
  stop : ∀ n, n ≠ 1 → n ≠ 2 → n ≠ 3 → bitOf (getN b Obj.SUP_STOP_SRC) n = bitOf (getN a Obj.SUP_STOP_SRC) n
  valid : b.web.valid = a.web.valid
  standstill : b.web.standstill = a.web.standstill

theorem Leaves.trans {a b c : World} (hab : Leaves a b) (hbc : Leaves b c) : Leaves a c :=
  ⟨hab.frame.trans hbc.frame, fun n h1 h2 h3 => (hbc.stop n h1 h2 h3).trans (hab.stop n h1 h2 h3),
    hbc.valid.trans hab.valid, hbc.standstill.trans hab.standstill⟩

theorem LeaveFrame.leaves {a b : World} (h : LeaveFrame a b) : Leaves a b := by
  have hweb : b.web = a.web := h.1 .web (by decide)
  refine ⟨h.mono (fun _ hp => List.mem_cons_of_mem _ hp) fun k hk => by rw [hk, Bool.true_or], fun n _ _ _ => ?_,
    congrArg Web.valid hweb, congrArg Web.standstill hweb⟩
  rw [getN_congr (h.2 Obj.SUP_STOP_SRC (by decide))]

theorem Leaves.refl (a : World) : Leaves a a := LeaveFrame.leaves (.refl a)

theorem Leaves.ite {a x y : World} {p : Prop} [Decidable p] (hx : Leaves a x) (hy : Leaves a y) :
    Leaves a (if p then x else y) := by
  split
  · exact hx
  · exact hy

theorem Leaves.foldl {α : Type} {f : World → α → World} {l : List α} (h : ∀ u x, x ∈ l → Leaves u (f u x)) (w : World) :
    Leaves w (l.foldl f w) := by
  induction l generalizing w with
  | nil => exact .refl w
  | cons x l ih =>
    exact (h w x (List.mem_cons_self ..)).trans (ih (fun u y hy => h u y (List.mem_cons_of_mem _ hy)) _)

/-- Of the web, leaving a state writes neither the validity of the speed nor the standstill. -/
theorem leaves_web (w : World) {v : Web} (hvalid : v.valid = w.web.valid) (hstill : v.standstill = w.web.standstill) :
    Leaves w { w with web := v } :=
  ⟨worldFrame_web w (by decide) v, fun _ _ _ _ => rfl, hvalid, hstill⟩

/-! ### The probes, the end of a commit and the entry to IDLE -/

theorem leaves_winApplyHeld (w : World) {n : Nat} (hn : n < 8) : Leaves w (winApplyHeld w n) := by
  unfold winApplyHeld
  extract_lets h w1
  have h1 : LeaveFrame w w1 := .foldl (fun u i hi => by
    split
    · exact (leaveFrame_setO u (winKey_page hn (List.mem_range.mp hi)) _).trans (worldFrame_storeLater _ (by decide) _ _)
    · exact .refl u) w
  exact (LeaveFrame.leaves h1).trans (leaves_web w1 rfl rfl)

theorem leaves_updPrb (w : World) (n : Nat) (f : Probe → Probe) : Leaves w (updPrb w n f) := leaves_web w rfl rfl

theorem leaves_prbReconf (w old : World) : Leaves w (prbReconf old w) :=
  .foldl (fun u n hn => .ite (.refl u) (.trans (leaves_winApplyHeld u (List.mem_range.mp hn))
    (.trans (LeaveFrame.leaves (leaveFrame_winCheck _ (List.mem_range.mp hn) 0)) (leaves_updPrb _ n _)))) w

theorem leaves_finishCommit (w : World) (f : CommitFin) : Leaves w (finishCommit w f) := by
  unfold finishCommit
  extract_lets before old _ w1 d _ w2 w3 w4 w5
  have h1 : LeaveFrame w w1 := worldFrame_replace w (fun _ => leaveObjs_held) _
  have h2 : Leaves w1 w2 := leaves_web w1 rfl rfl
  have h5 : Leaves w2 w5 := .trans (leaves_prbReconf w2 old) (LeaveFrame.leaves (.trans (leaveFrame_setO _ (by decide) _)
    (worldFrame_raise _ _ _ _)))
  have hdone : Leaves w w5 := (LeaveFrame.leaves h1).trans (h2.trans h5)
  exact .ite (hdone.trans (LeaveFrame.leaves (worldFrame_raise w5 _ _ _))) hdone

theorem leaves_commitNow (w : World) : Leaves w (commitNow w) := by
  have happly (u : World) : Leaves u (applyCommit u none 0 false) := by
    unfold applyCommit
    extract_lets sh old _ _ _ w1 w2 w3 f moved
    have h1 : LeaveFrame u w1 :=
      .trans (worldFrame_replace u (fun _ => leaveObjs_commit) _)
        (.trans (worldFrame_tbl _ (by decide) _) (.trans (worldFrame_job _ (by decide) _) (worldFrame_cal _ (by decide) _)))
    have h3 : LeaveFrame w1 w3 := .trans (leaveFrame_setO w1 (by decide) _) (.ite (leaveFrame_setO _ (by decide) _) (.refl _))
    have htrims : LeaveFrame w3 (moved.foldl (fun v b => newTrims (newTrims v b 0) b 1) w3) := .foldl (fun v b hb => by
      have hb8 := List.mem_range.mp (List.mem_filter.mp hb).1
      exact (leaveFrame_newTrims v hb8 0).trans (leaveFrame_newTrims _ hb8 1)) w3
    exact (LeaveFrame.leaves (h1.trans (h3.trans htrims))).trans (leaves_finishCommit _ f)
  exact (LeaveFrame.leaves (leaveFrame_commitRules w false false)).trans (happly _)

theorem leaves_webIdle (w : World) : Leaves w (webIdle w) := by
  unfold webIdle
  extract_lets _ w1 w2
  have h1 : Leaves w w1 := leaves_web w rfl rfl
  have h2 : Leaves w1 w2 := .ite (.refl w1) (leaves_web w1 rfl rfl)
  refine h1.trans (h2.trans (LeaveFrame.leaves (.foldl (fun u r _ => ?_) w2)))
  unfold encoderRelease
  exact .ite (.trans (worldFrame_lck u (by decide) _) (worldFrame_raise _ _ _ _)) (.refl u)

theorem leaves_stopSrc (w : World) {b : Nat} (hb : b = 1 ∨ b = 2 ∨ b = 3) : Leaves w (stopSrc w b false) := by
  have hweb : (stopSrc w b false).web = w.web :=
    (worldFrame_stopSrc (parts := []) (objs := fun k => k == Obj.SUP_STOP_SRC) w (by decide) b false).1 .web (by decide)
  refine ⟨worldFrame_stopSrc w (by decide) b false, fun n h1 h2 h3 => ?_, congrArg Web.valid hweb,
    congrArg Web.standstill hweb⟩
  rw [getN_stopSrc, bitOf_setBit_ne _ _ (by omega)]

theorem leaves_leaveFrames (w : World) : Leaves w (leaveFrames w) := by
  unfold leaveFrames
  extract_lets w1 w2 _ w3 w4 w5 w6
  have h1 : LeaveFrame w w1 := .foldl (fun u f _ => leaveFrame_reportFrame u f 2) w
  clear_value w1
  have h2 : LeaveFrame w1 w2 := .foldl (fun u b _ => worldFrame_mem u (by decide) _) w1
  clear_value w2
  have h3 : Leaves w2 w3 := (LeaveFrame.leaves (worldFrame_job w2 (by decide) _)).trans
    (.foldl (fun u f _ => leaves_finishCommit u f) _)
  clear_value w3
  have h4 : Leaves w3 w4 := .ite (leaves_commitNow w3) (.refl w3)
  clear_value w4
  have h5 : LeaveFrame w4 w5 := .foldl (fun u m _ => leaveFrame_newDefect u _) w4
  clear_value w5
  have h6 : Leaves w5 w6 := (leaves_stopSrc w5 (.inl rfl)).trans (leaves_stopSrc _ (.inr (.inl rfl)))
  clear_value w6
  have h7 : LeaveFrame w6 { w6 with sys := { w6.sys with pausePending := false } } := worldFrame_sys w6 (by decide) _
  exact (LeaveFrame.leaves (h1.trans h2)).trans (h3.trans (h4.trans ((LeaveFrame.leaves h5).trans (h6.trans (LeaveFrame.leaves (h7.trans
    (worldFrame_job (parts := leaveParts) (objs := leaveObjs) _ (by decide) _)))))))

theorem leaves_leavePrint (w : World) : Leaves w (leavePrint w) := by
  unfold leavePrint
  extract_lets w1 w2 w3
  have h1 : LeaveFrame w w1 := .foldl (fun u r _ => (leaveFrame_endSkips u r).trans (leaveFrame_endShift _ r)) w
  clear_value w1
  have hcompose (u : World) : LeaveFrame u (leaveCompose u) := .trans (worldFrame_mem u (by decide) _)
    (.trans (leaveFrame_setO _ (by decide) _) (worldFrame_cal _ (by decide) _))
  have h2 : Leaves w1 w2 := (leaves_leaveFrames w1).trans (LeaveFrame.leaves ((leaveFrame_leavePorts _).trans (hcompose _)))
  clear_value w2
  have h3 : LeaveFrame w2 w3 := .foldl (fun u b _ => (worldFrame_jq u (by decide) _).trans (leaveFrame_flushTrims _ b)) w2
  clear_value w3
  have h4 : LeaveFrame w3 { w3 with sys := { w3.sys with pausePending := false } } := worldFrame_sys w3 (by decide) _
  exact (LeaveFrame.leaves h1).trans (h2.trans (LeaveFrame.leaves (h3.trans (h4.trans
    ((worldFrame_lck (parts := leaveParts) (objs := leaveObjs) _ (by decide) _).trans (leaveFrame_takeDeferredStep _))))))

theorem leaves_changeFx (old : DevState) {new : DevState} (hnew : new ≠ .calibrate) (w : World) : Leaves w (changeFx old new w) := by
  unfold changeFx
  extract_lets w1 w2 w3 w4 w5 w6 _ w7
  have h1 : Leaves w w1 := .ite ((leaves_stopSrc w (.inr (.inr rfl))).trans (LeaveFrame.leaves (leaveFrame_autoStore _))) (.refl w)
  clear_value w1
  have h2 : Leaves w1 w2 := .ite (leaves_leavePrint w1) (.refl w1)
  clear_value w2
  have h3 : LeaveFrame w2 w3 := .ite (leaveFrame_leaveService w2) (.refl w2)
  clear_value w3
  have h4 : LeaveFrame w3 w4 := .ite (leaveFrame_dropCapture w3) (.refl w3)
  clear_value w4
  have h5 : LeaveFrame w4 w5 := .ite (leaveFrame_stopScan w4) (.refl w4)
  clear_value w5
  have h6 : Leaves w5 w6 := .ite (leaves_webIdle w5) (.refl w5)
  clear_value w6
  have h7 : w7 = w6 := if_neg hnew
  clear_value w7
  subst h7
  have h8 : LeaveFrame w7 (if plugState new then heldArrivals w7 else w7) := .ite (leaveFrame_heldArrivals w7) (.refl w7)
  exact h1.trans (h2.trans ((LeaveFrame.leaves (h3.trans (h4.trans h5))).trans (h6.trans (LeaveFrame.leaves h8))))

/-- What a change of the device state keeps, with its record. -/
theorem leaves_goTo (cause : Nat) {new : DevState} (hnew : new ≠ .calibrate) (s : State) : Leaves s.w (goTo cause new s).w := by
  unfold goTo setMode
  dsimp only
  exact (LeaveFrame.leaves (.trans (worldFrame_sys s.w (by decide) _) (worldFrame_raise _ _ _ _))).trans
    ((leaves_changeFx s.ctl.mode hnew _).trans (LeaveFrame.leaves (leaveFrame_noteChl _ new)))

end Sys2Proof.Machine
end

section
/-! SUPPORT. The cores of Serge, their votes and what latches them (R385 to R391). -/

namespace Sys2Proof.Machine

theorem bitOf_ofBits (l : List Bool) (i : Nat) : bitOf (ofBits l) i = l.getD i false := by
  rw [bitOf_eq_testBit]
  induction l generalizing i with
  | nil => rw [ofBits, Nat.zero_testBit]; rfl
  | cons b l ih =>
    have hb : b2n b < 2 := by cases b <;> decide
    cases i with
    | zero =>
      rw [ofBits, Nat.testBit_zero]
      cases b <;> simp [b2n]
    | succ i =>
      have hdiv : (b2n b + 2 * ofBits l) / 2 = ofBits l := by omega
      rw [ofBits, Nat.testBit_succ, hdiv, ih]
      rfl

theorem getD_map_range {α : Type} {n i : Nat} (h : i < n) (f : Nat → α) (d : α) : ((List.range n).map f).getD i d = f i := by
  rw [List.getD_eq_getElem _ _ (by simpa using h), List.getElem_map, List.getElem_range]

section
variable (w : World)

theorem coreAt_updCore_same {c : Nat} (h : c < w.sup.cores.length) (f : Core → Core) :
    coreAt (updCore w c f) c = f (coreAt w c) := getD_modify_same h f _

theorem coreAt_updCore_ne {c d : Nat} (h : c ≠ d) (f : Core → Core) : coreAt (updCore w c f) d = coreAt w d := by
  simp [coreAt, updCore, updSup, List.getD_eq_getElem?_getD, h]

theorem worldFrame_updSup {parts : List Part} {objs : Nat → Bool} (hp : .sup ∈ parts) (f : Sup → Sup) :
    WorldFrame parts objs w (updSup w f) := worldFrame_sup w hp _

theorem worldFrame_updCore {parts : List Part} {objs : Nat → Bool} (hp : .sup ∈ parts) (c : Nat) (f : Core → Core) :
    WorldFrame parts objs w (updCore w c f) := worldFrame_sup w hp _

/-! ### A core after a cycle -/

/-- What the cores keep of a world: how many they are, the latch, the core at `c`, the clock and the outvotes allowed. -/
structure CoreKeeps (c : Nat) (a b : World) : Prop where
  length : b.sup.cores.length = a.sup.cores.length
  latch : b.sup.latch = a.sup.latch
  core : coreAt b c = coreAt a c
  clk : b.clk = a.clk
  most : getO b Obj.SUP_OUTVOTE_MAX = getO a Obj.SUP_OUTVOTE_MAX

theorem CoreKeeps.trans {c : Nat} {x y z : World} (hxy : CoreKeeps c x y) (hyz : CoreKeeps c y z) : CoreKeeps c x z :=
  ⟨hyz.length.trans hxy.length, hyz.latch.trans hxy.latch, hyz.core.trans hxy.core, hyz.clk.trans hxy.clk,
    hyz.most.trans hxy.most⟩

theorem coreKeeps_updCore {c d : Nat} (h : d ≠ c) (f : Core → Core) : CoreKeeps c w (updCore w d f) :=
  ⟨List.length_modify .., rfl, coreAt_updCore_ne w h f, rfl, rfl⟩

/-- An outvote counted and told, before the core goes. -/
def outvoteTold (w : World) (c reason : Nat) : World :=
  raise (bump (if reason = 3 then bump w (Obj.SUP_DL_MISS 8) else w) Obj.SUP_OUTVOTES) Ev.SUP_OUTVOTE c
    (reason * 16777216 + (((coreAt w c).outAt.filter (fun t => w.clk < t + secClk 3600) ++ [w.clk]).length) % 16777216)

theorem coreKeeps_outvoteTold (c d reason : Nat) : CoreKeeps c w (outvoteTold w d reason) := by
  have hmiss : CoreKeeps c w (if reason = 3 then bump w (Obj.SUP_DL_MISS 8) else w) := by
    split
    · exact ⟨rfl, rfl, rfl, rfl, getO_setO_ne _ _ (by decide)⟩
    · exact ⟨rfl, rfl, rfl, rfl, rfl⟩
  exact hmiss.trans ⟨rfl, rfl, rfl, rfl, (getO_raise ..).trans (getO_setO_ne _ _ (by decide))⟩

theorem outvote_eq (c reason : Nat) : ∃ f g : Core → Core,
    (∀ x, (f x).st = .out) ∧ (∀ x, (g x).st = .reloading) ∧ outvote w c reason =
      if getN (outvoteTold w c reason) Obj.SUP_OUTVOTE_MAX <
          ((coreAt w c).outAt.filter (fun t => w.clk < t + secClk 3600) ++ [w.clk]).length then
        raise (updCore (outvoteTold w c reason) c f) Ev.SUP_CORE_RETURN c 0
      else updCore (outvoteTold w c reason) c g := by
  exact ⟨fun x => { x with st := .out, agree := 0
                           outAt := (coreAt w c).outAt.filter (fun t => w.clk < t + secClk 3600) ++ [w.clk] },
    fun x => { x with st := .reloading, agree := 0
                      outAt := (coreAt w c).outAt.filter (fun t => w.clk < t + secClk 3600) ++ [w.clk] },
    fun _ => rfl, fun _ => rfl, rfl⟩

theorem coreKeeps_outvote {c d : Nat} (h : d ≠ c) (reason : Nat) : CoreKeeps c w (outvote w d reason) := by
  obtain ⟨f, g, -, -, hout⟩ := outvote_eq w d reason
  have htold := coreKeeps_outvoteTold w c d reason
  rw [hout]
  split
  · exact htold.trans ((coreKeeps_updCore _ h f).trans ⟨rfl, rfl, rfl, rfl, rfl⟩)
  · exact htold.trans (coreKeeps_updCore _ h g)

/-- The state of a core that has been outvoted. -/
theorem outvote_st {c : Nat} (hlen : c < w.sup.cores.length) (reason : Nat) : (coreAt (outvote w c reason) c).st =
    if getN w Obj.SUP_OUTVOTE_MAX < ((coreAt w c).outAt.filter fun x => w.clk < x + secClk 3600).length + 1 then .out
    else .reloading := by
  obtain ⟨f, g, hf, hg, hout⟩ := outvote_eq w c reason
  have htold := coreKeeps_outvoteTold w c c reason
  have hlen' : c < (outvoteTold w c reason).sup.cores.length := htold.length ▸ hlen
  rw [hout, getN_congr htold.most, List.length_append, List.length_singleton]
  split
  · exact (congrArg Core.st (coreAt_updCore_same _ hlen' f)).trans (hf _)
  · exact (congrArg Core.st (coreAt_updCore_same _ hlen' g)).trans (hg _)

theorem outvote_keeps (c reason : Nat) : (outvote w c reason).sup.cores.length = w.sup.cores.length ∧
    (outvote w c reason).sup.latch = w.sup.latch := by
  obtain ⟨f, g, -, -, hout⟩ := outvote_eq w c reason
  have htold := coreKeeps_outvoteTold w c c reason
  rw [hout]
  split
  · exact ⟨(List.length_modify ..).trans htold.length, htold.latch⟩
  · exact ⟨(List.length_modify ..).trans htold.length, htold.latch⟩

variable (pair : Nat × Nat) (res : List (Option (Nat × Nat)))

theorem coreKeeps_cycleCore {c d : Nat} (h : d ≠ c) : CoreKeeps c w (cycleCore pair res w d) := by
  unfold cycleCore
  extract_lets reason
  split
  · split
    · exact coreKeeps_updCore w h _
    · exact coreKeeps_outvote w h reason
  · exact coreKeeps_updCore w h _
  · exact ⟨rfl, rfl, rfl, rfl, rfl⟩

theorem cycleCore_keeps (c : Nat) : (cycleCore pair res w c).sup.cores.length = w.sup.cores.length ∧
    (cycleCore pair res w c).sup.latch = w.sup.latch := by
  unfold cycleCore
  extract_lets reason
  split
  · split
    · exact ⟨List.length_modify .., rfl⟩
    · exact outvote_keeps w c reason
  · exact ⟨List.length_modify .., rfl⟩
  · exact ⟨rfl, rfl⟩

/-- The state of a core that voted: it votes on where it agrees, and is outvoted where it does not. -/
theorem cycleCore_st {c : Nat} (hlen : c < w.sup.cores.length) (hst : (coreAt w c).st = .voting) :
    (coreAt (cycleCore pair res w c) c).st = if outReason pair (res.getD c none) = 0 then .voting
      else if getN w Obj.SUP_OUTVOTE_MAX < ((coreAt w c).outAt.filter fun x => w.clk < x + secClk 3600).length + 1 then .out
      else .reloading := by
  unfold cycleCore
  extract_lets reason
  rw [hst]
  by_cases hagree : reason = 0
  · rw [if_pos hagree]
    dsimp only
    rw [if_pos hagree, coreAt_updCore_same w hlen]
    exact hst
  · rw [if_neg hagree]
    dsimp only
    rw [if_neg hagree]
    exact outvote_st w hlen reason

theorem foldl_cycleCore_latch (l : List Nat) : (l.foldl (cycleCore pair res) w).sup.latch = w.sup.latch :=
  foldl_keeps (fun w => w.sup.latch) (fun w c => (cycleCore_keeps w pair res c).2) l w

/-- After the cores of a list, each once, a core of it has gone as its own result says. -/
theorem foldl_cycleCore_st {l : List Nat} (hl : l.Nodup) {c : Nat} (hc : c ∈ l) (hlen : c < w.sup.cores.length)
    (hst : (coreAt w c).st = .voting) : (coreAt (l.foldl (cycleCore pair res) w) c).st =
      if outReason pair (res.getD c none) = 0 then .voting
      else if getN w Obj.SUP_OUTVOTE_MAX < ((coreAt w c).outAt.filter fun x => w.clk < x + secClk 3600).length + 1 then .out
      else .reloading := by
  induction l generalizing w with
  | nil => exact absurd hc List.not_mem_nil
  | cons d l ih =>
    obtain ⟨hd, hl⟩ := List.nodup_cons.mp hl
    rw [List.foldl_cons]
    by_cases hdc : d = c
    · subst hdc
      have hrest : coreAt (l.foldl (cycleCore pair res) (cycleCore pair res w d)) d = coreAt (cycleCore pair res w d) d :=
        foldl_keeps_mem (coreAt · d) (fun u x hx => (coreKeeps_cycleCore u pair res fun h : x = d => hd (h ▸ hx)).core) _
      rw [hrest]
      exact cycleCore_st w pair res hlen hst
    · have hkeep := coreKeeps_cycleCore w pair res hdc
      rw [ih _ hl ((List.mem_cons.mp hc).resolve_left fun h => hdc h.symm) (hkeep.length ▸ hlen) (hkeep.core ▸ hst),
        hkeep.core, hkeep.clk, getN_congr hkeep.most]

end

/-! ### A cycle -/

section
variable {s : State} (res : List (Option (Nat × Nat))) (hvoted : s.w.sys.voted = true) (hrestart : s.w.sup.restart = false)
include hvoted hrestart

theorem sergeCycle_few (hcores : votingCores s.w < 2) :
    sergeCycle res s = { s with w := updSup s.w fun x => { x with outs := 0 } } := by
  have hgo : ¬ (¬ s.w.sys.voted = true ∨ s.w.sup.restart = true) := by simp [hvoted, hrestart]
  exact (if_neg hgo).trans (if_pos hcores)

/-- An agreeing pair: the cores go, and the outputs are what two cores in service demand. -/
theorem sergeCycle_agrees {pair : Nat × Nat} (hcores : 2 ≤ votingCores s.w) (hpair : agreedPair s.w res = some pair) :
    ∃ outs, (∀ i, i < 25 → bitOf outs i = decide (2 ≤ ((List.range 3).filter fun c =>
        (coreAt s.w c).st == .voting && match res.getD c none with
          | some r => bitOf (demand s.ctl.mode s.w) i != bitOf r.1 i
          | none => false).length)) ∧
      sergeCycle res s = { s with w := updSup ((List.range 3).foldl (cycleCore pair res) s.w) fun x => { x with outs := outs } } := by
  have hgo : ¬ (¬ s.w.sys.voted = true ∨ s.w.sup.restart = true) := by simp [hvoted, hrestart]
  have hdone : sergeCycle res s = _ := (if_neg hgo).trans (if_neg (not_lt.mpr hcores))
  rw [hpair] at hdone
  exact ⟨_, fun i hi => (bitOf_ofBits _ i).trans (getD_map_range hi _ _), hdone⟩

/-- No agreeing pair. -/
theorem sergeCycle_latches (hcores : 2 ≤ votingCores s.w) (hpair : agreedPair s.w res = none) :
    sergeCycle res s = noPair s := by
  have hgo : ¬ (¬ s.w.sys.voted = true ∨ s.w.sup.restart = true) := by simp [hvoted, hrestart]
  have hdone : sergeCycle res s = _ := (if_neg hgo).trans (if_neg (not_lt.mpr hcores))
  rw [hpair] at hdone
  exact hdone

end

/-! ### The entry to SAFE -/

theorem enterSafe_safe {s : State} (h : safeFrom s.ctl.mode = true) : enterSafe s = goTo 3 .safe s := if_pos h

theorem enterSafe_sup (s : State) : (enterSafe s).w.sup = s.w.sup ∨
    (enterSafe s).w.sup = { s.w.sup with safePending := true } := by
  unfold enterSafe
  split
  · exact .inl ((leaves_goTo 3 (by decide) s).frame.1 .sup (by decide))
  · split
    · exact .inr rfl
    · exact .inl rfl

theorem enterSafe_startUp {s : State} (h : startUp s.ctl.mode = true) :
    enterSafe s = { s with w := { s.w with sup := { s.w.sup with safePending := true } } } := by
  have hsafe : ¬ safeFrom s.ctl.mode = true := by
    revert h
    cases s.ctl.mode <;> decide
  exact (if_neg hsafe).trans (if_pos h)

/-- The entry to SAFE keeps the last cause, and the stop requests but those of print. -/
theorem enterSafe_objects (s : State) : getO (enterSafe s).w Obj.SUP_LAST_CAUSE = getO s.w Obj.SUP_LAST_CAUSE ∧
    ∀ n, n ≠ 1 → n ≠ 2 → n ≠ 3 →
      bitOf (getN (enterSafe s).w Obj.SUP_STOP_SRC) n = bitOf (getN s.w Obj.SUP_STOP_SRC) n := by
  unfold enterSafe
  split
  · have hleaves := leaves_goTo 3 (new := .safe) (by decide) s
    exact ⟨hleaves.frame.2 _ (by decide), hleaves.stop⟩
  · split
    · exact ⟨rfl, fun _ _ _ _ => rfl⟩
    · exact ⟨rfl, fun _ _ _ _ => rfl⟩

theorem enterSafe_ctl {s : State} (h : safeFrom s.ctl.mode = true) :
    (enterSafe s).ctl.mode = .safe ∧ (enterSafe s).ctl.prev = s.ctl.mode := by
  rw [enterSafe_safe h, goTo_ctl]
  exact ⟨rfl, rfl⟩

/-- The world that has latched, with its stop request and its cause. -/
def latched (w : World) : World :=
  supSafe (stopSrc (updSup (updSup w fun x => { x with latch := true, outs := 0, restart := true }) fun x =>
    { x with cores := x.cores.map fun c => if c.st = .out then c else { c with st := .reloading, agree := 0 } }) 7 true) 2

theorem noPair_eq (s : State) : noPair s = enterSafe { s with w := latched s.w } := rfl

theorem latched_sup (w : World) :
    (latched w).sup.latch = true ∧ (latched w).sup.outs = 0 ∧ (latched w).sup.restart = true := by
  have hsup : (latched w).sup = { w.sup with
      latch := true, outs := 0, restart := true
      cores := w.sup.cores.map fun c => if c.st = .out then c else { c with st := .reloading, agree := 0 } } :=
    stopSrc_sup _ _ _
  rw [hsup]
  exact ⟨rfl, rfl, rfl⟩

theorem getN_supSafe_stop (w : World) (cause : Nat) : getN (supSafe w cause) Obj.SUP_STOP_SRC = getN w Obj.SUP_STOP_SRC :=
  getN_congr ((getO_raise ..).trans (getO_setO_ne _ _ (by decide)))

theorem latched_stop (w : World) : bitOf (getN (latched w) Obj.SUP_STOP_SRC) 7 = true := by
  rw [latched, getN_supSafe_stop, getN_stopSrc, bitOf_setBit_same]

/-- The world in which STOP_IN_N has come, with its force, its stop request and its cause. -/
def stopForced (w : World) : World :=
  supSafe (if getF w Obj.SUP_CFG 0 1 = 1 then updSup w fun x => { x with stopLow := true, force := true }
    else stopSrc (updSup w fun x => { x with stopLow := true, force := true }) 5 true) 1

theorem stopInLow_powered {s : State} (hon : powered s.ctl.mode = true) (hvoted : s.w.sys.voted = true) :
    stopInLow s = enterSafe { s with w := stopForced s.w } := by
  have hgo : ¬ (¬ powered s.ctl.mode = true ∨ s.w.sys.voted = false) := by simp [hon, hvoted]
  exact if_neg hgo

theorem stopForced_sup (w : World) : (stopForced w).sup = { w.sup with stopLow := true, force := true } := by
  unfold stopForced supSafe
  split
  · rfl
  · exact stopSrc_sup _ _ _

theorem stopForced_stop {w : World} (hcfg : getF w Obj.SUP_CFG 0 1 = 0) :
    bitOf (getN (stopForced w) Obj.SUP_STOP_SRC) 5 = true := by
  rw [stopForced, hcfg, if_neg (by decide), getN_supSafe_stop, getN_stopSrc, bitOf_setBit_same]

theorem getO_stopForced_cause (w : World) : getO (stopForced w) Obj.SUP_LAST_CAUSE = 1 :=
  (getO_raise ..).trans (getO_setO_same _ _ _)

theorem sergeRestart_due {w : World} (h : w.sup.restart = true) : sergeRestart w =
    updSup w fun x => { x with restart := false, cores := x.cores.map fun c =>
      if c.st = .out then c else { c with st := .voting, agree := 0 } } := if_neg (not_not.mpr h)

end Sys2Proof.Machine
end

section
/-! Obligation O27. -/
open Sys2Proof Sys2Proof.Machine

/-- Settles O27: each core of a cycle goes as its own result says, and the entry to SAFE keeps the block of supervision,
the last cause and the stop requests of Serge. -/
theorem sergeVoting : Obligations.SergeVoting := by
  refine ⟨fun s res hon hvoted hrestart => ⟨fun pair hcores hpair => ?agreed, fun hcores hpair => ?latches, fun hcores => ?few⟩,
    fun s => ⟨fun c hc hlen hst hrestart => ?reloaded, fun c hc hlen hst hagree => ?returned, fun hrestart => ?restarted,
      fun hlow hon hvoted => ?low, ?high⟩⟩
  case agreed =>
    obtain ⟨outs, houts, hdone⟩ := sergeCycle_agrees (s := fresh s) res hvoted hrestart hcores hpair
    have hlatch := foldl_cycleCore_latch (fresh s).w pair res (List.range 3)
    have hcores (c : Nat) (hc : c < 3) := foldl_cycleCore_st (fresh s).w pair res (l := List.range 3) (by decide) (List.mem_range.mpr hc)
    generalize (List.range 3).foldl (cycleCore pair res) (fresh s).w = u at hdone hlatch hcores
    refine ⟨_, onState_when (c := fun s => powered s.ctl.mode) (sergeCycle res) hon, ?_, ?_, fun i hi => ?_, fun c hc hlen hst => ?_⟩
    · rw [runState, hdone]
      rfl
    · rw [runState, settle_sup, hdone]
      exact hlatch
    · rw [runState, settle_sup, hdone]
      exact houts i hi
    · rw [runState, coreAt, settle_sup, hdone]
      exact hcores c hc hlen hst
  case latches =>
    have hdone := sergeCycle_latches (s := fresh s) res hvoted hrestart hcores hpair
    have hsafe := hdone.trans (noPair_eq (fresh s))
    obtain ⟨hlatch, houts, hre⟩ := latched_sup (fresh s).w
    have hsup : (sergeCycle res (fresh s)).w.sup = (latched (fresh s).w).sup ∨
        (sergeCycle res (fresh s)).w.sup = { (latched (fresh s).w).sup with safePending := true } := by
      rw [hsafe]
      exact enterSafe_sup _
    refine ⟨_, onState_when (c := fun s => powered s.ctl.mode) (sergeCycle res) hon, ?_, ?_, ?_, ?_, fun hfrom => ?_, fun hstart => ?_⟩
    · rw [runState, settle_sup]
      rcases hsup with h | h <;> rw [h] <;> exact hlatch
    · rw [runState, settle_sup]
      rcases hsup with h | h <;> rw [h] <;> exact houts
    · rw [runState, settle_sup]
      rcases hsup with h | h <;> rw [h] <;> exact hre
    · rw [runState, getN_settle _ (by decide) (by decide), hsafe,
        (enterSafe_objects _).2 7 (by decide) (by decide) (by decide)]
      exact latched_stop _
    · rw [runState, hsafe]
      exact enterSafe_ctl (s := { fresh s with w := latched (fresh s).w }) hfrom
    · rw [runState, settle_sup, hsafe, enterSafe_startUp (s := { fresh s with w := latched (fresh s).w }) hstart]
      exact ⟨rfl, rfl⟩
  case few =>
    have hdone := sergeCycle_few (s := fresh s) res hvoted hrestart hcores
    refine ⟨_, onState_when (c := fun s => powered s.ctl.mode) (sergeCycle res) hon, ?_, WorldFrame.touchesState ?_ ?_⟩
    · rw [runState, settle_sup, hdone]
      rfl
    · rw [hdone]
      dsimp only
      exact worldFrame_updSup _ (List.mem_singleton.mpr rfl) _
    · rw [hdone]
      rfl
  case reloaded =>
    have hdone : coreReload c (fresh s).w = updCore (fresh s).w c fun x => { x with st := .probation, agree := 0 } :=
      if_pos ⟨hst, hrestart⟩
    have hcore := coreAt_updCore_same (fresh s).w hlen fun x => { x with st := .probation, agree := 0 }
    refine ⟨_, onWorld_when (c := fun _ => decide (c < 3)) (coreReload c) (decide_eq_true hc), ?_, ?_, WorldFrame.touches ?_⟩
    · rw [runMeaning, coreAt, settle_sup, hdone]
      exact congrArg Core.st hcore
    · rw [runMeaning, coreAt, settle_sup, hdone]
      exact congrArg Core.agree hcore
    · rw [hdone]
      exact worldFrame_updCore _ (List.mem_singleton.mpr rfl) c _
  case returned =>
    have hdone : probationEnd c (fresh s).w =
        raise (updCore (fresh s).w c fun x => { x with st := .voting }) Ev.SUP_CORE_RETURN c 1 := if_pos ⟨hst, hagree⟩
    have hcore := coreAt_updCore_same (fresh s).w hlen fun x => { x with st := .voting }
    refine ⟨_, onWorld_when (c := fun _ => decide (c < 3)) (probationEnd c) (decide_eq_true hc), ?_, WorldFrame.touches ?_,
      fun hquiet => reports_runMeaning hquiet hdone rfl⟩
    · rw [runMeaning, coreAt, settle_sup, hdone]
      exact congrArg Core.st hcore
    · rw [hdone]
      exact (worldFrame_updCore _ (List.mem_singleton.mpr rfl) c _).trans (worldFrame_raise _ _ _ _)
  case restarted =>
    have hdone := sergeRestart_due (w := (fresh s).w) hrestart
    refine ⟨_, onWorld_always sergeRestart s, ?_, ?_, fun x hx => ?_, WorldFrame.touches ?_⟩
    · rw [runMeaning, settle_sup, hdone]
      rfl
    · rw [runMeaning, settle_sup, hdone]
      rfl
    · rw [runMeaning, settle_sup, hdone] at hx
      obtain ⟨y, -, rfl⟩ := List.mem_map.mp hx
      split
      · next hout => exact .inr hout
      · exact .inl rfl
    · rw [hdone]
      exact worldFrame_updSup _ (List.mem_singleton.mpr rfl) _
  case low =>
    have hdone := stopInLow_powered (s := fresh s) hon hvoted
    have hpass : (if (fresh s).w.sup.stopLow = true then fresh s else stopInLow (fresh s)) = stopInLow (fresh s) :=
      if_neg (Bool.eq_false_iff.mp hlow)
    have hrun : exec .stopInLow s = .next (runState stopInLow s) :=
      (onState_runState (fun s => if s.w.sup.stopLow then s else stopInLow s) s).trans
        (congrArg Host.Outcome.next (runState_congr hpass))
    have hsup : (stopInLow (fresh s)).w.sup = (stopForced (fresh s).w).sup ∨
        (stopInLow (fresh s)).w.sup = { (stopForced (fresh s).w).sup with safePending := true } := by
      rw [hdone]
      exact enterSafe_sup _
    refine ⟨_, hrun, ?_, ?_, ?_, fun hcfg => ?_, fun hfrom => ?_⟩
    · rw [runState, settle_sup]
      rcases hsup with h | h <;> rw [h, stopForced_sup]
    · rw [runState, settle_sup]
      rcases hsup with h | h <;> rw [h, stopForced_sup]
    · rw [runState, getO_settle _ (by decide) (by decide), hdone, (enterSafe_objects _).1]
      exact getO_stopForced_cause _
    · rw [runState, getN_settle _ (by decide) (by decide), hdone, (enterSafe_objects _).2 5 (by decide) (by decide) (by decide)]
      exact stopForced_stop (w := (fresh s).w) hcfg
    · rw [runState, hdone]
      exact enterSafe_ctl (s := { fresh s with w := stopForced (fresh s).w }) hfrom
  case high =>
    refine ⟨_, onWorld_always (fun w => updSup w fun x => { x with stopLow := false }) s, ?_, ?_, WorldFrame.touches ?_⟩
    · rw [runMeaning, settle_sup]
      rfl
    · rw [runMeaning, settle_sup]
      rfl
    · exact worldFrame_updSup _ (List.mem_singleton.mpr rfl) _

end

section
/-! SUPPORT. The composition front and the look-ahead (R103, R105, R106). -/

namespace Sys2Proof.Machine

/-! ### What composition keeps -/

/-- Composition of a line, its events and its defects keep where the front is. -/
def SameFront (a b : World) : Prop := b.mem.front = a.mem.front

theorem SameFront.refl (a : World) : SameFront a a := Eq.refl a.mem.front

theorem SameFront.trans {a b c : World} (hab : SameFront a b) (hbc : SameFront b c) : SameFront a c :=
  Eq.trans (b := b.mem.front) hbc hab

theorem SameFront.ite {a x y : World} {p : Prop} [Decidable p] (hx : SameFront a x) (hy : SameFront a y) :
    SameFront a (if p then x else y) := by
  split
  · exact hx
  · exact hy

theorem SameFront.foldl {β : Type} {g : World → β → World} (hg : ∀ w x, SameFront w (g w x)) (l : List β) (w : World) :
    SameFront w (l.foldl g w) := foldl_keeps (p := fun w : World => w.mem.front) hg l w

theorem WorldFrame.sameFront {parts : List Part} {objs : Nat → Bool} {a b : World} (h : WorldFrame parts objs a b)
    (hp : .mem ∉ parts) : SameFront a b := by
  have hmem : b.mem = a.mem := h.1 .mem hp
  exact congrArg Mem.front hmem

section
variable (w : World)

theorem sameFront_setO (k : Nat) (v : Int) : SameFront w (setO w k v) := Eq.refl w.mem.front

theorem sameFront_raise (c i d : Nat) : SameFront w (raise w c i d) := Eq.refl w.mem.front

theorem sameFront_mem {m : Mem} (h : m.front = w.mem.front) : SameFront w { w with mem := m } := h

theorem sameFront_bump (k : Nat) : SameFront w (bump w k) := sameFront_setO w k _

theorem sameFront_noteError (area addr : Nat) : SameFront w (noteError w area addr) :=
  (sameFront_setO w _ _).trans (sameFront_setO _ _ _)

theorem sameFront_noteWrite (area unit : Nat) (line : Int) : SameFront w (noteWrite area unit line w) := by
  unfold noteWrite
  dsimp only
  split
  · exact .ite (.refl w) rfl
  · rfl

theorem sameFront_newDefect (d : DefectRec) : SameFront w (newDefect w d) :=
  (sameFront_noteWrite w 0 0 0).trans rfl

theorem sameFront_countCe (area addr : Nat) : SameFront w (countCe area addr w) := by
  unfold countCe
  extract_lets k w1 hour n _ w2 count
  have h1 : SameFront w w1 := (sameFront_noteError w area addr).trans (sameFront_bump _ k)
  clear_value w1
  have h2 : SameFront w w2 := h1.trans (sameFront_mem w1 rfl)
  clear_value w2 count
  split
  · exact (h2.trans (sameFront_mem w2 (m := { w2.mem with ceWarned := true, ceStamp := some w2.clk }) rfl)).trans
      (sameFront_raise _ _ _ _)
  · split
    · exact (h2.trans (sameFront_mem w2 (m := { w2.mem with ceStamp := some w2.clk }) rfl)).trans (sameFront_raise _ _ _ _)
    · exact h2

theorem sameFront_countUe (area addr : Nat) : SameFront w (countUe area addr w) :=
  (sameFront_noteError w area addr).trans (.trans (sameFront_bump _ _) (sameFront_raise _ _ _ _))

theorem sameFront_readStruck (area : Nat) (hit : Struck → Bool) : SameFront w (readStruck area hit w).2 := by
  have hcount (l : List Struck) (a : List Struck × World) : SameFront a.2 (l.foldl (fun (acc : List Struck × World) e =>
      match eccStruck 0 e.double with
      | .uncorrectable => (acc.1 ++ [e], countUe area e.addr acc.2)
      | _ => (acc.1, countCe area e.addr acc.2)) a).2 := by
    induction l generalizing a with
    | nil => exact .refl a.2
    | cons e l ih =>
      rw [List.foldl_cons]
      refine .trans ?_ (ih _)
      split
      · exact sameFront_countUe a.2 area e.addr
      · exact sameFront_countCe a.2 area e.addr
  unfold readStruck
  extract_lets l _ w1
  have h1 : SameFront w w1 := rfl
  clear_value w1
  split
  · exact .refl w
  · exact h1.trans (hcount l ([], w1))

theorem sameFront_spoilLine (key m : Nat) : SameFront w (spoilLine w key m) := by
  unfold spoilLine
  split <;> rfl

theorem sameFront_reportGuard (u : Nat) (g : GuardRep) : SameFront w (reportGuard u w g) := by
  have hlimit (v : World) (key : Nat) : SameFront v (musLimit v key).2 := .ite rfl (.refl v)
  unfold reportGuard
  dsimp only
  split
  · rfl
  · split
    · exact SameFront.trans (b := (musLimit (bump w Obj.MUS_OVERRUNS) (2 * u)).2) (.trans rfl (hlimit _ _)) (.ite rfl (.refl _))
    · exact SameFront.trans (b := (musLimit (bump w Obj.MUS_FORMAT_ERRS) (2 * u + 1)).2) (.trans rfl (hlimit _ _))
        (.ite rfl (.refl _))

theorem sameFront_guardLine (n key : Nat) (g : Nat × GuardRep) : SameFront w (guardLine n key w g) :=
  .trans (sameFront_reportGuard w (n % 4) g.2) (.trans (b := countUe 2 _ (takeFree (reportGuard (n % 4) w g.2)).2) rfl
    (sameFront_spoilLine _ _ _))

theorem sameFront_spoilFrame (f : CompFrame) : SameFront w (spoilFrame w f) :=
  .ite (.ite (.refl w) (sameFront_newDefect w _)) rfl

theorem sameFront_layerLine (f : CompFrame) (line : Int) (n : Nat) (u : LayerUse) :
    SameFront w (layerLine f line n u w).2 := by
  unfold layerLine
  extract_lets y bad
  split
  · exact .refl w
  · split
    · exact .refl w
    · next it _ =>
      extract_lets ms w1 h _
      have h1 : SameFront w w1 := (sameFront_readStruck w 2 _).trans (.foldl (fun v e => sameFront_spoilLine v _ _) _ _)
      clear_value w1
      generalize fetchLines _ _ _ = fl
      obtain ⟨ls, gs⟩ := fl
      show SameFront w (have w2 := _; have w3 := if gs = [] then w2 else spoilFrame w2 f
        if (ms.any fun m => (bad w3).contains m) = true then (none, spoilFrame w3 f) else (some _, w3)).2
      extract_lets w2 w3
      have h2 : SameFront w1 w2 := .trans (b := { w1 with cal := _ }) (Eq.refl w1.mem.front)
        (.foldl (fun v g => sameFront_guardLine v n u.item g) gs _)
      clear_value w2
      have h3 : SameFront w w3 := h1.trans (h2.trans (.ite (.refl w2) (sameFront_spoilFrame w2 f)))
      rw [apply_ite Prod.snd]
      exact .ite (h3.trans (sameFront_spoilFrame w3 f)) h3

theorem sameFront_layerLines (f : CompFrame) (line : Int) (s : CalSet) (ns : List Nat) :
    SameFront w (layerLines f line s ns w).2 := by
  induction ns generalizing w with
  | nil => exact .refl w
  | cons n ns ih =>
    rw [layerLines]
    split
    · exact ih w
    · exact (sameFront_layerLine w f line n _).trans (ih _)

theorem sameFront_writeSection (set : CalSet) (n : Int) (frame k : Nat) (plane : Option (List Nat)) :
    SameFront w (writeSection set n frame k plane w).2 := by
  unfold writeSection
  extract_lets zeros ref _
  split
  extract_lets sec refs w1 w2 w3 w4
  have h1 : SameFront w w1 := sameFront_mem w rfl
  clear_value w1
  have h2 : SameFront w1 w2 := .trans (.ite (sameFront_noteWrite w1 _ _ _) (.refl w1)) (sameFront_noteWrite _ _ _ _)
  clear_value w2
  have h3 : SameFront w2 w3 := sameFront_setO w2 _ _
  clear_value w3
  have h4 : SameFront w3 w4 := .ite (sameFront_bump w3 _) (.refl w3)
  exact h1.trans (h2.trans (h3.trans h4))

omit w in
/-- A fold that adds up what its steps give keeps the front where each step does. -/
theorem sameFront_foldl_pair {g : World → Nat → Nat × World} (hg : ∀ w k, SameFront w (g w k).2) (l : List Nat)
    (a : Nat × World) : SameFront a.2 (l.foldl (fun acc k => let (d, w) := g acc.2 k; (acc.1 + d, w)) a).2 := by
  induction l generalizing a with
  | nil => exact .refl a.2
  | cons k l ih => exact (hg a.2 k).trans (ih _)

theorem sameFront_writeLine (set : CalSet) (n : Int) (frame : Nat) (planes : List (Option (List Nat))) :
    SameFront w (writeLine set n frame planes w) := by
  have hsections := sameFront_foldl_pair (g := fun w k => writeSection set n frame k (planes.getD k none) w)
    (fun w k => sameFront_writeSection w set n frame k _) (List.range 8) (0, w)
  unfold writeLine
  split
  next stored w1 hwritten =>
    have h1 : SameFront w w1 := (congrArg (fun r => SameFront w r.2) hwritten).mp hsections
    extract_lets sizes raw st q _
    clear_value q
    have h2 : SameFront w1 { w1 with mem := { w1.mem with wbSizes := sizes } } := sameFront_mem w1 rfl
    exact h1.trans (h2.trans (sameFront_setO _ _ _))

theorem sameFront_composeLine (n : Int) : SameFront w (composeLine n w).2 := by
  unfold composeLine
  generalize compFrame w n = c
  cases c with
  | none =>
    dsimp only
    exact sameFront_writeLine w _ _ _ _
  | some f =>
    dsimp only
    generalize calSetOf w f = d
    cases d with
    | none =>
      dsimp only
      exact sameFront_writeLine w _ _ _ _
    | some s =>
      dsimp only
      have h1 := sameFront_layerLines w f n s (List.range 8)
      generalize layerLines f n s (List.range 8) w = r at h1 ⊢
      obtain ⟨ls, w1⟩ := r
      exact h1.trans (sameFront_writeLine w1 _ _ _ _)

/-! ### The preview -/

theorem sameFront_updCal (f : Cal → Cal) : SameFront w (updCal w f) := rfl

theorem sameFront_prvEmit (b : PrvBlock) : SameFront w (prvEmit b w) := by
  have hpump (v : World) : SameFront v (prvPump v) := by
    unfold prvPump
    split
    · exact .refl v
    · split <;> rfl
  have hput (frame : Nat) (d : List Nat) (v : World) : SameFront v (prvPut frame d v) :=
    .ite ((worldFrame_prvDrop (parts := [.cal]) (objs := objsOf [Obj.JOB_PRV_DROPPED]) v (by decide) (by decide) frame).sameFront
      (by decide)) ((sameFront_updCal v _).trans (hpump _))
  unfold prvEmit
  split
  · exact .refl w
  · exact (sameFront_setO w _ _).trans (hput _ _ _)

theorem sameFront_prvLine (b : PrvBlock) (n : Int) (f : CompFrame) (s : CalSet) (planes : List (Option (List Nat))) :
    SameFront w (prvLine b n f s planes w).2 := by
  unfold prvLine
  extract_lets ks zeros
  split
  · exact .refl w
  · exact (sameFront_layerLines w f n s _).trans rfl

theorem sameFront_prvStep (n : Int) (r : Option (CompFrame × CalSet × List (Option (List Nat)))) :
    SameFront w (prvStep n r w) := by
  unfold prvStep
  extract_lets stop
  have hstop (v : World) : SameFront v (stop v) := sameFront_updCal v _
  clear_value stop
  split
  · split
    · exact (hstop w).trans (sameFront_prvEmit _ _)
    · exact .refl w
  · next f s planes =>
    extract_lets w1
    have h1 : SameFront w w1 := by
      simp only [w1]
      split
      · exact .ite (.refl w) ((hstop w).trans (sameFront_prvEmit _ _))
      · exact .refl w
    clear_value w1
    split
    · exact h1.trans (hstop w1)
    · split
      · exact h1.trans (hstop w1)
      · next b _ =>
        extract_lets b1
        have h2 := sameFront_prvLine w1 b1 n f s planes
        generalize prvLine b1 n f s planes w1 = r at h2 ⊢
        obtain ⟨l, w2⟩ := r
        exact h1.trans (.trans h2 (.ite ((hstop w2).trans (sameFront_prvEmit _ _))
          (.ite ((sameFront_updCal w2 _).trans (sameFront_prvEmit _ _)) (sameFront_updCal w2 _))))

end

end Sys2Proof.Machine
end

section
/-! SUPPORT. The front moves on; the look-ahead alarms (R105, R106). -/

namespace Sys2Proof.Machine

/-! ### The front moves on -/

/-- The front line and whether it is being composed. -/
def frontLine (w : World) : Int × Bool := (w.mem.front, w.mem.lineOpen)

theorem noteLook_mem (w : World) : (noteLook w).mem = w.mem := by
  have hframe : WorldFrame [] (objsOf [Obj.MEM_LA_ACTUAL, Obj.MEM_LA_MIN]) w (noteLook w) :=
    worldFrame_noteLook w (by decide) (by decide)
  exact hframe.1 .mem (by decide)

theorem stopSrc_mem (w : World) (b : Nat) (on : Bool) : (stopSrc w b on).mem = w.mem :=
  (worldFrame_stopSrc (parts := []) (objs := objsOf [Obj.SUP_STOP_SRC]) w (by decide) b on).1 .mem (by decide)

theorem frontLine_lookAfter (w : World) : frontLine (lookAfter w) = frontLine w := by
  unfold lookAfter
  extract_lets w1 a _ w2 _ w3 _
  have h1 : frontLine w1 = frontLine w := congrArg (fun m : Mem => (m.front, m.lineOpen)) (noteLook_mem w)
  clear_value w1
  have h2 : frontLine w2 = frontLine w1 := by
    simp only [w2]
    split <;> rfl
  clear_value w2
  have h3 : frontLine w3 = frontLine w2 := by
    simp only [w3]
    split
    · rfl
    · split <;> rfl
  clear_value w3
  have hkept := h3.trans (h2.trans h1)
  split
  · exact (congrArg (fun m : Mem => (m.front, m.lineOpen)) (stopSrc_mem _ _ _)).trans hkept
  · exact hkept

theorem frontLine_freeComposed (w : World) : frontLine (freeComposed w) = frontLine w :=
  foldl_keeps frontLine (fun _ _ => by rfl) _ w

theorem frontLine_advanceFront (w : World) : frontLine (advanceFront w) = (w.mem.front + 1, false) := by
  unfold advanceFront
  extract_lets w1 n late _ w2 old _ w3 w4
  have h1 : frontLine w1 = frontLine w := frontLine_lookAfter w
  have h2 : frontLine w2 = (n, false) := rfl
  have hn : n = w.mem.front + 1 := congrArg (fun x : Int × Bool => x.1 + 1) h1
  clear_value w2 n late old
  have h3 : frontLine w3 = frontLine w2 := rfl
  clear_value w3
  have h4 : frontLine w4 = frontLine w3 := by
    simp only [w4]
    split <;> rfl
  rw [frontLine_lookAfter, frontLine_freeComposed, h4, h3, h2, hn]

/-! ### The alarms -/

/-- What the look-ahead is read from: the web, the clock, the front, the look and the places of row 0. -/
theorem lookActual_congr {a b : World} (hclk : b.clk = a.clk) (htim : b.tim = a.tim) (hweb : b.web = a.web)
    (hlook : b.lck.look = a.lck.look) (hfront : b.mem.front = a.mem.front)
    (hlpc : ∀ n, getO b (Obj.WEB_ENC_LPC n) = getO a (Obj.WEB_ENC_LPC n))
    (hrow : getO b (Obj.LCK_ROW_POS 0) = getO a (Obj.LCK_ROW_POS 0))
    (halign : getO b (Obj.LCK_ROW_ALIGN 0) = getO a (Obj.LCK_ROW_ALIGN 0)) :
    webPos b = webPos a ∧ lookActual b = lookActual a := by
  have hper (n : Nat) : lpcOf b n = lpcOf a n := getN_congr (hlpc n)
  have hedge : edgeElapsed b = edgeElapsed a := by rw [edgeElapsed, nowEt, htim, hweb, hclk, edgeElapsed, nowEt]
  have hmag : speedMag b = speedMag a := by rw [speedMag, hweb, hper, hedge, speedMag]
  have hinterp : interpRaw b = interpRaw a := by simp only [interpRaw, hweb, hper, hedge, hmag]
  have hpos : webPos b = webPos a := by rw [webPos, webPos, pos32, pos32, hweb, hinterp]
  refine ⟨hpos, ?_⟩
  rw [lookActual, lookActual, hpos, hfront, rowD64Now, rowD64Now, hlook, hrow, halign]

theorem look_fresh (s : State) : webPos (fresh s).w = webPos s.w ∧ lookActual (fresh s).w = lookActual s.w :=
  lookActual_congr (a := s.w) (b := (fresh s).w) rfl rfl rfl rfl rfl (fun _ => rfl) rfl rfl

theorem look_noteLook (w : World) : webPos (noteLook w) = webPos w ∧ lookActual (noteLook w) = lookActual w := by
  have hframe : WorldFrame [] (objsOf [Obj.MEM_LA_ACTUAL, Obj.MEM_LA_MIN]) w (noteLook w) :=
    worldFrame_noteLook w (by decide) (by decide)
  obtain ⟨hpart, hobj⟩ := hframe
  have hlck : (noteLook w).lck = w.lck := hpart .lck (by decide)
  refine lookActual_congr (hpart .clk (by decide)) (hpart .tim (by decide)) (hpart .web (by decide))
    (congrArg Lck.look hlck) (congrArg Mem.front (noteLook_mem w)) (fun n => hobj _ ?_) (hobj _ (by decide)) (hobj _ (by decide))
  rw [objsOf, List.contains_eq_any_beq]
  simp [Obj.MEM_LA_ACTUAL, Obj.MEM_LA_MIN, Obj.WEB_ENC_LPC]
  omega

theorem getO_noteLook_actual (w : World) :
    getO (noteLook w) Obj.MEM_LA_ACTUAL = clampInt (-2147483648) 2147483647 (lookActual w) := by
  unfold noteLook
  dsimp only
  split
  · rw [getO_setO_ne _ _ (by decide), getO_setO_same]
    rfl
  · rw [getO_setO_same]
    rfl

section
variable {w : World}

/-- While A is below 2,048, renewing the look-ahead moves only what A shows and the run of R106. -/
theorem lookAfter_short (h : lookActual w < 2048) : ∃ m : Mem, m.front = w.mem.front ∧ m.lateRaised = w.mem.lateRaised ∧
    m.starved = w.mem.starved ∧ (∀ p, lookActual w < 64 → w.mem.starveFrom = some p → m.starveFrom = some p) ∧
    lookAfter w = { noteLook w with mem := m } := by
  unfold lookAfter
  extract_lets w1 a _ w2 _ w3 _
  have ha : a = lookActual w := (look_noteLook w).2
  have hmem : w1.mem = w.mem := noteLook_mem w
  have h2 : w2 = w1 := if_neg (not_le.mpr (lt_trans (ha ▸ h) (by decide)))
  clear_value w2
  subst h2
  have h3 : ∃ m : Mem, m.front = w.mem.front ∧ m.lateRaised = w.mem.lateRaised ∧
      m.starved = w.mem.starved ∧ (∀ p, lookActual w < 64 → w.mem.starveFrom = some p → m.starveFrom = some p) ∧
      w3 = { w1 with mem := m } := by
    rw [← hmem]
    simp only [w3]
    split
    · next hlong =>
      refine ⟨_, ?_, ?_, ?_, fun p hp => absurd hlong (not_le.mpr (ha ▸ hp)), rfl⟩
      all_goals rfl
    · split
      · next hnone =>
        refine ⟨_, ?_, ?_, ?_, fun p _ hp => ?_, rfl⟩
        · rfl
        · rfl
        · rfl
        · rw [hp] at hnone
          cases hnone
      · exact ⟨_, rfl, rfl, rfl, fun p _ hp => hp, rfl⟩
  obtain ⟨m, hfront, hlate, hstarved, hfrom, hdone⟩ := h3
  exact ⟨m, hfront, hlate, hstarved, hfrom, (if_neg (not_le.mpr (ha ▸ h))).trans hdone⟩

theorem look_withMem {m : Mem} (h : m.front = w.mem.front) :
    webPos { w with mem := m } = webPos w ∧ lookActual { w with mem := m } = lookActual w :=
  lookActual_congr rfl rfl rfl rfl h (fun _ => rfl) rfl rfl

/-- After the look-ahead is renewed A is as it was, and shows. -/
theorem lookAfter_shown (h : lookActual w < 2048) :
    webPos (lookAfter w) = webPos w ∧ lookActual (lookAfter w) = lookActual w ∧
      getO (lookAfter w) Obj.MEM_LA_ACTUAL = clampInt (-2147483648) 2147483647 (lookActual w) := by
  obtain ⟨m, hfront, -, -, -, hdone⟩ := lookAfter_short h
  have hlook := look_noteLook w
  have hwith := look_withMem (w := noteLook w) (m := m) (hfront.trans (congrArg Mem.front (noteLook_mem w)).symm)
  rw [hdone]
  exact ⟨hwith.1.trans hlook.1, hwith.2.trans hlook.2, getO_noteLook_actual w⟩

theorem compLate_latches (h : lookActual w < 2048) : (compLate w).mem.lateRaised = true ∧
    getO (compLate w) Obj.MEM_LA_ACTUAL = clampInt (-2147483648) 2147483647 (lookActual w) := by
  obtain ⟨-, hlook, hshown⟩ := lookAfter_shown h
  unfold compLate
  extract_lets w1 _
  have hlook1 : lookActual w1 = lookActual w := hlook
  have hshown1 : getO w1 Obj.MEM_LA_ACTUAL = _ := hshown
  clear_value w1
  split
  · refine ⟨rfl, ?_⟩
    rw [getO_raiseInt, getO_bump_ne _ (by decide)]
    exact hshown1
  · next hno =>
    have hraised : w1.mem.lateRaised = true := by
      by_contra hoff
      exact hno ⟨hlook1 ▸ h, Bool.eq_false_iff.mpr hoff⟩
    exact ⟨hraised, hshown1⟩

theorem compStarved_latches {p : Int} (h : lookActual w < 64) (hfrom : w.mem.starveFrom = some p)
    (hlong : 2048 * 65536 ≤ posDiff (webPos w) p) (hoff : w.mem.starved = false) :
    (compStarved w).mem.starved = true ∧ (getB w Obj.MEM_LA_STOP = true →
      getN (compStarved w) Obj.SUP_STOP_SRC = setBit (getN w Obj.SUP_STOP_SRC) 1 true) := by
  have hshort : lookActual w < 2048 := lt_trans h (by decide)
  have hpos := (lookAfter_shown hshort).1
  obtain ⟨m, -, -, hstarved, hkeep, hdone⟩ := lookAfter_short hshort
  have hobj (k : Nat) (ha : Obj.MEM_LA_ACTUAL ≠ k) (hm : Obj.MEM_LA_MIN ≠ k) : getO (lookAfter w) k = getO w k := by
    have hframe : WorldFrame [] (objsOf [Obj.MEM_LA_ACTUAL, Obj.MEM_LA_MIN]) w (noteLook w) :=
      worldFrame_noteLook w (by decide) (by decide)
    rw [hdone]
    exact hframe.2 k (by simp [objsOf, ha.symm, hm.symm])
  have hfrom1 : (lookAfter w).mem.starveFrom = some p := by
    rw [hdone]
    exact hkeep p h hfrom
  have hoff1 : (lookAfter w).mem.starved = false := by
    rw [hdone]
    exact hstarved.trans hoff
  have hstop : getB (lookAfter w) Obj.MEM_LA_STOP = getB w Obj.MEM_LA_STOP :=
    congrArg (· != 0) (hobj _ (by decide) (by decide))
  have hsrc := getN_congr (hobj Obj.SUP_STOP_SRC (by decide) (by decide))
  unfold compStarved
  generalize lookAfter w = w1 at hpos hfrom1 hoff1 hstop hsrc ⊢
  extract_lets v _ w2
  have hv : v.mem.starveFrom = some p := hfrom1
  have hgo : ¬ (posDiff (webPos v) p < 2048 * 65536 ∨ v.mem.starved = true) := by
    rw [show webPos v = webPos w from hpos, show v.mem.starved = false from hoff1]
    exact fun hor => hor.elim (not_lt.mpr hlong) (by decide)
  rw [hv]
  dsimp only
  rw [if_neg hgo]
  have h2 : getB w2 Obj.MEM_LA_STOP = getB w1 Obj.MEM_LA_STOP := rfl
  have hsrc2 : getN w2 Obj.SUP_STOP_SRC = getN w1 Obj.SUP_STOP_SRC := rfl
  have hmem2 : w2.mem.starved = true := rfl
  clear_value w2
  rw [h2, hstop]
  split
  · exact ⟨(congrArg Mem.starved (stopSrc_mem _ _ _)).trans hmem2, fun _ => by rw [getN_stopSrc, hsrc2, hsrc]⟩
  · next hno => exact ⟨hmem2, fun hyes => absurd hyes hno⟩

end

end Sys2Proof.Machine
end

section
/-! Obligation O17. -/
open Sys2Proof Sys2Proof.Machine

/-- Settles O17: composition keeps the front until it moves on, and renewing the look-ahead keeps A. -/
theorem compositionAndLookAhead : Obligations.CompositionAndLookAhead := by
  refine ⟨fun s hprint => ⟨fun hreached => ?start, fun hopen => ?done⟩,
    fun s hprint => ⟨fun hshort => ?late, fun p hshort hfrom hlong hoff => ?starved⟩⟩
  case start =>
    have hreached : posReached (fresh s).w (linePos (2 * (fresh s).w.mem.front - 128)) = true := by
      rw [posReached, (look_fresh s).1]
      exact hreached
    have hdone : composeStart (fresh s).w = { (fresh s).w with mem := { (fresh s).w.mem with lineOpen := true } } := if_pos hreached
    refine ⟨_, onWorld_whenDo (c := fun c => inPrint c.mode) (fun _ => composeStart) hprint, ?_, ?_, WorldFrame.touches ?_⟩
    · rw [runMeaning, settle_mem, hdone]
    · rw [runMeaning, settle_mem, hdone]
      rfl
    · rw [hdone]
      exact worldFrame_mem _ (List.mem_singleton.mpr rfl) _
  case done =>
    have hfront : frontLine (composeDone (fresh s).w) = ((fresh s).w.mem.front + 1, false) := by
      have hline := sameFront_composeLine (fresh s).w (fresh s).w.mem.front
      have hstep := sameFront_prvStep (composeLine (fresh s).w.mem.front (fresh s).w).2 (fresh s).w.mem.front
        (composeLine (fresh s).w.mem.front (fresh s).w).1
      have hdone : composeDone (fresh s).w = advanceFront (prvStep (fresh s).w.mem.front
          (composeLine (fresh s).w.mem.front (fresh s).w).1 (composeLine (fresh s).w.mem.front (fresh s).w).2) := if_pos hopen
      have hkept := hline.trans hstep
      rw [hdone, frontLine_advanceFront]
      exact congrArg (fun n : Int => (n + 1, false)) hkept
    refine ⟨_, onWorld_whenDo (c := fun c => inPrint c.mode) (fun _ => composeDone) hprint, ?_, ?_⟩
    · rw [runMeaning, settle_mem]
      exact congrArg Prod.fst hfront
    · rw [runMeaning, settle_mem]
      exact congrArg Prod.snd hfront
  case late =>
    have hlook := (look_fresh s).2
    obtain ⟨hlate, hshown⟩ := compLate_latches (w := (fresh s).w) (hlook ▸ hshort)
    refine ⟨_, onWorld_whenDo (c := fun c => inPrint c.mode) (fun _ => compLate) hprint, ?_, ?_⟩
    · rw [runMeaning, settle_mem]
      exact hlate
    · rw [getO_runMeaning _ _ (by decide), hshown, hlook]
  case starved =>
    obtain ⟨hpos, hlook⟩ := look_fresh s
    obtain ⟨hstarved, hstop⟩ := compStarved_latches (w := (fresh s).w) (hlook ▸ hshort) hfrom (hpos ▸ hlong) hoff
    refine ⟨_, onWorld_whenDo (c := fun c => inPrint c.mode) (fun _ => compStarved) hprint, ?_, fun hask => ?_⟩
    · rw [runMeaning, settle_mem]
      exact hstarved
    · rw [runMeaning, getN_settle _ (by decide) (by decide)]
      exact hstop hask

end

section
/-! SUPPORT. The counters of memory errors and what their responses keep (R114 to R116). -/

namespace Sys2Proof.Machine

/-! ### What the response to an error keeps -/

/-- Every part of the world. -/
def allParts : List Part :=
  [.clk, .free, .sys, .shadow, .tables, .stores, .adjustments, .tim, .web, .lck, .job, .mem, .cal, .jq, .links, .fire, .sup,
    .voi, .ins, .loop, .thm, .net, .can, .nvm]

/-- Every object but those of chapter 4 that count errors. -/
def noEcc (k : Nat) : Bool := k / 65536 != 0x24

abbrev KeepsEcc : World → World → Prop := WorldFrame allParts noEcc

section
variable (w : World)

theorem keepsEcc_setO {k : Nat} (h : k / 65536 ≠ 0x24) (v : Int) : KeepsEcc w (setO w k v) :=
  worldFrame_setO w (by rw [noEcc, bne_iff_ne]; exact h) v

theorem keepsEcc_stopSrc (b : Nat) (on : Bool) : KeepsEcc w (stopSrc w b on) := worldFrame_stopSrc w (by decide) b on

theorem keepsEcc_raise (c i d : Nat) : KeepsEcc w (raise w c i d) := worldFrame_raise w c i d

theorem keepsEcc_updSup (f : Sup → Sup) : KeepsEcc w (updSup w f) := worldFrame_sup w (by decide) _

theorem keepsEcc_updBar (b : Nat) (f : BarJq → BarJq) : KeepsEcc w (updBar w b f) := worldFrame_updBar w (by decide) b f

theorem keepsEcc_updLoop (f : Loop → Loop) : KeepsEcc w (updLoop w f) := worldFrame_loop w (by decide) _

theorem keepsEcc_hostFail : KeepsEcc w (hostFail w) := by
  unfold hostFail
  extract_lets l n w1 w2
  have h1 : KeepsEcc w w1 := keepsEcc_updSup w _
  have h2 : KeepsEcc w1 w2 := .trans (keepsEcc_setO w1 (by decide) _) (keepsEcc_stopSrc _ _ _)
  clear_value w1 w2
  refine .ite (.refl w) (.ite (h1.trans (h2.trans (keepsEcc_raise _ _ _ _))) (h1.trans ?_))
  unfold hostRestart
  extract_lets w3
  have h3 : KeepsEcc w1 w3 := .trans (keepsEcc_setO w1 (by decide) _) (keepsEcc_setO _ (by decide) _)
  exact h3.trans (.trans (keepsEcc_updSup w3 _) (keepsEcc_raise _ _ _ _))

theorem keepsEcc_spoilLine (key m : Nat) : KeepsEcc w (spoilLine w key m) := by
  unfold spoilLine
  split
  · exact .refl w
  · exact worldFrame_mem w (by decide) _

theorem keepsEcc_spoilTally (slot : Nat) : KeepsEcc w (spoilTally w slot) :=
  .ite (.trans (worldFrame_mem w (by decide) _) (keepsEcc_setO _ (by decide) _)) (.refl w)

theorem keepsEcc_groupError (b x : Nat) : KeepsEcc w (groupError w b x) := by
  unfold groupError
  extract_lets _ w1
  have h1 : KeepsEcc w w1 := keepsEcc_updLoop w _
  clear_value w1
  refine h1.trans (.foldl (fun u n _ => ?_) w1)
  extract_lets row c vs u1 trim
  have h2 : KeepsEcc u u1 := .ite (.refl u) (keepsEcc_updLoop u _)
  exact h2.trans (keepsEcc_updLoop u1 _)

theorem keepsEcc_dropIncomplete (b : Nat) : KeepsEcc w (dropIncomplete w b) :=
  .foldl (fun u row _ => .trans (worldFrame_jq u (by decide) _)
    (.foldl (fun v p _ => worldFrame_updPort v (by decide) p _) _)) w

theorem keepsEcc_noSliceLeft (b : Nat) : KeepsEcc w (noSliceLeft w b) :=
  .trans (keepsEcc_updBar w b _) (.trans (keepsEcc_raise _ _ _ _) (keepsEcc_stopSrc _ _ _))

theorem keepsEcc_sliceFail {b : Nat} (hb : b < 8) (cause : Nat) : KeepsEcc w (sliceFail w b cause) := by
  have hmiss (p : Nat) (hp : p < 16) : Obj.FIR_BAR_MISS p / 65536 ≠ 0x24 := by
    simp only [Obj.FIR_BAR_MISS]
    omega
  have hslice : Obj.JQ_BAR_SLICE b / 65536 ≠ 0x24 := by
    simp only [Obj.JQ_BAR_SLICE]
    omega
  unfold sliceFail
  extract_lets q old spare can w1 w2 w3 w4 data _ w5 w6 w7 w8
  have h1 : KeepsEcc w w1 := keepsEcc_setO w (by decide) _
  have h2 : KeepsEcc w1 w2 := keepsEcc_setO w1 (hmiss _ (by omega)) 0
  have h3 : KeepsEcc w2 w3 := keepsEcc_setO w2 (hmiss _ (by omega)) 0
  have h4 : KeepsEcc w3 w4 := keepsEcc_dropIncomplete w3 b
  have h5 : KeepsEcc w4 w5 := worldFrame_sup w4 (by decide) _
  have h6 : KeepsEcc w5 w6 := keepsEcc_updBar w5 b _
  have h7 : KeepsEcc w6 w7 := .trans (keepsEcc_setO w6 hslice _) (.trans (keepsEcc_raise _ _ _ _) (keepsEcc_setO _ (by decide) _))
  have h8 : KeepsEcc w7 w8 := .trans (keepsEcc_setO w7 (by decide) _) (keepsEcc_setO _ (by decide) _)
  clear_value w1 w2 w3 w4 w5 w6 w7 w8
  have h4' := h1.trans (h2.trans (h3.trans h4))
  exact .ite (.refl w) (.ite (h4'.trans (h5.trans (h6.trans (h7.trans (h8.trans (keepsEcc_raise _ _ _ _))))))
    (h4'.trans (keepsEcc_noSliceLeft w4 b)))

theorem keepsEcc_ueResponse (m : DevState) (area unit : Nat) (line : Int) : KeepsEcc w (ueResponse m area unit line w) := by
  unfold ueResponse
  split
  · exact keepsEcc_hostFail w
  · split
    · exact worldFrame_mem w (by decide) _
    · exact .refl w
  · exact keepsEcc_spoilLine w _ _
  · exact keepsEcc_spoilTally w _
  · exact .ite (keepsEcc_groupError w _ _) (worldFrame_ins w (by decide) _)
  · exact worldFrame_updPort w (by decide) _ _
  · split
    · next h => exact keepsEcc_sliceFail w (by simpa using (Bool.and_eq_true_iff.mp h).2) 3
    · exact .refl w

end

/-- The counters that an error is counted in. -/
def eccKeys : List Nat := [Obj.MEM_ECC_LAST_AREA, Obj.MEM_ECC_UE, Obj.MEM_SRAM_UE]

theorem getO_noSliceSafe {k : Nat} (hk : k ∈ eccKeys) (s : State) : getO (noSliceSafe s).w k = getO s.w k := by
  have hleave : ∀ k ∈ eccKeys, (leaveObjs k || k == Obj.SUP_STOP_SRC) = false := by decide
  unfold noSliceSafe enterSafe
  split
  · split
    · exact (leaves_goTo 3 (new := .safe) (by decide) s).frame.2 k (hleave k hk)
    · split <;> rfl
  · rfl

theorem getO_memUe_counters {k : Nat} (hk : k ∈ eccKeys) (m : DevState) (area addr unit : Nat) (line : Int) (w : World) :
    getO (memUe m area addr unit line w) k = getO (countUe area addr (dropStruck area true w)) k := by
  have hecc : ∀ k ∈ eccKeys, noEcc k = false := by decide
  exact (keepsEcc_ueResponse _ m area unit line).2 k (hecc k hk)

/-! ### The counters -/

section
variable (area addr : Nat) (w : World)

theorem getO_dropStruck (double : Bool) (k : Nat) : getO (dropStruck area double w) k = getO w k := by
  unfold dropStruck
  split <;> rfl

/-- The counter of corrected errors of an area. -/
def ceCounter : Nat := if area < 5 then Obj.MEM_ECC_CE else Obj.MEM_SRAM_CE

/-- The counter of uncorrectable errors of an area. -/
def ueCounter : Nat := if area < 5 then Obj.MEM_ECC_UE else Obj.MEM_SRAM_UE

theorem getO_noteError_area : getO (noteError w area addr) Obj.MEM_ECC_LAST_AREA = area := getO_setO_same _ _ _

theorem getO_noteError_ne {k : Nat} (ha : Obj.MEM_ECC_LAST_AREA ≠ k) (hd : Obj.MEM_ECC_LAST_ADDR ≠ k) :
    getO (noteError w area addr) k = getO w k := by rw [noteError, getO_setO_ne _ _ ha, getO_setO_ne _ _ hd]

theorem getO_countUe (k : Nat) : getO (countUe area addr w) k = getO (bump (noteError w area addr) (ueCounter area)) k := rfl

/-- Counting a corrected error leaves the objects as its counter does. -/
theorem countCe_counts : ∃ m e, countCe area addr w =
    { bump (noteError w area addr) (ceCounter area) with mem := m, evt := e } := by
  unfold countCe
  extract_lets k w1 hour n _ w2 count
  have h1 : w1 = bump (noteError w area addr) (ceCounter area) := rfl
  clear_value w1 hour n
  subst h1
  have h2 : ∃ m, w2 = { bump (noteError w area addr) (ceCounter area) with mem := m } := ⟨_, rfl⟩
  clear_value w2 count
  obtain ⟨m, rfl⟩ := h2
  split
  · exact ⟨_, _, rfl⟩
  · split
    · exact ⟨_, _, rfl⟩
    · exact ⟨m, _, rfl⟩

theorem getO_memCe (k : Nat) : getO (memCe area addr w) k =
    getO (bump (noteError (dropStruck area false w) area addr) (ceCounter area)) k := by
  obtain ⟨m, e, hdone⟩ := countCe_counts area addr (dropStruck area false w)
  rw [memCe, hdone]
  rfl

/-- A counter of errors after an error is counted. -/
theorem getN_counted {c : Nat} (ha : Obj.MEM_ECC_LAST_AREA ≠ c) (hd : Obj.MEM_ECC_LAST_ADDR ≠ c) (double : Bool) :
    getN (bump (noteError (dropStruck area double w) area addr) c) c = (getN w c + 1) % 4294967296 := by
  rw [getN_bump_same, getN_congr (getO_noteError_ne area addr _ ha hd), getN_congr (getO_dropStruck area w double c)]

theorem worldFrame_memEvt {parts : List Part} {objs : Nat → Bool} (hp : .mem ∈ parts) (m : Mem) (e : Evt) :
    WorldFrame parts objs w { w with mem := m, evt := e } := by
  have hmem : WorldFrame parts objs w { w with mem := m } := worldFrame_mem w hp m
  exact hmem.trans (worldFrame_evt _ e)

theorem worldFrame_memCe : WorldFrame [.mem] (objsOf [Obj.MEM_ECC_LAST_AREA, Obj.MEM_ECC_LAST_ADDR, Obj.MEM_ECC_CE, Obj.MEM_SRAM_CE])
    w (memCe area addr w) := by
  obtain ⟨m, e, hdone⟩ := countCe_counts area addr (dropStruck area false w)
  have hdrop : WorldFrame [.mem] (objsOf [Obj.MEM_ECC_LAST_AREA, Obj.MEM_ECC_LAST_ADDR, Obj.MEM_ECC_CE, Obj.MEM_SRAM_CE])
      w (dropStruck area false w) := by
    unfold dropStruck
    split
    · exact worldFrame_mem w (List.mem_singleton.mpr rfl) _
    · exact .refl w
  have hcounter : objsOf [Obj.MEM_ECC_LAST_AREA, Obj.MEM_ECC_LAST_ADDR, Obj.MEM_ECC_CE, Obj.MEM_SRAM_CE] (ceCounter area) = true := by
    unfold ceCounter
    split <;> decide
  rw [memCe, hdone]
  generalize dropStruck area false w = u at hdrop ⊢
  refine hdrop.trans (.trans (.trans (worldFrame_setO u ?_ _) (worldFrame_setO _ ?_ _)) (.trans (worldFrame_bump _ hcounter)
    (worldFrame_memEvt _ (List.mem_singleton.mpr rfl) m e)))
  all_goals decide

/-! ### The scrub -/

/-- A scrub that meets no struck word of its areas changes nothing. -/
theorem scrub_clean (m : DevState) {w : World} (h : ∀ e, e ∈ w.mem.struck → e.area = 1 ∨ 4 < e.area) : scrub m w = w := by
  have hread (a : Nat) (ha : a ≠ 1 ∧ a ≤ 4) : readStruck a (fun _ => true) w = ([], w) := by
    have hnone : (w.mem.struck.filter fun e => e.area == a && true) = [] := by
      refine List.filter_eq_nil_iff.mpr fun e he heq => ?_
      have harea : e.area = a := by simpa using heq
      have := h e he
      omega
    unfold readStruck
    dsimp only
    rw [hnone]
    rfl
  unfold scrub
  simp only [List.foldl_cons, List.foldl_nil]
  rw [hread 0 (by decide)]
  dsimp only [List.foldl_nil]
  rw [hread 2 (by decide)]
  dsimp only [List.foldl_nil]
  rw [hread 3 (by decide)]
  dsimp only [List.foldl_nil]
  rw [hread 4 (by decide)]
  rfl

end

/-- The world in which a scrub pass is counted and the next begins. -/
def scrubbed (w : World) : World := bump { w with mem := { w.mem with scrubClk := w.clk } } Obj.MEM_SCRUB_PASSES

/-- A scrub pass that is due and meets no struck word. -/
theorem scrubPass_clean (m : DevState) {w : World} (hdue : w.mem.scrubClk + secClk (3600 * getN w Obj.MEM_SCRUB_HOURS) ≤ w.clk)
    (h : ∀ e, e ∈ w.mem.struck → e.area = 1 ∨ 4 < e.area) :
    scrubPass m w = scrubbed w := by
  rw [scrubPass, if_neg (not_lt.mpr hdue), scrub_clean m h, scrubbed]

end Sys2Proof.Machine
end

section
/-! Obligation O18. -/
open Sys2Proof Sys2Proof.Machine

/-- Settles O18: an error is counted before its response, which keeps the counters, and a scrub that meets no struck word
is its own count. -/
theorem eccCounters : Obligations.EccCounters := by
  refine fun s hon => ⟨fun area addr harea => ?ce, fun area addr unit line harea => ?ue, fun hdue hclean hstay => ?scrub⟩
  case ce =>
    have hobj (k : Nat) (h : k < 0x2C0004) := getO_runMeaning (memCe area addr) s h
    have hguard : (decide (area ≤ 6) && powered s.ctl.mode) = true := by simp [harea, hon]
    refine ⟨_, onWorld_whenDo (c := fun c => decide (area ≤ 6) && powered c.mode) (fun _ => memCe area addr) hguard, ?_,
      fun hlow => ?_, fun hhigh => ?_, WorldFrame.touches (worldFrame_memCe area addr _)⟩
    · rw [hobj _ (by decide), getO_memCe, getO_bump_ne _ (by unfold ceCounter; split <;> decide)]
      exact getO_noteError_area ..
    · rw [getN_congr (hobj _ (by decide)), getN_congr (getO_memCe ..), ceCounter, if_pos hlow]
      exact getN_counted area addr (fresh s).w (by decide) (by decide) false
    · rw [getN_congr (hobj _ (by decide)), getN_congr (getO_memCe ..), ceCounter, if_neg (not_lt.mpr hhigh)]
      exact getN_counted area addr (fresh s).w (by decide) (by decide) false
  case ue =>
    have hpass : (if area ≤ 6 ∧ powered (fresh s).ctl.mode = true then
          noSliceSafe { fresh s with w := memUe (fresh s).ctl.mode area addr unit line (fresh s).w } else fresh s) =
        noSliceSafe { fresh s with w := memUe (fresh s).ctl.mode area addr unit line (fresh s).w } := if_pos ⟨harea, hon⟩
    have hrun : exec (.memUe area addr unit line) s = .next (runState
        (fun s => noSliceSafe { s with w := memUe s.ctl.mode area addr unit line s.w }) s) :=
      (onState_runState (fun s => if area ≤ 6 ∧ powered s.ctl.mode = true then
          noSliceSafe { s with w := memUe s.ctl.mode area addr unit line s.w } else s) s).trans
        (congrArg Host.Outcome.next (runState_congr hpass))
    have hobj (k : Nat) (hk : k ∈ eccKeys) : getO (runState
        (fun s => noSliceSafe { s with w := memUe s.ctl.mode area addr unit line s.w }) s).w k =
        getO (bump (noteError (dropStruck area true (fresh s).w) area addr) (ueCounter area)) k := by
      have hplain : ∀ k ∈ eccKeys, k ≠ Obj.EVT_LOG_DROPPED ∧ k ≠ Obj.NET_CAN_EMCY_LOST := by decide
      rw [runState, getO_settle _ (hplain k hk).1 (hplain k hk).2, getO_noSliceSafe hk, getO_memUe_counters hk, getO_countUe]
    refine ⟨_, hrun, ?_, fun hlow => ?_, fun hhigh => ?_⟩
    · rw [hobj _ (by decide), getO_bump_ne _ (by unfold ueCounter; split <;> decide)]
      exact getO_noteError_area ..
    · rw [getN_congr (hobj _ (by decide)), ueCounter, if_pos hlow]
      exact getN_counted area addr (fresh s).w (by decide) (by decide) true
    · rw [getN_congr (hobj _ (by decide)), ueCounter, if_neg (not_lt.mpr hhigh)]
      exact getN_counted area addr (fresh s).w (by decide) (by decide) true
  case scrub =>
    have hdone := scrubPass_clean s.ctl.mode (w := (fresh s).w) hdue hclean
    have hsafe : noSliceSafe { fresh s with w := scrubPass s.ctl.mode (fresh s).w } =
        { fresh s with w := scrubbed (fresh s).w } := by
      rw [hdone]
      exact if_neg (Bool.eq_false_iff.mp hstay)
    have hrun := (onState_when (s := s) (c := fun s => powered s.ctl.mode)
      (fun s => noSliceSafe { s with w := scrubPass s.ctl.mode s.w }) hon).trans
        (congrArg Host.Outcome.next (runState_congr (s := s) (g := fun s => { s with w := scrubbed s.w }) hsafe))
    refine ⟨_, hrun, ?_, ?_, WorldFrame.touchesState ?_ rfl⟩
    · rw [runState, getN_settle _ (by decide) (by decide), scrubbed, getN_bump_same]
      rfl
    · rw [runState, settle_mem]
      rfl
    · refine .trans (worldFrame_mem _ (List.mem_singleton.mpr rfl) _) (worldFrame_bump _ ?_)
      decide

end

section
/-! SUPPORT. An arrival at a port in electrical idle (R257, R260). -/

namespace Sys2Proof.Machine

theorem onState_if {p : State → Prop} [∀ s, Decidable (p s)] (f : State → State) {s : State} (h : p (fresh s)) :
    onState (fun s => if p s then f s else s) s = .next (runState f s) :=
  (onState_runState _ s).trans (congrArg Host.Outcome.next (runState_congr (if_pos h)))

theorem putBlocks_fire (w : World) (i ui : Nat) (bs : List Block) : (putBlocks w i ui bs).fire = w.fire := rfl

/-- A port that a command leaves through is not in electrical idle. -/
theorem portAt_exitIdle (w : World) (p : Nat) : (portAt (exitIdle w p) p).idle = false := by
  by_cases hidle : (portAt w p).idle = true
  · have hlen : p < w.fire.length := by
      by_contra hlen
      rw [portAt, List.getD_eq_default _ _ (not_lt.mp hlen)] at hidle
      exact absurd hidle (by decide)
    have hfire : (exitIdle w p).fire = (updPort w p fun x => { x with
        idle := false, idles := (x.idles.filter fun e => w.clk < e.2 + secClk 1) ++ [(x.idleClk, w.clk)] }).fire := by
      rw [exitIdle, if_neg (not_not.mpr hidle)]
      rfl
    rw [portAt, hfire]
    exact congrArg FirePort.idle (portAt_updPort_same _ _ hlen)
  · have hsame : exitIdle w p = w := if_pos hidle
    rw [hsame]
    exact Bool.eq_false_iff.mpr hidle

theorem sendRaw_awake (w : World) {i : Nat} (hi : i < 16) (addr op arg : Nat) :
    (portAt (sendRaw w i addr op arg) i).idle = false := by
  have htag : (takeTag w i).2.fire = (exitIdle w i).fire := by
    rw [takeTag, if_pos hi]
    rfl
  have hfire : (sendRaw w i addr op arg).fire = (exitIdle w i).fire := (putBlocks_fire _ _ _ _).trans htag
  rw [portAt, hfire]
  exact portAt_exitIdle w i

theorem discoverArrival_awake (w : World) {i : Nat} (hi : i < 16) : (portAt (discoverArrival w i) i).idle = false :=
  sendRaw_awake _ hi _ _ _

/-- IDLE, with the first head port enabled, down and in electrical idle: its link was lost, and its recovery has failed,
while no line was coming. -/
def idleDownPort : State :=
  { State.reset with
    ctl := { State.reset.ctl with mode := .idle }
    w := setO (setO { State.reset.w with
      links := State.reset.w.links.modify 0 fun l => { l with st := .down }
      fire := State.reset.w.fire.modify 0 fun x => { x with idle := true } } (Obj.YQL_PORT_CFG 0) 1) Obj.YQL_HOTPLUG_EN 1 }

end Sys2Proof.Machine
end

section
/-! Obligation O25. -/
open Sys2Proof Sys2Proof.Machine

/-- Refutes O25: the first command of the discovery takes a port out of electrical idle, so an arrival moves the FIRE part
too. -/
theorem not_recoveryAndArrival : ¬ Obligations.RecoveryAndArrival := by
  unfold Obligations.RecoveryAndArrival
  intro h
  obtain ⟨-, -, harrival⟩ := h idleDownPort 0 (by decide) (by decide)
  have hpossible : arrivalPossible idleDownPort.w 0 = true := by decide
  obtain ⟨-, hplug, -⟩ := harrival 0 hpossible (by decide)
  obtain ⟨t, ht, -, -, -, hparts, -⟩ := hplug (.inl rfl)
  have hhot : hotplug 0 0 (fresh idleDownPort) =
      plugIdle { fresh idleDownPort with w := discoverArrival (fresh idleDownPort).w 0 } := by
    have hgo : ¬ (¬ arrivalPossible (fresh idleDownPort).w 0 = true ∨ getO (fresh idleDownPort).w Obj.YQL_HOTPLUG_EN = 0) := by
      decide
    rw [hotplug, if_neg hgo, if_neg (by decide), if_pos (by decide)]
  have hrun : exec (.hotplugArrival 0 0) idleDownPort = .next (runState (hotplug 0 0) idleDownPort) :=
    onState_if (s := idleDownPort) (p := fun _ => 0 < 24) (hotplug 0 0) (by decide)
  obtain rfl := Host.Outcome.next.inj (ht.symm.trans hrun)
  have hkept : (runState (hotplug 0 0) idleDownPort).w.fire = idleDownPort.w.fire := hparts .fire (by decide)
  have hplain : plugIdle { fresh idleDownPort with w := discoverArrival (fresh idleDownPort).w 0 } =
      { fresh idleDownPort with w := discoverArrival (fresh idleDownPort).w 0 } := if_neg (by decide)
  have hawake : (portAt (runState (hotplug 0 0) idleDownPort).w 0).idle = false := by
    rw [runState, portAt, settle_fire, hhot, hplain]
    exact discoverArrival_awake (fresh idleDownPort).w (by decide)
  rw [portAt, hkept] at hawake
  exact absurd hawake (by decide)

end

section
/-! SUPPORT. What the encoders, the probes and the SSI masters write: the web, the line clock and the objects 0x21xx. -/

namespace Sys2Proof.Machine

section
variable {parts : List Part} {objs : Nat → Bool} (w : World)

theorem worldFrame_addO {k : Nat} (hk : objs k = true) (bits n : Nat) : WorldFrame parts objs w (addO w k bits n) :=
  worldFrame_setO w hk _

theorem worldFrame_bump64 {k : Nat} (hk : objs k = true) : WorldFrame parts objs w (bump64 w k) := worldFrame_setO w hk _

theorem worldFrame_raiseEnc (code n : Nat) (data : Int) : WorldFrame parts objs w (raiseEnc w code n data) :=
  worldFrame_raiseAt w _ _ _ _ _

theorem worldFrame_updEnc (hp : .web ∈ parts) (n : Nat) (f : EncCh → EncCh) : WorldFrame parts objs w (updEnc w n f) :=
  worldFrame_web w hp _

theorem worldFrame_updPrb (hp : .web ∈ parts) (n : Nat) (f : Probe → Probe) : WorldFrame parts objs w (updPrb w n f) :=
  worldFrame_web w hp _

theorem worldFrame_updSsi (hp : .web ∈ parts) (n : Nat) (f : SsiM → SsiM) : WorldFrame parts objs w (updSsi w n f) :=
  worldFrame_web w hp _

theorem worldFrame_updRow (hp : .lck ∈ parts) (r : Nat) (f : RowClk → RowClk) : WorldFrame parts objs w (updRow w r f) :=
  worldFrame_lck w hp _

theorem worldFrame_inhibitRow (hp : .lck ∈ parts) (kind r : Nat) : WorldFrame parts objs w (inhibitRow w kind r) :=
  .unless (.refl w) ((worldFrame_updRow w hp _ _).trans (worldFrame_raise _ _ _ _))

end

/-- What the commands of the web may write. -/
abbrev WebFrame : World → World → Prop := WorldFrame [.web, .lck] (objIn [0x21])

theorem objIn_web {k : Nat} (h : k / 65536 = 0x21) : objIn [0x21] k = true := by simp [h]

/-- The objects of a channel. -/
theorem encKey {n a : Nat} (hn : n < 4) (hlo : 0x210000 ≤ a) (hhi : a < 0x21C000) :
    objIn [0x21] (a + 0x1000 * n) = true := objIn_web (by omega)

section
variable (w : World)

theorem webFrame_web (v : Web) : WebFrame w { w with web := v } := worldFrame_web w (by decide) v

theorem webFrame_lck (v : Lck) : WebFrame w { w with lck := v } := worldFrame_lck w (by decide) v

theorem webFrame_updEnc (n : Nat) (f : EncCh → EncCh) : WebFrame w (updEnc w n f) := worldFrame_updEnc w (by decide) n f

/-! ### Faults and losses -/

theorem webFrame_encInhibit (kind : Nat) : WebFrame w (encInhibit w kind) :=
  .ite ((webFrame_web w _).trans (.foldl (fun b r _ => worldFrame_inhibitRow b (by decide) 1 r) _)) (webFrame_web w _)

theorem webFrame_encFault (n kind : Nat) : WebFrame w (encFault w n kind) := by
  unfold encFault
  extract_lets again w1 _ w2 former _ w3
  have hfault : WebFrame w w2 :=
    .whenSo ((webFrame_updEnc w n _).trans (worldFrame_raiseEnc _ _ _ _)) (webFrame_web _ _)
  refine .unless (.refl w) (.ite hfault (hfault.trans ?_))
  split
  · exact ((webFrame_web w2 _).trans (webFrame_web _ _)).trans (worldFrame_raiseAt _ _ _ _ _ _)
  · exact webFrame_encInhibit w2 kind

theorem webFrame_illegalStep {n : Nat} (hn : n < 4) : WebFrame w (illegalStep n w) := by
  unfold illegalStep
  extract_lets e at_ w1 w2
  have hcount : WebFrame w w1 :=
    (webFrame_updEnc w n _).trans (worldFrame_bump _ (encKey hn (by decide) (by decide)))
  have htold : WebFrame w w2 :=
    hcount.trans (.ite ((webFrame_updEnc w1 n _).trans (worldFrame_raiseEnc _ _ _ _)) (.refl w1))
  exact .ite (.whenSo htold (webFrame_encFault w2 n 2)) (.refl w)

theorem webFrame_encIllegal (n : Nat) : WebFrame w (encIllegal n w) := by
  unfold encIllegal
  extract_lets e w1
  split
  · next h => exact (webFrame_updEnc w n _).trans (.ite (webFrame_illegalStep w1 h.1) (.refl w1))
  · exact .refl w

theorem webFrame_encLoss (n sig : Nat) : WebFrame w (encLoss n sig w) := by
  unfold encLoss
  extract_lets w1 _ w2 w3
  have hlost : WebFrame w w3 :=
    (WorldFrame.whenSo (webFrame_updEnc w n _) (webFrame_web w1 _)).trans (worldFrame_raise w2 _ _ _)
  exact .ite (.whenSo hlost (webFrame_encFault w3 n 3)) (.refl w)

/-! ### Edges -/

theorem webFrame_trackEdge (n : Nat) (dir : Int) : WebFrame w (trackEdge w n dir) := by
  unfold trackEdge
  extract_lets t net pos w1 _ w2 trk w3 _ w4
  have hpos : WebFrame w w1 := webFrame_web w _
  have hahead : WebFrame w1 w2 := webFrame_web w1 _
  split
  · refine hpos.trans (hahead.trans ?_)
    split
    · exact worldFrame_bump w2 rfl
    · exact worldFrame_raiseEnc w2 _ _ _
    · exact .refl w2
  · refine .ite (.ite ?_ ?_) hpos
    · exact hpos.trans ((webFrame_web w1 _).trans ((webFrame_web w3 _).trans ((worldFrame_bump _ rfl).trans
        (worldFrame_raiseEnc _ _ _ _))))
    · exact hpos.trans (webFrame_web w1 _)

theorem webFrame_speedEdge (n : Nat) (dir : Int) (et : Nat) : WebFrame w (speedEdge w n dir et) := by
  unfold speedEdge
  extract_lets t back clk w1 _ run m w2
  have hmotion : WebFrame w w1 := .ite (worldFrame_raiseEnc w _ _ _) (.refl w)
  exact hmotion.trans (WorldFrame.trans (.ite (webFrame_web w1 _) (.ite (webFrame_web w1 _) (webFrame_web w1 _)))
    (webFrame_web w2 _))

theorem webFrame_slipEdge (n : Nat) (dir : Int) : WebFrame w (slipEdge w n dir) := by
  unfold slipEdge
  split
  · exact webFrame_web w _
  · extract_lets
    refine .ite (webFrame_web w _) ?_
    split
    · exact .ite (webFrame_web w _) (.refl w)
    · exact webFrame_web w _

theorem webFrame_countEdge {n : Nat} (hn : n < 4) (dir : Int) : WebFrame w (countEdge w n dir) := by
  unfold countEdge
  extract_lets e ns close gap e' w1 w2 w3 w4 w5 w6
  have hcount : WebFrame w w1 := webFrame_web w _
  have hover : WebFrame w1 w2 := worldFrame_bump w1 (encKey hn (by decide) (by decide))
  have hclose : WebFrame w w3 := hcount.trans (.ite (hover.trans
    (.ite ((webFrame_updEnc w2 n _).trans (worldFrame_raiseEnc _ _ _ _)) (.refl w2))) (.refl w1))
  have hactive : WebFrame w w6 := hclose.trans (.ite ((webFrame_trackEdge w3 n dir).trans ((webFrame_speedEdge w4 n dir _).trans
    (webFrame_lck w5 _))) (.refl w3))
  exact hactive.trans (webFrame_slipEdge w6 n dir)

theorem webFrame_encEdge (n : Nat) (aLeads : Bool) : WebFrame w (encEdge n aLeads w) := by
  unfold encEdge
  extract_lets e w1
  split
  · next h => exact (webFrame_updEnc w n _).trans (.ite (webFrame_countEdge w1 h.1 _) (.refl w1))
  · exact .refl w

theorem webFrame_encReturn (n sig : Nat) (a b : Bool) : WebFrame w (encReturn n sig a b w) := by
  unfold encReturn
  extract_lets w1 e
  refine .ite ((webFrame_updEnc w n _).trans (.ite (.refl w1) ?_)) (.refl w)
  split
  · exact webFrame_encEdge w1 n true
  · exact webFrame_encEdge w1 n false
  · exact webFrame_encIllegal w1 n
  · exact .refl w1

/-! ### The index and the slip window -/

theorem webFrame_indexStep (n : Nat) (d : Int) : WebFrame w (indexStep w n d) := by
  unfold indexStep
  extract_lets c onEdge rho pos _ w1 _
  exact (webFrame_web w _).trans (.ite (webFrame_lck w1 _) (webFrame_lck w1 _))

theorem webFrame_indexCheck {n : Nat} (hn : n < 4) : WebFrame w (indexCheck w n) := by
  have hkey : ∀ a, 0x210000 ≤ a → a < 0x21C000 → objIn [0x21] (a + 0x1000 * n) = true := fun a => encKey hn
  unfold indexCheck
  extract_lets e d w1 w2 w3 w4 run w5 w6
  have hshown : WebFrame w w1 :=
    (worldFrame_setO w (hkey _ (by decide) (by decide)) _).trans
      (worldFrame_setO _ (hkey _ (by decide) (by decide)) _)
  have hmoved : WebFrame w2 w4 := .whenSo (webFrame_updEnc w2 n _) (webFrame_indexStep w3 n d)
  have hmism : WebFrame w1 w5 := (webFrame_updEnc w1 n _).trans (worldFrame_bump _ (hkey _ (by decide) (by decide)))
  refine hshown.trans (.ite ((webFrame_updEnc w1 n _).trans (.ite (.refl w2) (hmoved.trans ?_))) (hmism.trans ?_))
  · exact (worldFrame_bump w4 (hkey _ (by decide) (by decide))).trans (worldFrame_raiseEnc _ _ _ _)
  · exact .whenSo (worldFrame_raiseEnc w5 _ _ _) (webFrame_encFault w6 n 1)

theorem webFrame_indexEvent (n : Nat) : WebFrame w (indexEvent n w) := by
  unfold indexEvent
  extract_lets e w1 w2
  split
  · next h =>
    have hkey : objIn [0x21] (Obj.WEB_ENC_IDX_COUNT n) = true :=
      encKey h.1 (by decide) (by decide)
    exact .ite (webFrame_indexCheck w h.1)
      ((webFrame_updEnc w n _).trans ((worldFrame_setO w1 hkey _).trans (worldFrame_raiseEnc w2 _ _ _)))
  · exact .refl w

theorem webFrame_slipEnd : WebFrame w (slipEnd w) := by
  unfold slipEnd
  split
  · extract_lets d _ w1
    exact .ite (.whenSo ((webFrame_web w _).trans (worldFrame_setO _ rfl _)) (worldFrame_raiseInt w1 _ _ _)) (.refl w)
  · exact .refl w

/-! ### SSI transfers and missed windows -/

theorem webFrame_ssiStart (n : Nat) : WebFrame w (ssiStart n w) := .ite (worldFrame_updSsi w (by decide) n _) (.refl w)

theorem webFrame_ssiDone {n : Nat} (hn : n < 2) (raw : Nat) (idleHigh err : Bool) :
    WebFrame w (ssiDone n raw idleHigh err w) := by
  have hkey : ∀ a, 0x210000 ≤ a → a < 0x21F000 → objIn [0x21] (a + 0x100 * n) = true :=
    fun a hlo hhi => objIn_web (by omega)
  unfold ssiDone
  split
  · exact .refl w
  · extract_lets bits raw' v lim kind w1
    have hdone : WebFrame w w1 := worldFrame_updSsi w (by decide) n _
    refine hdone.trans (.ite ?_ ?_)
    · exact (worldFrame_bump w1 (hkey _ (by decide) (by decide))).trans (worldFrame_raiseAt _ _ _ _ _ _)
    · exact (worldFrame_updSsi w1 (by decide) n _).trans ((worldFrame_setO _ (hkey _ (by decide) (by decide)) _).trans
        (worldFrame_setO _ (hkey _ (by decide) (by decide)) _))

theorem webFrame_prbDecide {n : Nat} (hn : n < 8) (c : ClosedWin) : WebFrame w (prbDecide w n c) :=
  have hkey : objIn [0x21] (Obj.WEB_PRB_MISSED n) = true :=
    objIn_web (by show (0x21400E + 0x100 * n) / 65536 = 0x21; omega)
  .unless (.refl w) ((worldFrame_bump w hkey).trans (worldFrame_raise _ _ _ _))

theorem webFrame_prbMissed {n : Nat} (hn : n < 8) : WebFrame w (prbMissed n w) :=
  (worldFrame_updPrb w (by decide) n _).trans (.foldl (fun b c _ => webFrame_prbDecide b hn c) _)

end

end Sys2Proof.Machine
end

section
/-! SUPPORT. What the line clock, the bars, the ports, composition and frames write in their short commands. -/

namespace Sys2Proof.Machine

/-! ### The line clock and its switch -/

/-- What an overspeed episode may write. -/
abbrev OverFrame : World → World → Prop := WorldFrame [.lck] (objsOf [Obj.SUP_STOP_SRC])

/-- What the placement of a switch may write. -/
abbrev SwitchFrame : World → World → Prop := WorldFrame [.lck, .jq, .links, .fire] noObj

/-- What a port that sends lines may write. -/
abbrev PortFrame : World → World → Prop := WorldFrame [.fire, .links] (objIn [0x26])

/-- What the look-ahead alarms may write. -/
abbrev LookFrame : World → World → Prop :=
  WorldFrame [.mem] (objsOf [Obj.MEM_LA_ACTUAL, Obj.MEM_LA_MIN, Obj.SUP_STOP_SRC, Obj.SUP_DL_MISS 1])

section
variable (w : World)

theorem overFrame_lck (v : Lck) : OverFrame w { w with lck := v } := worldFrame_lck w (by decide) v

theorem overFrame_overWarn : OverFrame w (overWarn w) := by
  unfold overWarn
  split
  · exact (overFrame_lck w _).trans (worldFrame_raise _ _ _ _)
  · exact .refl w

theorem overFrame_overWarnEnd : OverFrame w (overWarnEnd w) := by
  unfold overWarnEnd
  split
  · exact (overFrame_lck w _).trans (worldFrame_raise _ _ _ _)
  · exact .refl w

theorem overFrame_overspeedEnd : OverFrame w (overspeedEnd w) := by
  unfold overspeedEnd
  split
  · exact .refl w
  · exact overFrame_lck w _

theorem overFrame_overStop : OverFrame w (overStop w) := by
  unfold overStop
  split
  · exact .refl w
  · exact .unless (.refl w) (.trans (worldFrame_raise w _ _ _) (.trans (overFrame_lck _ _)
      (worldFrame_stopSrc _ (by decide) 0 true)))

theorem overFrame_overStopRelease : OverFrame w (overStopRelease w) := by
  unfold overStopRelease
  split
  · exact overFrame_lck w _
  · exact overFrame_lck w _
  · exact .ite ((overFrame_lck w _).trans (worldFrame_stopSrc _ (by decide) 0 false)) (.refl w)

theorem switchFrame_lck (v : Lck) : SwitchFrame w { w with lck := v } := worldFrame_lck w (by decide) v

theorem switchFrame_placeSwitch : SwitchFrame w (placeSwitch w) :=
  worldFrame_placeSwitch w (by decide) (by decide) (by decide) (by decide)

theorem switchFrame_overspeed (print : Bool) : SwitchFrame w (overspeed print w) := by
  unfold overspeed
  split
  · exact .trans (switchFrame_lck w _) (.trans (worldFrame_raise _ _ _ _) (switchFrame_placeSwitch _))
  · exact .refl w

theorem switchFrame_halflineReturn : SwitchFrame w (halflineReturn w) := by
  unfold halflineReturn
  refine .ite (.refl w) (.ite (switchFrame_lck w _) ?_)
  split
  · exact switchFrame_lck w _
  · exact .ite ((switchFrame_lck w _).trans (switchFrame_placeSwitch _)) (.refl w)

/-! ### Tables of a bar -/

theorem worldFrame_tableLoadDone {r : Nat} (hr : r < 16) :
    WorldFrame [.jq] (objIn [0x25]) w (tableLoadDone r w) := by
  have hkey : objIn [0x25] (Obj.JQ_LOAD_US (r / 2)) = true := by
    have hpage : Obj.JQ_LOAD_US (r / 2) / 65536 = 0x25 := by
      simp only [Obj.JQ_LOAD_US]
      omega
    simp [hpage]
  unfold tableLoadDone
  dsimp only
  split
  · exact .refl w
  · exact .whenSo ((worldFrame_updBar w (by decide) _ _).trans (worldFrame_setO _ hkey _)) (worldFrame_raise _ _ _ _)

/-! ### Ports -/

theorem portFrame_updPort (p : Nat) (f : FirePort → FirePort) : PortFrame w (updPort w p f) :=
  worldFrame_updPort w (by decide) p f

theorem portFrame_enterIdle {p : Nat} (hp : p < 16) : PortFrame w (enterIdle w p) := by
  have hkey : objIn [0x26] (Obj.FIR_IDLE_ENTRIES p) = true := by
    have hpage : Obj.FIR_IDLE_ENTRIES p / 65536 = 0x26 := by
      simp only [Obj.FIR_IDLE_ENTRIES]
      omega
    simp [hpage]
  exact (portFrame_updPort w p _).trans (worldFrame_bump _ hkey)

theorem portFrame_idleTry {p : Nat} (hp : p < 16) : PortFrame w (idleTry w p) := by
  unfold idleTry
  dsimp only
  refine .ite (.refl w) ?_
  split
  · exact .ite (portFrame_enterIdle w hp) (.refl w)
  · exact .ite (portFrame_enterIdle w hp) (.refl w)

theorem portFrame_sendSync (p : Nat) : PortFrame w (sendSync w p) := .ite (worldFrame_putSync w (by decide) p) (.refl w)

theorem portFrame_lineTxDone {p : Nat} (hp : p < 16) : PortFrame w (lineTxDone p w) := by
  unfold lineTxDone
  split
  · exact .refl w
  · extract_lets w1 w2
    have hgone : PortFrame w w2 := (portFrame_updPort w p _).trans (portFrame_updPort w1 p _)
    exact (WorldFrame.whenSo hgone ((portFrame_sendSync w2 p).trans (worldFrame_flushCmds _ (by decide) p))).trans
      (portFrame_idleTry _ hp)

theorem portFrame_idleExit (p : Nat) : PortFrame w (idleExit p w) := by
  unfold idleExit
  split
  · exact .ite (worldFrame_exitIdle w (by decide) (by decide) p) (.refl w)
  · exact .refl w

/-! ### Look-ahead -/

theorem lookFrame_mem (v : Mem) : LookFrame w { w with mem := v } := worldFrame_mem w (by decide) v

theorem lookFrame_lookAfter : LookFrame w (lookAfter w) := by
  unfold lookAfter
  dsimp only
  have hshown : LookFrame w (noteLook w) := worldFrame_noteLook w (by decide) (by decide)
  refine .whenSo (hshown.trans (.trans (.ite (lookFrame_mem _ _) (.refl _)) (.ite (lookFrame_mem _ _)
    (.ite (lookFrame_mem _ _) (.refl _))))) (.trans (lookFrame_mem _ _) (worldFrame_stopSrc _ (by decide) 1 false))

theorem lookFrame_compLate : LookFrame w (compLate w) :=
  .whenSo (lookFrame_lookAfter w) ((lookFrame_mem _ _).trans ((worldFrame_bump _ (by decide)).trans
    (worldFrame_raiseInt _ _ _ _)))

theorem lookFrame_compStarved : LookFrame w (compStarved w) := by
  refine (lookFrame_lookAfter w).trans ?_
  unfold compStarved
  generalize lookAfter w = u
  dsimp only
  split
  · exact .refl u
  · exact .unless (.refl u) (.whenSo ((lookFrame_mem u _).trans (worldFrame_raiseInt _ _ _ _))
      (worldFrame_stopSrc _ (by decide) 1 true))

/-! ### Frames -/

theorem worldFrame_jobEnd : WorldFrame [.job] (objIn [0x20]) w (jobEnd w) := by
  unfold jobEnd
  split
  · exact .refl w
  · exact .ite ((worldFrame_job w (by decide) _).trans (worldFrame_raise _ _ _ _)) (.refl w)

theorem worldFrame_noSrcTick : WorldFrame [.job] (objIn [0x20]) w (noSrcTick w) :=
  .ite ((worldFrame_job w (by decide) _).trans (worldFrame_raise _ _ _ _)) (.refl w)

end

/-- A guarded command of the world has the frame of its meaning under the guard. -/
theorem WorldFrame.guarded {parts : List Part} {objs : Nat → Bool} {a : World} {c : Bool} {f : World → World}
    (h : c = true → WorldFrame parts objs a (f a)) : WorldFrame parts objs a (Machine.whenDo c f a) := by
  cases hc : c with
  | true => exact h hc
  | false => exact .refl a

end Sys2Proof.Machine
end

section
/-! Obligation O8. -/
open Sys2Proof Sys2Proof.Machine

/-- Settles O8: each command writes within the frame of its unit. -/
theorem webAndLineFrames : Obligations.WebAndLineFrames := by
  refine fun s t c h => ⟨?web, ?episode, ?switch, ?table, ?port, ?look, ?job⟩
  case web =>
    rintro (⟨n, x, rfl⟩ | ⟨n, rfl⟩ | ⟨n, x, rfl⟩ | ⟨n, x, y, z, rfl⟩ | ⟨n, rfl⟩ | rfl | ⟨n, rfl⟩ | ⟨n, x, y, z, rfl⟩ | ⟨n, rfl⟩)
    · exact touches_onWorld (show execEncEdge n x s = _ from h) (.whenDo (webFrame_encEdge _ n x))
    · exact touches_onWorld (show execEncIllegal n s = _ from h) (.whenDo (webFrame_encIllegal _ n))
    · exact touches_onWorld (show execEncLoss n x s = _ from h) (.whenDo (webFrame_encLoss _ n x))
    · exact touches_onWorld (show execEncSignalReturn n x y z s = _ from h) (.whenDo (webFrame_encReturn _ n x y z))
    · exact touches_onWorld (show execIndex n s = _ from h) (.whenDo (webFrame_indexEvent _ n))
    · exact touches_onWorld (show execSlipWindowEnd s = _ from h) (.whenDo (webFrame_slipEnd _))
    · exact touches_onWorld (show execSsiTransferStart n s = _ from h) (.whenDo (webFrame_ssiStart _ n))
    · refine touches_onWorld (show execSsiTransferDone n x y z s = _ from h) (.guarded fun hn => webFrame_ssiDone _ ?_ x y z)
      exact of_decide_eq_true (Bool.and_eq_true_iff.mp hn).2
    · refine touches_onWorld (show execPrbMissed n s = _ from h) (.guarded fun hn => webFrame_prbMissed _ ?_)
      exact of_decide_eq_true (Bool.and_eq_true_iff.mp hn).2
  case episode =>
    rintro (rfl | rfl | rfl | rfl | rfl)
    · exact touches_onWorld (show execOverspeedWarn s = _ from h) (.whenDo (overFrame_overWarn _))
    · exact touches_onWorld (show execOverspeedWarnEnd s = _ from h) (.whenDo (overFrame_overWarnEnd _))
    · exact touches_onWorld (show execOverspeedEnd s = _ from h) (.whenDo (overFrame_overspeedEnd _))
    · exact touches_onWorld (show execOverspeedStop s = _ from h) (.whenDo (overFrame_overStop _))
    · exact touches_onWorld (show execOverspeedStopRelease s = _ from h) (overFrame_overStopRelease _)
  case switch =>
    rintro (rfl | rfl)
    · exact touches_onWorld (show execOverspeed s = _ from h) (.whenDo (switchFrame_overspeed _ _))
    · exact touches_onWorld (show execHalflineReturn s = _ from h) (.whenDo (switchFrame_halflineReturn _))
  case table =>
    rintro ⟨r, rfl⟩
    exact touches_onWorld (show execTableLoadDone r s = _ from h) (.guarded fun hr => worldFrame_tableLoadDone _ (of_decide_eq_true hr))
  case port =>
    rintro (⟨p, rfl⟩ | ⟨p, rfl⟩ | ⟨p, rfl⟩)
    · exact touches_onWorld (show execLineTxDone p s = _ from h) (.guarded fun hp => portFrame_lineTxDone _ (of_decide_eq_true hp))
    · exact touches_onWorld (show execIdleEntryDelayEnd p s = _ from h) (.guarded fun hp => portFrame_idleTry _ (of_decide_eq_true hp))
    · exact touches_onWorld (show execIdleExit p s = _ from h) (.whenDo (portFrame_idleExit _ p))
  case look =>
    rintro (rfl | rfl)
    · exact touches_onWorld (show execCompLate s = _ from h) (.whenDo (lookFrame_compLate _))
    · exact touches_onWorld (show execCompStarved s = _ from h) (.whenDo (lookFrame_compStarved _))
  case job =>
    rintro (rfl | rfl)
    · exact touches_onWorld (show execJobEnd s = _ from h) (.whenDo (worldFrame_jobEnd _))
    · exact touches_onWorld (show execFrameSrcAbsentTick s = _ from h) (.whenDo (worldFrame_noSrcTick _))

end

section
/-! SUPPORT. A window record that is complete in time (R288), whether its tally can be read (R114), and the updates that
it leaves behind (R318). -/

namespace Sys2Proof.Machine

/-- A complete record leaves the queue and is the last one. -/
def recordTaken (w : World) (r : WinRec) (rest : List WinRec) : World :=
  updIns w fun i => { i with closing := rest, last := some r }

/-- The tally slot of the window that starts at `start`. -/
def tallySlot (w : World) (start : Int) : Option Nat := (w.mem.tallyWins.find? fun e => e.1 == start).bind (·.2)

/-- What follows a complete record: its tally is read, the loop hears of its window, and its slot is released. -/
def recordHeard (r : WinRec) (slot : Option Nat) (w : World) : World :=
  let (bad, w) := match slot with | some s => readPlace 3 s 0 w | none => (false, w)
  let (slot, w) := if bad then (none, bump w Obj.MEM_TALLY_SKIP) else (slot, w)
  let w := closeJobs (takeWindow w r slot)
  { w with mem := { w.mem with tallyWins := w.mem.tallyWins.filter fun e => e.1 != r.start } }

theorem windowRecordDone_inTime {w : World} {r : WinRec} {rest : List WinRec} (hclosing : w.ins.closing = r :: rest)
    (htime : w.clk ≤ r.closeClk + msClk 2) :
    windowRecordDone w = recordHeard r (tallySlot w r.start) (recordTaken w r rest) := by
  have hlate : ¬ msClk 2 < w.clk - r.closeClk := by
    generalize msClk 2 = n at htime ⊢
    omega
  simp only [windowRecordDone, hclosing, hlate, decide_false, b2n, Bool.false_eq_true, if_false, Nat.add_zero]
  rfl

/-- The loop hears of a window that was not tallied, and skips it. -/
theorem recordHeard_untallied (r : WinRec) (w : World) : recordHeard r none w =
    { closeJobs (bump w Obj.CHL_WIN_SKIPPED) with mem := { (closeJobs (bump w Obj.CHL_WIN_SKIPPED)).mem with
      tallyWins := (closeJobs (bump w Obj.CHL_WIN_SKIPPED)).mem.tallyWins.filter fun e => e.1 != r.start } } := rfl

/-! ### A tally that cannot be read -/

/-- A word of a tally slot struck twice. -/
def tallyWord (slot : Nat) : Struck := { area := 3, double := true, addr := 0, unit := slot, line := 0 }

/-- A word struck twice does not read back (R113, R118). -/
theorem eccStruck_double : eccStruck 0 true = .uncorrectable := by
  have hbyte : eccByte 0 = 0 := by decide
  rw [eccStruck, hbyte]
  exact (by decide : eccRead 3 0 = .uncorrectable)

/-- The count of an uncorrectable error leaves the skipped windows. -/
theorem getO_countUe_skip (w : World) (addr : Nat) :
    getO (countUe 3 addr w) Obj.MEM_TALLY_SKIP = getO w Obj.MEM_TALLY_SKIP := by
  rw [getO_countUe, getO_bump_ne _ (by decide)]
  exact getO_noteError_ne 3 addr w (by decide) (by decide)

theorem closeJobs_none {w : World} (h : w.loop.jobs = []) : closeJobs w = w := by
  rw [closeJobs, h]
  rfl

/-- An update that no engine has still to make is closed; before the last stripe nothing else moves. -/
theorem closeJobs_one {w : World} {j : LoopJob} (h : w.loop.jobs = [j]) (htodo : j.todo.any id = false)
    (hstripe : j.stripe ≠ 63) : (closeJobs w).loop.jobs = [] := by
  have hclosed : closeJob w = updLoop w fun l => { l with jobs := [] } := by
    rw [closeJob, h]
    simp [htodo, hstripe]
  have honce : closeJobs w = closeJob w := by rw [closeJobs, h]; rfl
  rw [honce, hclosed]
  rfl

theorem readPlace_struck {w : World} {slot : Nat} (h : w.mem.struck = [tallyWord slot]) :
    readPlace 3 slot 0 w = (true, countUe 3 0 { w with mem := { w.mem with struck := [] } }) := by
  simp [readPlace, readStruck, h, tallyWord, eccStruck_double]

/-- The loop hears of a window whose tally cannot be read, and skips it. -/
theorem recordHeard_struck {r : WinRec} {slot : Nat} {w : World} (h : w.mem.struck = [tallyWord slot])
    (hjobs : w.loop.jobs = []) : getN (recordHeard r (some slot) w) Obj.MEM_TALLY_SKIP =
      (getN w Obj.MEM_TALLY_SKIP + 1) % 4294967296 := by
  unfold recordHeard
  dsimp only
  rw [readPlace_struck h]
  dsimp only
  rw [if_pos rfl]
  generalize hu : countUe 3 0 { w with mem := { w.mem with struck := [] } } = u
  have hidle : u.loop.jobs = [] := by rw [← hu]; exact hjobs
  have hskip : getN u Obj.MEM_TALLY_SKIP = getN w Obj.MEM_TALLY_SKIP := by
    rw [← hu]
    exact congrArg Int.toNat (getO_countUe_skip _ 0)
  have hclosed : closeJobs (takeWindow (bump u Obj.MEM_TALLY_SKIP) r none) =
      bump (bump u Obj.MEM_TALLY_SKIP) Obj.CHL_WIN_SKIPPED := closeJobs_none hidle
  calc getN (closeJobs (takeWindow (bump u Obj.MEM_TALLY_SKIP) r none)) Obj.MEM_TALLY_SKIP
      = getN (bump u Obj.MEM_TALLY_SKIP) Obj.MEM_TALLY_SKIP := by rw [hclosed]; exact getN_bump_ne _ (by decide)
    _ = (getN u Obj.MEM_TALLY_SKIP + 1) % 4294967296 := getN_bump_same _ _
    _ = (getN w Obj.MEM_TALLY_SKIP + 1) % 4294967296 := by rw [hskip]

/-! ### Two states -/

/-- The record of a window of eight lines. -/
def shortWindow : WinRec :=
  { idx := 1, start := 0, stop := 8, frame := 0, et := 0, spec := 1, flags := 0, darkVer := 0, whiteVer := 0, voiVer := 0
    cams := 0, px := [], closeClk := 0 }

/-- A record waits whose tally slot holds an uncorrectable error. -/
def tallyStruck : State :=
  { State.reset with
    w := { State.reset.w with
      ins := { State.reset.w.ins with closing := [shortWindow] }
      mem := { State.reset.w.mem with tallyWins := [(0, some 0)], struck := [tallyWord 0] } } }

/-- A record waits of a window that was not tallied, and an update is left that no engine has still to make. -/
def updateLeft : State :=
  { State.reset with
    w := { State.reset.w with
      ins := { State.reset.w.ins with closing := [shortWindow] }
      loop := { State.reset.w.loop with jobs := [
        { start := 0, len := 8, stripe := 0, px := [], tally := [], excl := [], clk := 0, todo := [] }] } } }

end Sys2Proof.Machine
end

section
/-! Obligation O9. -/
open Sys2Proof Sys2Proof.Machine

/-- Refutes O9: a window record whose tally cannot be read counts in MEM_TALLY_SKIP, an object 0x20xx (R114). -/
theorem not_timeLinkAndInspectFrames : ¬ Obligations.TimeLinkAndInspectFrames := by
  unfold Obligations.TimeLinkAndInspectFrames
  intro h
  have hkept : ∀ t, exec .windowRecordDone tallyStruck = .next t →
      getN t.w Obj.MEM_TALLY_SKIP = getN tallyStruck.w Obj.MEM_TALLY_SKIP := by
    intro t ht
    obtain ⟨-, -, -, -, -, hrecord, -⟩ := h tallyStruck t .windowRecordDone ht
    obtain ⟨-, -, -, hobjs⟩ := hrecord rfl
    exact congrArg Int.toNat (hobjs Obj.MEM_TALLY_SKIP (by decide) (by decide) (by decide))
  have hdone := windowRecordDone_inTime (w := (fresh tallyStruck).w) (r := shortWindow) rfl (Nat.zero_le _)
  have hcounted : getN (windowRecordDone (fresh tallyStruck).w) Obj.MEM_TALLY_SKIP =
      (getN tallyStruck.w Obj.MEM_TALLY_SKIP + 1) % 4294967296 := by
    rw [hdone]
    exact recordHeard_struck rfl rfl
  have hsettled : getN (runMeaning windowRecordDone tallyStruck).w Obj.MEM_TALLY_SKIP =
      (getN tallyStruck.w Obj.MEM_TALLY_SKIP + 1) % 4294967296 := by
    rw [getN_runMeaning _ _ (by decide)]
    exact hcounted
  have hsame := hsettled.symm.trans (hkept (runMeaning windowRecordDone tallyStruck) rfl)
  have hnext : ∀ n : Nat, (n + 1) % 4294967296 ≠ n := fun n => by omega
  exact hnext _ hsame

end

section
/-! Obligation O33. -/
open Sys2Proof Sys2Proof.Machine

/-- Refutes O33: a record whose window was not tallied also closes an update that no engine has still to make, so it moves
the loop. -/
theorem not_loopRecordsAndUpdates : ¬ Obligations.LoopRecordsAndUpdates := by
  unfold Obligations.LoopRecordsAndUpdates
  rintro ⟨h, -⟩
  obtain ⟨hrecord, -⟩ := h updateLeft
  obtain ⟨-, huntallied⟩ := hrecord shortWindow [] rfl (Nat.zero_le _) nofun
  obtain ⟨t, ht, -, -, -, -, -, hparts, -⟩ := huntallied rfl
  have hrun : exec .windowRecordDone updateLeft = .next (runMeaning windowRecordDone updateLeft) := rfl
  obtain rfl := Host.Outcome.next.inj (ht.symm.trans hrun)
  have hkept : (runMeaning windowRecordDone updateLeft).w.loop = updateLeft.w.loop := hparts .loop (by decide)
  have hdone := windowRecordDone_inTime (w := (fresh updateLeft).w) (r := shortWindow) rfl (Nat.zero_le _)
  rw [runMeaning, settle_loop, hdone] at hkept
  have hclosed : (closeJobs (bump (recordTaken (fresh updateLeft).w shortWindow []) Obj.CHL_WIN_SKIPPED)).loop.jobs = [] :=
    closeJobs_one rfl rfl (by decide)
  exact List.cons_ne_nil _ _ ((congrArg Loop.jobs hkept).symm.trans hclosed)

end

section
/-! SUPPORT. What a Sync shows (R374), and what the servo then leaves of it. -/

namespace Sys2Proof.Machine

/-- The servo leaves the Sync that waits, the path delay, and what a Sync shows. -/
structure KeepsSync (a b : World) : Prop where
  twoStep : b.tim.twoStep = a.tim.twoStep
  path : b.tim.path = a.tim.path
  shown : ∀ k ∈ [Obj.TIM_SYNC_RX, Obj.TIM_OFFSET_NS, Obj.TIM_ASYM_PS], getO b k = getO a k

theorem KeepsSync.refl (a : World) : KeepsSync a a := ⟨rfl, rfl, fun _ _ => rfl⟩

theorem KeepsSync.trans {a b c : World} (hab : KeepsSync a b) (hbc : KeepsSync b c) : KeepsSync a c :=
  ⟨hbc.twoStep.trans hab.twoStep, hbc.path.trans hab.path, fun k hk => (hbc.shown k hk).trans (hab.shown k hk)⟩

theorem KeepsSync.ite {a b c : World} {p : Prop} [Decidable p] (hb : KeepsSync a b) (hc : KeepsSync a c) :
    KeepsSync a (if p then b else c) := by
  split
  · exact hb
  · exact hc

section
variable (w : World)

theorem keepsSync_setO {k : Nat} (hk : k ∉ [Obj.TIM_SYNC_RX, Obj.TIM_OFFSET_NS, Obj.TIM_ASYM_PS]) (v : Int) :
    KeepsSync w (setO w k v) :=
  ⟨rfl, rfl, fun _ hj => getO_setO_ne w v fun h => hk (h ▸ hj)⟩

theorem keepsSync_tim {v : Tim} (htwo : v.twoStep = w.tim.twoStep) (hpath : v.path = w.tim.path) :
    KeepsSync w { w with tim := v } := ⟨htwo, hpath, fun _ _ => rfl⟩

theorem keepsSync_raise (code inst data : Nat) : KeepsSync w (raise w code inst data) := ⟨rfl, rfl, fun _ _ => rfl⟩

theorem keepsSync_setServo (v : Nat) : KeepsSync w (setServo w v) := by
  have htold (u : World) (p q : Prop) [Decidable p] [Decidable q] (code a b : Nat) :
      KeepsSync u (if p then raise u code 0 a else if q then raise u code 0 b else u) :=
    .ite (keepsSync_raise u _ _ _) (.ite (keepsSync_raise u _ _ _) (.refl u))
  exact .ite (.refl w) (.trans (keepsSync_setO w (by decide) _) (.trans (htold _ _ _ _ _ _) (htold _ _ _ _ _ _)))

theorem keepsSync_setPort (v : Nat) : KeepsSync w (setPort w v) :=
  .ite (.refl w) ((keepsSync_setO w (by decide) _).trans (keepsSync_raise _ _ _ _))

theorem keepsSync_stepTimer (d : Frac) (software : Bool) : KeepsSync w (stepTimer w d software) :=
  .trans (keepsSync_tim w (by rfl) (by rfl)) (.trans (keepsSync_setO _ (by decide) _) (.trans (keepsSync_setO _ (by decide) _)
    (.trans (keepsSync_setO _ (by decide) _) (.trans (keepsSync_tim _ (by rfl) (by rfl)) (keepsSync_raise _ _ _ _)))))

theorem keepsSync_stepOrDefer (c : Ctl) (o : Frac) : KeepsSync w (stepOrDefer c w o).2 := by
  unfold stepOrDefer
  split
  · extract_lets n _ w1
    have hdeferred : KeepsSync w w1 := (keepsSync_tim w (by rfl) (by rfl)).trans (keepsSync_setO _ (by decide) _)
    split
    · exact hdeferred
    · exact hdeferred.trans ((keepsSync_tim w1 (by rfl) (by rfl)).trans (keepsSync_raise _ _ _ _))
  · exact keepsSync_stepTimer w _ false

theorem keepsSync_lockCount (o : Frac) : KeepsSync w (lockCount w o) := by
  unfold lockCount
  extract_lets lim a lr ur _ w1
  have hruns : KeepsSync w w1 := keepsSync_tim w (by rfl) (by rfl)
  refine hruns.trans ?_
  split
  · exact .ite (.trans (keepsSync_tim w1 (by rfl) (by rfl)) (.trans (keepsSync_setServo _ 2) (keepsSync_setPort _ 9))) (.refl w1)
  · exact .ite ((keepsSync_tim w1 (by rfl) (by rfl)).trans (keepsSync_setServo _ 1)) (.refl w1)
  · exact .refl w1

theorem keepsSync_noteY : KeepsSync w (noteY w) :=
  .ite ((keepsSync_tim w (by rfl) (by rfl)).trans (keepsSync_setO _ (by decide) _)) (.refl w)

theorem keepsSync_servoTerms (o t : Frac) : KeepsSync w (servoTerms w o t) :=
  (keepsSync_tim w (by rfl) (by rfl)).trans (keepsSync_setO _ (by decide) _)

/-- The offset that a Sync gives: its measure less the path delay and the asymmetry. -/
def syncOffset (w : World) (m : Frac) : Int :=
  fracFloor (fracSub (fracSub m w.tim.path) (frac (getO w Obj.TIM_ASYM_PS) 1000))

theorem servoSync_shows (c : Ctl) (m : Frac) (logInt : Int) :
    getN (servoSync c w m logInt) Obj.TIM_SYNC_RX = (getN w Obj.TIM_SYNC_RX + 1) % 4294967296 ∧
    getO (servoSync c w m logInt) Obj.TIM_OFFSET_NS = syncOffset w m ∧
    (servoSync c w m logInt).tim.twoStep = w.tim.twoStep := by
  unfold servoSync
  extract_lets w1 _ w2 _ w3 o w4 big
  have h3 : KeepsSync w2 w3 := .ite ((keepsSync_tim w2 (by rfl) (by rfl)).trans (keepsSync_setServo _ 1)) (.refl w2)
  have hpath : w3.tim.path = w.tim.path := h3.path
  have hasym : getO w3 Obj.TIM_ASYM_PS = getO w Obj.TIM_ASYM_PS :=
    (h3.shown _ (by decide)).trans (getO_bump_ne w (by decide))
  have ho : fracFloor o = syncOffset w m := by rw [syncOffset, ← hpath, ← hasym]
  have hcount : getN w4 Obj.TIM_SYNC_RX = (getN w Obj.TIM_SYNC_RX + 1) % 4294967296 :=
    calc getN w4 Obj.TIM_SYNC_RX = getN w3 Obj.TIM_SYNC_RX := getN_setO_ne w3 _ (by decide)
      _ = getN w2 Obj.TIM_SYNC_RX := congrArg Int.toNat (h3.shown _ (by decide))
      _ = (getN w Obj.TIM_SYNC_RX + 1) % 4294967296 := getN_bump_same w _
  have hoffset : getO w4 Obj.TIM_OFFSET_NS = syncOffset w m := (getO_setO_same w3 _ _).trans ho
  have htwo : w4.tim.twoStep = w.tim.twoStep := h3.twoStep
  clear_value w4 big o
  have hstep : KeepsSync w4 (if big = true then stepOrDefer c w4 o
      else (false, setO { w4 with tim := { w4.tim with deferred := none, deferRaised := false } } Obj.TIM_DEFERRED_NS 0)).2 := by
    split
    · exact keepsSync_stepOrDefer w4 c o
    · exact (keepsSync_tim w4 (by rfl) (by rfl)).trans (keepsSync_setO _ (by decide) _)
  generalize (if big = true then stepOrDefer c w4 o
      else (false, setO { w4 with tim := { w4.tim with deferred := none, deferRaised := false } } Obj.TIM_DEFERRED_NS 0)) = x
    at hstep ⊢
  have hkept : KeepsSync w4 (if x.1 = true then lockCount x.2 o
      else noteY (lockCount (servoTerms x.2 o (pow2Frac logInt)) o)) :=
    .ite (hstep.trans (keepsSync_lockCount _ o))
      (.trans hstep (.trans (keepsSync_servoTerms _ o _) (.trans (keepsSync_lockCount _ o) (keepsSync_noteY _))))
  exact ⟨(congrArg Int.toNat (hkept.shown _ (by decide))).trans hcount, (hkept.shown _ (by decide)).trans hoffset,
    hkept.twoStep.trans htwo⟩

/-! ### Messages under their conditions -/

variable {w} {m : PtpMsg} (hactive : ptpActive w = true)
include hactive

theorem syncRx_foreign (c : Ctl) (hdomain : m.domain ≠ getN w Obj.TIM_DOMAIN) :
    syncRx c m w = bump w Obj.TIM_PTP_IGNORED := by
  simp [syncRx, hactive, hdomain]

variable (hdomain : m.domain = getN w Obj.TIM_DOMAIN)
include hdomain

theorem syncRx_own (c : Ctl) (hinput : servoHasInput w = true) (hmode : getF w Obj.TIM_CFG 0 2 = 1)
    (hmaster : m.sender = w.tim.parent) : syncRx c m w =
      if m.twoStep then { w with tim := { w.tim with twoStep := some (m.seq, rxStamp w, frac m.corr 65536, m.logInt) } }
      else servoSync c w (fracSub (fracSub (rxStamp w) (fracI m.ns)) (frac m.corr 65536)) m.logInt := by
  simp [syncRx, hactive, hdomain, hinput, hmode, fromMaster, hmaster]

theorem followUpRx_own (c : Ctl) {t2 corr : Frac} {l : Int} (hinput : servoHasInput w = true)
    (hmaster : m.sender = w.tim.parent) (hwaits : w.tim.twoStep = some (m.seq, t2, corr, l)) : followUpRx c m w =
      servoSync c { w with tim := { w.tim with twoStep := none } }
        (fracSub (fracSub (fracSub t2 (fracI m.ns)) corr) (frac m.corr 65536)) l := by
  simp [followUpRx, hactive, hdomain, hinput, hwaits, fromMaster, hmaster]

theorem delayReqRx_master (hport : getN w Obj.TIM_PORT_STATE = 6) (hmech : getF w Obj.TIM_CFG 3 1 = 0) :
    delayReqRx m w = send w (ptpMsg w 9 m.seq (getO w Obj.TIM_LOG_DELAY) (stampNs (rxStamp w))
      (stampFrac (rxStamp w) + m.corr) m.sender) := by
  simp [delayReqRx, hactive, hdomain, hport, hmech]

theorem pdelayReqRx_answers (turn : Nat) (hmech : getF w Obj.TIM_CFG 3 1 = 1) :
    pdelayReqRx m turn w = send w (ptpMsg w 3 m.seq 127 0 (m.corr + turn) m.sender) := by
  simp [pdelayReqRx, hactive, hdomain, hmech]

theorem delayRespRx_own {t3 d : Frac} (hpending : w.tim.pendingDelay = some (m.seq, t3)) (hd : w.tim.t2t1 = some d)
    (hmech : getF w Obj.TIM_CFG 3 1 = 0) (hmaster : m.sender = w.tim.parent) : ∃ x, delayRespRx m w =
      pathSample { w with tim := { w.tim with pendingDelay := none } } x := by
  refine ⟨fracDiv (fracAdd d (fracSub (fracSub (fracI m.ns) t3) (frac m.corr 65536))) (fracI 2), ?_⟩
  simp [delayRespRx, hactive, hdomain, hpending, hd, hmech, fromMaster, hmaster]

theorem pdelayRespRx_oneStep {t1 : Frac} (hpending : w.tim.pendingDelay = some (m.seq, t1))
    (hmech : getF w Obj.TIM_CFG 3 1 = 1) (hone : m.twoStep = false) : pdelayRespRx m w =
      pathSample { w with tim := { w.tim with pendingDelay := none } }
        (fracDiv (fracSub (fracSub (rxStamp w) t1) (frac m.corr 65536)) (fracI 2)) := by
  simp [pdelayRespRx, hactive, hdomain, hpending, hmech, hone]

theorem pdelayFollowRx_own {d t2 : Frac} (hwaits : w.tim.pdTwoStep = some (m.seq, d, t2)) : ∃ x, pdelayFollowRx m w =
      pathSample { w with tim := { w.tim with pendingDelay := none, pdTwoStep := none } } x := by
  refine ⟨fracDiv (fracSub (fracSub d (fracSub (fracI m.ns) t2)) (frac m.corr 65536)) (fracI 2), ?_⟩
  simp [pdelayFollowRx, hactive, hdomain, hwaits]

end

/-- The first sample is the path delay. -/
theorem pathSample_first {w : World} (h : w.tim.pathValid = false) (x : Frac) :
    (pathSample w x).tim.path = frac (fracFloor (fracScale x 65536)) 65536 := by
  simp only [pathSample, h, setO_tim, Bool.false_eq_true, if_false]

theorem rxStamp_fresh (s : State) : rxStamp (fresh s).w = rxStamp s.w := rfl

/-- A path delay sample writes TIM_PATH_PS beside the time part. -/
theorem worldFrame_pathSample (w : World) (v : Tim) (x : Frac) :
    WorldFrame [.tim] (objsOf [Obj.TIM_PATH_PS]) w (pathSample { w with tim := v } x) :=
  .trans (worldFrame_tim w (by decide) v) (.trans (worldFrame_tim _ (by decide) _) (worldFrame_setO _ (by decide) _))

end Sys2Proof.Machine
end

section
/-! Obligation O34. -/
open Sys2Proof Sys2Proof.Machine

/-- Settles O34: each message meets its rule under its condition, and the servo keeps what a Sync shows. -/
theorem ptpReceived : Obligations.PtpReceived := by
  refine ⟨fun s m hon hactive => ⟨fun hdomain => ?_, fun hdomain hinput hmaster => ⟨fun hmode htwo => ?_,
      fun hmode hone => ?_, fun t2 c l hwaits => ?_⟩⟩,
    fun s m hon hactive hdomain => ⟨fun hport hmech => ?_, fun turn hmech => ?_, fun t3 d hpending hd hmech hmaster => ?_,
      fun t1 hpending hmech hone hinvalid => ?_, fun d t2 hwaits => ?_⟩⟩
  · have hdone := syncRx_foreign (w := (fresh s).w) hactive s.ctl hdomain
    refine ⟨_, onWorld_whenDo (c := fun c => powered c.mode) (fun c => syncRx c m) hon, ?_,
      WorldFrame.touches (hdone ▸ worldFrame_bump _ (by decide))⟩
    rw [getN_runMeaning _ _ (by decide), hdone]
    exact getN_bump_same _ _
  · have hdone := syncRx_own (w := (fresh s).w) hactive hdomain s.ctl hinput hmode hmaster
    rw [if_pos htwo] at hdone
    refine ⟨_, onWorld_whenDo (c := fun c => powered c.mode) (fun c => syncRx c m) hon, ?_,
      WorldFrame.touches (hdone ▸ worldFrame_tim _ (by decide) _)⟩
    rw [runMeaning, settle_tim, hdone]
    rfl
  · have hdone := syncRx_own (w := (fresh s).w) hactive hdomain s.ctl hinput hmode hmaster
    rw [if_neg (Bool.eq_false_iff.mp hone)] at hdone
    obtain ⟨hcount, hoffset, -⟩ := servoSync_shows (fresh s).w s.ctl
      (fracSub (fracSub (rxStamp (fresh s).w) (fracI m.ns)) (frac m.corr 65536)) m.logInt
    refine ⟨_, onWorld_whenDo (c := fun c => powered c.mode) (fun c => syncRx c m) hon, ?_, ?_⟩
    · rw [getN_runMeaning _ _ (by decide), hdone, hcount]
      rfl
    · rw [getO_runMeaning _ _ (by decide), hdone, hoffset]
      rfl
  · have hdone := followUpRx_own (w := (fresh s).w) hactive hdomain s.ctl hinput hmaster hwaits
    obtain ⟨-, hoffset, htwo⟩ := servoSync_shows { (fresh s).w with tim := { (fresh s).w.tim with twoStep := none } } s.ctl
      (fracSub (fracSub (fracSub t2 (fracI m.ns)) c) (frac m.corr 65536)) l
    refine ⟨_, onWorld_whenDo (c := fun c => powered c.mode) (fun c => followUpRx c m) hon, ?_, ?_⟩
    · rw [runMeaning, settle_tim, hdone]
      exact htwo
    · rw [getO_runMeaning _ _ (by decide), hdone, hoffset]
      rfl
  · have hdone := delayReqRx_master (w := (fresh s).w) hactive hdomain hport hmech
    refine ⟨_, onWorld_powered (delayReqRx m) hon, ?_, WorldFrame.touches (hdone ▸ worldFrame_send _ _)⟩
    rw [runMeaning_out, hdone]
    rfl
  · have hdone := pdelayReqRx_answers (w := (fresh s).w) hactive hdomain turn hmech
    refine ⟨_, onWorld_powered (pdelayReqRx m turn) hon, ?_, WorldFrame.touches (hdone ▸ worldFrame_send _ _)⟩
    rw [runMeaning_out, hdone]
    rfl
  · obtain ⟨x, hdone⟩ := delayRespRx_own (w := (fresh s).w) hactive hdomain hpending hd hmech hmaster
    refine ⟨_, onWorld_powered (delayRespRx m) hon, ?_, ?_, WorldFrame.touches (hdone ▸ worldFrame_pathSample _ _ x)⟩
    · rw [runMeaning, settle_tim, hdone]
      rfl
    · rw [runMeaning, settle_tim, hdone]
      rfl
  · have hdone := pdelayRespRx_oneStep (w := (fresh s).w) hactive hdomain hpending hmech hone
    refine ⟨_, onWorld_powered (pdelayRespRx m) hon, ?_, ?_, ?_⟩
    · rw [runMeaning, settle_tim, hdone]
      rfl
    · rw [runMeaning, settle_tim, hdone]
      rfl
    · rw [runMeaning, settle_tim, hdone, rxStamp_fresh]
      exact pathSample_first hinvalid _
  · obtain ⟨x, hdone⟩ := pdelayFollowRx_own (w := (fresh s).w) hactive hdomain hwaits
    refine ⟨_, onWorld_powered (pdelayFollowRx m) hon, ?_, ?_, ?_, WorldFrame.touches (hdone ▸ worldFrame_pathSample _ _ x)⟩
    · rw [runMeaning, settle_tim, hdone]
      rfl
    · rw [runMeaning, settle_tim, hdone]
      rfl
    · rw [runMeaning, settle_tim, hdone]
      rfl

end

section
/-! SUPPORT. The best master clock decision (R378, R384) and what the port sends (R365, R369). -/

namespace Sys2Proof.Machine

section
variable (w : World)

theorem getN_setPort (v : Nat) : getN (setPort w v) Obj.TIM_PORT_STATE = v := by
  unfold setPort
  split
  · assumption
  · exact getN_setO_same w Obj.TIM_PORT_STATE v

theorem setGm_tim (gm : Nat) : (setGm w gm).tim = w.tim := by
  unfold setGm
  split
  · rfl
  · rfl

theorem getN_setGm (gm : Nat) : getN (setGm w gm) Obj.TIM_GM_ID = gm := by
  unfold setGm
  split
  · assumption
  · exact getN_setO_same w Obj.TIM_GM_ID gm

theorem getO_setServo_ne (v : Nat) {k : Nat} (hk : Obj.TIM_SERVO ≠ k) : getO (setServo w v) k = getO w k := by
  have htold (u : World) (p q : Prop) [Decidable p] [Decidable q] (code a b : Nat) :
      getO (if p then raise u code 0 a else if q then raise u code 0 b else u) k = getO u k := by
    split
    · exact getO_raise _ _ _ _ _
    · split
      · exact getO_raise _ _ _ _ _
      · rfl
  unfold setServo
  dsimp only
  split
  · rfl
  · rw [htold, htold, getO_setO_ne _ _ hk]

theorem getO_servoLost_ne {k : Nat} (hk : Obj.TIM_SERVO ≠ k) : getO (servoLost w) k = getO w k := by
  unfold servoLost
  dsimp only
  split
  · rfl
  · split
    · exact getO_setServo_ne w 3 hk
    · exact getO_setServo_ne w 0 hk

theorem getO_setGm_ne (gm : Nat) {k : Nat} (hk : Obj.TIM_GM_ID ≠ k) : getO (setGm w gm) k = getO w k := by
  unfold setGm
  split
  · rfl
  · rw [getO_raise, getO_setO_ne _ _ hk]

/-! ### Masters -/

/-- The port has begun to follow master `f`. -/
structure Follows (f : Foreign) (w : World) : Prop where
  port : getN w Obj.TIM_PORT_STATE = 8
  gm : getN w Obj.TIM_GM_ID = f.gm
  prio : w.tim.gmPrio = f.prio
  parent : w.tim.parent = f.sender
  path : w.tim.pathValid = false

theorem follow_new (f : Foreign) (hnew : getN w Obj.TIM_PORT_STATE = 8 ∨ getN w Obj.TIM_PORT_STATE = 9 →
    w.tim.parent ≠ f.sender) : Follows f (follow f w) := by
  unfold follow
  extract_lets st current _ w1 w2 _
  have hcurrent : ¬ current := fun h => hnew h.1 h.2
  have htim : w2.tim = w1.tim := setGm_tim w1 f.gm
  have hgm : getN w2 Obj.TIM_GM_ID = f.gm := getN_setGm w1 f.gm
  rw [if_neg hcurrent]
  exact ⟨getN_setPort _ 8, (congrArg Int.toNat (getO_setPort_ne _ 8 (by decide))).trans hgm,
    (congrArg Tim.gmPrio (setPort_tim _ 8)).trans (congrArg Tim.gmPrio htim),
    (congrArg Tim.parent (setPort_tim _ 8)).trans (congrArg Tim.parent htim), congrArg Tim.pathValid (setPort_tim _ 8)⟩

/-- A port without a master waits in LISTENING, or is MASTER. -/
theorem lead_shows : (lead w).tim.gmPrio = [] ∧
    getN (lead w) Obj.TIM_PORT_STATE = if getF w Obj.TIM_CFG 2 1 = 1 then 4 else 6 := by
  unfold lead
  extract_lets st w1 _ w2
  have hcfg : getF w2 Obj.TIM_CFG 2 1 = getF w Obj.TIM_CFG 2 1 := by
    have hkept : getO w1 Obj.TIM_CFG = getO w Obj.TIM_CFG := by
      simp only [w1]
      split
      · exact getO_servoLost_ne w (by decide)
      · rfl
    exact congrArg (fun v : Int => field v.toNat 2 1) hkept
  have hprio : w2.tim.gmPrio = [] := rfl
  rw [hcfg]
  split
  · exact ⟨(congrArg Tim.gmPrio (setPort_tim w2 4)).trans hprio, getN_setPort _ 4⟩
  · exact ⟨(congrArg Tim.gmPrio ((setPort_tim _ 6).trans (setGm_tim w2 _))).trans hprio, getN_setPort _ 6⟩

variable {w}

theorem announceRx_best {a : Announce} {f : Foreign} (hactive : ptpActive w = true)
    (hdomain : a.domain = getN w Obj.TIM_DOMAIN) (hbest : bestOf (qualified (noteMaster a w)) = some f) :
    announceRx a w = follow f (noteMaster a w) := by
  simp [announceRx, hactive, hdomain, hbest]

theorem announceTimeout_leads {c : Nat} (hserving : hostServing w = true) (hbest : bestOf (qualified w) = none)
    (hclk : w.tim.annClk = some c) (hdue : c + annTimeout w ≤ w.clk)
    (hport : getN w Obj.TIM_PORT_STATE = 4 ∨ getN w Obj.TIM_PORT_STATE = 7 ∨ getN w Obj.TIM_PORT_STATE = 8 ∨
      getN w Obj.TIM_PORT_STATE = 9) : announceTimeout w = lead w := by
  have hstate : (getN w Obj.TIM_PORT_STATE == 4 || getN w Obj.TIM_PORT_STATE == 7 || getN w Obj.TIM_PORT_STATE == 8 ||
      getN w Obj.TIM_PORT_STATE == 9) = true := by
    rcases hport with h | h | h | h <;> rw [h] <;> rfl
  simp only [announceTimeout, hserving, hclk, hdue, hstate, hbest, decide_true, Bool.and_self, if_true]

/-- The first Announce heard is the best. -/
theorem best_first {a : Announce} (hnone : w.tim.masters = []) (htimeout : 0 < annTimeout w)
    (hmay : getF w Obj.TIM_CFG 2 1 = 1 ∨ lexLt (annPrio a) (ownPrio w) = true) :
    bestOf (qualified (noteMaster a w)) = some { sender := a.sender, prio := annPrio a, gm := a.gm, clk := w.clk } := by
  have hmasters : (noteMaster a w).tim.masters =
      [{ sender := a.sender, prio := annPrio a, gm := a.gm, clk := w.clk }] := by simp [noteMaster, hnone]
  have hheard : w.clk < w.clk + annTimeout (noteMaster a w) := Nat.lt_add_of_pos_right htimeout
  have hmay' : (getF (noteMaster a w) Obj.TIM_CFG 2 1 == 1 || lexLt (annPrio a) (ownPrio (noteMaster a w))) = true := by
    rcases hmay with h | h
    · exact Bool.or_eq_true_iff.mpr (.inl (beq_iff_eq.mpr h))
    · exact Bool.or_eq_true_iff.mpr (.inr h)
  have hclk : (noteMaster a w).clk = w.clk := rfl
  rw [qualified, hmasters, List.filter_cons_of_pos, List.filter_nil, bestOf, bestOf]
  exact Bool.and_eq_true_iff.mpr ⟨decide_eq_true (hclk ▸ hheard), hmay'⟩

/-! ### Messages sent -/

theorem syncSend_master (hport : getN w Obj.TIM_PORT_STATE = 6) (hserving : hostServing w = true) : syncSend w =
    { send w (ptpMsg w 0 w.tim.syncSeq (getO w Obj.TIM_LOG_SYNC) (stampNs (txStamp w)) (stampFrac (txStamp w)) 0) with
      tim := { w.tim with syncSeq := (w.tim.syncSeq + 1) % 65536 } } := if_pos ⟨hport, hserving⟩

theorem announceSend_master (hport : getN w Obj.TIM_PORT_STATE = 6) (hserving : hostServing w = true) : announceSend w =
    { send w (.announce (getN w Obj.TIM_IFACE) (getF w Obj.TIM_CFG 4 2) (getN w Obj.TIM_DOMAIN) w.tim.annSeq (ownAnnounce w)) with
      tim := { w.tim with annSeq := (w.tim.annSeq + 1) % 65536 } } := if_pos ⟨hport, hserving⟩

theorem worldFrame_sendTim (m : OutMsg) (v : Tim) : WorldFrame [.tim] noObj w { send w m with tim := v } :=
  .trans (b := send w m) (worldFrame_send w m) (worldFrame_tim _ (by decide) v)

end

/-- A state whose port follows `f` once the command's meaning has run. -/
theorem follows_runMeaning {g : World → World} {f : Foreign} (s : State) (h : Follows f (g (fresh s).w)) :
    getN (runMeaning g s).w Obj.TIM_PORT_STATE = 8 ∧ getN (runMeaning g s).w Obj.TIM_GM_ID = f.gm ∧
      (runMeaning g s).w.tim.gmPrio = f.prio ∧ (runMeaning g s).w.tim.parent = f.sender ∧
      (runMeaning g s).w.tim.pathValid = false := by
  rw [getN_runMeaning _ _ (by decide), getN_runMeaning _ _ (by decide), runMeaning, settle_tim]
  exact ⟨h.port, h.gm, h.prio, h.parent, h.path⟩

end Sys2Proof.Machine
end

section
/-! Obligation O35. -/
open Sys2Proof Sys2Proof.Machine

/-- Settles O35: the best master is followed or the port leads, and each message goes out with its values. -/
theorem ptpMasterAndSends : Obligations.PtpMasterAndSends := by
  refine ⟨fun s hon => ⟨fun a f hactive hdomain hbest hnew => ?best, fun a hactive hdomain h8 h9 hnone htimeout hmay => ?first,
      fun c hserving hbest hclk hdue hport => ?timeout, fun hactive => ?ignored⟩,
    fun s hon hserving => ⟨fun hport => ⟨?sync, ?announce⟩, fun hinput hmech => ?delayReq, fun hactive hmech => ?pdelayReq⟩⟩
  case best =>
    refine ⟨_, onWorld_powered (announceRx a) hon, follows_runMeaning s ?_⟩
    rw [announceRx_best (w := (fresh s).w) hactive hdomain hbest]
    exact follow_new _ f hnew
  case first =>
    have hbest := best_first (w := (fresh s).w) hnone htimeout hmay
    have hfollows := follow_new (noteMaster a (fresh s).w)
      { sender := a.sender, prio := annPrio a, gm := a.gm, clk := (fresh s).w.clk } fun h => absurd h (not_or.mpr ⟨h8, h9⟩)
    rw [← announceRx_best (w := (fresh s).w) hactive hdomain hbest] at hfollows
    exact ⟨_, onWorld_powered (announceRx a) hon, follows_runMeaning s hfollows⟩
  case timeout =>
    have hdone := announceTimeout_leads (w := (fresh s).w) hserving hbest hclk hdue hport
    obtain ⟨hprio, hstate⟩ := lead_shows (fresh s).w
    refine ⟨_, onWorld_powered announceTimeout hon, ?_, ?_⟩
    · rw [runMeaning, settle_tim, hdone]
      exact hprio
    · rw [getN_runMeaning _ _ (by decide), hdone]
      exact hstate
  case ignored =>
    refine ⟨_, onWorld_when (c := fun w => ptpActive w) (fun w => bump w Obj.TIM_PTP_IGNORED) hactive, ?_,
      WorldFrame.touches (worldFrame_bump _ (by decide))⟩
    rw [getN_runMeaning _ _ (by decide)]
    exact getN_bump_same _ _
  case sync =>
    have hdone := syncSend_master (w := (fresh s).w) hport hserving
    refine ⟨_, onWorld_powered syncSend hon, ?_, ?_, WorldFrame.touches (hdone ▸ worldFrame_sendTim _ _)⟩
    · rw [runMeaning_out, hdone]
      rfl
    · rw [runMeaning, settle_tim, hdone]
      rfl
  case announce =>
    have hdone := announceSend_master (w := (fresh s).w) hport hserving
    refine ⟨_, onWorld_powered announceSend hon, ?_, ?_, WorldFrame.touches (hdone ▸ worldFrame_sendTim _ _)⟩
    · rw [runMeaning, settle_tim, hdone]
      rfl
    · rw [runMeaning_out, hdone]
      rfl
  case delayReq =>
    have hgo : (powered s.ctl.mode && hostServing (fresh s).w && servoHasInput (fresh s).w &&
        getF (fresh s).w Obj.TIM_CFG 3 1 == 0) = true := by
      simp only [Bool.and_eq_true]
      exact ⟨⟨⟨hon, hserving⟩, hinput⟩, beq_iff_eq.mpr hmech⟩
    refine ⟨_, onWorld_guarded (c := fun c w => powered c.mode && hostServing w && servoHasInput w &&
      getF w Obj.TIM_CFG 3 1 == 0) (fun _ => delaySend 1) hgo, ?_, ?_, WorldFrame.touches (worldFrame_sendTim _ _)⟩
    · rw [runMeaning_out]
      rfl
    · rw [runMeaning, settle_tim]
      rfl
  case pdelayReq =>
    have hgo : (powered s.ctl.mode && ptpActive (fresh s).w && getF (fresh s).w Obj.TIM_CFG 3 1 == 1) = true := by
      simp only [Bool.and_eq_true]
      exact ⟨⟨hon, hactive⟩, beq_iff_eq.mpr hmech⟩
    refine ⟨_, onWorld_guarded (c := fun c w => powered c.mode && ptpActive w && getF w Obj.TIM_CFG 3 1 == 1)
      (fun _ => delaySend 2) hgo, ?_, ?_, WorldFrame.touches (worldFrame_sendTim _ _)⟩
    · rw [runMeaning_out]
      rfl
    · rw [runMeaning, settle_tim]
      rfl

end

section
/-! SUPPORT. JOB_COMMIT, MEM_PLAN_APPLY, MEM_LS_DELETE, MEM_LS_CLEAR and MEM_ECC_INJECT after steps 1 to 5
(R98, R112, R118, R162). -/

namespace Sys2Proof.Machine

/-! ### Steps 6 to 8 of each object -/

theorem steps6to8_jobCommit (e : WriteEnv) (u : State) :
    steps6to8 e Obj.JOB_COMMIT (valueBytes Obj.JOB_COMMIT 1) u = { u with w := jobCommit u.ctl.mode u.w } := by
  rw [steps6to8_action (k := Obj.JOB_COMMIT) rfl rfl rfl]
  rfl

theorem steps6to8_planApply (e : WriteEnv) {u : State} (h : u.ctl.mode = .idle ∨ u.ctl.mode = .service) :
    steps6to8 e Obj.MEM_PLAN_APPLY (valueBytes Obj.MEM_PLAN_APPLY 1) u = { u with w := planApply u.w } := by
  rw [steps6to8_action (k := Obj.MEM_PLAN_APPLY) rfl rfl rfl]
  exact congrArg (fun w => ({ u with w := w } : State)) (if_pos h)

/-- The value of an unsigned object of 16 bits is read back from its bytes. -/
theorem decode_u16 {v : Nat} (h : v < 65536) : tyDecode .u16 (tyEncode .u16 v) = v := by
  have hwrap : wrapInt 16 (v : Int) = v := by unfold wrapInt; omega
  have hbytes : ofLe (leBytes 2 v) = v := by
    simp only [leBytes, ofLe]
    omega
  exact congrArg Int.ofNat ((congrArg (fun n => ofLe (leBytes 2 n)) hwrap).trans hbytes)

theorem steps6to8_lsDelete (e : WriteEnv) (u : State) {id : Nat} (hlow : 1 ≤ id) (hhigh : id ≤ 4095) :
    steps6to8 e Obj.MEM_LS_DELETE (valueBytes Obj.MEM_LS_DELETE id) u =
      { u with w := lsDelete (pathSource e.path) id u.w } := by
  have hval : tyDecode .u16 (valueBytes Obj.MEM_LS_DELETE id) = id := decode_u16 (by omega)
  have hin : inParts [(1, 4095)] (tyDecode .u16 (valueBytes Obj.MEM_LS_DELETE id)) = true := by
    rw [hval]
    simp only [inParts, List.any_cons, List.any_nil, Bool.or_false, Bool.and_eq_true, decide_eq_true_eq]
    omega
  rw [steps6to8_action (k := Obj.MEM_LS_DELETE) rfl rfl hin]
  exact congrArg (fun v : Int => ({ u with w := lsDelete (pathSource e.path) v.toNat u.w } : State)) hval

theorem steps6to8_lsClear (e : WriteEnv) (u : State) :
    steps6to8 e Obj.MEM_LS_CLEAR (valueBytes Obj.MEM_LS_CLEAR 1) u = { u with w := lsClear u.w } := by
  rw [steps6to8_action (k := Obj.MEM_LS_CLEAR) rfl rfl rfl]
  rfl

theorem steps6to8_eccInject {e : WriteEnv} {u : State} {v : Nat} (hmode : u.ctl.mode = .service)
    (h : unchangedBy Obj.MEM_ECC_INJECT v (pathSource e.path) u = true) :
    steps6to8 e Obj.MEM_ECC_INJECT (valueBytes Obj.MEM_ECC_INJECT v) u =
      { u with w := { u.w with mem := { u.w.mem with inject := u.w.mem.inject ++ [(field v 5 3, bitOf v 0)] } } } := by
  rw [steps6to8_unchanged rfl (by decide) (by decide) h]
  exact congrArg (fun w => ({ u with w := w } : State)) (if_pos hmode)

/-! ### What each of them writes -/

theorem addVirtual_commit (w : World) : (addVirtual w).job.commit = w.job.commit := rfl

/-- In the print states a commit waits for the next boundary (R162). -/
theorem jobCommit_waits {m : DevState} {w : World} (h : inPrint m = true) :
    (jobCommit m w).job.commit = true ∧
      getN (jobCommit m w) Obj.JOB_COMMIT_SEQ = (getN w Obj.JOB_COMMIT_SEQ + 1) % 4294967296 := by
  have hcount := getN_bump_same w Obj.JOB_COMMIT_SEQ
  simp only [jobCommit, h, if_true]
  generalize hd : getN (bump w Obj.JOB_COMMIT_SEQ) Obj.JOB_COMMIT_SEQ = d
  have hraised := (getN_raise (bump w Obj.JOB_COMMIT_SEQ) Ev.COMMIT_ACCEPTED 0 d Obj.JOB_COMMIT_SEQ).trans hcount
  generalize raise (bump w Obj.JOB_COMMIT_SEQ) Ev.COMMIT_ACCEPTED 0 d = x at hraised ⊢
  split
  · next hwaits => exact ⟨hwaits, hraised⟩
  · have hset (y : World) (hy : getO y Obj.JOB_COMMIT_SEQ = getO x Obj.JOB_COMMIT_SEQ) :
        getN (setO (setO y Obj.JOB_COMMIT_STATE 1) Obj.JOB_COMMIT_CLAMPS 0) Obj.JOB_COMMIT_SEQ =
          (getN w Obj.JOB_COMMIT_SEQ + 1) % 4294967296 := by
      rw [getN_setO_ne _ _ (by decide), getN_setO_ne _ _ (by decide)]
      exact (getN_congr hy).trans hraised
    split
    · exact ⟨rfl, hset _ rfl⟩
    · exact ⟨rfl, hset _ rfl⟩

theorem planApply_empties (w : World) :
    (planApply w).mem.items = [] ∧ (planApply w).mem.tally = [] ∧
      (planApply w).mem.tallyWin = getN (planApply w) Obj.MEM_TALLY_WIN ∧
      (planApply w).mem.insMib = getN (planApply w) Obj.MEM_INS_MIB := by
  unfold planApply
  generalize clampPlanNow w = x
  dsimp only
  refine ⟨rfl, rfl, ?_, ?_⟩
  · rw [getN_raise, getN_setO_ne _ _ (by decide)]
    rfl
  · rw [getN_raise, getN_setO_ne _ _ (by decide)]
    rfl

/-- After MEM_LS_DELETE only an item in transfer may still have that ID (R112). -/
theorem lsDelete_gone {source id : Nat} {w : World} (hfree : imageInUse w id = false) {x : Nat × Item}
    (hx : x ∈ (lsDelete source id w).mem.items) (hty : x.2.ty ≤ 3) (hid : x.2.id = id) : x.2.state = 1 := by
  have hin : x ∈ w.mem.items.filter fun e => !(e.2.ty ≤ 3 && e.2.id == id && e.2.state != 1) := by
    rw [lsDelete, hfree] at hx
    exact hx
  have hkeep := (List.mem_filter.mp hin).2
  simpa [hty, hid] using hkeep

theorem lsClear_used {w : World} {x : Nat × Item} (hx : x ∈ (lsClear w).mem.items) (hty : x.2.ty ≤ 3)
    (hstate : x.2.state ≠ 1) : imageInUse w x.2.id = true := by
  have hkeep := (List.mem_filter.mp hx).2
  simpa [hty, hstate] using hkeep

end Sys2Proof.Machine
end

section
/-! Obligation O45, from what each of the five writes does. -/

open Sys2Proof Sys2Proof.Machine

/-- Settles O45: the write acts on the state that passed steps 1 to 5, and its answer and the delivery of events leave the
memory and the job as they are. -/
theorem memoryWrites : Obligations.MemoryWrites := by
  refine fun e s u => ⟨?commit, ?plan, ?delete, ?clear, ?inject⟩
  case commit =>
    intro hpass hprint
    obtain ⟨out, rep, hrun⟩ := runWrite_answered hpass (steps6to8_jobCommit e u)
    obtain ⟨hwaits, hcount⟩ := jobCommit_waits (w := u.w) hprint
    exact ⟨_, hrun, (congrArg Job.commit (settle_job _)).trans hwaits,
      (getN_answered _ _ _ (by decide) (by decide)).trans hcount⟩
  case plan =>
    intro hpass hmode
    obtain ⟨out, rep, hrun⟩ := runWrite_answered hpass (steps6to8_planApply e hmode)
    obtain ⟨hitems, htally, hwin, hmib⟩ := planApply_empties u.w
    have hmem : (answered out rep (planApply u.w)).mem = (planApply u.w).mem := settle_mem _
    refine ⟨_, hrun, (congrArg _ hmem).trans hitems, (congrArg _ hmem).trans htally, ?_, ?_⟩
    · exact ((congrArg _ hmem).trans hwin).trans (getN_answered _ _ _ (by decide) (by decide)).symm
    · exact ((congrArg _ hmem).trans hmib).trans (getN_answered _ _ _ (by decide) (by decide)).symm
  case delete =>
    intro id hlow hhigh hpass hfree
    obtain ⟨out, rep, hrun⟩ := runWrite_answered hpass (steps6to8_lsDelete e u hlow hhigh)
    have hmem : (answered out rep (lsDelete (pathSource e.path) id u.w)).mem = (lsDelete (pathSource e.path) id u.w).mem :=
      settle_mem _
    exact ⟨_, hrun, fun x hx => lsDelete_gone hfree (hmem ▸ hx)⟩
  case clear =>
    intro hpass
    obtain ⟨out, rep, hrun⟩ := runWrite_answered hpass (steps6to8_lsClear e u)
    have hmem : (answered out rep (lsClear u.w)).mem = (lsClear u.w).mem := settle_mem _
    exact ⟨_, hrun, fun x hx => lsClear_used (hmem ▸ hx)⟩
  case inject =>
    intro v hmode hpass hfits
    obtain ⟨out, rep, hrun⟩ := runWrite_answered hpass (steps6to8_eccInject hmode hfits)
    exact ⟨_, hrun, congrArg Mem.inject (settle_mem _)⟩
end

section
/-! SUPPORT. The actions of inspection and of the loop after steps 1 to 5: INS_WHITE_CAPTURE, INS_WHITE_STORE, INS_UPL_NOW,
CHL_REQUAL, CHL_STORE and CHL_REF_TAKE (R284, R291, R313, R314, R320); the last DATA of a code that one of the raised events
has. -/

namespace Sys2Proof.Machine

/-! ### Order of delivery -/

theorem evInsert_perm (now : Nat) (r : EvRec) (l : List EvRec) : (evInsert now r l).Perm (r :: l) := by
  induction l with
  | nil => exact .refl _
  | cons x xs ih =>
    unfold evInsert
    split
    · exact .refl _
    · exact (ih.cons x).trans (.swap r x xs)

theorem evSort_perm (now : Nat) (l : List EvRec) : (evSort now l).Perm l := by
  have hfold (l acc : List EvRec) : (l.foldl (fun acc r => evInsert now r acc) acc).Perm (l ++ acc) := by
    induction l generalizing acc with
    | nil => exact .refl _
    | cons r l ih => exact (ih _).trans (((evInsert_perm now r acc).append_left l).trans List.perm_middle)
  exact (hfold l []).trans (.of_eq (List.append_nil l))

/-- Where one raised event alone has a code, its DATA is the last of that code once all are delivered (R450). -/
theorem settle_lastData {w : World} {r : EvRec} (h : (w.evt.raised.filter fun x => x.code == r.code) = [r]) :
    mapGetD (settle w).evt.lastData r.code 0 = r.data := by
  have hsorted : ((evSort (nowEt w) w.evt.raised).filter fun x => x.code == r.code) = [r] :=
    List.perm_singleton.mp (h ▸ (evSort_perm (nowEt w) w.evt.raised).filter _)
  rw [settle, foldl_deliver_lastData, hsorted]
  rfl

theorem settle_raise_lastData {w : World} {code : Nat} (h : (w.evt.raised.filter fun r => r.code == code) = [])
    (inst data : Nat) : mapGetD (settle (raise w code inst data)).evt.lastData code 0 = data % 4294967296 := by
  refine settle_lastData (r := { code := code, serge := false, inst := inst % 65536, et := nowEt w, pos := webPos w
                                 data := data % 4294967296, seq := 0 }) ?_
  rw [raise, raiseAt, List.filter_append, h]
  simp

/-! ### Steps 6 to 8 of each object -/

/-- The value of an unsigned object of 8 bits is read back from its byte. -/
theorem decode_u8 {v : Nat} (h : v < 256) : tyDecode .u8 (tyEncode .u8 v) = v := by
  have hwrap : wrapInt 8 (v : Int) = v := by unfold wrapInt; omega
  have hbytes : ofLe (leBytes 1 v) = v := by
    simp only [leBytes, ofLe]
    omega
  exact congrArg Int.ofNat ((congrArg (fun n => ofLe (leBytes 1 n)) hwrap).trans hbytes)

/-- A value of 8 bits is a value of an action that takes a mask. -/
theorem inParts_mask {low v : Nat} (hlow : low ≤ v) (h : v < 256) : inParts [((low : Int), 255)] (v : Int) = true := by
  simp only [inParts, List.any_cons, List.any_nil, Bool.or_false, Bool.and_eq_true, decide_eq_true_eq]
  omega

section
variable (e : WriteEnv) (u : State)

theorem steps6to8_whiteCapture (h : u.ctl.mode = .idle ∨ u.ctl.mode = .service) :
    steps6to8 e Obj.INS_WHITE_CAPTURE (valueBytes Obj.INS_WHITE_CAPTURE 1) u = { u with w := whiteCapture u.w } := by
  rw [steps6to8_action (k := Obj.INS_WHITE_CAPTURE) rfl rfl rfl]
  exact if_pos h

theorem steps6to8_whiteStore :
    steps6to8 e Obj.INS_WHITE_STORE (valueBytes Obj.INS_WHITE_STORE 1) u = { u with w := whiteStore u.w } := by
  rw [steps6to8_action (k := Obj.INS_WHITE_STORE) rfl rfl rfl]
  rfl

theorem steps6to8_chlStore :
    steps6to8 e Obj.CHL_STORE (valueBytes Obj.CHL_STORE 1) u = { u with w := chlStore u.w } := by
  rw [steps6to8_action (k := Obj.CHL_STORE) rfl rfl rfl]
  rfl

theorem steps6to8_uplNow {mask : Nat} (h : mask < 256) :
    steps6to8 e Obj.INS_UPL_NOW (valueBytes Obj.INS_UPL_NOW mask) u = { u with w := uplNow mask u.w } := by
  have hval : tyDecode .u8 (valueBytes Obj.INS_UPL_NOW mask) = mask := decode_u8 h
  rw [steps6to8_action (k := Obj.INS_UPL_NOW) rfl rfl (by rw [hval]; exact inParts_mask (low := 0) (Nat.zero_le _) h)]
  exact congrArg (fun v : Int => ({ u with w := uplNow v.toNat u.w } : State)) hval

theorem steps6to8_chlRequal {mask : Nat} (hlow : 1 ≤ mask) (h : mask < 256) :
    steps6to8 e Obj.CHL_REQUAL (valueBytes Obj.CHL_REQUAL mask) u = { u with w := chlRequal mask u.w } := by
  have hval : tyDecode .u8 (valueBytes Obj.CHL_REQUAL mask) = mask := decode_u8 h
  rw [steps6to8_action (k := Obj.CHL_REQUAL) rfl rfl (by rw [hval]; exact inParts_mask hlow h)]
  exact congrArg (fun v : Int => ({ u with w := chlRequal v.toNat u.w } : State)) hval

theorem steps6to8_chlRefTake {mask : Nat} (hlow : 1 ≤ mask) (h : mask < 256) :
    steps6to8 e Obj.CHL_REF_TAKE (valueBytes Obj.CHL_REF_TAKE mask) u = { u with w := chlRefTake mask u.w } := by
  have hval : tyDecode .u8 (valueBytes Obj.CHL_REF_TAKE mask) = mask := decode_u8 h
  rw [steps6to8_action (k := Obj.CHL_REF_TAKE) rfl rfl (by rw [hval]; exact inParts_mask hlow h)]
  exact congrArg (fun v : Int => ({ u with w := chlRefTake v.toNat u.w } : State)) hval

end

/-! ### What each of them writes -/

section
variable (w : World)

theorem storeTableLater_waits (ix : Nat) : (ix, w.clk) ∈ (storeTableLater w ix).dict.norWait :=
  List.mem_append_right _ (List.mem_singleton_self _)

theorem two_pow_lt {n : Nat} (h : n < 8) : 2 ^ n < 256 := Nat.pow_lt_pow_right (by decide) h

theorem oneBit {n : Nat} (h : n < 8) : (List.range 8).filter (bitOf (2 ^ n)) = [n] := by
  have hall : ∀ n : Fin 8, (List.range 8).filter (bitOf (2 ^ n.val)) = [n.val] := by decide
  exact hall ⟨n, h⟩

/-- A mask of one camera that is in use triggers an upload of that camera (R291). -/
theorem uplNow_one {c : Nat} (hc : c < 8) (hcfg : getF w Obj.INS_UPL_CFG 0 2 = 2) (huse : bitOf w.ins.cams c = true) :
    uplNow (2 ^ c) w = uplTrigger w c := by
  have hone : ((List.range 8).filter fun d => bitOf (2 ^ c) d && bitOf w.ins.cams d) = [c] := by
    simp only [Bool.and_comm (bitOf (2 ^ c) _)]
    rw [← List.filter_filter, oneBit hc]
    simp [huse]
  rw [uplNow, if_pos hcfg, uplTriggers, hone]
  rfl

theorem uplDrop_ins_uplNo (c n : Nat) : (uplDrop c n w).ins.uplNo = w.ins.uplNo := by
  unfold uplDrop
  dsimp only
  split
  · rfl
  · rfl

theorem uplTrigger_uplNo (c : Nat) :
    (uplTrigger w c).ins.uplNo = w.ins.uplNo.set c ((w.ins.uplNo.getD c 0 + 1) % 4294967296) := by
  unfold uplTrigger
  dsimp only
  split
  · exact uplDrop_ins_uplNo _ _ _
  · rfl

/-- A trigger gives its camera's next block number (R291). -/
theorem uplTrigger_numbers {c : Nat} (hc : c < w.ins.uplNo.length) :
    (uplTrigger w c).ins.uplNo.getD c 0 = (w.ins.uplNo.getD c 0 + 1) % 4294967296 := by
  rw [uplTrigger_uplNo, List.getD_eq_getElem?_getD, List.getElem?_set_self hc]
  rfl

/-! ### CHL_REQUAL -/

/-- The events of CHL_REQUAL's own code among those raised. -/
def requalRaised (w : World) : List EvRec := w.evt.raised.filter fun r => r.code == Ev.CHL_REQUAL

theorem requalRaised_changeNoz (b e v : Nat) : requalRaised (changeNoz w b e v) = requalRaised w := by
  unfold changeNoz
  dsimp only
  split
  · rfl
  · simp [requalRaised, raise, raiseAt, setNozState]

theorem requalRaised_requalPos (k : Nat) : requalRaised (requalPos w k) = requalRaised w := by
  have hfold (l : List NozEnt) (b : Nat) :
      requalRaised (l.foldl (fun w e => changeNoz w b e.elem 0) w) = requalRaised w :=
    foldl_keeps requalRaised (fun w e => requalRaised_changeNoz w b e.elem 0) l w
  unfold requalPos
  extract_lets b row c u n g v
  have hu : requalRaised u = requalRaised w := hfold _ _
  clear_value u
  exact hu

theorem chlRequal_reports {mask : Nat} (hquiet : w.evt.raised = []) (out : List OutMsg) (rep : List KoaStored) :
    mapGetD (answered out rep (chlRequal mask w)).evt.lastData Ev.CHL_REQUAL 0 =
      ((w.loop.loopset.map (·.1)).filter fun k => bitOf mask (k / 262144)).length % 4294967296 := by
  have hnone : requalRaised w = [] := by rw [requalRaised, hquiet, List.filter_nil]
  have hkept : requalRaised (((w.loop.loopset.map (·.1)).filter fun k => bitOf mask (k / 262144)).foldl requalPos w) = [] :=
    (foldl_keeps requalRaised requalRaised_requalPos _ w).trans hnone
  rw [chlRequal]
  generalize List.foldl requalPos w _ = x at hkept ⊢
  exact settle_raise_lastData (w := { x with out := out, net := { x.net with replay := rep } }) hkept 0 _

/-! ### CHL_STORE and CHL_REF_TAKE -/

theorem chlStore_marks : (chlStore w).loop.storeClk = some w.clk ∧ (0x3810, w.clk) ∈ (chlStore w).dict.norWait := by
  unfold chlStore
  split
  next x n hx =>
  have hclk : x.clk = w.clk :=
    (congrArg (fun a : World × Nat => a.1.clk) hx).symm.trans
      (foldl_keeps (fun a : World × Nat => a.1.clk) (fun a e => by dsimp only; split <;> rfl) _ (w, 0))
  rw [← hclk]
  exact ⟨rfl, storeTableLater_waits _ 0x3810⟩

theorem chlRefTake_one {b : Nat} (hb : b < 8) : getO (chlRefTake (2 ^ b) w) (Obj.CHL_KREF b) = (kMean w b : Int) := by
  rw [chlRefTake, oneBit hb, List.foldl_cons, List.foldl_nil, getO_raise]
  exact getO_setO_same w (Obj.CHL_KREF b) _

end
end Sys2Proof.Machine
end

section
/-! Obligation O47, from what each of the six actions does. -/

open Sys2Proof Sys2Proof.Machine

/-- Settles O47: the action works on the state that passed steps 1 to 5, and its answer and the delivery of events leave
what it wrote; the requalification's number is the DATA of its own event, the only one of its code. -/
theorem inspectionWrites : Obligations.InspectionWrites := by
  refine fun e s u => ⟨?capture, ?whiteStore, ?upload, ?requal, ?store, ?reference⟩
  case capture =>
    intro hpass hmode
    obtain ⟨out, rep, hrun⟩ := runWrite_answered hpass (steps6to8_whiteCapture e u hmode)
    exact ⟨_, hrun, congrArg Ins.cap (settle_ins _)⟩
  case whiteStore =>
    intro hpass
    obtain ⟨out, rep, hrun⟩ := runWrite_answered hpass (steps6to8_whiteStore e u)
    exact ⟨_, hrun, (settle_dict_norWait _).symm ▸ storeTableLater_waits u.w 0x3700⟩
  case upload =>
    intro c hc hlen hpass hcfg huse
    obtain ⟨out, rep, hrun⟩ := runWrite_answered hpass (steps6to8_uplNow e u (two_pow_lt hc))
    rw [uplNow_one u.w hc hcfg huse] at hrun
    exact ⟨_, hrun, (congrArg (fun i : Ins => i.uplNo.getD c 0) (settle_ins _)).trans (uplTrigger_numbers u.w hlen)⟩
  case requal =>
    intro mask hlow hhigh hpass hquiet
    obtain ⟨out, rep, hrun⟩ := runWrite_answered hpass (steps6to8_chlRequal e u hlow (Nat.lt_succ_of_le hhigh))
    exact ⟨_, hrun, chlRequal_reports u.w hquiet out rep⟩
  case store =>
    intro hpass
    obtain ⟨out, rep, hrun⟩ := runWrite_answered hpass (steps6to8_chlStore e u)
    obtain ⟨hclk, hwaits⟩ := chlStore_marks u.w
    exact ⟨_, hrun, (congrArg Loop.storeClk (settle_loop _)).trans hclk, (settle_dict_norWait _).symm ▸ hwaits⟩
  case reference =>
    intro b hb hpass
    obtain ⟨out, rep, hrun⟩ := runWrite_answered hpass (steps6to8_chlRefTake e u (Nat.one_le_two_pow) (two_pow_lt hb))
    have hlog : Obj.CHL_KREF b ≠ Obj.EVT_LOG_DROPPED := show 0x281008 + 0x100 * b ≠ 0x2C0004 by omega
    have hemcy : Obj.CHL_KREF b ≠ Obj.NET_CAN_EMCY_LOST := show 0x281008 + 0x100 * b ≠ 0x2E2008 by omega
    exact ⟨_, hrun, (getO_answered _ _ _ hlog hemcy).trans (chlRefTake_one u.w hb)⟩
end

section
/-! SUPPORT. Writes of the time objects, of the web position, of a probe window and of the alignment store after steps 1 to 5
(R31, R51, R73, R366, R373, R375). -/

namespace Sys2Proof.Machine

/-! ### The servo and the port -/

section
variable (w : World)

theorem getO_servoIf_ne (c : Prop) [Decidable c] (v : Nat) {k : Nat} (hk : Obj.TIM_SERVO ≠ k) :
    getO (if c then setServo w v else w) k = getO w k := by
  split
  · exact getO_setServo_ne w v hk
  · rfl

theorem getO_ptpEval_ne {k : Nat} (hservo : Obj.TIM_SERVO ≠ k) (hport : Obj.TIM_PORT_STATE ≠ k) :
    getO (ptpEval w) k = getO w k := by
  unfold ptpEval
  dsimp only
  split
  · split
    · rfl
    · exact (getO_servoLost_ne _ hservo).trans (getO_setPort_ne _ _ hport)
  · split
    · exact getO_setPort_ne _ _ hport
    · rfl

theorem getO_ptpRestart_ne {k : Nat} (hservo : Obj.TIM_SERVO ≠ k) (hport : Obj.TIM_PORT_STATE ≠ k) :
    getO (ptpRestart w) k = getO w k := by
  unfold ptpRestart
  dsimp only
  rw [getO_ptpEval_ne _ hservo hport, getO_setPort_ne _ _ hport]
  exact getO_servoIf_ne w _ 3 hservo

/-- A port that has begun anew is INITIALIZING, or DISABLED where its interface does not serve (R373). -/
theorem ptpEval_initializing (h : getN w Obj.TIM_PORT_STATE = 1) :
    getN (ptpEval w) Obj.TIM_PORT_STATE = 1 ∨ getN (ptpEval w) Obj.TIM_PORT_STATE = 3 := by
  unfold ptpEval
  dsimp only
  split
  · split
    · exact .inl h
    · exact .inr ((getN_congr (getO_servoLost_ne _ (by decide))).trans (getN_setPort w 3))
  · rw [if_neg (by rw [h]; decide)]
    exact .inl h

theorem ptpRestart_port :
    getN (ptpRestart w) Obj.TIM_PORT_STATE = 1 ∨ getN (ptpRestart w) Obj.TIM_PORT_STATE = 3 := by
  unfold ptpRestart
  exact ptpEval_initializing _ (getN_setPort _ 1)

theorem getN_setServo (v : Nat) : getN (setServo w v) Obj.TIM_SERVO = v := by
  have htold (u : World) (p q : Prop) [Decidable p] [Decidable q] (code a b : Nat) :
      getN (if p then raise u code 0 a else if q then raise u code 0 b else u) Obj.TIM_SERVO = getN u Obj.TIM_SERVO := by
    split
    · exact getN_raise _ _ _ _ _
    · split
      · exact getN_raise _ _ _ _ _
      · rfl
  unfold setServo
  dsimp only
  split
  · assumption
  · rw [htold, htold]
    exact getN_setO_same w Obj.TIM_SERVO v

theorem getO_timMode_ne {k : Nat} (hk : Obj.TIM_SERVO ≠ k) : getO (timMode w) k = getO w k := by
  unfold timMode
  split
  · exact getO_setServo_ne w 0 hk
  · exact getO_setServo_ne w 4 hk
  · exact getO_servoLost_ne w hk

/-! ### Time objects -/

/-- What the hook of TIM_CFG does once the new value is in force. -/
def modeHook (old new : Int) (w : World) : World :=
  let w := if field old.toNat 3 3 = field new.toNat 3 3 then w else ptpRestart w
  if field old.toNat 0 2 = field new.toNat 0 2 then w else timMode w

theorem getO_modeHook (old new : Int) : getO (modeHook old new w) Obj.TIM_CFG = getO w Obj.TIM_CFG := by
  have hrestart (c : Prop) [Decidable c] : getO (if c then w else ptpRestart w) Obj.TIM_CFG = getO w Obj.TIM_CFG := by
    split
    · rfl
    · exact getO_ptpRestart_ne w (by decide) (by decide)
  unfold modeHook
  dsimp only
  split
  · exact hrestart _
  · exact (getO_timMode_ne _ (by decide)).trans (hrestart _)

/-- MODE taken to 0 shows FREE (R366). -/
theorem modeHook_free {old : Int} {v : Nat} (hcfg : getN w Obj.TIM_CFG = v) (hold : field old.toNat 0 2 ≠ 0)
    (hnew : field v 0 2 = 0) : getN (modeHook old v w) Obj.TIM_SERVO = 0 := by
  have hmode (u : World) (hu : getO u Obj.TIM_CFG = getO w Obj.TIM_CFG) : getN (timMode u) Obj.TIM_SERVO = 0 := by
    have hzero : getF u Obj.TIM_CFG 0 2 = 0 := by
      rw [getF, getN_congr hu, hcfg, hnew]
    unfold timMode
    rw [hzero]
    exact getN_setServo u 0
  have hne : ¬ field old.toNat 0 2 = field (v : Int).toNat 0 2 := by
    rw [Int.toNat_natCast, hnew]
    exact hold
  unfold modeHook
  dsimp only
  rw [if_neg hne]
  refine hmode _ ?_
  split
  · rfl
  · exact getO_ptpRestart_ne w (by decide) (by decide)

/-- A commanded step is the last step, counted and kept for the next anchor (R375). -/
theorem stepTimer_commanded (d : Int) (software : Bool) :
    getO (stepTimer w (fracI d) software) Obj.TIM_LAST_STEP = d ∧
      getN (stepTimer w (fracI d) software) Obj.TIM_STEPS = (getN w Obj.TIM_STEPS + 1) % 4294967296 ∧
      (stepTimer w (fracI d) software).tim.stepSinceAnchor = true := by
  have hfloor : fracFloor (fracI d) = d := Int.ediv_one d
  unfold stepTimer
  extract_lets x n y z v t
  have hlast : getO y Obj.TIM_LAST_STEP = d := (getO_setO_same x Obj.TIM_LAST_STEP n).trans hfloor
  have hsteps : getN y Obj.TIM_STEPS = getN w Obj.TIM_STEPS := getN_setO_ne x n (by decide)
  refine ⟨?_, ?_, rfl⟩
  · rw [getO_raiseInt]
    exact (getO_setO_ne z 0 (by decide)).trans ((getO_bump_ne y (by decide)).trans hlast)
  · rw [getN_raiseInt, ← hsteps]
    exact (getN_setO_ne z 0 (by decide)).trans (getN_bump_same y Obj.TIM_STEPS)

end

section
variable {e : WriteEnv} {u : State} {v : Nat}

theorem steps6to8_timIface (h : unchangedBy Obj.TIM_IFACE v (pathSource e.path) u = true) :
    steps6to8 e Obj.TIM_IFACE (valueBytes Obj.TIM_IFACE v) u =
      { u with w := ptpRestart (storeLater (setO u.w Obj.TIM_IFACE v) Obj.TIM_IFACE v) } := by
  rw [steps6to8_unchanged rfl (by decide) (by decide) h]
  rfl

theorem steps6to8_timDomain (h : unchangedBy Obj.TIM_DOMAIN v (pathSource e.path) u = true) :
    steps6to8 e Obj.TIM_DOMAIN (valueBytes Obj.TIM_DOMAIN v) u =
      { u with w := ptpRestart (storeLater (setO u.w Obj.TIM_DOMAIN v) Obj.TIM_DOMAIN v) } := by
  rw [steps6to8_unchanged rfl (by decide) (by decide) h]
  rfl

theorem steps6to8_timCfg (h : unchangedBy Obj.TIM_CFG v (pathSource e.path) u = true) :
    steps6to8 e Obj.TIM_CFG (valueBytes Obj.TIM_CFG v) u =
      { u with w := modeHook (getO u.w Obj.TIM_CFG) v (storeLater (setO u.w Obj.TIM_CFG v) Obj.TIM_CFG v) } := by
  rw [steps6to8_unchanged rfl (by decide) (by decide) h]
  rfl

theorem steps6to8_timStepSet {d : Int} (h : unchangedBy Obj.TIM_STEP_SET d (pathSource e.path) u = true) :
    steps6to8 e Obj.TIM_STEP_SET (valueBytes Obj.TIM_STEP_SET d) u = { u with w := stepTimer u.w (fracI d) true } := by
  rw [steps6to8_unchanged rfl (by decide) (by decide) h]
  rfl

theorem steps6to8_webPosSet {p : Int} (h : unchangedBy Obj.WEB_POS_SET p (pathSource e.path) u = true) :
    steps6to8 e Obj.WEB_POS_SET (valueBytes Obj.WEB_POS_SET p) u = { u with w := prbAfresh (setPosition u.w p) } := by
  rw [steps6to8_unchanged rfl (by decide) (by decide) h]
  rfl

/-- START, END and PERIOD of each probe are one object's rows, whose writes go through `putWindow` (R51). -/
theorem winRow {n part : Nat} (hn : n < 8) (hp : part < 3) :
    ∃ r o, objRow (winKey n part) = some (r, n, o) ∧ r.ty ≠ .str ∧ r.ty ≠ .dom ∧
      ∀ m source p w, applyValue m source r n o (winKey n part) p w = putWindow source n part p w := by
  interval_cases part <;> interval_cases n <;> exact ⟨_, _, rfl, by decide, by decide, fun _ _ _ _ => rfl⟩

theorem steps6to8_window {n part : Nat} {p : Int} (hn : n < 8) (hp : part < 3)
    (h : unchangedBy (winKey n part) p (pathSource e.path) u = true) :
    steps6to8 e (winKey n part) (valueBytes (winKey n part) p) u =
      { u with w := putWindow (pathSource e.path) n part p u.w } := by
  obtain ⟨r, o, hrow, hstr, hdom, hput⟩ := winRow hn hp
  rw [steps6to8_unchanged hrow hstr hdom h, hput]

theorem steps6to8_alignStore (e : WriteEnv) (u : State) :
    steps6to8 e Obj.LCK_ALIGN_STORE (valueBytes Obj.LCK_ALIGN_STORE 1) u =
      { u with w := alignStore (pathSource e.path) u.w } := by
  rw [steps6to8_action (k := Obj.LCK_ALIGN_STORE) rfl rfl rfl]
  rfl

end

/-! ### Adjustments -/

/-- An adjustment writes its record, the objects that show it and its event (R328). -/
theorem worldFrame_adjust {parts : List Part} {objs : Nat → Bool} (w : World) (hp : .adjustments ∈ parts)
    (ho : ∀ k, k / 65536 = 0x2C → objs k = true) (key reason source : Nat) (request applied : Int) :
    WorldFrame parts objs w (adjust w key reason source request applied) := by
  have hset (u : World) (k : Nat) (v : Int) (hk : k / 65536 = 0x2C) : WorldFrame parts objs u (setO u k v) :=
    worldFrame_setO u (ho k hk) v
  unfold adjust
  extract_lets n ix sub word q a r _ w1 w2 w3 w4 w5 w6 w7 w8
  have h1 : WorldFrame parts objs w w1 := worldFrame_adjustments w hp _
  have h8 : WorldFrame parts objs w1 w8 :=
    .trans (hset _ _ _ rfl) (.trans (hset _ _ _ rfl) (.trans (hset _ _ _ rfl) (.trans (hset _ _ _ rfl)
      (.trans (hset _ _ _ rfl) (.trans (hset _ _ _ rfl) (hset _ _ _ rfl))))))
  exact (h1.trans h8).unless (.trans (worldFrame_evt w8 _) (worldFrame_raise _ _ _ _))

/-! ### The position -/

/-- Position, high-water mark and tracker. -/
def webTrack (w : World) : Int × Int × Trk := (w.web.pos, w.web.hwm, w.web.trk)

section
variable (w : World)

theorem webTrack_prbAfresh : webTrack (prbAfresh w) = webTrack w := by
  have hheld (u : World) (n : Nat) : webTrack (winCheck (winApplyHeld u n) n 0) = webTrack u := by
    rw [webTrack, winCheck_web, winApplyHeld_web]
    rfl
  exact foldl_keeps webTrack (fun u n => show webTrack (updPrb (winCheck (winApplyHeld u n) n 0) n Probe.afresh) = _ from
    hheld u n) _ w

/-! ### Probe windows -/

/-- A value written while the window is open is held (R51). -/
theorem putWindow_open (source : Nat) (v : Int) {n part : Nat} (hopen : winOpen w n = true)
    (hn : n < w.web.prb.length) (hpart : part < (prbAt w n).held.length) :
    (prbAt (putWindow source n part v w) n).held.getD part none = some v := by
  have hput : putWindow source n part v w = updPrb w n fun p => { p with held := p.held.set part (some v) } := by
    rw [putWindow, if_pos hopen, winWrite, if_pos hopen]
  rw [hput, prbAt_updPrb_same w _ hn, List.getD_eq_getElem?_getD, List.getElem?_set_self hpart]
  rfl

theorem getO_winClamp_start {n part : Nat} (hn : n < 8) (hpart : 1 ≤ part) (source : Nat) (new : Int) :
    getO (winClamp w n part source new) (winKey n 0) = getO w (winKey n 0) := by
  have hkey : winKey n part ≠ winKey n 0 := by simp only [winKey]; omega
  unfold winClamp
  dsimp only
  split
  · rfl
  · have hadj (u : World) (k r s : Nat) (a b : Int) : getO (adjust u k r s a b) (winKey n 0) = getO u (winKey n 0) :=
      (worldFrame_adjust (parts := [.adjustments]) (objs := fun k => k / 65536 == 0x2C) u (by decide) (by simp) k r s a b).2
        (winKey n 0) (by simp [winKey, Obj.WEB_PRB_WIN_START]; omega)
    exact (hadj _ _ _ _ _ _).trans (getO_setO_ne _ _ hkey)

theorem getO_winCheck_start {n : Nat} (hn : n < 8) (source : Nat) : getO (winCheck w n source) (winKey n 0) = getO w (winKey n 0) := by
  have hclamps (c d : Prop) [Decidable c] [Decidable d] (a b : Int) :
      getO (if d then winClamp (if c then w else winClamp w n 1 source a) n 2 source b
        else if c then w else winClamp w n 1 source a) (winKey n 0) = getO w (winKey n 0) := by
    have hend : getO (if c then w else winClamp w n 1 source a) (winKey n 0) = getO w (winKey n 0) := by
      split
      · rfl
      · exact getO_winClamp_start w hn (by decide) source a
    split
    · exact (getO_winClamp_start _ hn (by decide) _ _).trans hend
    · exact hend
  unfold winCheck
  dsimp only
  split
  · exact hclamps _ _ _ _
  · exact hclamps _ _ _ _

/-- A START written while the window is closed is in force (R51). -/
theorem putWindow_start (source : Nat) (v : Int) {n : Nat} (hn : n < 8) (hopen : winOpen w n = false) :
    getO (putWindow source n 0 v w) (winKey n 0) = v := by
  have hput : getO (putWindow source n 0 v w) (winKey n 0) = getO (winCheck (setO w (winKey n 0) v) n source) (winKey n 0) := by
    rw [putWindow, hopen, winWrite, hopen]
    rfl
  rw [hput, getO_winCheck_start _ hn, getO_setO_same]

/-! ### Alignment -/

theorem loadPhase_lck (p d h row : Nat) (v : Int) : (loadPhase w p d h row v).lck = w.lck := by
  unfold loadPhase
  dsimp only
  split
  · rfl
  · exact (worldFrame_adjust (parts := [.adjustments]) (objs := fun k => k / 65536 == 0x2C) w (by decide) (by simp)
      _ _ _ _ _).1 .lck (by decide)

theorem alignStore_stores {source i : Nat} (hserial : getN w Obj.LCK_ALIGN_SERIAL ≠ 0)
    (hplace : tablePlace (getN w Obj.LCK_ALIGN_SERIAL) (attachedSerials w)
      (w.lck.align.map fun e => (e.1, e.2.serial, e.2.date)) = some i) :
    ∃ a, mapGet (alignStore source w).lck.align i = some a ∧ a.serial = getN w Obj.LCK_ALIGN_SERIAL ∧
      a.phA = getO w Obj.LCK_ALIGN_PH_A ∧ a.phB = getO w Obj.LCK_ALIGN_PH_B ∧ a.valid = true := by
  unfold alignStore
  dsimp only
  rw [if_neg hserial, hplace]
  generalize hrec : ({ serial := _, phA := _, phB := _, valid := true, entered := _, date := _ } : AlignRec) = a
  refine ⟨a, ?_, hrec ▸ rfl, hrec ▸ rfl, hrec ▸ rfl, hrec ▸ rfl⟩
  refine (congrArg (fun l : Lck => mapGet l.align i)
    (foldl_keeps (fun w : World => w.lck) (fun u e => ?_) _ _)).trans (mapGet_mapPut_same ..)
  exact (loadPhase_lck _ _ _ _ 1 _).trans (loadPhase_lck u _ _ _ 0 _)

end
end Sys2Proof.Machine
end

section
/-! Obligation O44, from what each of the writes does. -/

open Sys2Proof Sys2Proof.Machine

/-- Settles O44: the write acts on the state that passed steps 1 to 5, and its answer and the delivery of events leave what it
wrote. -/
theorem timeAndPositionWrites : Obligations.TimeAndPositionWrites := by
  refine ⟨fun e s u v => ⟨?iface, ?domain, ?cfg, ?step⟩, fun e s u => ⟨?position, ?window, ?align⟩⟩
  case iface =>
    intro hpass hfits
    obtain ⟨out, rep, hrun⟩ := runWrite_answered hpass (steps6to8_timIface hfits)
    refine ⟨_, hrun, ?_, ?_⟩
    · rw [getN_answered _ _ _ (by decide) (by decide), getN_congr (getO_ptpRestart_ne _ (by decide) (by decide))]
      exact getN_setO_same u.w Obj.TIM_IFACE v
    · rw [getN_answered _ _ _ (by decide) (by decide)]
      exact ptpRestart_port _
  case domain =>
    intro hpass hfits
    obtain ⟨out, rep, hrun⟩ := runWrite_answered hpass (steps6to8_timDomain hfits)
    refine ⟨_, hrun, ?_, ?_⟩
    · rw [getN_answered _ _ _ (by decide) (by decide), getN_congr (getO_ptpRestart_ne _ (by decide) (by decide))]
      exact getN_setO_same u.w Obj.TIM_DOMAIN v
    · rw [getN_answered _ _ _ (by decide) (by decide)]
      exact ptpRestart_port _
  case cfg =>
    intro hpass hfits
    obtain ⟨out, rep, hrun⟩ := runWrite_answered hpass (steps6to8_timCfg hfits)
    have hcfg : getN (storeLater (setO u.w Obj.TIM_CFG v) Obj.TIM_CFG v) Obj.TIM_CFG = v :=
      getN_setO_same u.w Obj.TIM_CFG v
    refine ⟨_, hrun, ?_, fun hold hnew => ?_⟩
    · rw [getN_answered _ _ _ (by decide) (by decide), getN_congr (getO_modeHook _ _ _), hcfg]
    · rw [getN_answered _ _ _ (by decide) (by decide)]
      exact modeHook_free _ hcfg hold hnew
  case step =>
    intro d hpass hfits
    obtain ⟨out, rep, hrun⟩ := runWrite_answered hpass (steps6to8_timStepSet hfits)
    obtain ⟨hlast, hcount, hkept⟩ := stepTimer_commanded u.w d true
    exact ⟨_, hrun, (getO_answered _ _ _ (by decide) (by decide)).trans hlast,
      (getN_answered _ _ _ (by decide) (by decide)).trans hcount, (congrArg Tim.stepSinceAnchor (settle_tim _)).trans hkept⟩
  case position =>
    intro v hpass hfits
    obtain ⟨out, rep, hrun⟩ := runWrite_answered hpass (steps6to8_webPosSet hfits)
    have htrack : webTrack (answered out rep (prbAfresh (setPosition u.w v))) = (v * 65536, v * 65536, .forward) :=
      (congrArg (fun x : Web => (x.pos, x.hwm, x.trk)) (settle_web _)).trans (webTrack_prbAfresh (setPosition u.w v))
    simp only [webTrack, Prod.mk.injEq] at htrack
    obtain ⟨hpos, hhwm, htrk⟩ := htrack
    exact ⟨_, hrun, hpos, hhwm, htrk⟩
  case window =>
    intro n part v hn hp hpass hfits
    obtain ⟨out, rep, hrun⟩ := runWrite_answered hpass (steps6to8_window hn hp hfits)
    have hwrite : (fun x => if n < 8 ∧ part < 3 then writeKey e (winKey n part) v x else x) =
        writeKey e (winKey n part) v := funext fun x => if_pos ⟨hn, hp⟩
    have hexec : exec (.prbWindowWrite e n part v) s = runWrite e (winKey n part) v s := by
      show onState (fun x => if n < 8 ∧ part < 3 then writeKey e (winKey n part) v x else x) s = _
      rw [hwrite, runWrite]
    refine And.intro (fun hopen hlen hpart => ?_) (fun hclosed hstart => ?_)
    · refine ⟨_, hexec.trans hrun, ?_⟩
      rw [prbAt, show (answered out rep (putWindow (pathSource e.path) n part v u.w)).web = _ from settle_web _]
      exact putWindow_open u.w (pathSource e.path) v hopen hlen hpart
    · subst hstart
      have hlog : winKey n 0 ≠ Obj.EVT_LOG_DROPPED := show 0x214003 + 0x100 * n + 0 ≠ 0x2C0004 by omega
      have hemcy : winKey n 0 ≠ Obj.NET_CAN_EMCY_LOST := show 0x214003 + 0x100 * n + 0 ≠ 0x2E2008 by omega
      exact ⟨_, hexec.trans hrun, (getO_answered _ _ _ hlog hemcy).trans (putWindow_start u.w (pathSource e.path) v hn hclosed)⟩
  case align =>
    intro i hpass hserial hplace
    obtain ⟨out, rep, hrun⟩ := runWrite_answered hpass (steps6to8_alignStore e u)
    obtain ⟨a, hget, hfields⟩ := alignStore_stores u.w (source := pathSource e.path) hserial hplace
    refine ⟨_, hrun, ?_⟩
    exact ⟨a, (congrArg (fun l : Lck => mapGet l.align i) (settle_lck _)).trans hget, hfields⟩
end

section
/-! SUPPORT. A line failure that a driver reports again (R250). -/

namespace Sys2Proof.Machine

/-- A line failure that its port has reported before leaves the port's count (R250). -/
theorem getN_lineFailRx_known {w : World} {p row line : Nat} (result : Nat)
    (h : (linkAt w p).fails.contains (row, line) = true) (k : Nat) :
    getN (lineFailRx false p row result line w) k = getN w k := by
  unfold lineFailRx
  dsimp only
  rw [Bool.not_false, Bool.or_true, if_pos rfl, if_pos h]
  generalize stampOk _ _ _ = due
  cases due
  · rfl
  · exact getN_raise _ _ _ _ _

theorem exec_lineFailRx {s : State} {p row result line : Nat} (hin : p < 16 ∧ row < 2 ∧ result < 8)
    (hmode : inPrint s.ctl.mode = false) :
    exec (.lineFailRx p row result line) s = .next (runMeaning (lineFailRx false p row result line) s) := by
  rw [← hmode]
  exact onWorld_whenDo (c := fun _ => decide (p < 16 ∧ row < 2 ∧ result < 8))
    (fun c => lineFailRx (inPrint c.mode) p row result line) (decide_eq_true hin)

/-- OFF, with a failure that the first head port has reported and `n` for its count of failures. -/
def failedLine (n : Nat) : State :=
  { State.reset with
    w := setO { State.reset.w with links := State.reset.w.links.modify 0 fun l => { l with fails := [(0, 0)] } }
      (Obj.YQL_LINE_FAILS 0) n }

theorem failedLine_count (n : Nat) : getN (failedLine n).w (Obj.YQL_LINE_FAILS 0) = n :=
  (getN_setO_same _ (Obj.YQL_LINE_FAILS 0) n).trans (Int.toNat_natCast n)

theorem failedLine_known (n : Nat) : (linkAt (failedLine n).w 0).fails.contains (0, 0) = true := by
  show (State.reset.w.links.modify 0 fun l => { l with fails := [(0, 0)] })[0]?.elim [] Link.fails |>.contains (0, 0)
  decide

theorem failedLine_kept (n : Nat) :
    getN (runMeaning (lineFailRx false 0 0 0 0) (failedLine n)).w (Obj.YQL_LINE_FAILS 0) = n := by
  rw [getN_runMeaning _ _ (by decide), getN_lineFailRx_known (w := (fresh (failedLine n)).w) 0 (failedLine_known n)]
  exact failedLine_count n

end Sys2Proof.Machine
end

section
/-! Obligation O26. -/

open Sys2Proof Sys2Proof.Machine

/-- Refutes O26: a failure known already leaves the count as it is, and the statement has the count less than 2^32 even
where it was not. -/
theorem not_linkTrafficAndIdle : ¬ Obligations.LinkTrafficAndIdle := by
  unfold Obligations.LinkTrafficAndIdle
  intro h
  obtain ⟨-, -, hfail, -⟩ := h.1 (failedLine 4294967296) 0 (by decide) (Nat.lt_of_lt_of_eq (by decide : 0 < 24) rfl)
  obtain ⟨t, ht, hcount⟩ := hfail 0 0 0 (by decide) (by decide) (by decide)
  obtain rfl := Host.Outcome.next.inj (ht.symm.trans (exec_lineFailRx (by decide) rfl))
  rw [failedLine_kept, failedLine_count, if_pos (failedLine_known _)] at hcount
  exact absurd hcount (by decide)

end

section
/-! SUPPORT. What a link loses: ALIGN sets, block errors, lock, clock and silence (R235, R237, R250, R258). -/

namespace Sys2Proof.Machine

theorem linkAt_runMeaning (f : World → World) (s : State) (i : Nat) :
    linkAt (runMeaning f s).w i = linkAt (f (fresh s).w) i :=
  congrArg (fun l : List Link => l.getD i Link.reset) (settle_links _)

/-- A meaning that raises no event gives no number. -/
theorem silent_runMeaning {f : World → World} {s : State} (hquiet : Quiet s) (hevt : (f (fresh s).w).evt = s.w.evt) :
    Silent s (runMeaning f s) := by
  have hnone : (f (fresh s).w).evt.raised = [] := (congrArg Evt.raised hevt).trans hquiet
  rw [Silent, runMeaning, settle, hnone]
  show (f (fresh s).w).evt.seq = s.w.evt.seq
  rw [hevt]

section
variable (w : World)

/-! ### Recovery -/

/-- What the start of a recovery writes of its link (R258). -/
def recovered (w : World) (l : Link) : Link :=
  { l with st := .recovering, startClk := w.clk, reported := [], cmds := [], discarded := 0, trial := none }

theorem linkAt_startRecovery {i : Nat} (hi : i < w.links.length) (hup : (linkAt w i).st = .up) :
    (linkAt (startRecovery w i) i).st = .recovering ∧ (linkAt (startRecovery w i) i).startClk = w.clk := by
  have hlen : i < (restartAlign w i (20 * w.clk) 0).links.length :=
    lt_of_lt_of_eq hi (List.length_set ..).symm
  rw [startRecovery, if_pos hup, linkAt_updLink_same _ _ hlen]
  exact ⟨rfl, rfl⟩

theorem worldFrame_startRecovery {parts : List Part} {objs : Nat → Bool} (hl : .links ∈ parts) (i : Nat) :
    WorldFrame parts objs w (startRecovery w i) :=
  .ite ((worldFrame_updLink w hl i _).trans (worldFrame_updLink _ hl i _)) (.refl w)

/-- The loss of a link that is up is its event and its recovery (R258). -/
theorem linkLost_up {i : Nat} (hup : (linkAt w i).st = .up) (reason : Nat) :
    linkLost w i reason = startRecovery (raise w Ev.YQL_LINK_DOWN i reason) i := by
  rw [linkLost, hup]

/-- The start of a recovery and an event raised before it are independent. -/
theorem startRecovery_raise (i code inst data : Nat) :
    startRecovery (raise w code inst data) i = raise (startRecovery w i) code inst data := by
  by_cases hup : (linkAt w i).st = .up
  · rw [startRecovery, startRecovery, if_pos hup]
    exact if_pos hup
  · rw [startRecovery, startRecovery, if_neg hup]
    exact if_neg hup

theorem startRecovery_evt (i : Nat) : (startRecovery w i).evt = w.evt := by
  unfold startRecovery
  split
  · rfl
  · rfl

/-- A link that trains or enumerates is down when it is lost (R235). -/
theorem linkLost_starting {i : Nat} (hi : i < w.links.length)
    (hst : (linkAt w i).st = .training ∨ (linkAt w i).st = .enumerating) (reason : Nat) :
    (linkAt (linkLost w i reason) i).st = .down := by
  have hdown : (linkAt (linkDown w i reason) i).st = .down :=
    congrArg Link.st (linkAt_updLink_same w (fun l => { l with st := .down }) hi)
  rcases hst with htraining | henumerating
  · rw [linkLost, htraining]
    exact hdown
  · rw [linkLost, henumerating]
    exact hdown

theorem linkLost_recovers {i : Nat} (hi : i < w.links.length) (hup : (linkAt w i).st = .up) (reason : Nat) :
    (linkAt (linkLost w i reason) i).st = .recovering ∧ (linkAt (linkLost w i reason) i).startClk = w.clk := by
  rw [linkLost_up w hup]
  exact linkAt_startRecovery (raise w Ev.YQL_LINK_DOWN i reason) hi hup

theorem linkLost_frame {i : Nat} (hup : (linkAt w i).st = .up) (reason : Nat) :
    WorldFrame [.links] noObj w (linkLost w i reason) := by
  rw [linkLost_up w hup]
  exact (worldFrame_raise w _ _ _).trans (worldFrame_startRecovery _ (by decide) i)

/-! ### ALIGN sets -/

/-- The least of a list's elements and a first one is at least any bound that all of them keep. -/
theorem le_foldl_min {lo a : Int} {l : List Int} (ha : lo ≤ a) (hl : ∀ x, x ∈ l → lo ≤ x) : lo ≤ l.foldl min a := by
  induction l generalizing a with
  | nil => exact ha
  | cons x l ih => exact ih (le_min ha (hl x (List.mem_cons_self ..))) fun y hy => hl y (List.mem_cons_of_mem _ hy)

/-- Each lane of a set stands in the list of its lanes with their numbers. -/
theorem mem_numbered {α : Type} {l : List α} {x : α} (h : x ∈ l) : ∃ k, (x, k) ∈ l.zip (List.range l.length) := by
  obtain ⟨k, hk, rfl⟩ := List.getElem_of_mem h
  refine ⟨k, List.mem_iff_getElem.mpr ⟨k, by simpa using hk, ?_⟩⟩
  simp

/-- A set of ALIGN blocks in the right lanes, of one number and with a skew within the limit, does nothing (R237). -/
theorem alignSetRx_matches (i : Nat) {lanes : List (Nat × Nat × Int)} {seq : Nat} {lo : Int}
    (h : ∀ e, e ∈ lanes.zip (List.range lanes.length) →
      e.1.1 = e.2 ∧ e.1.2.1 = seq ∧ lo ≤ e.1.2.2 ∧ e.1.2.2 ≤ lo + 200) : alignSetRx i lanes w = w := by
  have hskew : ∀ x, x ∈ lanes.map (·.2.2) → lo ≤ x := by
    intro x hx
    obtain ⟨l, hl, rfl⟩ := List.mem_map.mp hx
    obtain ⟨k, hk⟩ := mem_numbered hl
    obtain ⟨-, -, hlo, -⟩ := h _ hk
    exact hlo
  have hnone : ∀ e, e ∈ lanes.zip (List.range lanes.length) →
      (e.1.1 != e.2 || e.1.2.1 != (lanes.headD (0, 0, 0)).2.1 ||
        decide (200 < e.1.2.2 - (lanes.map (·.2.2)).foldl min ((lanes.map (·.2.2)).headD 0))) = false := by
    intro e he
    obtain ⟨hlane, hseq, hlo, hhi⟩ := h e he
    cases lanes with
    | nil => exact absurd he List.not_mem_nil
    | cons l ls =>
      obtain ⟨k, hk⟩ := mem_numbered (List.mem_cons_self (a := l) (l := ls))
      obtain ⟨-, hfirst, -, -⟩ := h _ hk
      have hmin := le_foldl_min (hskew _ (List.mem_cons_self ..)) hskew
      have hsame : e.1.2.1 = ((l :: ls).headD (0, 0, 0)).2.1 := hseq.trans hfirst.symm
      have hnear : ¬ 200 < e.1.2.2 - ((l :: ls).map (·.2.2)).foldl min (((l :: ls).map (·.2.2)).headD 0) := by
        have hle : lo ≤ ((l :: ls).map (·.2.2)).foldl min (((l :: ls).map (·.2.2)).headD 0) := hmin
        omega
      simp only [hlane, hsame, bne_self_eq_false, Bool.or_self, decide_eq_false hnear]
  unfold alignSetRx
  dsimp only
  rw [List.find?_eq_none.mpr fun e he => Bool.not_eq_true _ ▸ hnone e he]

/-- A set with a block in a wrong lane is a deskew failure: its event, and the loss of the link (R237). -/
theorem alignSetRx_mismatch (i : Nat) {lanes : List (Nat × Nat × Int)} {e : (Nat × Nat × Int) × Nat}
    (he : e ∈ lanes.zip (List.range lanes.length)) (hlane : e.1.1 ≠ e.2) :
    ∃ d, alignSetRx i lanes w = linkLost (raise w Ev.YQL_DESKEW i d) i 2 := by
  unfold alignSetRx
  dsimp only
  split
  case h_1 hnone =>
    have hgood := List.find?_eq_none.mp hnone e he
    simp [hlane] at hgood
  case h_2 => exact ⟨_, rfl⟩

/-! ### Block errors -/

theorem blockError_shows {i : Nat} (hi : i < w.links.length) (inFrame : Bool) :
    (linkAt (blockError i inFrame w) i).badFrame = ((linkAt w i).badFrame || inFrame && decide (16 ≤ i)) ∧
      (linkAt (blockError i inFrame w) i).errAt =
        ((linkAt w i).errAt.filter fun c => w.clk < c + secClk 1) ++ [w.clk] := by
  unfold blockError
  extract_lets u v x
  have hu : u.links.length = w.links.length ∧ (linkAt u i).badFrame = ((linkAt w i).badFrame || inFrame && decide (16 ≤ i)) ∧
      (linkAt u i).errAt = (linkAt w i).errAt ∧ u.clk = w.clk := by
    by_cases hcam : (inFrame && decide (16 ≤ i)) = true
    · simp only [u, hcam, if_true, linkAt_updLink_same w _ hi, Bool.or_true]
      exact ⟨List.length_set .., trivial, trivial, rfl⟩
    · simp only [u, Bool.eq_false_iff.mpr hcam, Bool.or_false]
      exact ⟨rfl, rfl, rfl, rfl⟩
  obtain ⟨hlen, hbad, herr, hclk⟩ := hu
  have hv : v.links = u.links ∧ v.clk = u.clk := by
    simp only [v]
    split
    · exact ⟨rfl, rfl⟩
    · exact ⟨rfl, rfl⟩
  obtain ⟨hlinks, hvclk⟩ := hv
  have hlinkv : linkAt v i = linkAt u i := congrArg (fun l : List Link => l.getD i Link.reset) hlinks
  have hx : linkAt x i = { linkAt u i with errAt := ((linkAt w i).errAt.filter fun c => w.clk < c + secClk 1) ++ [w.clk] } := by
    rw [← herr, ← hclk, ← hvclk, ← hlinkv]
    exact linkAt_updLink_same v _ (by rw [hlinks, hlen]; exact hi)
  have hxlen : i < x.links.length := lt_of_lt_of_eq hi (by rw [← hlen, ← hlinks]; exact (List.length_set ..).symm)
  clear_value x
  have hlast : ∀ y : World, linkAt y i = { linkAt x i with errStamp := some x.clk } ∨ linkAt y i = linkAt x i →
      (linkAt y i).badFrame = ((linkAt w i).badFrame || inFrame && decide (16 ≤ i)) ∧
        (linkAt y i).errAt = ((linkAt w i).errAt.filter fun c => w.clk < c + secClk 1) ++ [w.clk] := by
    rintro y (hy | hy)
    · exact ⟨by rw [hy, hx, ← hbad], by rw [hy, hx]⟩
    · exact ⟨by rw [hy, hx, ← hbad], by rw [hy, hx]⟩
  refine hlast _ ?_
  split
  · exact .inl (linkAt_updLink_same x (fun l => { l with errStamp := some x.clk }) hxlen)
  · exact .inr rfl

theorem getN_blockError {i : Nat} (hi : i < 16) (inFrame : Bool) :
    getN (blockError i inFrame w) (Obj.YQL_RET_ERRORS i) = (getN w (Obj.YQL_RET_ERRORS i) + 1) % 4294967296 := by
  unfold blockError
  extract_lets u v x
  have hu : getN u (Obj.YQL_RET_ERRORS i) = getN w (Obj.YQL_RET_ERRORS i) := by
    simp only [u]
    split
    · rfl
    · rfl
  have hv : getN v (Obj.YQL_RET_ERRORS i) = (getN w (Obj.YQL_RET_ERRORS i) + 1) % 4294967296 := by
    simp only [v, hi, if_true]
    rw [getN_bump_same, hu]
  clear_value v
  split
  · rw [getN_raise]
    exact hv
  · exact hv

/-! ### Silence -/

theorem driverSilent_lost {p addr : Nat} {d : Driver} (haddr : 1 ≤ addr) (hd : (linkAt w p).drivers[addr - 1]? = some d)
    (hlate : d.statusClk + usClk (getN w Obj.YQL_STATUS_TO_US) ≤ w.clk) (hup : (linkAt w p).st = .up) :
    driverSilent p addr w = linkLost w p 4 := by
  unfold driverSilent
  rw [hd]
  exact if_pos ⟨by omega, decide_eq_true hlate, hup⟩

end
end Sys2Proof.Machine
end

section
/-! Obligation O24, from the loss of a link and what leads to it. -/

open Sys2Proof Sys2Proof.Machine

/-- Settles O24: a deskew failure, lost lock or clock and a silent driver are one loss, which takes a link that is up into
recovery and one that starts down. -/
theorem linkLosses : Obligations.LinkLosses := by
  intro s i hi hlen
  have hrun (f : World → World) : onWorld (fun _ w => whenDo (decide (i < 24)) f w) s = .next (runMeaning f s) :=
    onWorld_whenDo (c := fun _ => decide (i < 24)) (fun _ => f) (decide_eq_true hi)
  refine ⟨?aligned, ?skewed, ?error, ?lost, ?starting, ?silent⟩
  case aligned =>
    intro lanes seq lo hgood
    have hsame : runMeaning (alignSetRx i lanes) s = runMeaning (fun w => w) s := by
      rw [runMeaning, alignSetRx_matches (fresh s).w i hgood, runMeaning]
    refine ⟨_, hrun (alignSetRx i lanes), ?_, fun hquiet => ?_⟩
    · exact hsame ▸ WorldFrame.touches (.refl _)
    · exact hsame ▸ silent_runMeaning hquiet rfl
  case skewed =>
    intro lanes e hup he hlane
    obtain ⟨d, hlost⟩ := alignSetRx_mismatch (fresh s).w i he hlane
    have hst := linkLost_recovers (raise (fresh s).w Ev.YQL_DESKEW i d) hlen hup 2
    obtain ⟨hrec, hclk⟩ := hst
    refine ⟨_, hrun (alignSetRx i lanes), ?_, ?_, ?_⟩
    · rw [linkAt_runMeaning, hlost, hrec]
    · rw [linkAt_runMeaning, hlost, hclk]
      rfl
    · refine WorldFrame.touches ?_
      rw [hlost]
      exact (worldFrame_raise _ _ _ _).trans (linkLost_frame (raise (fresh s).w Ev.YQL_DESKEW i d) hup 2)
  case error =>
    intro inFrame
    obtain ⟨hbad, herr⟩ := blockError_shows (fresh s).w hlen inFrame
    refine ⟨_, hrun (blockError i inFrame), ?_, ?_, fun hport => ?_⟩
    · rw [linkAt_runMeaning]
      exact hbad
    · rw [linkAt_runMeaning]
      exact herr
    · rw [getN_runMeaning _ _ (show Obj.YQL_RET_ERRORS i < Obj.EVT_LOG_DROPPED from
        show 0x269007 + 0x100 * i < 0x2C0004 by omega)]
      exact getN_blockError (fresh s).w hport inFrame
  case lost =>
    intro clock hup
    obtain ⟨hrec, hclk⟩ := linkLost_recovers (fresh s).w hlen hup (if clock then 3 else 1)
    refine ⟨_, hrun fun w => linkLost w i (if clock then 3 else 1), ?_, ?_, ?_, fun hquiet => ?_⟩
    · rw [linkAt_runMeaning, hrec]
    · rw [linkAt_runMeaning, hclk]
      rfl
    · exact WorldFrame.touches (linkLost_frame (fresh s).w hup _)
    · exact reports_runMeaning hquiet ((linkLost_up (fresh s).w hup _).trans (startRecovery_raise _ i _ i _))
        (startRecovery_evt _ i)
  case starting =>
    intro clock hst
    refine ⟨_, hrun fun w => linkLost w i (if clock then 3 else 1), ?_⟩
    rw [linkAt_runMeaning]
    exact linkLost_starting (fresh s).w hlen hst _
  case silent =>
    intro addr d hport haddr hd hlate hup
    have hlost := driverSilent_lost (fresh s).w haddr hd hlate hup
    refine ⟨_, onWorld_whenDo (c := fun _ => decide (i < 16)) (fun _ => driverSilent i addr) (decide_eq_true hport), ?_, ?_⟩
    · rw [linkAt_runMeaning, hlost]
      exact (linkLost_recovers (fresh s).w hlen hup 4).1
    · refine WorldFrame.touches ?_
      rw [hlost]
      exact linkLost_frame (fresh s).w hup 4
end

section
/-! SUPPORT. What a counted edge, an illegal transition, a loss, an index and a slip window do to their channel and to the
counted position (R33 to R47). -/

namespace Sys2Proof.Machine

section
variable (w : World)

/-! ### A channel's count, losses and reference -/

/-- What no fault of a channel changes. -/
def encState (e : EncCh) : Int × Nat × Bool × Int := (e.count, lossBits e, e.refValid, e.refCount)

theorem encAt_updEnc_state {n : Nat} {f : EncCh → EncCh} (hf : ∀ e, encState (f e) = encState e) (m : Nat) :
    encState (encAt (updEnc w n f) m) = encState (encAt w m) := by
  by_cases hnm : n = m
  · subst hnm
    by_cases hlen : n < w.web.enc.length
    · rw [encAt_updEnc_same w f hlen, hf]
    · have hsame : w.web.enc.set n (f (encAt w n)) = w.web.enc := List.set_eq_of_length_le (Nat.le_of_not_lt hlen)
      exact congrArg (fun l : List EncCh => encState (l.getD n EncCh.reset)) hsame
  · rw [encAt_updEnc_ne w f hnm]

theorem encInhibit_enc (kind : Nat) : (encInhibit w kind).web.enc = w.web.enc := by
  unfold encInhibit
  split
  · exact foldl_keeps (fun w : World => w.web.enc) (fun u r => by unfold inhibitRow; dsimp only; split <;> rfl) _ _
  · rfl

/-- A fault of a channel moves no count, loss or reference of any channel (R42, R43). -/
theorem encState_encFault (n kind m : Nat) : encState (encAt (encFault w n kind) m) = encState (encAt w m) := by
  have hmark : encState (encAt (updEnc w n fun e => { e with fault := true }) m) = encState (encAt w m) :=
    encAt_updEnc_state w (f := fun e => { e with fault := true }) (fun _ => rfl) m
  have henc : (encFault w n kind).web.enc = w.web.enc ∨
      (encFault w n kind).web.enc = (updEnc w n fun e => { e with fault := true }).web.enc := by
    unfold encFault
    extract_lets again u _ v
    have hv : v.web.enc = u.web.enc := by
      simp only [v]
      split
      · rfl
      · rfl
    split
    · exact .inl rfl
    · refine .inr (Eq.trans ?_ hv)
      split
      · rfl
      · split
        · rfl
        · exact encInhibit_enc v kind
  rcases henc with h | h
  · rw [encAt, h, encAt]
  · rw [encAt, h, ← hmark, encAt]

theorem getO_encInhibit (kind k : Nat) : getO (encInhibit w kind) k = getO w k := by
  unfold encInhibit
  split
  · exact foldl_keeps (fun w : World => getO w k) (fun u r => by unfold inhibitRow; dsimp only; split <;> rfl) _ _
  · rfl

theorem getO_encFault (n kind k : Nat) : getO (encFault w n kind) k = getO w k := by
  unfold encFault
  extract_lets again u _ v
  have hv : getO v k = getO w k := by
    simp only [v]
    split
    · rfl
    · rfl
  split
  · rfl
  · refine Eq.trans ?_ hv
    split
    · rfl
    · split
      · rfl
      · exact getO_encInhibit v kind k

/-! ### Counted edges -/

theorem trackEdge_enc (n : Nat) (dir : Int) : (trackEdge w n dir).web.enc = w.web.enc := by
  unfold trackEdge
  extract_lets t net pos u v trk x y
  split
  · split <;> rfl
  · split
    · split <;> rfl
    · rfl

theorem trackEdge_pos (n : Nat) (dir : Int) : (trackEdge w n dir).web.pos = w.web.pos + dir * lpcOf w n := by
  unfold trackEdge
  extract_lets t net pos u v trk x y
  split
  · split <;> rfl
  · split
    · split <;> rfl
    · rfl

theorem speedEdge_keeps (n : Nat) (dir : Int) (et : Nat) :
    (speedEdge w n dir et).web.enc = w.web.enc ∧ (speedEdge w n dir et).web.pos = w.web.pos := by
  unfold speedEdge
  extract_lets t back clk u _ _ _ v
  have hu : u.web.enc = w.web.enc ∧ u.web.pos = w.web.pos := by
    simp only [u]
    split
    · exact ⟨rfl, rfl⟩
    · exact ⟨rfl, rfl⟩
  have hv : v.web.enc = u.web.enc ∧ v.web.pos = u.web.pos := by
    simp only [v]
    split
    · exact ⟨rfl, rfl⟩
    · split
      · exact ⟨rfl, rfl⟩
      · exact ⟨rfl, rfl⟩
  exact ⟨hv.1.trans hu.1, hv.2.trans hu.2⟩

theorem slipEdge_keeps (n : Nat) (dir : Int) :
    (slipEdge w n dir).web.enc = w.web.enc ∧ (slipEdge w n dir).web.pos = w.web.pos := by
  unfold slipEdge
  split
  · exact ⟨rfl, rfl⟩
  · dsimp only
    split
    · exact ⟨rfl, rfl⟩
    · split
      · split
        · exact ⟨rfl, rfl⟩
        · exact ⟨rfl, rfl⟩
      · exact ⟨rfl, rfl⟩

/-- A count moves its channel's count, and of the active encoder the counted position (R33, R45). -/
theorem countEdge_counts {n : Nat} (hn : n < 4) (hlen : n < w.web.enc.length) (dir : Int) :
    encState (encAt (countEdge w n dir) n) =
        encState { encAt w n with count := wrapSigned 48 ((encAt w n).count + dir) } ∧
      (n = w.web.active → w.web.lossInhibit = false →
        (countEdge w n dir).web.pos = w.web.pos + dir * lpcOf w n) := by
  unfold countEdge
  extract_lets e ns close gap e' u v x y z end_
  have hu : encAt u n = e' := by
    rw [encAt, show u.web.enc = w.web.enc.set n e' from rfl, List.getD_eq_getElem?_getD, List.getElem?_set_self hlen]
    rfl
  have hx : encState (encAt x n) = encState e' ∧ x.web.pos = w.web.pos ∧ x.web.active = w.web.active ∧
      x.web.lossInhibit = w.web.lossInhibit ∧ lpcOf x n = lpcOf w n := by
    have hv : lpcOf v n = lpcOf w n := getN_bump_ne _ (by simp only [Obj.WEB_ENC_OVERRATE, Obj.WEB_ENC_LPC]; omega)
    have hmark : encState (encAt (updEnc v n fun e => { e with overStamp := some v.clk }) n) = encState (encAt v n) :=
      encAt_updEnc_state v (f := fun e => { e with overStamp := some v.clk }) (fun _ => rfl) n
    have hve : encState (encAt v n) = encState e' := congrArg encState hu
    simp only [x]
    split
    · split
      · exact ⟨hmark.trans hve, rfl, rfl, rfl, hv⟩
      · exact ⟨hve, rfl, rfl, rfl, hv⟩
    · exact ⟨congrArg encState hu, rfl, rfl, rfl, rfl⟩
  obtain ⟨hstate, hpos, hactive, hinhibit, hlpc⟩ := hx
  have hz : z.web.enc = x.web.enc ∧ z.web.pos = x.web.pos + dir * lpcOf x n := by
    obtain ⟨henc, hkept⟩ := speedEdge_keeps y n dir (etOf ns)
    exact ⟨henc.trans (trackEdge_enc x n dir), hkept.trans (trackEdge_pos x n dir)⟩
  obtain ⟨henc, hmoved⟩ := hz
  obtain ⟨hslip, hslipPos⟩ := slipEdge_keeps end_ n dir
  have hend : end_.web.enc = x.web.enc := by
    simp only [end_]
    split
    · exact henc
    · rfl
  refine ⟨?_, fun hn hno => ?_⟩
  · rw [encAt, hslip, hend]
    exact hstate
  · have hgo : n = x.web.active ∧ ¬ x.web.lossInhibit = true := ⟨hn.trans hactive.symm, by rw [hinhibit, hno]; decide⟩
    rw [hslipPos, ← hpos, ← hlpc, ← hmoved]
    simp only [end_, if_pos hgo]
    rfl

/-! ### Edges -/

theorem encEdge_counts {n : Nat} (hn : n < 4) (hlen : n < w.web.enc.length) (hdec : encDecodes w n = true) (aLeads : Bool) :
    encState (encAt (encEdge n aLeads w) n) =
        encState { encAt w n with count := wrapSigned 48 ((encAt w n).count + encDir w n aLeads) } ∧
      (n = w.web.active → w.web.lossInhibit = false →
        (encEdge n aLeads w).web.pos = w.web.pos + encDir w n aLeads * lpcOf w n) := by
  have hdec' := hdec
  simp only [encDecodes, Bool.and_eq_true, Bool.not_eq_true'] at hdec'
  obtain ⟨⟨-, hA⟩, hB⟩ := hdec'
  have hgo : n < 4 ∧ ¬ (encAt w n).lossA = true ∧ ¬ (encAt w n).lossB = true := ⟨hn, by rw [hA]; decide, by rw [hB]; decide⟩
  unfold encEdge
  extract_lets e u
  have hu : encAt u n = { encAt w n with phase := ((encAt w n).phase + if aLeads = true then 1 else 3) % 4 } :=
    encAt_updEnc_same w _ hlen
  have hon : encDecodes u n = true := by
    simp only [encDecodes, hu] at hdec ⊢
    exact hdec
  rw [if_pos hgo, if_pos hon]
  have hcount := countEdge_counts u hn (lt_of_lt_of_eq hlen (List.length_set ..).symm) (encDir u n aLeads)
  rw [hu] at hcount
  exact hcount

theorem encEdge_losses {n : Nat} (hlen : n < w.web.enc.length) (aLeads : Bool) :
    lossBits (encAt (encEdge n aLeads w) n) = lossBits (encAt w n) := by
  unfold encEdge
  extract_lets e u
  have hu : encState (encAt u n) = encState (encAt w n) :=
    encAt_updEnc_state w (f := fun e => { e with phase := (e.phase + if aLeads = true then 1 else 3) % 4 }) (fun _ => rfl) n
  split
  next hgo =>
    split
    · have hcount := (countEdge_counts u hgo.1 (lt_of_lt_of_eq hlen (List.length_set ..).symm) (encDir u n aLeads)).1
      exact (congrArg (fun x => x.2.1) hcount).trans (congrArg (fun x => x.2.1) hu)
    · exact congrArg (fun x => x.2.1) hu
  next => rfl

/-- An illegal transition moves no count, loss or reference (R34). -/
theorem encIllegal_state (n m : Nat) : encState (encAt (encIllegal n w) m) = encState (encAt w m) := by
  have hstep (u : World) : encState (encAt (illegalStep n u) m) = encState (encAt u m) := by
    unfold illegalStep
    split
    · extract_lets e at_ v x
      have hv : encState (encAt v m) = encState (encAt u m) :=
        encAt_updEnc_state u (f := fun e => { e with illegalAt := at_ }) (fun _ => rfl) m
      have hx : encState (encAt x m) = encState (encAt v m) := by
        simp only [x]
        split
        · exact encAt_updEnc_state v (f := fun e => { e with illStamp := some v.clk }) (fun _ => rfl) m
        · rfl
      split
      · exact (encState_encFault x n 2 m).trans (hx.trans hv)
      · exact hx.trans hv
    · rfl
  unfold encIllegal
  extract_lets e u
  have hu : encState (encAt u m) = encState (encAt w m) :=
    encAt_updEnc_state w (f := fun e => { e with phase := (e.phase + 2) % 4 }) (fun _ => rfl) m
  split
  · split
    · exact (hstep u).trans hu
    · exact hu
  · rfl

/-- An illegal transition of a channel in a role is counted (R34). -/
theorem getN_encIllegal {n : Nat} (hn : n < 4) (hlen : n < w.web.enc.length) (hdec : encDecodes w n = true)
    (hrole : encInRole w n = true) :
    getN (encIllegal n w) (Obj.WEB_ENC_ILLEGAL n) = (getN w (Obj.WEB_ENC_ILLEGAL n) + 1) % 4294967296 := by
  have hstep (u : World) (hrole : encInRole u n = true) :
      getN (illegalStep n u) (Obj.WEB_ENC_ILLEGAL n) = (getN u (Obj.WEB_ENC_ILLEGAL n) + 1) % 4294967296 := by
    unfold illegalStep
    extract_lets e at_ v x
    have hv : getN v (Obj.WEB_ENC_ILLEGAL n) = (getN u (Obj.WEB_ENC_ILLEGAL n) + 1) % 4294967296 := getN_bump_same _ _
    have hx : getN x (Obj.WEB_ENC_ILLEGAL n) = getN v (Obj.WEB_ENC_ILLEGAL n) := by
      simp only [x]
      split
      · rfl
      · rfl
    rw [if_pos hrole]
    split
    · exact (getN_congr (getO_encFault x n 2 _)).trans (hx.trans hv)
    · exact hx.trans hv
  have hdec' := hdec
  simp only [encDecodes, Bool.and_eq_true, Bool.not_eq_true'] at hdec'
  obtain ⟨⟨-, hA⟩, hB⟩ := hdec'
  have hgo : n < 4 ∧ ¬ (encAt w n).lossA = true ∧ ¬ (encAt w n).lossB = true := ⟨hn, by rw [hA]; decide, by rw [hB]; decide⟩
  unfold encIllegal
  extract_lets e u
  have hu : encDecodes u n = true := by
    have henc : encAt u n = { encAt w n with phase := ((encAt w n).phase + 2) % 4 } := encAt_updEnc_same w _ hlen
    simp only [encDecodes, henc] at hdec ⊢
    exact hdec
  rw [if_pos hgo, if_pos hu]
  exact hstep u hrole

/-! ### Loss and return of a signal -/

theorem lossBits_setLoss (e : EncCh) {sig : Nat} (h : sig < 3) (on : Bool) : bitOf (lossBits (setLoss e sig on)) sig = on := by
  have hall : ∀ (a b z on : Bool) (sig : Fin 3),
      bitOf (lossBits (setLoss { EncCh.reset with lossA := a, lossB := b, lossZ := z } sig on)) sig = on := by decide
  have hbits : lossBits (setLoss e sig on) =
      lossBits (setLoss { EncCh.reset with lossA := e.lossA, lossB := e.lossB, lossZ := e.lossZ } sig on) := by
    unfold setLoss
    split <;> rfl
  rw [hbits]
  exact hall e.lossA e.lossB e.lossZ on ⟨sig, h⟩

/-- The loss of a signal of a monitored channel sets its flag (R35). -/
theorem encLoss_sets {n sig : Nat} (hn : n < 4) (hlen : n < w.web.enc.length) (hsig : sig < 3) (hnamed : encNamed w n = true)
    (hclear : bitOf (lossBits (encAt w n)) sig = false) : bitOf (lossBits (encAt (encLoss n sig w) n)) sig = true := by
  have hgo : n < 4 ∧ sig < 3 ∧ encNamed w n = true ∧ ¬ bitOf (lossBits (encAt w n)) sig = true :=
    ⟨hn, hsig, hnamed, by rw [hclear]; decide⟩
  unfold encLoss
  extract_lets u _ v x
  have hu : encAt u n = setLoss (encAt w n) sig true := encAt_updEnc_same w _ hlen
  have hx : encAt x n = encAt u n := by
    have hv : encAt v n = encAt u n := by
      simp only [v]
      split
      · rfl
      · rfl
    exact hv
  have hset : bitOf (lossBits (encAt x n)) sig = true := by
    rw [hx, hu]
    exact lossBits_setLoss _ hsig true
  rw [if_pos hgo]
  split
  · exact (congrArg (fun e : Int × Nat × Bool × Int => bitOf e.2.1 sig) (encState_encFault x n 3 n)).trans hset
  · exact hset

/-- The return of a lost signal clears its flag (R35). -/
theorem encReturn_clears {n sig : Nat} (hn : n < 4) (hlen : n < w.web.enc.length) (hsig : sig < 3) (a b : Bool)
    (hset : bitOf (lossBits (encAt w n)) sig = true) : bitOf (lossBits (encAt (encReturn n sig a b w) n)) sig = false := by
  unfold encReturn
  extract_lets u e
  have hu : encAt u n = setLoss (encAt w n) sig false := encAt_updEnc_same w _ hlen
  have hclear : bitOf (lossBits (encAt u n)) sig = false := by
    rw [hu]
    exact lossBits_setLoss _ hsig false
  have hulen : n < u.web.enc.length := lt_of_lt_of_eq hlen (List.length_set ..).symm
  have hedge (lead : Bool) : bitOf (lossBits (encAt (encEdge n lead u) n)) sig = false := by
    rw [encEdge_losses u hulen lead, hclear]
  rw [if_pos ⟨hn, hsig, hset⟩]
  split
  · exact hclear
  · split
    · exact hedge true
    · exact hedge false
    · exact (congrArg (fun e : Int × Nat × Bool × Int => bitOf e.2.1 sig) (encIllegal_state u n n)).trans hclear
    · exact hclear

/-! ### The index -/

theorem indexStep_keeps (n : Nat) (d : Int) :
    (indexStep w n d).web.enc = w.web.enc ∧ ∀ k, getO (indexStep w n d) k = getO w k := by
  unfold indexStep
  dsimp only
  split
  · exact ⟨rfl, fun _ => rfl⟩
  · exact ⟨rfl, fun _ => rfl⟩

/-- An index compared with its reference shows its count; within the tolerance and off it, it corrects the count and is
counted (R38). -/
theorem indexCheck_corrects {n : Nat} (hlen : n < w.web.enc.length) :
    getO (indexCheck w n) (Obj.WEB_ENC_IDX_COUNT n) = (encAt w n).count ∧
      ((indexDev (encAt w n).count (encAt w n).refCount (getN w (Obj.WEB_ENC_CPR n))).natAbs ≤
          getN w (Obj.WEB_ENC_IDX_TOL n) →
        indexDev (encAt w n).count (encAt w n).refCount (getN w (Obj.WEB_ENC_CPR n)) ≠ 0 →
        (encAt (indexCheck w n) n).count = wrapSigned 48 ((encAt w n).count -
            indexDev (encAt w n).count (encAt w n).refCount (getN w (Obj.WEB_ENC_CPR n))) ∧
          getN (indexCheck w n) (Obj.WEB_ENC_IDX_ADJ n) = (getN w (Obj.WEB_ENC_IDX_ADJ n) + 1) % 4294967296) := by
  unfold indexCheck
  extract_lets e d u v x y run m t
  have hkeys : Obj.WEB_ENC_IDX_DEV n ≠ Obj.WEB_ENC_IDX_COUNT n ∧ Obj.WEB_ENC_IDX_ADJ n ≠ Obj.WEB_ENC_IDX_COUNT n ∧
      Obj.WEB_ENC_IDX_MISM n ≠ Obj.WEB_ENC_IDX_COUNT n ∧ Obj.WEB_ENC_IDX_DEV n ≠ Obj.WEB_ENC_IDX_TOL n ∧
      Obj.WEB_ENC_IDX_COUNT n ≠ Obj.WEB_ENC_IDX_TOL n ∧ Obj.WEB_ENC_IDX_DEV n ≠ Obj.WEB_ENC_IDX_ADJ n ∧
      Obj.WEB_ENC_IDX_COUNT n ≠ Obj.WEB_ENC_IDX_ADJ n := by
    simp only [Obj.WEB_ENC_IDX_DEV, Obj.WEB_ENC_IDX_COUNT, Obj.WEB_ENC_IDX_ADJ, Obj.WEB_ENC_IDX_MISM, Obj.WEB_ENC_IDX_TOL]
    omega
  obtain ⟨hdevCount, hadjCount, hmismCount, hdevTol, hcountTol, hdevAdj, hcountAdj⟩ := hkeys
  have hshown : getO u (Obj.WEB_ENC_IDX_COUNT n) = (encAt w n).count :=
    (getO_setO_ne _ _ hdevCount).trans (getO_setO_same w _ _)
  have htol : getN u (Obj.WEB_ENC_IDX_TOL n) = getN w (Obj.WEB_ENC_IDX_TOL n) :=
    (getN_setO_ne _ _ hdevTol).trans (getN_setO_ne w _ hcountTol)
  have hadj : getN u (Obj.WEB_ENC_IDX_ADJ n) = getN w (Obj.WEB_ENC_IDX_ADJ n) :=
    (getN_setO_ne _ _ hdevAdj).trans (getN_setO_ne w _ hcountAdj)
  have hy : y.web.enc = x.web.enc ∧ ∀ k, getO y k = getO u k := by
    simp only [y]
    split
    · obtain ⟨henc, hobj⟩ := indexStep_keeps x n d
      exact ⟨henc, hobj⟩
    · exact ⟨rfl, fun _ => rfl⟩
  obtain ⟨henc, hobj⟩ := hy
  constructor
  · split
    · split
      · exact hshown
      · rw [raiseEnc, getO_raiseAt, getO_bump_ne _ hadjCount, hobj]
        exact hshown
    · have ht : getO t (Obj.WEB_ENC_IDX_COUNT n) = (encAt w n).count := (getO_bump_ne _ hmismCount).trans hshown
      split
      · rw [getO_encFault]
        exact ht
      · exact ht
  · intro hnear hoff
    rw [if_pos (htol ▸ hnear), if_neg hoff]
    have hv : (encAt v n).count = (encAt w n).count ∧ n < v.web.enc.length :=
      ⟨Eq.trans (congrArg EncCh.count (encAt_updEnc_same u (fun e => { e with mismRun := 0 }) hlen)) rfl,
        lt_of_lt_of_eq hlen (List.length_set ..).symm⟩
    have hx : (encAt x n).count = wrapSigned 48 ((encAt v n).count - d) :=
      congrArg EncCh.count (encAt_updEnc_same v (fun e => { e with count := wrapSigned 48 (e.count - d) }) hv.2)
    constructor
    · show (y.web.enc.getD n EncCh.reset).count = _
      rw [henc]
      exact hx.trans (by rw [hv.1])
    · rw [raiseEnc, getN_raiseAt, getN_bump_same, getN_congr (hobj _), hadj]

/-- The first index makes the count its reference (R37). -/
theorem indexEvent_shows {n : Nat} (hlen : n < w.web.enc.length)
    (hgo : n < 4 ∧ getF w (Obj.WEB_ENC_CFG n) 3 1 = 1 ∧ getN w (Obj.WEB_ENC_CPR n) ≠ 0 ∧ ¬ (encAt w n).lossZ = true ∧
      encInRole w n = true ∧ w.web.trk = .forward) :
    ((encAt w n).refValid = false → getO (indexEvent n w) (Obj.WEB_ENC_IDX_COUNT n) = (encAt w n).count ∧
        (encAt (indexEvent n w) n).refValid = true ∧ (encAt (indexEvent n w) n).refCount = (encAt w n).count) ∧
      ((encAt w n).refValid = true → indexEvent n w = indexCheck w n) := by
  unfold indexEvent
  extract_lets e u v
  rw [if_pos hgo]
  refine ⟨fun hnew => ?_, fun hold => if_pos hold⟩
  rw [if_neg (by rw [hnew]; decide)]
  have hu : encAt u n = { encAt w n with
      refCount := (encAt w n).count, refValid := true, refPos := some (posReport w.web.pos) } := encAt_updEnc_same w _ hlen
  refine ⟨?_, congrArg EncCh.refValid hu, congrArg EncCh.refCount hu⟩
  exact getO_setO_same u (Obj.WEB_ENC_IDX_COUNT n) _

/-! ### The slip window -/

theorem slipEnd_leaves {a b : Int} {m : Nat} (hslip : w.web.slip = some (a, b)) (hsec : encSec w = some m)
    (hend : getO w Obj.WEB_SLIP_WIN * 4294967296 ≤ a) :
    (slipEnd w).web.slip = some (0, 0) ∧
      getO (slipEnd w) Obj.WEB_SLIP_LAST = clampInt (-2147483648) 2147483647 (asr (b - a) 16) := by
  unfold slipEnd
  rw [hslip, hsec]
  dsimp only
  rw [if_pos hend]
  split
  · rw [getO_raiseInt]
    exact ⟨rfl, getO_setO_same _ _ _⟩
  · exact ⟨rfl, getO_setO_same _ _ _⟩

end

/-! ### Standstill -/

theorem noSliceSafe_speed (s : State) : (noSliceSafe s).w.web.valid = s.w.web.valid ∧
    (noSliceSafe s).w.web.standstill = s.w.web.standstill := by
  unfold noSliceSafe
  split
  · unfold enterSafe
    split
    · have hleaves := leaves_goTo 3 (new := .safe) (by decide) s
      exact ⟨hleaves.valid, hleaves.standstill⟩
    · split
      · exact ⟨rfl, rfl⟩
      · exact ⟨rfl, rfl⟩
  · exact ⟨rfl, rfl⟩

end Sys2Proof.Machine
end

section
/-! Obligation O12, from what each command does to its channel. -/

open Sys2Proof Sys2Proof.Machine

theorem encKey_lt {a n : Nat} (hn : n < 4) (ha : a < 0x210010) : a + 0x1000 * n < Obj.EVT_LOG_DROPPED :=
  show a + 0x1000 * n < 0x2C0004 by omega

/-- Settles O12: each command under its conditions, by what it does to its channel and the counted position; a fault that
follows moves no count, loss or reference. -/
theorem encoderEdgesAndSignals : Obligations.EncoderEdgesAndSignals := by
  refine ⟨fun s n hon hn hlen hdec => ⟨fun aLeads => ?edge, fun hrole => ?illegal⟩, fun s hon =>
    ⟨fun n sig hn hlen hsig hnamed hclear => ?loss, fun n sig a b hn hlen hsig hset => ?back,
      fun n hn hlen hz hcpr hlossZ hrole htrk => ?index, fun a b m hslip hsec hend => ?slip, fun hdue => ?still⟩⟩
  case edge =>
    obtain ⟨hcount, hpos⟩ := encEdge_counts (fresh s).w hn hlen hdec aLeads
    refine ⟨_, onWorld_powered (encEdge n aLeads) hon, ?_, fun hactive hno => ?_⟩
    · rw [encAt, runMeaning_web]
      exact congrArg Prod.fst hcount
    · rw [runMeaning_web]
      exact hpos hactive hno
  case illegal =>
    refine ⟨_, onWorld_powered (encIllegal n) hon, ?_, ?_⟩
    · rw [getN_runMeaning _ _ (encKey_lt hn (by decide))]
      exact getN_encIllegal (fresh s).w hn hlen hdec hrole
    · rw [encAt, runMeaning_web]
      exact congrArg Prod.fst (encIllegal_state (fresh s).w n n)
  case loss =>
    refine ⟨_, onWorld_powered (encLoss n sig) hon, ?_⟩
    rw [encAt, runMeaning_web]
    exact encLoss_sets (fresh s).w hn hlen hsig hnamed hclear
  case back =>
    refine ⟨_, onWorld_powered (encReturn n sig a b) hon, ?_⟩
    rw [encAt, runMeaning_web]
    exact encReturn_clears (fresh s).w hn hlen hsig a b hset
  case index =>
    have hgo : n < 4 ∧ getF (fresh s).w (Obj.WEB_ENC_CFG n) 3 1 = 1 ∧ getN (fresh s).w (Obj.WEB_ENC_CPR n) ≠ 0 ∧
        ¬ (encAt (fresh s).w n).lossZ = true ∧ encInRole (fresh s).w n = true ∧ (fresh s).w.web.trk = .forward :=
      ⟨hn, hz, hcpr, ne_true_of_eq_false hlossZ, hrole, htrk⟩
    obtain ⟨hfirst, hlater⟩ := indexEvent_shows (fresh s).w hlen hgo
    obtain ⟨hshown, hcorrected⟩ := indexCheck_corrects (fresh s).w hlen
    refine ⟨_, onWorld_powered (indexEvent n) hon, ?_, fun hnew => ?_, fun hold htol hoff => ?_⟩
    · rw [getO_runMeaning _ _ (encKey_lt hn (by decide))]
      cases hvalid : (encAt s.w n).refValid with
      | false => exact (hfirst hvalid).1
      | true => exact (congrArg (fun v => getO v _) (hlater hvalid)).trans hshown
    · rw [encAt, runMeaning_web]
      exact (hfirst hnew).2
    · rw [encAt, runMeaning_web, getN_runMeaning _ _ (encKey_lt hn (by decide)), hlater hold]
      exact hcorrected htol hoff
  case slip =>
    obtain ⟨hanew, hlast⟩ := slipEnd_leaves (fresh s).w hslip hsec hend
    refine ⟨_, onWorld_powered slipEnd hon, ?_, ?_⟩
    · rw [runMeaning_web]
      exact hanew
    · rw [getO_runMeaning _ _ (by decide)]
      exact hlast
  case still =>
    have hrun : webStandstill (fresh s) = noSliceSafe { fresh s with w := standstill (fresh s).w } := if_pos ⟨hon, hdue⟩
    obtain ⟨hvalid, hstill⟩ := noSliceSafe_speed { fresh s with w := standstill (fresh s).w }
    refine ⟨_, onState_runState webStandstill s, ?_, ?_⟩
    · rw [runState, settle_web, hrun, hstill]
      rfl
    · rw [runState, settle_web, hrun, hvalid]
      rfl
end

section
/-! SUPPORT. The frame sequencer: set-up instants, frame starts, marks without a source and the end of the job (R85, R86, R89,
R92). -/

namespace Sys2Proof.Machine

section
variable (w : World)

/-! ### A frame start -/

theorem winClamp_job (n part source : Nat) (new : Int) : (winClamp w n part source new).job = w.job := by
  unfold winClamp
  dsimp only
  split
  · rfl
  · exact (worldFrame_adjust (parts := [.adjustments]) (objs := fun k => k / 65536 == 0x2C) (setO w (winKey n part) new)
      (by decide) (by simp) _ _ _ _ _).1 .job (by decide)

theorem winCheck_job (n source : Nat) : (winCheck w n source).job = w.job := by
  have hclamps (c d : Prop) [Decidable c] [Decidable d] (a b : Int) :
      (if d then winClamp (if c then w else winClamp w n 1 source a) n 2 source b
        else if c then w else winClamp w n 1 source a).job = w.job := by
    have hend : (if c then w else winClamp w n 1 source a).job = w.job := by
      split
      · rfl
      · exact winClamp_job w n 1 source a
    split
    · exact (winClamp_job _ n 2 source b).trans hend
    · exact hend
  unfold winCheck
  dsimp only
  split
  · exact hclamps _ _ _ _
  · exact hclamps _ _ _ _

theorem winApplyHeld_job (n : Nat) : (winApplyHeld w n).job = w.job := by
  have hheld (u : World) (h : List (Option Int)) (i : Nat) :
      (match h.getD i none with
        | some v => storeLater (setO u (winKey n i) v) (winKey n i) v
        | none => u).job = u.job := by
    split
    · rfl
    · rfl
  exact foldl_keeps (fun w : World => w.job) (fun u i => hheld u (prbAt w n).held i) (List.range 3) w

/-- The end of a commit writes nothing of the job (R162). -/
theorem finishCommit_job (f : CommitFin) : (finishCommit w f).job = w.job := by
  have hprobes (u old : World) : (prbReconf old u).job = u.job :=
    foldl_keeps (fun w : World => w.job) (fun u n => by
      split
      · rfl
      · exact (winCheck_job _ n 0).trans (winApplyHeld_job u n)) _ u
  unfold finishCommit
  extract_lets before old _ w1 d _ w2 w3 w4 w5
  have h5 : w5.job = w.job := hprobes w2 old
  split
  · exact h5
  · exact h5

theorem finishUpTo_bounds (x : Int) : (finishUpTo w x).job.bounds = w.job.bounds := by
  unfold finishUpTo
  exact foldl_keeps (fun w : World => w.job.bounds) (fun u f => congrArg Job.bounds (finishCommit_job u f)) _ _

/-- The boundaries, and of the frames all but their defects. -/
def framesKept (w : World) : List Boundary × List (Nat × Int × Int × Bool) :=
  (w.job.bounds, w.job.frames.map fun f => (f.no, f.wB, f.wEnd, f.done))

theorem framesKept_defectFrame (no cause : Nat) (start stop : Int) :
    framesKept (defectFrame w no cause start stop) = framesKept w := by
  unfold defectFrame
  extract_lets et
  have hnote : framesKept (noteWrite 0 0 0 w) = framesKept w := noteWrite_keeps framesKept (fun _ _ => rfl) (fun _ _ => rfl) _ _ _ w
  have hmark (u : World) (n : Nat) : framesKept (markFrame u n) = framesKept u := by
    have hmap : ((u.job.frames.map fun f => if f.no = n then { f with defect := true } else f).map fun f =>
        (f.no, f.wB, f.wEnd, f.done)) = u.job.frames.map fun f => (f.no, f.wB, f.wEnd, f.done) := by
      rw [List.map_map]
      refine List.map_congr_left fun f _ => ?_
      show (fun g : FrameRec => (g.no, g.wB, g.wEnd, g.done)) (if f.no = n then { f with defect := true } else f) = _
      split
      · rfl
      · rfl
    exact congrArg (Prod.mk u.job.bounds) hmap
  exact (hmark _ no).trans hnote

theorem framesKept_placeMarks (no : Nat) (wB wEnd : Int) (l : List (Int × Int)) :
    framesKept (placeMarks no wB wEnd l w) = framesKept w := by
  induction l generalizing w with
  | nil => rfl
  | cons e l ih =>
    obtain ⟨a, b⟩ := e
    unfold placeMarks
    extract_lets u v _ x
    have hu : framesKept u = framesKept w := by
      simp only [u]
      split
      · exact framesKept_defectFrame w _ _ _ _
      · rfl
    have hv : framesKept v = framesKept u := by
      simp only [v]
      split
      · exact framesKept_defectFrame u _ _ _ _
      · rfl
    have hx : framesKept x = framesKept v := by
      simp only [x]
      split
      · rfl
      · rfl
    exact (ih x).trans (hx.trans (hv.trans hu))

theorem cutFrame_bounds (x : Int) (probe : Nat) : (cutFrame w x probe).job.bounds = w.job.bounds := by
  unfold cutFrame
  split
  · rfl
  · split
    · rfl
    · next f _ _ =>
      extract_lets u v y
      have hv : v.job.bounds = w.job.bounds := congrArg Prod.fst (framesKept_defectFrame u f.no 13 x f.wEnd)
      have hy : y.job.bounds = v.job.bounds := by
        simp only [y]
        split
        · rfl
        · rfl
      exact hy.trans hv

/-- A frame that begins is the newest one, not done, from its boundary to its end (R85). -/
theorem beginFrame_frames (b : Boundary) :
    (beginFrame w b).job.bounds = w.job.bounds ∧ ∃ f, f ∈ (beginFrame w b).job.frames ∧ f.no = b.no ∧ f.wB = b.w ∧
      f.wEnd = b.wEnd ∧ f.done = false := by
  unfold beginFrame
  extract_lets u f _ v x y marks
  have hu : u.job.bounds = w.job.bounds := cutFrame_bounds w b.w b.probe
  have hy : framesKept y = framesKept x :=
    foldl_keeps framesKept (fun u c => framesKept_defectFrame u b.no c b.w b.wEnd) _ x
  have hkept := (framesKept_placeMarks { y with job := { y.job with marks := [] } } b.no b.w b.wEnd marks).trans hy
  clear_value y marks
  refine ⟨(congrArg Prod.fst hkept).trans hu, ?_⟩
  have hmem : (b.no, b.w, b.wEnd, false) ∈ x.job.frames.map fun f => (f.no, f.wB, f.wEnd, f.done) :=
    List.mem_map.mpr ⟨f, List.mem_append_right _ (List.mem_singleton_self f), rfl⟩
  replace hmem : (b.no, b.w, b.wEnd, false) ∈ (framesKept x).2 := hmem
  rw [← hkept] at hmem
  obtain ⟨g, hg, heq⟩ := List.mem_map.mp hmem
  simp only [Prod.mk.injEq] at heq
  obtain ⟨hno, hwB, hwEnd, hdone⟩ := heq
  exact ⟨g, hg, hno, hwB, hwEnd, hdone⟩

theorem frameStart_begins {b : Boundary} {rest : List Boundary} (hbounds : w.job.bounds = b :: rest) (hset : b.isSetUp = true)
    (hreached : posReached w (linePos b.w) = true) (hvirt : b.virt = false) (hsrc : b.noSrc = false) (hstarts : b.starts = true) :
    frameStart w = beginFrame (finishUpTo { w with job := { w.job with bounds := rest } } b.w) b := by
  unfold frameStart
  rw [hbounds]
  dsimp only
  have hgo : ¬ (¬ b.isSetUp = true ∨ ¬ posReached w (linePos b.w) = true) := by
    rw [hset, hreached]
    decide
  rw [if_neg hgo, if_neg (by rw [hvirt]; decide), if_neg (by rw [hsrc]; decide), if_pos hstarts]

/-! ### The set-up instant -/

theorem rule6Report_sys (n k old new : Nat) : (rule6Report w n k old new).sys = w.sys := by
  unfold rule6Report
  split
  · rfl
  · exact (worldFrame_adjust (parts := [.adjustments]) (objs := fun k => k / 65536 == 0x2C) w (by decide) (by simp)
      _ _ _ _ _).1 .sys (by decide)

theorem makeUse_sys (n : Nat) (item : Option Nat) (wB : Int) : (makeUse w n item wB).2.sys = w.sys := by
  unfold makeUse
  extract_lets cfg map it ch map' cfg' u v _ x
  have hv : v.sys = w.sys := (rule6Report_sys u _ _ _ _).trans (rule6Report_sys w _ _ _ _)
  have hx : x.sys = v.sys := by
    simp only [x]
    split
    · rfl
    · rfl
  exact hx.trans hv

theorem frameLayer_sys (no seq : Nat) (wB : Int) (forced : List Nat) (a : World × FrameWork) (c : LayerCheck) :
    (frameLayer no seq wB forced a c).1.sys = a.1.sys := by
  obtain ⟨w, f⟩ := a
  have hif (p : Prop) [Decidable p] (u v : World) (h : u.sys = v.sys) : (if p then u else v).sys = v.sys := by
    split
    · exact h
    · rfl
  unfold frameLayer
  split
  next v g hpair =>
  obtain ⟨rfl, rfl⟩ := Prod.mk.inj hpair
  extract_lets n u p0 hold failed pol v1 state v2 v3 v4 v5 v6 v7
  split
  · rfl
  · split
    · exact makeUse_sys u n c.item wB
    · have h1 : v1.sys = w.sys := hif _ _ u rfl
      have h3 : v3.sys = v2.sys := hif _ _ v2 rfl
      have h4 : v4.sys = v3.sys := hif _ _ v3 rfl
      have h5 : v5.sys = v4.sys := hif _ _ v4 rfl
      have h6 : v6.sys = v5.sys := hif _ _ v5 rfl
      exact h6.trans (h5.trans (h4.trans (h3.trans h1)))

theorem liveSample_keeps (wB : Int) {b : Nat} (hb : b < 8) : (liveSample wB w b).sys = w.sys ∧
    getN (liveSample wB w b) Obj.JOB_VD_SEQ_NEXT = getN w Obj.JOB_VD_SEQ_NEXT := by
  have hkey : Obj.JQ_LIVE_DEFERRED b ≠ Obj.JOB_VD_SEQ_NEXT := by
    simp only [Obj.JQ_LIVE_DEFERRED, Obj.JOB_VD_SEQ_NEXT]
    omega
  unfold liveSample
  extract_lets q c front l v
  split
  · exact ⟨rfl, rfl⟩
  · split
    · exact ⟨rfl, rfl⟩
    · split
      · exact ⟨rfl, rfl⟩
      · exact ⟨rfl, getN_bump_ne _ hkey⟩

/-- The end of the set-up of a frame, once its layers are checked (R96, R165). -/
def setUpEnd (b : Boundary) (no seq : Nat) (stalled : List Nat) (f : FrameWork) (w : World) : World :=
  let w := stalled.foldl (fun w n => setO w (Obj.LAY_STATE n) 5) w
  let w := if f.held then bump w Obj.JOB_HELD_FRAMES else w
  let w := setO (setO w Obj.JOB_BUF_KIB f.total) Obj.JOB_VD_SEQ_NEXT ((seq + 1) % 4294967296 : Nat)
  let stop := f.stop ++ w.job.stopLayers.filter fun n => !f.ready.contains n && !f.stop.contains n
  let w := stopSrc { w with job := { w.job with stopLayers := stop } } 2 (stop ≠ [])
  let w := (List.range 8).foldl (liveSample b.w) w
  let set : CalSet := { wB := b.w, obj := mapFilter w.dict.obj isCalKey, tbl := mapFilter w.dict.tbl (inTable 0x3340)
                        layers := f.uses }
  { w with job := { w.job with calSets := w.job.calSets ++ [set], lastNo := no } }

/-- The layers of a frame, checked and counted. -/
def setUpLayers (b : Boundary) (no : Nat) (forced : List Nat) (w : World) : World × FrameWork :=
  let w := { w with cal := { w.cal with tileFrom := w.cal.tileFrom.map fun t => some (t.getD b.w) } }
  (checkInForce w).foldl (frameLayer no (getN w Obj.JOB_VD_SEQ_NEXT) b.w forced)
    (w, { uses := [], blank := false, held := false, stop := [], ready := [], total := 0 })

theorem setUpFrame_world (b : Boundary) (no : Nat) (forced stalled : List Nat) :
    (setUpFrame w b no forced stalled).2 =
      setUpEnd b no (getN w Obj.JOB_VD_SEQ_NEXT) stalled (setUpLayers b no forced w).2 (setUpLayers b no forced w).1 := rfl

theorem setUpLayers_sys (b : Boundary) (no : Nat) (forced : List Nat) : (setUpLayers b no forced w).1.sys = w.sys :=
  foldl_keeps (fun a : World × FrameWork => a.1.sys) (fun a c => frameLayer_sys no _ b.w forced a c) _ _

theorem setUpEnd_numbers (b : Boundary) (no seq : Nat) (stalled : List Nat) (f : FrameWork) :
    (setUpEnd b no seq stalled f w).job.lastNo = no ∧
      getN (setUpEnd b no seq stalled f w) Obj.JOB_VD_SEQ_NEXT = (seq + 1) % 4294967296 ∧
      (setUpEnd b no seq stalled f w).sys = w.sys := by
  unfold setUpEnd
  extract_lets y1 y2 y3 stop _ y4 y5 set
  have h2 : y2.sys = w.sys := by
    have h1 : y1.sys = w.sys := foldl_keeps (fun w : World => w.sys) (fun u n => setO_sys u (Obj.LAY_STATE n) 5) _ _
    simp only [y2]
    split
    · exact h1
    · exact h1
  have h3 : getN y3 Obj.JOB_VD_SEQ_NEXT = (seq + 1) % 4294967296 :=
    (getN_setO_same _ Obj.JOB_VD_SEQ_NEXT _).trans (Int.toNat_natCast _)
  have h4 : y4.sys = y3.sys ∧ getN y4 Obj.JOB_VD_SEQ_NEXT = getN y3 Obj.JOB_VD_SEQ_NEXT :=
    ⟨stopSrc_sys _ _ _, getN_congr (getO_stopSrc_ne _ _ _ (by decide))⟩
  have h5 : y5.sys = y4.sys ∧ getN y5 Obj.JOB_VD_SEQ_NEXT = getN y4 Obj.JOB_VD_SEQ_NEXT :=
    ⟨foldl_keeps_mem (fun w : World => w.sys) (fun u n hn => (liveSample_keeps u b.w (List.mem_range.mp hn)).1) _,
      foldl_keeps_mem (fun w : World => getN w Obj.JOB_VD_SEQ_NEXT)
        (fun u n hn => (liveSample_keeps u b.w (List.mem_range.mp hn)).2) _⟩
  exact ⟨rfl, h5.2.trans (h4.2.trans h3), h5.1.trans (h4.1.trans h2)⟩

/-- A boundary of the count, with no commit waiting, gives its frame the next number and counts the sequence number on
(R86, R92). -/
theorem setupFrameBoundary_numbers (b : Boundary) (hcommit : w.job.commit = false) (hprobe : comingProbeSrc w = false)
    (hcount : w.job.count ≠ some 0) :
    (setupFrameBoundary w b).job.lastNo = w.job.lastNo % 4294967295 + 1 ∧
      getN (setupFrameBoundary w b) Obj.JOB_VD_SEQ_NEXT = (getN w Obj.JOB_VD_SEQ_NEXT + 1) % 4294967296 ∧
      (setupFrameBoundary w b).sys = w.sys := by
  obtain ⟨hno, hseq, hsys⟩ := setUpEnd_numbers (setUpLayers b (w.job.lastNo % 4294967295 + 1) [] w).1 b
    (w.job.lastNo % 4294967295 + 1) (getN w Obj.JOB_VD_SEQ_NEXT) [] (setUpLayers b (w.job.lastNo % 4294967295 + 1) [] w).2
  rw [← setUpFrame_world] at hno hseq hsys
  have hstarts : (w.job.count != some 0) = true := bne_iff_ne.mpr hcount
  unfold setupFrameBoundary
  simp only [hcommit, Bool.false_eq_true, if_false, hprobe, Bool.false_and, hstarts, if_true]
  exact ⟨hno, hseq, hsys.trans (setUpLayers_sys w b _ [])⟩

theorem setupInstant_boundary {m : DevState} {b : Boundary} (hfirst : w.job.bounds.find? (!·.isSetUp) = some b)
    (hreached : posReached w (linePos (b.w - 128)) = true) (hvirt : b.virt = false) (hpause : pausing m w = false) :
    setupInstant m w = setupFrameBoundary w b := by
  unfold setupInstant
  rw [hfirst]
  dsimp only
  rw [if_neg (not_not.mpr hreached), if_neg (by rw [hvirt]; decide), if_neg (by rw [hpause]; decide)]

/-- No pause is pending, so none is complete. -/
theorem pauseCheck_none {s : State} (h : s.w.sys.pausePending = false) : pauseCheck s = s := by
  have hno : ¬ (inPrint s.ctl.mode = true ∧ s.ctl.mode ≠ .paused ∧ pauseComplete s.w = true) := by
    rintro ⟨-, -, hdone⟩
    rw [pauseComplete, h] at hdone
    exact Bool.false_ne_true hdone
  exact if_neg hno

end
end Sys2Proof.Machine
end

section
/-! Obligation O16, from the rules of the frame sequencer. -/

open Sys2Proof Sys2Proof.Machine

/-- Settles O16: each command under its conditions; what follows the numbers of a set-up and the frame of a start writes
neither, and the marks and the end of the job are one event each. -/
theorem frameSequence : Obligations.FrameSequence := by
  refine fun s hprint => ⟨fun b hfirst hreached hvirt hpause hcommit hprobe hcount => ?setup,
    fun b rest hbounds hset hreached hvirt hsrc hstarts => ?start, fun hsrc hdue => ?mark, fun f hlast hreached hquiet => ?done⟩
  case setup =>
    have hrun : setupInstant s.ctl.mode (fresh s).w = setupFrameBoundary (fresh s).w b :=
      setupInstant_boundary (fresh s).w hfirst hreached hvirt hpause
    obtain ⟨hno, hseq, hsys⟩ := setupFrameBoundary_numbers (fresh s).w b hcommit hprobe hcount
    have hpending : (setupFrameBoundary (fresh s).w b).sys.pausePending = false := by
      rw [hsys]
      exact (Bool.or_eq_false_iff.mp hpause).1
    have hstate : pauseCheck { fresh s with w := setupInstant s.ctl.mode (fresh s).w } =
        { fresh s with w := setupFrameBoundary (fresh s).w b } := by
      rw [hrun]
      exact pauseCheck_none hpending
    have hexec : exec .setupInstant s =
        .next (runState (fun s => pauseCheck { s with w := setupInstant s.ctl.mode s.w }) s) :=
      onState_if (p := fun s => inPrint s.ctl.mode = true)
        (fun s => pauseCheck { s with w := setupInstant s.ctl.mode s.w }) hprint
    refine ⟨_, hexec, ?_, ?_⟩
    · rw [runState, settle_job]
      exact (congrArg (fun x : State => x.w.job.lastNo) hstate).trans hno
    · rw [runState, getN_settle _ (by decide) (by decide)]
      exact (congrArg (fun x : State => getN x.w Obj.JOB_VD_SEQ_NEXT) hstate).trans hseq
  case start =>
    have hbegin := frameStart_begins (fresh s).w hbounds hset hreached hvirt hsrc hstarts
    obtain ⟨hkept, f, hf, hfields⟩ :=
      beginFrame_frames (finishUpTo { (fresh s).w with job := { (fresh s).w.job with bounds := rest } } b.w) b
    refine ⟨_, onWorld_whenDo (c := fun c => inPrint c.mode) (fun _ => frameStart) hprint, ?_, f, ?_, hfields⟩
    · rw [runMeaning, settle_job, hbegin]
      exact hkept.trans (finishUpTo_bounds _ b.w)
    · rw [runMeaning, settle_job, hbegin]
      exact hf
  case mark =>
    have hmark : noSrcTick (fresh s).w = frameMark { (fresh s).w with job := { (fresh s).w.job with noSrcClk := s.w.clk } } 255 4 0 :=
      if_pos ⟨hsrc, hdue⟩
    refine ⟨_, onWorld_whenDo (c := fun c => inPrint c.mode) (fun _ => noSrcTick) hprint, ?_, fun hquiet => ?_⟩
    · rw [runMeaning, settle_job, hmark]
      rfl
    · exact reports_runMeaning hquiet (hmark.trans rfl) rfl
  case done =>
    have hend : jobEnd (fresh s).w = raise { (fresh s).w with job := { (fresh s).w.job with
        frames := (fresh s).w.job.frames.map fun g => if g.no = f.no then { g with last := false } else g } } Ev.JOB_END 0 f.no := by
      unfold jobEnd
      rw [show (fresh s).w.job.frames.find? (·.last) = some f from hlast]
      exact if_pos hreached
    exact ⟨_, onWorld_whenDo (c := fun c => inPrint c.mode) (fun _ => jobEnd) hprint, reports_runMeaning hquiet hend rfl⟩
end

section
/-! SUPPORT. The passes of a bar: entering a set, preparing a line and loading tables (R178, R202, R203). -/

namespace Sys2Proof.Machine

/-! ### How many passes each bar has -/

/-- The number of passes of each bar, which no operation on the bars changes. -/
def passShape (w : World) : List Nat := w.jq.bars.map fun q => q.passes.length

section
variable (w : World)

theorem passShape_updBar (b : Nat) {f : BarJq → BarJq} (hf : ∀ q, (f q).passes.length = q.passes.length) :
    passShape (updBar w b f) = passShape w := by
  by_cases hb : b < w.jq.bars.length
  · refine List.ext_getElem (by simp [passShape, updBar, setBar]) fun i hi _ => ?_
    simp only [passShape, updBar, setBar, List.getElem_map, List.getElem_set]
    split
    · next hbi =>
      subst hbi
      rw [hf, barAt, List.getD_eq_getElem _ _ hb]
    · rfl
  · have hsame : (updBar w b f).jq.bars = w.jq.bars := List.set_eq_of_length_le (Nat.le_of_not_lt hb)
    rw [passShape, hsame, passShape]

theorem passShape_updPass (b row : Nat) (f : Pass → Pass) : passShape (updPass w b row f) = passShape w :=
  passShape_updBar w b fun _ => List.length_modify ..

theorem barAt_passes_length {b : Nat} (hb : b < w.jq.bars.length) : (passShape w)[b]? = some (barAt w b).passes.length := by
  rw [passShape, List.getElem?_map, List.getElem?_eq_getElem hb, barAt, List.getD_eq_getElem _ _ hb]
  rfl

/-- Two worlds of one shape have the same bars and passes. -/
theorem passShape_bounds {u : World} {b row : Nat} (h : passShape u = passShape w) (hb : b < w.jq.bars.length)
    (hrow : row < (barAt w b).passes.length) : b < u.jq.bars.length ∧ row < (barAt u b).passes.length := by
  have hlen : u.jq.bars.length = w.jq.bars.length := by
    simpa [passShape] using congrArg List.length h
  have hub : b < u.jq.bars.length := hlen ▸ hb
  have hpasses := (barAt_passes_length u hub).symm.trans (h ▸ barAt_passes_length w hb)
  exact ⟨hub, lt_of_lt_of_eq hrow (Option.some.inj hpasses).symm⟩

theorem passAt_updPass_same {b row : Nat} (f : Pass → Pass) (hb : b < w.jq.bars.length)
    (hrow : row < (barAt w b).passes.length) : passAt (updPass w b row f) b row = f (passAt w b row) := by
  rw [passAt, updPass, barAt_updBar_same w _ hb]
  exact getD_modify_same hrow f Pass.reset

theorem passAt_updBar {b row : Nat} {f : BarJq → BarJq} (hf : ∀ q, (f q).passes = q.passes) :
    passAt (updBar w b f) b row = passAt w b row := by
  by_cases hb : b < w.jq.bars.length
  · rw [passAt, barAt_updBar_same w f hb, hf, passAt]
  · have hsame : (updBar w b f).jq.bars = w.jq.bars := List.set_eq_of_length_le (Nat.le_of_not_lt hb)
    rw [passAt, barAt, hsame, passAt, barAt]

/-! ### Memory errors and defects leave the bars -/

theorem countCe_jq (area addr : Nat) : (countCe area addr w).jq = w.jq := by
  unfold countCe
  extract_lets k w1 hour n _ w2 count
  split
  · rfl
  · split
    · rfl
    · rfl

theorem readStruck_jq (area : Nat) (hit : Struck → Bool) : (readStruck area hit w).2.jq = w.jq := by
  have hcount (l : List Struck) (a : List Struck × World) : (l.foldl (fun (acc : List Struck × World) e =>
      match eccStruck 0 e.double with
      | .uncorrectable => (acc.1 ++ [e], countUe area e.addr acc.2)
      | _ => (acc.1, countCe area e.addr acc.2)) a).2.jq = a.2.jq :=
    foldl_keeps (fun a : List Struck × World => a.2.jq) (fun a e => by
      split
      · rfl
      · exact countCe_jq a.2 area e.addr) l a
  unfold readStruck
  extract_lets l _ u
  split
  · rfl
  · exact hcount l ([], u)

theorem readPlace_jq (area unit : Nat) (line : Int) : (readPlace area unit line w).2.jq = w.jq := readStruck_jq w area _

theorem noteWrite_jq (area unit : Nat) (line : Int) : (noteWrite area unit line w).jq = w.jq :=
  noteWrite_keeps (fun w : World => w.jq) (fun _ _ => rfl) (fun _ _ => rfl) area unit line w

theorem defectLine_jq (row cause : Nat) (x s : Int) : (defectLine w row cause x s).jq = w.jq := by
  unfold defectLine
  extract_lets f no lim stop
  split
  · rfl
  · exact noteWrite_jq w 0 0 0

/-! ### Decoding -/

theorem reportGuard_jq (u : Nat) (g : GuardRep) : (reportGuard u w g).jq = w.jq := by
  unfold reportGuard
  split
  · rfl
  · split
    · dsimp only [musLimit]
      split <;> rfl
    · dsimp only [musLimit]
      split <;> rfl

theorem passShape_reportWb (b : Nat) (n : Int) (l : WbLine) : passShape (reportWb b w n l) = passShape w := by
  unfold reportWb
  split
  · rfl
  · extract_lets unit u v x
    have hu : u.jq = w.jq := foldl_keeps (fun w : World => w.jq) (fun u g => reportGuard_jq u unit g) _ _
    have hv : v.jq = u.jq := by
      simp only [v]
      split
      · rfl
      · rfl
    have hx : x.jq = v.jq := by
      simp only [x]
      split
      · rfl
      · rfl
    refine (passShape_updBar x b (f := fun q => { q with decTold := n + 1, refLost := l.unsure }) fun _ => rfl).trans ?_
    rw [passShape, hx, hv, hu, passShape]

theorem readSection_jq (b : Nat) (m : Int) : (readSection b m w).jq = w.jq := by
  unfold readSection
  have hread := readPlace_jq w 1 (wbKey m b) m
  generalize readPlace 1 (wbKey m b) m w = p at hread ⊢
  obtain ⟨bad, u⟩ := p
  dsimp only at hread ⊢
  split
  · split
    · exact hread
    · exact hread
  · exact hread

theorem passShape_decodeOne (b row : Nat) (m : Int) : passShape (decodeOne b row m w) = passShape w := by
  unfold decodeOne
  extract_lets u prev l
  refine (passShape_updPass _ b row _).trans ((passShape_reportWb u b m l).trans ?_)
  rw [passShape, readSection_jq, passShape]

theorem passShape_decodeAhead (b row k : Nat) (m n : Int) : passShape (decodeAhead b row k m n w) = passShape w := by
  induction k generalizing m w with
  | zero => rfl
  | succ k ih =>
    unfold decodeAhead
    split
    · rfl
    · exact (ih _ _).trans (passShape_decodeOne w b row m)

theorem passShape_decodeFor (b row : Nat) (ns : List Int) : passShape (decodeFor b row ns w) = passShape w := by
  unfold decodeFor
  extract_lets lo hi next m
  split
  · rfl
  · exact passShape_decodeAhead w b row _ _ _

/-! ### The FIFO and the reports of a line -/

theorem passShape_notePhase (b row : Nat) (hit : Bool) : passShape (notePhase w b row hit) = passShape w := by
  unfold notePhase
  split
  · exact passShape_updPass _ b row _
  · unfold endPhase
    dsimp only
    split
    · rfl
    · exact passShape_updPass w b row _

theorem writePort_jq (b row : Nat) (s : BarSet) (x next : Int) (codes : List (Nat × Nat)) (mult : List Nat) (p : Nat) :
    (writePort b row s x next codes mult w p).jq = w.jq := by
  unfold writePort
  extract_lets sp side floor u
  have hu : u.jq = w.jq := by
    simp only [u]
    split
    · rfl
    · rfl
  refine Eq.trans (foldl_keeps (fun w : World => w.jq) (fun v c => ?_) _ u) hu
  extract_lets fire elem place px late
  split
  · rfl
  · exact noteWrite_jq _ _ _ _

theorem passShape_lineReports (b row : Nat) (s : BarSet) (x : Int) (f : Option FrameRec) (o : VertOut) (lost : Nat) :
    passShape (lineReports w b row s x f o lost) = passShape w := by
  unfold lineReports
  extract_lets no q add u v y
  have hu : passShape u = passShape w := by
    simp only [u]
    split
    · exact passShape_updBar w b (f := fun q => { q with limFrames := add q.limFrames }) fun _ => rfl
    · rfl
  have hv : passShape v = passShape u := by
    simp only [v]
    split
    · split
      · rfl
      · exact passShape_updBar u b (f := fun q => { q with missFrames := add q.missFrames }) fun _ => rfl
    · rfl
  have hy : passShape y = passShape v := by
    simp only [y]
    split
    · exact passShape_updBar v b (f := fun q => { q with uncovFrames := add q.uncovFrames }) fun _ => rfl
    · rfl
  refine Eq.trans (foldl_keeps passShape (fun v c => ?_) _ y) (hy.trans (hv.trans hu))
  rw [passShape, defectLine_jq, passShape]

theorem passShape_decodeFrame (b row : Nat) (s : BarSet) (x : Int) (f : Option FrameRec) :
    passShape (match f with
      | none => w
      | some fr =>
        let (_, sy) := frameSigma w s b fr
        decodeFor b row (vertLines fr.wB fr.wEnd (vertPos fr.wB s.res600 x sy).1) w) = passShape w :=
  match f with
  | none => rfl
  | some _ => passShape_decodeFor w b row _

/-- Preparing a line keeps every bar's passes. -/
theorem passShape_prepareLine (b row : Nat) (s : BarSet) (x : Int) : passShape (prepareLine w b row s x) = passShape w := by
  unfold prepareLine
  extract_lets f u o
  have hu : passShape u = passShape w := passShape_decodeFrame w b row s x f
  have hfreq : passShape (volFreq u b s).2 = passShape u := by
    unfold volFreq
    split
    · exact passShape_updBar u b (f := fun q => { q with freq := (roundDiv (fracFloor (fracScale (speedLps u) 65536))
        (65536 * setSpacing s).toNat).toNat }) fun _ => rfl
    · rfl
  generalize volFreq u b s = p at hfreq ⊢
  obtain ⟨freq, v⟩ := p
  dsimp -zeta only
  extract_lets mult d w1 lost w2 next
  generalize (if o.line.cols = [] then ([], 0) else rowCodes d (trimOf v s b row) mult) = code
  obtain ⟨codes, clipped⟩ := code
  dsimp -zeta only
  refine Eq.trans (foldl_keeps passShape (fun v p => ?_) _ w2) ((passShape_lineReports _ b row s x f o lost).trans
    (hfreq.trans hu))
  rw [passShape, writePort_jq, passShape]

/-! ### BAR_LINE_PREPARE -/

theorem passAt_ckptAfter (b row : Nat) (before : Int) : passAt (ckptAfter w b before) b row = passAt w b row := by
  unfold ckptAfter
  split
  · unfold takeCkpt
    exact passAt_updBar w fun _ => rfl
  · rfl

theorem barLinePrepare_advances {r : Nat} (hb : r / 2 < w.jq.bars.length) (hrow : r % 2 < (barAt w (r / 2)).passes.length)
    (hgo : ¬ ((barAt w (r / 2)).halt = true ∨ (barAt w (r / 2)).noSlice = true ∨ (passAt w (r / 2) (r % 2)).load.isSome = true ∨
      passRoom w (r / 2) (r % 2) = false))
    (hB : (setFor w (r / 2) (passAt w (r / 2) (r % 2)).front).wB = (passAt w (r / 2) (r % 2)).setB)
    (htag : (setFor w (r / 2) (passAt w (r / 2) (r % 2)).front).tag = (passAt w (r / 2) (r % 2)).tag)
    (hroom : ckptRoom w (r / 2) (r % 2) (nextRowLine w r (passAt w (r / 2) (r % 2)).front) = true) :
    (passAt (barLinePrepare r w) (r / 2) (r % 2)).front = nextRowLine w r (passAt w (r / 2) (r % 2)).front := by
  unfold barLinePrepare
  extract_lets b row p s nx before u v x
  rw [if_neg hgo, if_neg (by rw [hB, htag]; simp [b, row, p]), if_neg (by rw [hroom]; decide)]
  obtain ⟨hub, hurow⟩ := passShape_bounds w (passShape_prepareLine w b row s p.front) hb hrow
  have hv : passAt v b row = { passAt u b row with front := nx } :=
    passAt_updPass_same u (fun p => { p with front := nx }) hub hurow
  have hx : passAt x b row = passAt v b row :=
    passAt_updBar v (f := fun q => { q with lineClk := q.lineClk.set row v.clk }) fun _ => rfl
  exact congrArg Pass.front ((passAt_ckptAfter x b row before).trans (hx.trans hv))

/-! ### A new set -/

theorem newTrims_bars (b row : Nat) : (newTrims w b row).jq.bars = w.jq.bars := by
  unfold newTrims
  extract_lets u
  split
  · rfl
  · rfl

/-- What a pass has once it has entered the set `s`. -/
theorem enterSet_pass {b row : Nat} (s : BarSet) (hb : b < w.jq.bars.length) (hrow : row < (barAt w b).passes.length) :
    ∃ load, passAt (enterSet w b row s) b row = { passAt w b row with setB := s.wB, tag := s.tag, load := load } := by
  unfold enterSet
  extract_lets p q old trims u load v x y z
  have hu : u.jq.bars = w.jq.bars := by
    simp only [u]
    split
    · exact newTrims_bars w b row
    · rfl
  have hv : v.jq.bars = w.jq.bars := by
    simp only [v]
    split
    · rw [noteWrite_jq, hu]
    · exact hu
  have hz : z.jq = x.jq := by
    simp only [z]
    split
    · rfl
    · rfl
  have hbar : barAt v b = barAt w b := by rw [barAt, hv, barAt]
  have hx : passAt x b row = { passAt w b row with setB := s.wB, tag := s.tag, load := load } := by
    rw [passAt_updPass_same v (fun p => { p with setB := s.wB, tag := s.tag, load := load }) (hv ▸ hb) (hbar ▸ hrow),
      passAt, hbar, passAt]
  refine ⟨load, ?_⟩
  unfold freeSets
  extract_lets need
  refine (passAt_updBar z (f := fun q => { q with sets := dropSets (need 0) (need 1) q.sets }) fun _ => rfl).trans ?_
  rw [← hx, passAt, barAt, hz, passAt, barAt]

theorem barLinePrepare_enters {r : Nat}
    (hgo : ¬ ((barAt w (r / 2)).halt = true ∨ (barAt w (r / 2)).noSlice = true ∨ (passAt w (r / 2) (r % 2)).load.isSome = true ∨
      passRoom w (r / 2) (r % 2) = false))
    (hset : (setFor w (r / 2) (passAt w (r / 2) (r % 2)).front).wB ≠ (passAt w (r / 2) (r % 2)).setB ∨
      (setFor w (r / 2) (passAt w (r / 2) (r % 2)).front).tag ≠ (passAt w (r / 2) (r % 2)).tag) :
    barLinePrepare r w = enterSet w (r / 2) (r % 2) (setFor w (r / 2) (passAt w (r / 2) (r % 2)).front) := by
  unfold barLinePrepare
  extract_lets b row p s nx before u v x
  rw [if_neg hgo, if_pos hset]

/-! ### TABLE_LOAD_DONE -/

theorem tableLoadDone_load {r : Nat} (hb : r / 2 < w.jq.bars.length) (hrow : r % 2 < (barAt w (r / 2)).passes.length) :
    (passAt (tableLoadDone r w) (r / 2) (r % 2)).load = none := by
  unfold tableLoadDone
  extract_lets b u
  split
  · next hload => exact hload
  · extract_lets us v
    have hu : passAt u b (r % 2) = { passAt w b (r % 2) with load := none } :=
      passAt_updPass_same w (fun p => { p with load := none }) hb hrow
    split
    · exact congrArg Pass.load hu
    · exact congrArg Pass.load hu

theorem tableLoadDone_longest {r c : Nat} (h : (passAt w (r / 2) (r % 2)).load = some c) :
    getO (tableLoadDone r w) (Obj.JQ_LOAD_US (r / 2)) =
      max (getO w (Obj.JQ_LOAD_US (r / 2))) (min 65535 (clkUs (w.clk - c)) : Nat) := by
  unfold tableLoadDone
  extract_lets b u
  rw [h]
  dsimp -zeta only
  extract_lets us v
  have hv : getO v (Obj.JQ_LOAD_US b) = max (getO w (Obj.JQ_LOAD_US b)) (min 65535 us : Nat) := by
    rw [getO_setO_same]
    rfl
  split
  · rw [getO_raise, hv]
  · exact hv

end

theorem passAt_runMeaning (f : World → World) (s : State) (b row : Nat) :
    passAt (runMeaning f s).w b row = passAt (f (fresh s).w) b row := by
  rw [passAt, barAt, runMeaning, settle_jq, passAt, barAt]
end Sys2Proof.Machine
end


section
/-! Obligation O19: the passes of a bar. -/

open Sys2Proof Sys2Proof.Machine

/-- Settles O19 (R178, R202, R203): a pass enters the set of its front line, or prepares the line and goes on; a load ends. -/
theorem barPasses : Obligations.BarPasses := by
  unfold Obligations.BarPasses
  intro s r hr hb hrow
  refine ⟨fun hmode hhalt hslice hload hroom => ?_, fun c hload => ?_⟩
  · have hgo : ¬ ((barAt s.w (r / 2)).halt = true ∨ (barAt s.w (r / 2)).noSlice = true ∨
        (passAt s.w (r / 2) (r % 2)).load.isSome = true ∨ passRoom s.w (r / 2) (r % 2) = false) := by
      rw [hhalt, hslice, hload, hroom]
      decide
    have hexec : exec (.barLinePrepare r) s = .next (runMeaning (barLinePrepare r) s) :=
      onWorld_whenDo (c := fun c => decide (r < 16) && inPrint c.mode) (fun _ => barLinePrepare r) (by simp [hr, hmode])
    refine ⟨fun hset => ?_, fun hB htag hck => ?_⟩
    · obtain ⟨load, hpass⟩ := enterSet_pass (fresh s).w
        (setFor (fresh s).w (r / 2) (passAt (fresh s).w (r / 2) (r % 2)).front) hb hrow
      rw [← barLinePrepare_enters (fresh s).w hgo hset] at hpass
      have hend := (passAt_runMeaning (barLinePrepare r) s (r / 2) (r % 2)).trans hpass
      exact ⟨_, hexec, congrArg Pass.setB hend, congrArg Pass.tag hend, (congrArg Pass.front hend).trans rfl⟩
    · exact ⟨_, hexec, (congrArg Pass.front (passAt_runMeaning ..)).trans
        (barLinePrepare_advances (fresh s).w hb hrow hgo hB htag hck)⟩
  · refine ⟨_, onWorld_whenDo (c := fun _ => decide (r < 16)) (fun _ => tableLoadDone r) (decide_eq_true hr), ?_, ?_⟩
    · exact (congrArg Pass.load (passAt_runMeaning ..)).trans (tableLoadDone_load (fresh s).w hb hrow)
    · exact (getO_runMeaning _ s (by simp only [Obj.JQ_LOAD_US, Obj.EVT_LOG_DROPPED]; omega)).trans
        (tableLoadDone_longest (fresh s).w hload)

end

section
/-! SUPPORT. What opens a bulk stream (R109, R110, R340). -/

namespace Sys2Proof.Machine

section
variable {a : Addr} {stream off len window : Nat} {pre : List Nat} {w : World}

theorem bulkOpen_hostDown (hstream : stream ≠ 0) (hhost : hostServing w = false) (target : Nat) (read : Bool) :
    bulkOpen a target read stream off len window pre w = refuseOpen a stream St.hostDown 0 w := by
  unfold bulkOpen
  rw [if_neg hstream, hhost]
  rfl

/-- An opening of a stream that is not open, to write a target, while the host core serves. -/
theorem bulkOpen_in (hstream : stream ≠ 0) (hhost : hostServing w = true) (hin : findIn w a stream = none)
    (hout : findOut w a stream = none) (target : Nat) :
    bulkOpen a target false stream off len window pre w = openIn a stream target off len pre w := by
  unfold bulkOpen
  rw [if_neg hstream, hhost, hin, hout]
  rfl

theorem openIn_noTarget (hcfg : getF w (Obj.NET_IF_CFG a.iface) 3 1 = 1) {target : Nat} (hone : target ≠ 1)
    (hrow : domRow target = none) : openIn a stream target off len pre w = refuseOpen a stream St.refused 0x80 w := by
  unfold openIn
  rw [hcfg, if_neg (by decide), if_neg hone, hrow]

theorem openIn_item (hcfg : getF w (Obj.NET_IF_CFG a.iface) 3 1 = 1) (hoff : off = 0) (hroom : w.net.bulkIn.length < 32) :
    openIn a stream 1 off len pre w = openItem a stream len pre w := by
  unfold openIn
  rw [hcfg, if_neg (by decide), if_pos rfl, if_neg (not_not.mpr hoff), if_neg (Nat.not_le.mpr hroom)]

/-- The stream that an accepted opening for the layer store leaves open. -/
def openedItem (w : World) (a : Addr) (stream len : Nat) (pre : List Nat) : BulkIn :=
  { addr := a, stream := stream, target := 1, offset := 0, length := len, pre := pre, blocks := []
    item := w.mem.nextItem, lastClk := w.clk, closing := none }

theorem openItem_accepted (hok : itemRefusal w pre (headerItem pre) = 0) (hlen : len = (headerItem pre).length) :
    (openItem a stream len pre w).net.bulkIn = w.net.bulkIn ++ [openedItem w a stream len pre] ∧
    (openItem a stream len pre w).mem.nextItem = w.mem.nextItem + 1 ∧
    itemAt (openItem a stream len pre w) w.mem.nextItem =
      some { headerItem pre with blocks := reserveBlocks (headerItem pre) } ∧
    WorldFrame [.net, .mem] noObj w (openItem a stream len pre w) := by
  unfold openItem
  extract_lets i why u v k x
  rw [if_neg (not_not.mpr hok), if_neg (not_not.mpr hlen)]
  have hx : WorldFrame [.net, .mem] noObj w x := worldFrame_mem w (by decide) _
  exact ⟨rfl, rfl, mapGet_mapPut_same .., (hx.trans (worldFrame_mem _ (by decide) _)).trans
    ((worldFrame_updNet _ (by decide) _).trans (worldFrame_send _ _))⟩

theorem openItem_refused (hwhy : itemRefusal w pre (headerItem pre) ≠ 0) :
    (openItem a stream len pre w).out = w.out ++ [.bulkAck a stream St.refused (itemRefusal w pre (headerItem pre)) 0 0 0 0] ∧
    getN (openItem a stream len pre w) Obj.MEM_ING_REFUSED = (getN w Obj.MEM_ING_REFUSED + 1) % 4294967296 ∧
    WorldFrame [] (objsOf [Obj.MEM_ING_REFUSED]) w (openItem a stream len pre w) := by
  unfold openItem
  extract_lets i why u v k x
  rw [if_pos hwhy]
  have hu : WorldFrame [] (objsOf [Obj.MEM_ING_REFUSED]) w u :=
    (worldFrame_bump w (by decide)).trans (worldFrame_raise _ _ _ _)
  have hv : v.out = w.out ∧ getN v Obj.MEM_ING_REFUSED = getN u Obj.MEM_ING_REFUSED ∧
      WorldFrame [] (objsOf [Obj.MEM_ING_REFUSED]) w v := by
    simp only [v]
    split
    · exact ⟨rfl, getN_raise .., hu.trans (worldFrame_raise _ _ _ _)⟩
    · exact ⟨rfl, rfl, hu⟩
  obtain ⟨hout, hcount, hframe⟩ := hv
  refine ⟨congrArg (· ++ [_]) hout, hcount.trans ?_, hframe.trans (worldFrame_send _ _)⟩
  rw [getN_raise, getN_bump_same]

end

section
variable (s : State) {a : Addr} {stream off len window : Nat} {pre : List Nat} (hup : koaUp s.w a.iface = true)
include hup

theorem exec_bulkOpenRx (target : Nat) (read : Bool) : exec (.bulkOpenRx a target read stream off len window pre) s =
    .next (runMeaning (bulkOpen a target read stream off len window pre) s) :=
  onWorld_when (c := fun w => koaUp w a.iface) _ hup

/-- An opening that is refused is answered, and changes nothing else. -/
theorem exec_bulkOpenRx_refused (target : Nat) (read : Bool) {status detail : Nat}
    (h : bulkOpen a target read stream off len window pre (fresh s).w = refuseOpen a stream status detail (fresh s).w) :
    ∃ t, exec (.bulkOpenRx a target read stream off len window pre) s = .next t ∧
      t.w.out = [.bulkAck a stream status detail 0 0 0 0] ∧ Touches [] noObj s t := by
  refine ⟨_, exec_bulkOpenRx s hup target read, ?_, WorldFrame.touches ?_⟩
  · rw [runMeaning_out, h]
    rfl
  · rw [h]
    exact worldFrame_send _ _

end
end Sys2Proof.Machine
end

section
/-! Obligation O52: what opens a stream. -/

open Sys2Proof Sys2Proof.Machine

/-- Settles O52 (R109, R110, R340): the answers to an opening, and the stream an accepted one leaves open. -/
theorem streamOpenings : Obligations.StreamOpenings := by
  unfold Obligations.StreamOpenings
  intro s a stream off len window pre hup hstream
  refine ⟨fun hhost target read => exec_bulkOpenRx_refused s hup target read
    (bulkOpen_hostDown (w := (fresh s).w) hstream hhost target read), ?_⟩
  intro hhost hin hout hcfg
  have hopen (target : Nat) := bulkOpen_in (off := off) (len := len) (window := window) (pre := pre)
    (w := (fresh s).w) hstream hhost hin hout target
  refine ⟨?_, ?_, ?_⟩
  · intro target hone hrow
    refine exec_bulkOpenRx_refused s hup target false ?_
    rw [hopen target]
    exact openIn_noTarget (w := (fresh s).w) hcfg hone hrow
  · intro hoff hroom hok hlen
    have hitem := (hopen 1).trans (openIn_item (w := (fresh s).w) hcfg hoff hroom)
    obtain ⟨hin, hnext, hkept, hframe⟩ := openItem_accepted (a := a) (stream := stream) (w := (fresh s).w) hok hlen
    rw [← hitem] at hin hnext hkept hframe
    refine ⟨_, _, exec_bulkOpenRx s hup 1 false, (settle_net_bulkIn _).trans hin, rfl, rfl, rfl, rfl, rfl, rfl,
      (congrArg Mem.nextItem (settle_mem _)).trans hnext, ?_, WorldFrame.touches hframe⟩
    exact (congrArg (fun m : Mem => mapGet m.items _) (settle_mem _)).trans hkept
  · intro hoff hroom hwhy
    have hitem := (hopen 1).trans (openIn_item (w := (fresh s).w) hcfg hoff hroom)
    obtain ⟨hsent, hcount, hframe⟩ := openItem_refused (a := a) (stream := stream) (len := len) (w := (fresh s).w) hwhy
    rw [← hitem] at hsent hcount hframe
    exact ⟨_, exec_bulkOpenRx s hup 1 false, (runMeaning_out _ s).trans hsent, (getN_runMeaning _ s (by decide)).trans hcount,
      WorldFrame.touches hframe⟩

end

section
/-! SUPPORT. A READ of one object over KOA (R334, R335). -/

namespace Sys2Proof.Machine

theorem length_leBytes (k n : Nat) : (leBytes k n).length = k := by
  induction k generalizing n with
  | zero => rfl
  | succ k ih => exact congrArg (· + 1) (ih (n / 256))

theorem length_pad4_le (l : List Nat) : (pad4 l).length ≤ l.length + 3 := by
  rw [pad4, List.length_append, zeroBytes, List.length_replicate]
  omega

/-- The bytes of one item of the answer to a READ (R335). -/
def answerItem (ix sub st code : Nat) (data : List Nat) : List Nat :=
  leBytes 2 ix ++ [sub, st, code, 0, 0, 0] ++ leBytes 4 data.length ++ pad4 data

theorem length_answerItem_le (ix sub st code : Nat) (data : List Nat) :
    (answerItem ix sub st code data).length ≤ data.length + 15 := by
  have hpad := length_pad4_le data
  simp only [answerItem, List.length_append, length_leBytes, List.length_cons, List.length_nil]
  omega

section
variable {c : Ctl} {w u : World} {ix sub st code : Nat} {f : Bool} {data : List Nat}

theorem readItems_one (hread : readItem c ix sub f w = (st, code, data, u)) (hlen : data.length ≤ 8000) :
    readItems c [(ix, sub, f)] 4 w = (answerItem ix sub st code data, 1, u) := by
  have hfit : ¬ 8192 < 4 + (answerItem ix sub st code data).length := by
    have hitem := length_answerItem_le ix sub st code data
    omega
  rw [readItems, hread]
  refine (if_neg hfit).trans ?_
  rw [readItems]
  exact congrArg (·, 1, u) (List.append_nil _)

theorem koaRead_one (a : Addr) (reqId : Nat) (hread : readItem c ix sub f w = (st, code, data, u)) (hlen : data.length ≤ 8000) :
    koaRead a reqId [(ix, sub, f)] c w =
      send u (.koa a 0x81 0 reqId (leBytes 2 1 ++ [0, 0] ++ answerItem ix sub st code data)) := by
  unfold koaRead
  rw [if_neg (by simp), readItems_one hread hlen]

theorem koaRead_discards (a : Addr) (reqId : Nat) {items : List (Nat × Nat × Bool)}
    (h : items.length = 0 ∨ 64 < items.length) : koaRead a reqId items c w = bump w Obj.NET_KOA_BAD := by
  unfold koaRead
  rw [if_pos h]

end

/-- A message that is discarded is counted, and nothing else happens (R332). -/
theorem runMeaning_discards {f : World → World} {s : State} (h : f (fresh s).w = bump (fresh s).w Obj.NET_KOA_BAD) :
    (runMeaning f s).w.out = [] ∧ Touches [] (objsOf [Obj.NET_KOA_BAD]) s (runMeaning f s) ∧
      getN (runMeaning f s).w Obj.NET_KOA_BAD = (getN s.w Obj.NET_KOA_BAD + 1) % 4294967296 := by
  refine ⟨?_, WorldFrame.touches (h ▸ worldFrame_bump _ (by decide)), ?_⟩
  · rw [runMeaning_out, h]
    rfl
  · rw [runMeaning, h]
    exact (getN_settle _ (by decide) (by decide)).trans (getN_bump_same ..)

end Sys2Proof.Machine
end

section
/-! Obligation O49: a READ over KOA. -/

open Sys2Proof Sys2Proof.Machine

/-- Settles O49 (R332, R334, R335): what a READ of one object answers, and what is discarded. -/
theorem koaReads : Obligations.KoaReads := by
  unfold Obligations.KoaReads
  intro s a reqId hup
  have hexec (items : List (Nat × Nat × Bool)) :
      exec (.koaRead a reqId items) s = .next (runMeaning (koaRead a reqId items s.ctl) s) :=
    onWorld_guarded (c := fun _ w => koaUp w a.iface) (koaRead a reqId items) hup
  refine ⟨fun ix sub f st code data u hread hlen => ?_, fun items hitems => ?_, ?_⟩
  · refine ⟨_, hexec _, rfl, ?_⟩
    rw [runMeaning_out, koaRead_one a reqId hread hlen]
    exact List.getLast?_concat ..
  · obtain ⟨hout, htouches, hcount⟩ := runMeaning_discards (s := s) (koaRead_discards (c := s.ctl) a reqId hitems)
    exact ⟨_, hexec items, hout, htouches, hcount⟩
  · obtain ⟨hout, htouches, hcount⟩ := runMeaning_discards (s := s) (f := fun w => bump w Obj.NET_KOA_BAD) rfl
    exact ⟨_, onWorld_when (c := fun w => koaUp w a.iface) _ hup, hout, htouches, hcount⟩

end

section
/-! SUPPORT. Bulk streams that the device sends (R291, R292, R342). -/

namespace Sys2Proof.Machine

/-! ### The list of streams -/

section
variable {a : Addr} {stream : Nat} {b : BulkOut} {w : World}

theorem findOut_is (h : findOut w a stream = some b) : b.addr = a ∧ b.stream = stream := by
  have hkey : outIs a stream b = true := List.find?_some h
  simpa [outIs] using hkey

/-- Putting a stream back replaces the one with its key. -/
theorem findOut_putOut {b' : BulkOut} (h : findOut w a stream = some b) (haddr : b'.addr = a) (hstream : b'.stream = stream) :
    findOut (putOut w b') a stream = some b' := by
  have hself : outIs a stream b' = true := by simp [outIs, haddr, hstream]
  have hsame (x : BulkOut) : outIs a stream (if outIs a stream x then b' else x) = outIs a stream x := by
    split
    · next hx => rw [hself, hx]
    · rfl
  have hkey : outIs b'.addr b'.stream = outIs a stream := by rw [haddr, hstream]
  rw [findOut, putOut, hkey]
  refine (List.find?_map ..).trans ?_
  rw [show (outIs a stream ∘ fun x => if outIs a stream x then b' else x) = outIs a stream from funext hsame]
  rw [findOut] at h
  rw [h, Option.map_some, if_pos (List.find?_some h)]

end

/-! ### Sending blocks -/

/-- What sending blocks leaves of a stream: its times alone move on. -/
def SameStream (x y : BulkOut) : Prop := ∃ t, y = { x with times := t }

theorem sendBlocks_stream (l : List Nat) (b : BulkOut) (w : World) : SameStream b (sendBlocks l b w).1 := by
  unfold sendBlocks
  induction l generalizing b w with
  | nil => exact ⟨b.times, rfl⟩
  | cons k l ih =>
    obtain ⟨t, ht⟩ := ih (sendBlock b w k).1 (sendBlock b w k).2
    exact ⟨t, ht⟩

theorem sendBlocks_net (l : List Nat) (b : BulkOut) (w : World) : (sendBlocks l b w).2.net = w.net :=
  foldl_keeps (fun x : BulkOut × World => x.2.net) (g := fun x k => sendBlock x.1 x.2 k) (fun _ _ => rfl) l (b, w)

theorem worldFrame_sendBlocks {parts : List Part} {objs : Nat → Bool} (l : List Nat) (b : BulkOut) (w : World) :
    WorldFrame parts objs w (sendBlocks l b w).2 := by
  unfold sendBlocks
  induction l generalizing b w with
  | nil => exact .refl w
  | cons k l ih => exact .trans (worldFrame_send w _) (ih _ _)

section
variable {a : Addr} {stream : Nat} {b : BulkOut} {w : World}

/-- Pumping a stream that is open leaves it open with its window. -/
theorem findOut_pumpOut {b1 : BulkOut} (h : findOut w a stream = some b) (haddr : b1.addr = a) (hstream : b1.stream = stream) :
    ∃ b', findOut (pumpOut b1 w) a stream = some b' ∧ b'.opened = b1.opened ∧ b'.window = b1.window := by
  unfold pumpOut
  split
  · exact ⟨b1, findOut_putOut h haddr hstream, rfl, rfl⟩
  · split
    · exact ⟨_, findOut_putOut (b' := { b1 with closed := true, openClk := w.clk, times := [] }) h haddr hstream, rfl, rfl⟩
    · extract_lets lim new
      obtain ⟨t, ht⟩ := sendBlocks_stream new b1 w
      have hnet := sendBlocks_net new b1 w
      generalize sendBlocks new b1 w = p at ht hnet ⊢
      obtain ⟨b2, u⟩ := p
      dsimp only at ht hnet ⊢
      subst ht
      refine ⟨_, findOut_putOut (b := b) ?_ haddr hstream, rfl, rfl⟩
      rw [findOut, hnet, ← findOut, h]

theorem worldFrame_putOut (b : BulkOut) : WorldFrame [.net] noObj w (putOut w b) := worldFrame_updNet w (by decide) _

theorem worldFrame_pumpOut (b : BulkOut) : WorldFrame [.net] noObj w (pumpOut b w) := by
  unfold pumpOut
  refine .ite (worldFrame_putOut b) (.ite ((worldFrame_putOut _).trans (worldFrame_send _ _)) ?_)
  extract_lets lim new
  exact (worldFrame_sendBlocks new b w).trans (worldFrame_putOut _)

/-! ### Answers -/

theorem bulkAck_opens (h : findOut w a stream = some b) (hopen : b.opened = false) (hclosed : b.closed = false)
    {window : Nat} (hwin : b.purpose ≠ 2 ∨ window ≠ 0) (next sack : Nat) :
    bulkAck a stream 0 window next sack w = pumpOut { b with opened := true, window := window, openClk := w.clk } w := by
  unfold bulkAck
  rw [h]
  dsimp only
  rw [hclosed, hopen, if_neg (by decide), if_neg (by decide), if_pos (by decide), if_neg]
  rintro ⟨hp, hw⟩
  exact hwin.elim (absurd hp) (absurd hw)

theorem bulkAck_ends (h : findOut w a stream = some b) (hclosed : b.closed = true) {status : Nat} (hok : status ≤ 1)
    (window next sack : Nat) : bulkAck a stream status window next sack w = endOut b true w := by
  unfold bulkAck
  rw [h]
  dsimp only
  rw [hclosed, if_pos rfl, decide_eq_true hok]

theorem getO_prvPump (w : World) (k : Nat) : getO (prvPump w) k = getO w k := by
  unfold prvPump
  split
  · rfl
  · split
    · rfl
    · rfl

theorem prvPump_sends (w : World) : ∃ l, (prvPump w).out = w.out ++ l := by
  unfold prvPump
  split
  · exact ⟨[], (List.append_nil _).symm⟩
  · split
    · exact ⟨_, rfl⟩
    · exact ⟨[], (List.append_nil _).symm⟩

theorem prvDrop_out (w : World) (frame : Nat) : (prvDrop frame w).out = w.out := by
  unfold prvDrop
  dsimp only
  split
  · rfl
  · rfl

theorem uplDrop_out (w : World) (c n : Nat) : (uplDrop c n w).out = w.out := by
  unfold uplDrop
  dsimp only
  split
  · rfl
  · rfl

theorem endOut_previewTaken (hp : b.purpose = 2) :
    getN (endOut b true w) Obj.JOB_PRV_BLOCKS = (getN w Obj.JOB_PRV_BLOCKS + 1) % 4294967296 := by
  unfold endOut
  extract_lets u v x
  have hx : x = bump v Obj.JOB_PRV_BLOCKS := by
    simp only [x]
    rw [if_pos hp]
    exact if_pos trivial
  refine (getN_congr (getO_prvPump x _)).trans ?_
  rw [hx]
  exact getN_bump_same ..

theorem endOut_sends (b : BulkOut) (ok : Bool) (w : World) : ∃ l, (endOut b ok w).out = w.out ++ l := by
  unfold endOut
  extract_lets u v x
  have hx : x.out = w.out := by
    simp only [x]
    split
    · split
      · rfl
      · exact prvDrop_out v _
    · split
      · split
        · rfl
        · exact uplDrop_out u _ _
      · rfl
  obtain ⟨l, hl⟩ := prvPump_sends x
  exact ⟨l, hx ▸ hl⟩

/-! ### Resends and streams given up -/

theorem bulkResend_one (h : findOut w a stream = some b) {k x y : Nat} (htimes : b.times = [(k, (x, y))])
    (hlate : y + msClk 1 ≤ w.clk) : ∃ b', bulkResend a stream w = putOut (send w (.bulkData a stream k (blockBytes b.data k))) b' := by
  obtain ⟨haddr, hstream⟩ := findOut_is h
  unfold bulkResend
  rw [h]
  dsimp -zeta only
  rw [htimes]
  extract_lets l
  have hl : l = [k] := by simp [l, hlate]
  rw [hl]
  refine ⟨(sendBlock b w k).1, ?_⟩
  rw [← haddr, ← hstream]
  rfl

theorem bulkAbandon_late (h : findOut w a stream = some b) {k x y : Nat} (hmem : (k, (x, y)) ∈ b.times)
    (hlate : x + secClk 1 ≤ w.clk) (hopen : b.opened = true) (hclosed : b.closed = false) :
    bulkAbandon a stream w = endOut b false (send w (.bulkClose a stream 1 b.data.length)) := by
  obtain ⟨haddr, hstream⟩ := findOut_is h
  have hany : b.times.any (fun e => decide (e.2.1 + secClk 1 ≤ w.clk)) = true :=
    List.any_eq_true.mpr ⟨_, hmem, decide_eq_true hlate⟩
  unfold bulkAbandon
  rw [h]
  dsimp only
  rw [hany, hopen, hclosed, haddr, hstream]
  rfl

end

/-! ### The inspection upload -/

section
variable (w : World)

theorem uplDrop_uplClk (c n : Nat) : (uplDrop c n w).ins.uplClk = w.ins.uplClk := by
  unfold uplDrop
  dsimp only
  split
  · rfl
  · rfl

theorem uplTrigger_uplClk (c : Nat) : (uplTrigger w c).ins.uplClk = w.ins.uplClk := by
  unfold uplTrigger
  dsimp only
  split
  · exact uplDrop_uplClk _ _ _
  · rfl

theorem worldFrame_uplTrigger (c : Nat) : WorldFrame [.ins] (objsOf [Obj.INS_UPL_DROPPED]) w (uplTrigger w c) := by
  unfold uplTrigger uplDrop
  extract_lets n u x
  have hu : WorldFrame [.ins] (objsOf [Obj.INS_UPL_DROPPED]) w u := worldFrame_ins w (by decide) _
  have hx : WorldFrame [.ins] (objsOf [Obj.INS_UPL_DROPPED]) w x := hu.trans (worldFrame_bump u (by decide))
  exact .ite (.ite (hx.trans ((worldFrame_ins x (by decide) _).trans (worldFrame_raise _ _ _ _))) hx)
    (hu.trans (worldFrame_ins u (by decide) _))

/-- Triggers number a block for each of their cameras, which are named once. -/
theorem foldl_uplTrigger_numbers {l : List Nat} (hl : l.Nodup) {c : Nat} (hc : c < w.ins.uplNo.length) :
    (l.foldl uplTrigger w).ins.uplNo.getD c 0 =
      if c ∈ l then (w.ins.uplNo.getD c 0 + 1) % 4294967296 else w.ins.uplNo.getD c 0 := by
  induction l generalizing w with
  | nil => rfl
  | cons k l ih =>
    obtain ⟨hk, hl⟩ := List.nodup_cons.mp hl
    have hlen : c < (uplTrigger w k).ins.uplNo.length := by rwa [uplTrigger_uplNo, List.length_set]
    rw [List.foldl_cons, ih _ hl hlen]
    by_cases hck : c = k
    · subst hck
      rw [if_neg hk, if_pos List.mem_cons_self, uplTrigger_numbers w hc]
    · have hother : (uplTrigger w k).ins.uplNo.getD c 0 = w.ins.uplNo.getD c 0 := by
        rw [uplTrigger_uplNo, List.getD_eq_getElem?_getD, List.getElem?_set_ne (Ne.symm hck), ← List.getD_eq_getElem?_getD]
      rw [hother]
      simp only [List.mem_cons, hck, false_or]

theorem uplPeriod_due (hcfg : getF w Obj.INS_UPL_CFG 0 2 = 1)
    (hclk : w.ins.uplClk + msClk (getN w Obj.INS_UPL_PERIOD_MS) ≤ w.clk) :
    uplPeriod w = uplTriggers (getF w Obj.INS_UPL_CFG 8 8) (updIns w fun i => { i with uplClk := w.clk }) := by
  unfold uplPeriod
  rw [if_pos ⟨hcfg, hclk⟩]

/-- An upload block that is read, in time and with the sender free goes out in a new stream (R292). -/
theorem uplReady_sends {u : UplBlock} {rest : List UplBlock} {a : Addr} (hupl : w.ins.upl = u :: rest) (hread : uplRead w u = true)
    (hring : w.ins.ringLine - u.ringAt ≤ (getN w Obj.MEM_INS_MIB - 320) * 1048576 / 73728)
    (hgen : getN w Obj.MUS_GEN_STATE ≠ 2) (hbytes : sum ((lastSecond w.clk w.ins.uplBytes).map (·.2)) ≤ 62500000)
    (hbusy : w.net.bulkOut.any (·.purpose == 3) = false) (hroom : w.net.bulkOut.length < 8)
    (hpartner : partnerAddr w (getN w Obj.INS_UPL_PARTNER) = some a) :
    uplReady w = uplSend u a (updIns w fun i => { i with upl := { u with ready := some (u.ready.getD w.clk) } :: rest }) := by
  unfold uplReady
  rw [hupl]
  dsimp -zeta only
  extract_lets drop ready x
  have hlag : ¬ (getN x Obj.MEM_INS_MIB - 320) * 1048576 / 73728 < x.ins.ringLine - u.ringAt := Nat.not_lt.mpr hring
  have hsend : ¬ (getN x Obj.MUS_GEN_STATE = 2 ∨ 62500000 < sum ((lastSecond x.clk x.ins.uplBytes).map (·.2)) ∨
      x.net.bulkOut.any (·.purpose == 3) = true) := by
    rintro (hg | hb | hn)
    · exact hgen hg
    · exact absurd hb (Nat.not_lt.mpr hbytes)
    · exact absurd hn (by rw [show x.net.bulkOut.any (·.purpose == 3) = false from hbusy]; decide)
  rw [hread, if_neg (by decide), if_neg hlag, if_neg hsend,
    show partnerAddr x (getN x Obj.INS_UPL_PARTNER) = some a from hpartner]
  exact if_pos hroom

/-- What a block that is sent leaves of the queue and of the streams. -/
theorem uplSend_opens (u : UplBlock) (a : Addr) : ∃ b, (uplSend u a w).ins.upl = w.ins.upl.drop 1 ∧
    (uplSend u a w).net.bulkOut = w.net.bulkOut ++ [b] ∧ b.addr = a ∧ b.purpose = 3 ∧ b.stream = w.net.nextStream := by
  unfold uplSend
  extract_lets pixels bits lines x
  have hx : x.ins = w.ins ∧ x.net = w.net := by
    simp only [x]
    split
    · exact ⟨rfl, rfl⟩
    · exact ⟨rfl, rfl⟩
  obtain ⟨hins, hnet⟩ := hx
  refine ⟨_, congrArg (fun i : Ins => i.upl.drop 1) hins, congrArg (fun n : Net => n.bulkOut ++ [_]) hnet, rfl, rfl,
    congrArg Net.nextStream hnet⟩

end
end Sys2Proof.Machine
end

section
/-! Obligation O54: the streams that the device sends. -/

open Sys2Proof Sys2Proof.Machine

/-- Settles O54 (R291, R292, R342): answers, resends and the end of a stream out, and the inspection upload. -/
theorem streamsOut : Obligations.StreamsOut := by
  unfold Obligations.StreamsOut
  refine fun s => ⟨fun a stream b hfind => ⟨fun status window next sack hup => ⟨?opened, ?taken⟩, ?resent, ?abandoned⟩,
    ?period, ?ready⟩
  case opened =>
    intro hopen hclosed hstatus hwin
    subst hstatus
    have hdone := bulkAck_opens (w := (fresh s).w) hfind hopen hclosed hwin next sack
    obtain ⟨haddr, hstream⟩ := findOut_is hfind
    obtain ⟨b', hb', hopened, hwindow⟩ := findOut_pumpOut (w := (fresh s).w)
      (b1 := { b with opened := true, window := window, openClk := (fresh s).w.clk }) hfind haddr hstream
    rw [← hdone] at hb'
    refine ⟨_, b', onWorld_when (c := fun w => ifaceServes w a.iface) _ hup, ?_, hopened, hwindow,
      WorldFrame.touches (hdone ▸ worldFrame_pumpOut _)⟩
    exact (congrArg (List.find? (outIs a stream)) (settle_net_bulkOut _)).trans hb'
  case taken =>
    intro hclosed hstatus hpreview
    refine ⟨_, onWorld_when (c := fun w => ifaceServes w a.iface) _ hup, rfl, ?_⟩
    rw [getN_runMeaning _ s (by decide), bulkAck_ends (w := (fresh s).w) hfind hclosed hstatus]
    exact endOut_previewTaken hpreview
  case resent =>
    intro k x y hup htimes hlate
    obtain ⟨b', hdone⟩ := bulkResend_one (w := (fresh s).w) hfind htimes hlate
    refine ⟨_, onWorld_when (c := fun w => ifaceServes w a.iface) _ hup, ?_,
      WorldFrame.touches (hdone ▸ (worldFrame_send _ _).trans (worldFrame_putOut b'))⟩
    rw [runMeaning_out, hdone]
    rfl
  case abandoned =>
    intro k x y hmem hlate hopen hclosed
    refine ⟨_, onWorld_always _ s, rfl, ?_⟩
    obtain ⟨l, hl⟩ := endOut_sends b false (send (fresh s).w (.bulkClose a stream 1 b.data.length))
    rw [runMeaning_out, bulkAbandon_late (w := (fresh s).w) hfind hmem hlate hopen hclosed, hl]
    rfl
  case period =>
    intro hcfg hclk
    have hdone := uplPeriod_due (fresh s).w hcfg hclk
    refine ⟨_, onWorld_always _ s, ?_, WorldFrame.touches ?_, fun c hc hlen => ?_⟩
    · rw [runMeaning, settle_ins, hdone]
      exact foldl_keeps (fun w : World => w.ins.uplClk) uplTrigger_uplClk _ _
    · rw [hdone]
      exact (worldFrame_ins _ (by decide) _).trans (.foldl (fun u c _ => worldFrame_uplTrigger u c) _)
    · rw [runMeaning, settle_ins, hdone]
      refine (foldl_uplTrigger_numbers (updIns (fresh s).w fun i => { i with uplClk := (fresh s).w.clk })
        (List.nodup_range.filter fun c => bitOf (getF s.w Obj.INS_UPL_CFG 8 8) c && bitOf s.w.ins.cams c) hlen).trans ?_
      simp only [List.mem_filter, List.mem_range, hc, true_and]
      rfl
  case ready =>
    intro u rest a hupl hread hring hgen hbytes hbusy hroom hpartner
    have hdone := uplReady_sends (fresh s).w hupl hread hring hgen hbytes hbusy hroom hpartner
    obtain ⟨b, hqueue, hout, haddr, hpurpose, hstream⟩ := uplSend_opens (updIns (fresh s).w fun i =>
      { i with upl := { u with ready := some (u.ready.getD (fresh s).w.clk) } :: rest }) u a
    rw [← hdone] at hqueue hout
    exact ⟨_, b, onWorld_always _ s, (congrArg Ins.upl (settle_ins _)).trans hqueue, (settle_net_bulkOut _).trans hout, haddr,
      hpurpose, hstream, rfl⟩

end

section
/-! SUPPORT. The partner table, HELLO, NOTIFY and links (R338, R339, R345, R361). -/

namespace Sys2Proof.Machine

/-! ### Delivery leaves the partner table but for what waits for NOTIFY -/

theorem mapGet_map {α β : Type} (g : Nat → α → β) (l : KMap α) (n : Nat) :
    mapGet (l.map fun e => (e.1, g e.1 e.2)) n = (mapGet l n).map (g n) := by
  induction l with
  | nil => rfl
  | cons e l ih =>
    rw [List.map_cons, mapGet, mapGet]
    split
    · next h => rw [h, Option.map_some]
    · exact ih

/-- An entry without what waits for NOTIFY. -/
def Partner.told (p : Partner) : Partner := { p with notifyQ := [], notifySince := 0 }

/-- The partner table without what waits for NOTIFY. -/
def partnersTold (w : World) : KMap Partner := w.net.partners.map fun e => (e.1, e.2.told)

theorem partnersTold_get (w : World) (n : Nat) : mapGet (partnersTold w) n = (mapGet w.net.partners n).map Partner.told :=
  mapGet_map (fun _ => Partner.told) _ n

theorem deliverNotify_told (w : World) (r : EvRec) : partnersTold (deliverNotify w r) = partnersTold w := by
  simp only [partnersTold, deliverNotify, List.map_map]
  refine List.map_congr_left fun e _ => ?_
  dsimp only [Function.comp]
  split
  · rfl
  · rfl

theorem deliverHost_net (w : World) (r : EvRec) : (deliverHost w r).net = w.net := by
  simp only [deliverHost]

theorem deliver_told (w : World) (r : EvRec) : partnersTold (deliver w r) = partnersTold w := by
  refine (deliver_ofLog w r partnersTold (fun w r => ?_) (fun _ _ => rfl) deliverNotify_told (fun w r => ?_)
    (fun w n => ?_)).trans (atLog_keeps w r partnersTold fun w r => ?_)
  · rw [partnersTold, deliverHost_net, partnersTold]
  · unfold deliverEmcy
    split
    · rfl
    · rfl
  · unfold deliverOut
    extract_lets
    split
    · rfl
    · rfl
    · rfl
  · unfold deliverLog
    split
    · rfl
    · rfl

theorem settle_told (w : World) : partnersTold (settle w) = partnersTold w := foldl_keeps partnersTold deliver_told _ _

/-- After a command an entry stands as its meaning left it, but for what waits for NOTIFY. -/
theorem runMeaning_partner {f : World → World} {s : State} {n : Nat} {p : Partner}
    (h : mapGet (f (fresh s).w).net.partners n = some p) :
    ∃ q, mapGet (runMeaning f s).w.net.partners n = some q ∧ q.told = p.told := by
  have htold : mapGet (partnersTold (runMeaning f s).w) n = some p.told := by
    rw [runMeaning, settle_told, partnersTold_get, h, Option.map_some]
  rw [partnersTold_get] at htold
  exact Option.map_eq_some_iff.mp htold

/-! ### Arrivals and departures -/

section
variable (w : World)

theorem prvDrop_net (frame : Nat) : (prvDrop frame w).net = w.net := by
  unfold prvDrop
  dsimp only
  split
  · rfl
  · rfl

/-- Without its partner the preview leaves the rest of the network. -/
theorem prvGone_net (n : Nat) : (prvGone n w).net.partners = w.net.partners ∧ (prvGone n w).net.linkUp = w.net.linkUp := by
  have hdrops (l : List (List Nat)) : (l.foldl (fun w d => prvDrop (leAt d 0 4) w) w).net = w.net :=
    foldl_keeps (fun w : World => w.net) (fun w d => prvDrop_net w _) l w
  unfold prvGone
  split
  · extract_lets u v
    have hu : u.net = w.net := hdrops _
    have hpartners : u.net.partners = w.net.partners := congrArg Net.partners hu
    have hlink : u.net.linkUp = w.net.linkUp := congrArg Net.linkUp hu
    exact ⟨hpartners, hlink⟩
  · exact ⟨rfl, rfl⟩

theorem prvBack_net (n : Nat) : (prvBack n w).net = w.net := by
  unfold prvBack
  split
  · rfl
  · rfl

theorem arrive_linkUp (n : Nat) (p : Partner) : (arrive n p w).net.linkUp = w.net.linkUp :=
  (congrArg Net.linkUp (prvBack_net _ n)).trans rfl

theorem arrive_partner (n : Nat) (p : Partner) : ∃ q, mapGet (arrive n p w).net.partners n = some q ∧ q.present = true ∧
    q.departed = false ∧ q.serial = p.serial ∧ q.lastClk = w.clk := by
  unfold arrive
  extract_lets old seq sec p'
  refine ⟨p', ?_, rfl, rfl, rfl, rfl⟩
  rw [prvBack_net]
  exact mapGet_mapPut_same ..

theorem depart_linkUp (n : Nat) : (depart n w).net.linkUp = w.net.linkUp := by
  unfold depart
  split
  · rfl
  · split
    · rfl
    · exact (prvGone_net _ n).2

theorem depart_partner {n : Nat} {p : Partner} (h : mapGet w.net.partners n = some p) (hp : p.present = true) :
    mapGet (depart n w).net.partners n = some { p with present := false, departed := true, notifyQ := [] } := by
  unfold depart
  rw [h]
  dsimp -zeta only
  rw [hp, if_neg (by decide)]
  exact (congrArg (mapGet · n) (prvGone_net _ n).1).trans (mapGet_mapPut_same ..)

theorem fixedEval_linkUp (n : Nat) : (fixedEval w n).net.linkUp = w.net.linkUp := by
  unfold fixedEval
  split
  · rfl
  · extract_lets here
    split
    · split
      · rfl
      · exact arrive_linkUp w n _
    · exact depart_linkUp w n

theorem fixedEvalAll_linkUp : (fixedEvalAll w).net.linkUp = w.net.linkUp :=
  foldl_keeps (fun w : World => w.net.linkUp) fixedEval_linkUp _ w

end

/-! ### HELLO -/

section
variable {w : World} {a : Addr} {serial vendor product revision role period n : Nat}

theorem exec_helloRx {s : State} (hhost : hostServing s.w = true) (hup : ifaceServes s.w a.iface = true)
    (hcfg : getF s.w (Obj.NET_IF_CFG a.iface) 4 1 = 1) (serial vendor product revision role period : Nat) (leaving : Bool) :
    exec (.helloRx a serial vendor product revision role period leaving) s =
      .next (runMeaning (helloRx a serial vendor product revision role period leaving) s) := by
  refine onWorld_when (c := fun w => hostServing w && ifaceServes w a.iface && getF w (Obj.NET_IF_CFG a.iface) 4 1 == 1) _ ?_
  show (hostServing s.w && ifaceServes s.w a.iface && getF s.w (Obj.NET_IF_CFG a.iface) 4 1 == 1) = true
  rw [hhost, hup, hcfg]
  rfl

theorem helloRx_renews {p : Partner} (h : presentEntry w serial = some (n, p)) (haddr : p.addr = a) :
    helloRx a serial vendor product revision role period false w = setPartner w n
      { helloEntry p vendor product revision role with lastS := w.tim.sec % 4294967296, lastClk := w.clk } := by
  unfold helloRx
  rw [h]
  dsimp -zeta only
  unfold helloPresent
  exact (if_pos (.inl haddr)).trans (if_neg (by decide))

theorem helloRx_arrives (h : presentEntry w serial = none) (hfree : freeEntry w serial = some n) :
    ∃ p, helloRx a serial vendor product revision role period false w = arrive n p w ∧ p.serial = serial := by
  unfold helloRx
  rw [h, hfree]
  exact ⟨_, rfl, rfl⟩

theorem helloRx_full (h : presentEntry w serial = none) (hfree : freeEntry w serial = none) :
    helloRx a serial vendor product revision role period false w = bump w Obj.NET_PARTNER_FULL := by
  unfold helloRx
  rw [h, hfree]
  rfl

theorem partnerTimeout_departs {p : Partner} (h : mapGet w.net.partners n = some p) (hp : p.present = true)
    (hfixed : peerFixed w n = false) (hclk : p.lastClk + msClk (getN w Obj.NET_PARTNER_TO_MS) ≤ w.clk) :
    partnerTimeout n w = depart n w := by
  unfold partnerTimeout
  rw [h]
  exact if_pos ⟨by rw [hfixed]; rfl, hp, hclk⟩

theorem helloSend_due {i : Nat} (hup : ifaceServes w i = true) (hcfg : getF w (Obj.NET_IF_CFG i) 4 1 = 1)
    (hclk : w.net.helloClk.getD i 0 + msClk (getN w Obj.NET_HELLO_MS) ≤ w.clk) : helloSend i w = sendHello i false w :=
  if_pos ⟨hup, hcfg, hclk⟩

/-! ### NOTIFY -/

/-- An entry whose first 32 records have gone out. -/
def Partner.notified (p : Partner) (clk : Nat) : Partner :=
  { p with notifyQ := p.notifyQ.drop 32, notifySince := clk, notifySeq := (p.notifySeq + 1) % 4294967296 }

theorem notifySend_due {p : Partner} (h : mapGet w.net.partners n = some p) (hok : notifiable w n p = true)
    (hdue : 32 ≤ p.notifyQ.length ∨ (p.notifyQ ≠ [] ∧ p.notifySince + msClk 1 ≤ w.clk)) :
    notifySend n w = send (setPartner w n (p.notified w.clk))
      (.notify p.addr (leBytes 4 ((p.notifySeq + 1) % 4294967296) ++ leBytes 2 (p.notifyQ.take 32).length ++ [0, 0] ++
        (p.notifyQ.take 32).flatMap fun r => evBytes r 0)) := by
  have hgo : (notifiable w n p && (decide (32 ≤ p.notifyQ.length) ||
      (!p.notifyQ.isEmpty && decide (p.notifySince + msClk 1 ≤ w.clk)))) = true := by
    rw [hok]
    rcases hdue with hfull | ⟨hne, hclk⟩
    · simp [hfull]
    · simp [hne, hclk]
  unfold notifySend
  rw [h]
  exact if_pos hgo

/-- What a partner is told is no part of the network's own state. -/
theorem worldFrame_setPartner_own {parts : List Part} {objs : Nat → Bool} (w : World) (n : Nat) (p : Partner) :
    WorldFrame parts objs w (setPartner w n p) := by
  refine ⟨fun q _ => ?_, fun _ _ => rfl⟩
  cases q
  case net => rfl
  all_goals simp only [samePart, setPartner, updNet, and_self]

theorem settle_net_quiet (h : w.evt.raised = []) : (settle w).net = w.net := by
  rw [settle, h]
  rfl

/-! ### Links -/

theorem ptpEval_linkUp : (ptpEval w).net.linkUp = w.net.linkUp := by
  have hport (u : World) (v : Nat) : (setPort u v).net = u.net := by
    rcases setPort_cases u v with h | h
    · rw [h]
    · rw [h]
      rfl
  have hlost (u : World) : (servoLost u).net = u.net := by
    have hservo (v : Nat) : (setServo u v).net = u.net := by
      unfold setServo
      extract_lets old x y
      have hy : y.net = u.net := by
        simp only [y]
        split
        · rfl
        · split
          · rfl
          · rfl
      split
      · rfl
      · split
        · exact hy
        · split
          · exact hy
          · exact hy
    unfold servoLost
    extract_lets m
    split
    · rfl
    · split
      · exact hservo 3
      · exact hservo 0
  unfold ptpEval
  dsimp only
  split
  · split
    · rfl
    · rw [hlost, hport]
  · split
    · rw [hport]
    · rfl

theorem dhcpLink_linkUp (i : Nat) (up : Bool) : (dhcpLink i up w).net.linkUp = w.net.linkUp := by
  unfold dhcpLink
  split
  · rfl
  · rfl

theorem netLink_linkUp {i : Nat} {up : Bool} (h : w.net.linkUp.getD i false = !up) :
    (netLink i up w).net.linkUp = w.net.linkUp.set i up := by
  have hne : ¬ w.net.linkUp.getD i false = up := by
    rw [h]
    cases up
    · decide
    · decide
  unfold netLink
  rw [if_neg hne]
  extract_lets u
  refine (fixedEvalAll_linkUp _).trans (ptpEval_linkUp.trans ?_)
  exact dhcpLink_linkUp i up

end
end Sys2Proof.Machine
end

section
/-! Obligation O51: the partner table, HELLO, NOTIFY and links. -/

open Sys2Proof Sys2Proof.Machine

/-- Settles O51 (R338, R339, R345, R361): what a HELLO does to the partner table, what goes out, and a link noted. -/
theorem partnersAndNotify : Obligations.PartnersAndNotify := by
  unfold Obligations.PartnersAndNotify
  refine ⟨fun s hhost => ⟨fun a serial vendor product revision role period hup hcfg => ⟨fun n p hpresent haddr => ?renewed,
    fun n hnone hfree => ?arrived, fun hnone hfree => ?full⟩, fun n p hp hpresent hfixed hclk => ?departed,
    fun i hi hup hcfg hclk => ?hello⟩, fun s => ⟨fun n p hhost hp hok hdue => ?notified, fun i up hon hi hlen hlink => ?link⟩⟩
  case renewed =>
    have hdone := helloRx_renews (vendor := vendor) (product := product) (revision := revision) (role := role)
      (period := period) (w := (fresh s).w) hpresent haddr
    obtain ⟨q, hq, htold⟩ := runMeaning_partner (s := s) (n := n)
      (f := helloRx a serial vendor product revision role period false) (by rw [hdone]; exact mapGet_mapPut_same ..)
    exact ⟨_, q, exec_helloRx hhost hup hcfg .., rfl, hq, congrArg Partner.lastClk htold,
      (congrArg Partner.serial htold).trans rfl, congrArg Partner.role htold⟩
  case arrived =>
    obtain ⟨p, hdone, hserial⟩ := helloRx_arrives (a := a) (vendor := vendor) (product := product) (revision := revision)
      (role := role) (period := period) (w := (fresh s).w) hnone hfree
    obtain ⟨x, hx, hpresent, hdeparted, hxserial, hclk⟩ := arrive_partner (fresh s).w n p
    rw [← hdone] at hx
    obtain ⟨q, hq, htold⟩ := runMeaning_partner (s := s) hx
    exact ⟨_, q, exec_helloRx hhost hup hcfg .., rfl, hq, (congrArg Partner.present htold).trans hpresent,
      (congrArg Partner.departed htold).trans hdeparted, (congrArg Partner.serial htold).trans (hxserial.trans hserial),
      (congrArg Partner.lastClk htold).trans hclk⟩
  case full =>
    have hdone := helloRx_full (a := a) (vendor := vendor) (product := product) (revision := revision) (role := role)
      (period := period) (w := (fresh s).w) hnone hfree
    refine ⟨_, exec_helloRx hhost hup hcfg .., ?_, WorldFrame.touches (hdone ▸ worldFrame_bump _ (by decide))⟩
    rw [runMeaning, hdone]
    exact (getN_settle _ (by decide) (by decide)).trans (getN_bump_same ..)
  case departed =>
    have hdone := depart_partner (fresh s).w hp hpresent
    rw [← partnerTimeout_departs (w := (fresh s).w) hp hpresent hfixed hclk] at hdone
    obtain ⟨q, hq, htold⟩ := runMeaning_partner (s := s) hdone
    exact ⟨_, q, onWorld_when (c := hostServing) _ hhost, rfl, hq, congrArg Partner.present htold,
      congrArg Partner.departed htold, (congrArg Partner.serial htold).trans rfl⟩
  case hello =>
    have hdone := helloSend_due (w := (fresh s).w) hup hcfg hclk
    refine ⟨_, onWorld_when (c := hostServing) _ hhost, ?_, ?_, WorldFrame.touches ?_⟩
    · rw [runMeaning_out, hdone]
      rfl
    · rw [runMeaning, settle_net_helloSeq, hdone]
      show (s.w.net.helloSeq.set i _).getD i 0 = _
      rw [List.getD_eq_getElem?_getD, List.getElem?_set_self hi]
      rfl
    · rw [hdone]
      exact (worldFrame_updNet _ (by decide) _).trans (worldFrame_send _ _)
  case notified =>
    have hdone := notifySend_due (w := (fresh s).w) hp hok hdue
    refine ⟨_, onWorld_when (c := hostServing) _ hhost, WorldFrame.touches ?_, ?_, fun hquiet => ?_⟩
    · rw [hdone]
      exact (worldFrame_setPartner_own _ n _).trans (worldFrame_send _ _)
    · rw [runMeaning_out, hdone]
      rfl
    · refine ⟨p.notified s.w.clk, ?_, rfl, rfl⟩
      have hraised : (notifySend n (fresh s).w).evt.raised = [] := by
        rw [hdone]
        exact hquiet
      rw [runMeaning, settle_net_quiet hraised, hdone]
      exact mapGet_mapPut_same ..
  case link =>
    refine ⟨_, onWorld_whenDo (c := fun c => powered c.mode && decide (i < 10)) (fun _ => netLink i up) (by simp [hon, hi]), rfl,
      (settle_net_linkUp _).trans (netLink_linkUp (w := (fresh s).w) hlink)⟩

end

section
/-! SUPPORT. What sending a line to its ports leaves unchanged (R67, R179, R214 to R225). -/

namespace Sys2Proof.Machine

/-- The parts that a line on its way to the heads may change. -/
def lineParts : List Part := [.free, .mem, .job, .jq, .fire, .links, .sup]

/-- The objects that it may change: none of the line clock's. -/
def lineObjs (k : Nat) : Bool := k / 65536 != 0x22

theorem lineObjs_add {c : Nat} (h : 0x230000 ≤ c) (d : Nat) : lineObjs (c + d) = true := by
  rw [lineObjs, bne_iff_ne]
  omega

/-- Such a line leaves the line clock, the position and the device state as they are. -/
abbrev LineFrame (a b : World) : Prop := WorldFrame lineParts lineObjs a b

section
variable (w : World)

theorem lineFrame_setO {k : Nat} (h : lineObjs k = true) (v : Int) : LineFrame w (setO w k v) := worldFrame_setO w h v

theorem lineFrame_bump {k : Nat} (h : lineObjs k = true) : LineFrame w (bump w k) := worldFrame_bump w h

theorem lineFrame_addO {k : Nat} (h : lineObjs k = true) (bits n : Nat) : LineFrame w (addO w k bits n) := worldFrame_addO w h bits n

theorem lineFrame_raise (c i d : Nat) : LineFrame w (raise w c i d) := worldFrame_raise w c i d

theorem lineFrame_updBar (b : Nat) (f : BarJq → BarJq) : LineFrame w (updBar w b f) := worldFrame_updBar w (by decide) b f

theorem lineFrame_updPort (p : Nat) (f : FirePort → FirePort) : LineFrame w (updPort w p f) := worldFrame_updPort w (by decide) p f

theorem lineFrame_mem (v : Mem) : LineFrame w { w with mem := v } := worldFrame_mem w (by decide) v

theorem lineFrame_job (v : Job) : LineFrame w { w with job := v } := worldFrame_job w (by decide) v

theorem lineFrame_sup (v : Sup) : LineFrame w { w with sup := v } := worldFrame_sup w (by decide) v

theorem lineFrame_noteWrite (area unit : Nat) (line : Int) : LineFrame w (noteWrite area unit line w) :=
  worldFrame_noteWrite w (by decide) (by decide) area unit line

/-! ### Struck words and defects -/

theorem lineFrame_noteError (area addr : Nat) : LineFrame w (noteError w area addr) :=
  (lineFrame_setO w (by decide) _).trans (lineFrame_setO _ (by decide) _)

theorem lineFrame_countCe (area addr : Nat) : LineFrame w (countCe area addr w) := by
  unfold countCe
  extract_lets k w1 hour n _ w2 count
  have hk : lineObjs k = true := by
    simp only [k]
    split
    · decide
    · decide
  have h2 : LineFrame w w2 := (lineFrame_noteError w area addr).trans ((lineFrame_bump _ hk).trans (lineFrame_mem w1 _))
  clear_value w2
  exact .ite (h2.trans ((lineFrame_mem w2 _).trans (lineFrame_raise _ _ _ _)))
    (.ite (h2.trans ((lineFrame_mem w2 _).trans (lineFrame_raise _ _ _ _))) h2)

theorem lineFrame_countUe (area addr : Nat) : LineFrame w (countUe area addr w) := by
  have hk : lineObjs (if area < 5 then Obj.MEM_ECC_UE else Obj.MEM_SRAM_UE) = true := by
    split
    · decide
    · decide
  exact (lineFrame_noteError w area addr).trans ((lineFrame_bump _ hk).trans (lineFrame_raise _ _ _ _))

theorem lineFrame_readStruck (area : Nat) (hit : Struck → Bool) : LineFrame w (readStruck area hit w).2 := by
  have hcount (l : List Struck) (a : List Struck × World) : LineFrame a.2 (l.foldl (fun (acc : List Struck × World) e =>
      match eccStruck 0 e.double with
      | .uncorrectable => (acc.1 ++ [e], countUe area e.addr acc.2)
      | _ => (acc.1, countCe area e.addr acc.2)) a).2 := by
    induction l generalizing a with
    | nil => exact .refl a.2
    | cons e l ih =>
      rw [List.foldl_cons]
      refine .trans ?_ (ih _)
      split
      · exact lineFrame_countUe a.2 area e.addr
      · exact lineFrame_countCe a.2 area e.addr
  unfold readStruck
  extract_lets l _ w1
  have h1 : LineFrame w w1 := lineFrame_mem w _
  clear_value w1
  split
  · exact .refl w
  · exact h1.trans (hcount l ([], w1))

theorem lineFrame_readPlace (area unit : Nat) (line : Int) : LineFrame w (readPlace area unit line w).2 :=
  lineFrame_readStruck w area _

theorem lineFrame_defectLine (row cause : Nat) (x s : Int) : LineFrame w (defectLine w row cause x s) := by
  unfold defectLine
  extract_lets f no lim stop
  split
  · exact lineFrame_job w _
  · exact .trans (lineFrame_noteWrite w 0 0 0) (.trans (lineFrame_job _ _) (.trans (lineFrame_bump _ (by decide)) (lineFrame_job _ _)))

/-! ### A slice that fails -/

theorem lineFrame_dropIncomplete (b : Nat) : LineFrame w (dropIncomplete w b) :=
  .foldl (fun u _ _ => .trans (lineFrame_updBar u _ _) (.foldl (fun v p _ => lineFrame_updPort v p _) _)) w

theorem lineFrame_noSliceLeft (b : Nat) : LineFrame w (noSliceLeft w b) :=
  .trans (lineFrame_updBar w b _) (.trans (lineFrame_raise _ _ _ _) (worldFrame_stopSrc _ (by decide) _ _))

theorem lineFrame_sliceFail (b cause : Nat) : LineFrame w (sliceFail w b cause) := by
  unfold sliceFail
  extract_lets q old spare can w1 w2 w3 w4 data _ w5 w6 w7 w8
  have h1 : LineFrame w w1 := lineFrame_setO w (by decide) _
  have h2 : LineFrame w1 w2 := lineFrame_setO w1 (lineObjs_add (by decide) _) 0
  have h3 : LineFrame w2 w3 := lineFrame_setO w2 (lineObjs_add (by decide) _) 0
  have h4 : LineFrame w3 w4 := lineFrame_dropIncomplete w3 b
  have h5 : LineFrame w4 w5 := lineFrame_sup w4 _
  have h6 : LineFrame w5 w6 := lineFrame_updBar w5 b _
  have h7 : LineFrame w6 w7 := .trans (lineFrame_setO w6 (lineObjs_add (by decide) _) _)
    (.trans (lineFrame_raise _ _ _ _) (lineFrame_setO _ (by decide) _))
  have h8 : LineFrame w7 w8 := .trans (lineFrame_setO w7 (by decide) _) (lineFrame_setO _ (by decide) _)
  clear_value w1 w2 w3 w4 w5 w6 w7 w8
  have h4' := h1.trans (h2.trans (h3.trans h4))
  exact .ite (.refl w) (.ite (h4'.trans (h5.trans (h6.trans (h7.trans (h8.trans (lineFrame_raise _ _ _ _))))))
    (h4'.trans (lineFrame_noSliceLeft w4 b)))

theorem lineFrame_dlMiss (n us : Nat) : LineFrame w (dlMiss w n us) := by
  unfold dlMiss
  extract_lets u
  have hu : LineFrame w u := lineFrame_bump w (lineObjs_add (by decide) _)
  exact .ite (hu.trans ((lineFrame_sup u _).trans (lineFrame_raise _ _ _ _))) hu

theorem lineFrame_countMiss (b : Nat) (miss : Bool) : LineFrame w (countMiss w b miss) := by
  unfold countMiss
  extract_lets u n v
  have hv : LineFrame w v := .trans (lineFrame_updBar w b _)
    (.trans (lineFrame_setO u (lineObjs_add (by decide) _) _) (lineFrame_setO _ (lineObjs_add (by decide) _) _))
  exact .ite (hv.trans ((lineFrame_raise _ _ _ _).trans (lineFrame_sliceFail _ b 2))) hv

theorem lineFrame_endBlank (r : Nat) : LineFrame w (endBlank w r) := by
  unfold endBlank
  extract_lets b n u v
  have hv : LineFrame w v := (lineFrame_updBar w b _).trans (lineFrame_raise u _ _ _)
  exact .ite (.refl w) (hv.trans (.foldl (fun x p _ => .trans (lineFrame_addO x (lineObjs_add (by decide) _) _ _)
    (lineFrame_updPort _ p _)) v))

/-! ### Sending -/

theorem lineFrame_takeTally (x : Int) : LineFrame w (takeTally w x) := by
  unfold takeTally
  split
  · exact .refl w
  · refine .ite (.refl w) ?_
    extract_lets used
    split
    · exact lineFrame_mem w _
    · exact .trans (lineFrame_mem w _) (lineFrame_bump _ (by decide))

theorem lineFrame_addTally (r : Nat) (x : Int) (codes : List Nat) (sec : HeadSec) : LineFrame w (addTally w r x codes sec) := by
  unfold addTally
  split
  · exact .refl w
  · extract_lets u base
    refine .trans (lineFrame_noteWrite w _ _ _) (.foldl (fun v e _ => ?_) u)
    split
    · exact .ite (.refl v) (lineFrame_mem v _)
    · exact .refl v

theorem lineFrame_noteOverlap (p : Nat) (q : SendReq) (hs : List HeadLine) : LineFrame w (noteOverlap w p q hs).2 := by
  unfold noteOverlap
  extract_lets beyond
  split
  · exact .trans (lineFrame_bump w (lineObjs_add (by decide) _)) (lineFrame_raise _ _ _ _)
  · exact .refl w

theorem lineFrame_lineFlags (p : Nat) (dg split overlap : Bool) : LineFrame w (lineFlags w p dg split overlap) :=
  lineFrame_setO w (lineObjs_add (by decide) _) _

theorem lineFrame_transmit (p : Nat) (q : SendReq) (rot mask period : Nat) (codes : List Nat) :
    LineFrame w (transmit w p q rot mask period codes) := by
  unfold transmit
  extract_lets row x n s ticks first header line start words stop u
  exact .trans (lineFrame_updPort w p _) (.trans (worldFrame_putBlocks u (by decide) _ _ _) (worldFrame_send _ _))

theorem lineFrame_sendNull (p : Nat) (q : SendReq) (rot : Nat) : LineFrame w (sendNull w p q rot) := by
  unfold sendNull
  extract_lets row hs period
  have hover := lineFrame_noteOverlap w p q hs
  generalize noteOverlap w p q hs = o at hover ⊢
  obtain ⟨overlap, u⟩ := o
  exact .trans hover (.trans (lineFrame_updPort u p _) (.trans (lineFrame_lineFlags _ p _ _ _) (lineFrame_transmit _ p q _ _ _ _)))

theorem lineFrame_countPlan (p no mask steps : Nat) (hs : List HeadLine) : LineFrame w (countPlan w p no mask steps hs) := by
  unfold countPlan
  extract_lets u v x peak
  have hv : LineFrame w v := (lineFrame_addO w (lineObjs_add (by decide) _) _ _).trans (lineFrame_addO u (lineObjs_add (by decide) _) _ _)
  have hx : LineFrame w x := .unless hv (lineFrame_bump v (lineObjs_add (by decide) _))
  exact hx.trans (lineFrame_updPort x p _)

theorem lineFrame_sendLine (p : Nat) (q : SendReq) (rot : Nat) (e : FifoLine) : LineFrame w (sendLine w p q rot e) := by
  unfold sendLine
  extract_lets row t period hs noSplit margin budget
  have hover := lineFrame_noteOverlap w p q hs
  generalize noteOverlap w p q hs = o at hover ⊢
  obtain ⟨overlap, u⟩ := o
  dsimp -zeta only
  extract_lets mask v x y
  have hx : LineFrame w x := hover.trans ((lineFrame_countPlan u p _ _ _ _).trans (lineFrame_updPort v p _))
  have hy : LineFrame x y := .foldl (fun z h _ => by
    split
    · exact lineFrame_addTally z _ _ _ _
    · exact .refl z) x
  exact hx.trans (hy.trans (.trans (lineFrame_lineFlags y p _ _ _) (lineFrame_transmit _ p q _ _ _ _)))

theorem lineFrame_discardLine (p row : Nat) (x : Int) : LineFrame w (discardLine w p row x) := by
  unfold discardLine
  extract_lets u
  exact .trans (worldFrame_updLink w (by decide) p _) (lineFrame_updPort u p _)

theorem lineFrame_sendMissed (p : Nat) (q : SendReq) (rot : Nat) : LineFrame w (sendMissed w p q rot).1 := by
  unfold sendMissed
  extract_lets b row u v
  have hv : LineFrame w v := .trans (lineFrame_bump w (lineObjs_add (by decide) _)) (.trans (lineFrame_dlMiss _ 1 0) (lineFrame_raise u _ _ _))
  split
  · exact .trans (lineFrame_updPort w p _) (lineFrame_sendNull _ p q rot)
  · exact hv.trans (lineFrame_sendNull v p q rot)

theorem lineFrame_portCommit (p : Nat) (q : SendReq) : LineFrame w (portCommit w p q).1 := by
  unfold portCommit
  extract_lets row b x rot u v l latest y z entry e
  have hv : LineFrame w v := by
    refine .trans (worldFrame_exitIdle w (by decide) (by decide) p) (.trans (lineFrame_updPort _ p _) (lineFrame_setO u ?_ _))
    split
    · exact lineObjs_add (by decide) _
    · exact lineObjs_add (by decide) _
  have hz : LineFrame v z := (lineFrame_bump v (lineObjs_add (by decide) _)).trans (lineFrame_raise y _ _ _)
  have hread := lineFrame_readPlace v 5 (2 * p + row) q.x
  generalize readPlace 5 (2 * p + row) q.x v = o at hread ⊢
  obtain ⟨ue, a⟩ := o
  refine hv.trans ?_
  split
  · exact lineFrame_discardLine v p row q.x
  · split
    · exact .refl v
    · split
      · exact lineFrame_discardLine v p row q.x
      · split
        · exact lineFrame_sendNull v p q rot
        · split
          · exact hz.trans (lineFrame_sendNull z p q rot)
          · split
            · dsimp -zeta only
              split
              · exact hread.trans (lineFrame_sendNull a p q rot)
              · exact hread.trans (lineFrame_sendLine a p q rot e)
            · exact lineFrame_sendMissed v p q rot

theorem lineFrame_readTables (b : Nat) : LineFrame w (readTables w b) := by
  unfold readTables
  have hread := lineFrame_readPlace w 6 b 0
  generalize readPlace 6 b 0 w = o at hread ⊢
  obtain ⟨bad, u⟩ := o
  exact .whenSo hread (lineFrame_sliceFail u b 3)

theorem lineFrame_notePhase (b row : Nat) (hit : Bool) : LineFrame w (notePhase w b row hit) := by
  refine .ite (.trans (lineFrame_bump w (lineObjs_add (by decide) _)) (lineFrame_updBar _ b _)) ?_
  unfold endPhase
  extract_lets n
  exact .unless (.refl w) (.trans (lineFrame_updBar w b _) (lineFrame_raise _ _ _ _))

theorem lineFrame_portCommits (q : SendReq) (l : List Nat) (a : World × List PortDone) :
    LineFrame a.1 (l.foldl (fun (x : World × List PortDone) p =>
      match x with
      | (w, ds) => match portCommit w p q with
        | (w, d) => (w, ds ++ [d])) a).1 := by
  induction l generalizing a with
  | nil => exact .refl a.1
  | cons p l ih =>
    rw [List.foldl_cons]
    exact .trans (lineFrame_portCommit a.1 p q) (ih ((portCommit a.1 p q).1, a.2 ++ [(portCommit a.1 p q).2]))

theorem lineFrame_sendRow (q : SendReq) : LineFrame w (sendRow w q) := by
  unfold sendRow
  extract_lets b u v
  have hv : LineFrame w v := .trans (lineFrame_readTables w b) (.trans (lineFrame_notePhase _ b _ _)
    (.ite (lineFrame_takeTally u q.x) (.refl u)))
  have hports := lineFrame_portCommits q (barPorts b) (v, [])
  revert hports
  generalize List.foldl _ ((v, []) : World × List PortDone) (barPorts b) = o
  obtain ⟨x, ds⟩ := o
  intro hports
  dsimp -zeta only
  extract_lets cause y blank z
  have hcause (c : Option Nat) : LineFrame x (match c with
      | some c => if q.null then x else defectLine x q.r c q.x q.f.spacing
      | none => x) := by
    cases c with
    | none => exact .refl x
    | some c => exact .ite (.refl x) (lineFrame_defectLine x _ _ _ _)
  have hy : LineFrame x y := hcause cause
  have hz : LineFrame y z := .ite (lineFrame_updBar y b _) (lineFrame_endBlank y q.r)
  exact hv.trans (hports.trans (hy.trans (hz.trans (lineFrame_countMiss z b _))))

end
end Sys2Proof.Machine
end

section
/-! SUPPORT. What committing a line leaves of its row, of the rows' lines and of the late lines counted (R43, R56, R67). -/

namespace Sys2Proof.Machine

/-! ### What a commit may write -/

/-- The parts that a commit may change. -/
def commitParts : List Part := .lck :: .thm :: lineParts

/-- Every object but the count of late lines. -/
def commitObjs (k : Nat) : Bool := k != Obj.LCK_LATE

/-- Such a change leaves the count of late lines and the device state. -/
abbrev CommitFrame (a b : World) : Prop := WorldFrame commitParts commitObjs a b

theorem commitObjs_of_lt {k : Nat} (h : Obj.LCK_LATE < k) : commitObjs k = true := bne_iff_ne.mpr h.ne'

theorem LineFrame.commits {a b : World} (h : LineFrame a b) : CommitFrame a b := by
  refine h.mono (fun p hp => List.mem_cons_of_mem _ (List.mem_cons_of_mem _ hp)) fun k hk => ?_
  rw [lineObjs, bne_iff_ne] at hk
  refine bne_iff_ne.mpr ?_
  rintro rfl
  exact hk rfl

theorem CommitFrame.pausePending {a b : World} (h : CommitFrame a b) : b.sys.pausePending = a.sys.pausePending :=
  congrArg Sys.pausePending (h.sys (by decide))

/-! ### A row -/

/-- The rows are as many, and row `r` has its next line and its last fire. -/
def SameRow (r : Nat) (a b : World) : Prop :=
  b.lck.rows.length = a.lck.rows.length ∧ (rowAt b r).next = (rowAt a r).next ∧ (rowAt b r).lastFire = (rowAt a r).lastFire

theorem SameRow.refl (r : Nat) (a : World) : SameRow r a a := ⟨rfl, rfl, rfl⟩

theorem SameRow.trans {r : Nat} {a b c : World} (hab : SameRow r a b) (hbc : SameRow r b c) : SameRow r a c :=
  ⟨hbc.1.trans hab.1, hbc.2.1.trans hab.2.1, hbc.2.2.trans hab.2.2⟩

theorem SameRow.ite {r : Nat} {a x y : World} {p : Prop} [Decidable p] (hx : SameRow r a x) (hy : SameRow r a y) :
    SameRow r a (if p then x else y) := by
  split
  · exact hx
  · exact hy

theorem sameRow_of_lck {r : Nat} {a b : World} (h : b.lck = a.lck) : SameRow r a b := by
  simp only [SameRow, rowAt, h, and_self]

theorem LineFrame.sameRow {a b : World} (h : LineFrame a b) (r : Nat) : SameRow r a b := sameRow_of_lck (h.lck (by decide))

/-- The row fires on the same lines beyond `x`. -/
def SameLines (r : Nat) (x : Int) (a b : World) : Prop := ∀ y, x < y → firesAt b r y = firesAt a r y

theorem SameLines.trans {r : Nat} {x : Int} {a b c : World} (hab : SameLines r x a b) (hbc : SameLines r x b c) :
    SameLines r x a c := fun y hy => (hbc y hy).trans (hab y hy)

theorem nextRowLine_congr {r : Nat} {x : Int} {a b : World} (h : SameLines r x a b) : nextRowLine b r x = nextRowLine a r x := by
  have hfires : (fun i : Nat => firesAt b r (x + 1 + i)) = fun i : Nat => firesAt a r (x + 1 + i) :=
    funext fun i => h _ (by omega)
  rw [nextRowLine, hfires, nextRowLine]

section
variable (w : World) (r : Nat)

theorem length_updRow (k : Nat) (f : RowClk → RowClk) : (updRow w k f).lck.rows.length = w.lck.rows.length :=
  List.length_set ..

theorem sameRow_updRow {f : RowClk → RowClk} (hr : r < w.lck.rows.length) (hnext : ∀ y, (f y).next = y.next)
    (hlast : ∀ y, (f y).lastFire = y.lastFire) : SameRow r w (updRow w r f) := by
  refine ⟨length_updRow w r f, ?_, ?_⟩
  · rw [rowAt_updRow_same w f hr, hnext]
  · rw [rowAt_updRow_same w f hr, hlast]

theorem commitFrame_updRow (f : RowClk → RowClk) : CommitFrame w (updRow w r f) := worldFrame_updRow w (by decide) r f

theorem commitFrame_raise (c i d : Nat) : CommitFrame w (raise w c i d) := worldFrame_raise w c i d

/-! ### The sets of a bar -/

/-- Sets that no line from `a` or from `c` on needs leave the lines beyond with their sets. -/
theorem pickSet_dropSets {a c y : Int} (hy : a ≤ y ∨ c ≤ y) (l : List BarSet) : pickSet (dropSets a c l) y = pickSet l y := by
  induction l with
  | nil => rfl
  | cons s l ih =>
    cases l with
    | nil => rfl
    | cons t l =>
      rw [dropSets]
      split
      · next hdrop =>
        have ht : t.wB ≤ y := hy.elim hdrop.1.trans hdrop.2.trans
        rw [ih, pickSet, pickSet]
        by_cases hs : s.wB ≤ y
        · simp [hs, ht, List.getLast?_cons]
        · simp [hs, ht, List.getLast?_cons]
      · rfl

/-- Freeing sets leaves the lines after the next one of a row. -/
theorem sameLines_freeSets {x : Int} (hnext : (rowAt w r).next = x) : SameLines r x w (freeSets w (r / 2)) := by
  intro y hy
  have hfed : fedFrom w (r / 2) (r % 2) = x - 96 := by rw [fedFrom, Nat.div_add_mod, hnext]
  unfold freeSets
  extract_lets need
  have hneed : need 0 ≤ y ∨ need 1 ≤ y := by
    have hrow : need (r % 2) ≤ y := (min_le_right _ _).trans (by omega)
    rcases Nat.mod_two_eq_zero_or_one r with h | h
    · exact .inl (h ▸ hrow)
    · exact .inr (h ▸ hrow)
  by_cases hb : r / 2 < w.jq.bars.length
  · have hsets : (barAt (updBar w (r / 2) fun q => { q with sets := dropSets (need 0) (need 1) q.sets }) (r / 2)).sets =
        dropSets (need 0) (need 1) (barAt w (r / 2)).sets :=
      congrArg BarJq.sets (barAt_updBar_same w (fun q => { q with sets := dropSets (need 0) (need 1) q.sets }) hb)
    unfold firesAt setFor
    rw [hsets, pickSet_dropSets hneed]
    cases pickSet (barAt w (r / 2)).sets y with
    | none => rfl
    | some s => rfl
  · have hsame : (updBar w (r / 2) fun q => { q with sets := dropSets (need 0) (need 1) q.sets }).jq.bars = w.jq.bars :=
      List.set_eq_of_length_le (Nat.le_of_not_lt hb)
    unfold firesAt setFor barAt
    rw [hsame]
    rfl

/-- A change of neither the bars nor the line clock leaves the lines of every row. -/
theorem LineFrame.sameLines {a b : World} (h : LineFrame a b) (hjq : b.jq = a.jq) (x : Int) : SameLines r x a b := by
  intro y _
  have hobj (k : Nat) (hk : k / 65536 = 0x22) : getO b k = getO a k := h.2 k (by rw [lineObjs, hk]; rfl)
  have hmode := hobj Obj.LCK_ROW_MODE (by decide)
  have hres := hobj Obj.LCK_RES_MODE (by decide)
  have hlck : b.lck = a.lck := h.lck (by decide)
  unfold firesAt setFor barAt
  rw [hjq]
  cases pickSet (a.jq.bars.getD (r / 2) BarJq.reset).sets y with
  | some s => rfl
  | none => simp only [Option.getD_none, makeSet, hmode, hres, hlck]

theorem lineFrame_freeSets (b : Nat) : LineFrame w (freeSets w b) := by
  unfold freeSets
  extract_lets need
  exact lineFrame_updBar w b _

/-! ### The row reaches a line -/

theorem endShift_keeps (hr : r < w.lck.rows.length) : SameRow r w (endShift w r) ∧ CommitFrame w (endShift w r) ∧
    ∀ x, SameLines r x w (endShift w r) := by
  unfold endShift
  extract_lets n u
  have hu : SameRow r w u := sameRow_updRow w r hr (fun _ => rfl) fun _ => rfl
  have hf : CommitFrame w u := commitFrame_updRow w r _
  split
  · exact ⟨hu, hf, fun _ _ _ => rfl⟩
  · exact ⟨hu, hf.trans (commitFrame_raise u _ _ _), fun _ _ _ => rfl⟩

theorem noteSet_keeps (hr : r < w.lck.rows.length) (x : Int) : SameRow r w (noteSet w r x) ∧ CommitFrame w (noteSet w r x) ∧
    ((rowAt w r).next = x → SameLines r x w (noteSet w r x)) := by
  unfold noteSet
  extract_lets s row u old smaller half v y
  obtain ⟨hu, hfu, hlu⟩ := endShift_keeps w r hr
  have hv : SameRow r u v := sameRow_updRow u r (hu.1 ▸ hr) (fun _ => rfl) fun _ => rfl
  have hfv : CommitFrame u v := commitFrame_updRow u r _
  have hy : SameRow r w y := hu.trans (hv.trans (sameRow_of_lck rfl))
  have hfy : CommitFrame w y := hfu.trans (hfv.trans (LineFrame.commits (lineFrame_freeSets v _)))
  have hly (hx : (rowAt w r).next = x) : SameLines r x w y :=
    (hlu x).trans (.trans (b := v) (fun _ _ => rfl) (sameLines_freeSets v r (((hu.trans hv).2.1).trans hx)))
  split
  · exact ⟨.refl r w, .refl w, fun _ _ _ => rfl⟩
  · split
    · exact ⟨hy, hfy.trans (commitFrame_raise y _ _ _), hly⟩
    · exact ⟨hy, hfy, hly⟩

theorem lineFrame_reportDowngrades (b : Nat) : LineFrame w (reportDowngrades w b) := by
  unfold reportDowngrades
  extract_lets next
  exact .foldl (fun u p _ => .foldl (fun v e _ => .trans (lineFrame_updPort v p _) (lineFrame_raise _ _ _ _)) u) w

theorem lineFrame_framesDone (next : Int) : LineFrame w (framesDone w next) :=
  .foldl (fun u f _ => .trans (lineFrame_job u _) (.trans (lineFrame_setO _ (by decide) _)
    (.trans (lineFrame_setO _ (by decide) _) (lineFrame_raise _ _ _ _)))) w

/-- The row moves on to its next line, and keeps its last fire. -/
theorem advanceRow_row (hr : r < w.lck.rows.length) (x : Int) : (rowAt (advanceRow w r x) r).next = nextRowLine w r x ∧
    (rowAt (advanceRow w r x) r).lastFire = (rowAt w r).lastFire ∧ CommitFrame w (advanceRow w r x) := by
  unfold advanceRow
  extract_lets et u v
  have hu : rowAt u r = { rowAt w r with next := nextRowLine w r x } :=
    rowAt_updRow_same (stampDefects w r x et) (fun y => { y with next := nextRowLine w r x }) hr
  have hfu : CommitFrame w u := .trans (LineFrame.commits (lineFrame_job w _)) (commitFrame_updRow _ r _)
  have hv : LineFrame u v := lineFrame_reportDowngrades u _
  have hdone : LineFrame v (if r = 15 then framesDone v (rowAt v 15).next else v) := .ite (lineFrame_framesDone v _) (.refl v)
  have hmoved : LineFrame u (if r = 15 then framesDone v (rowAt v 15).next else v) := hv.trans hdone
  obtain ⟨-, hnext, hlast⟩ := hmoved.sameRow r
  exact ⟨hnext.trans (congrArg RowClk.next hu), hlast.trans ((congrArg RowClk.lastFire hu).trans rfl),
    hfu.trans hmoved.commits⟩

/-- A line under an inhibit is marked, and the row moves on without a fire (R43, R56). -/
theorem markInhibited_row (hr : r < w.lck.rows.length) {x : Int} (hx : (rowAt w r).next = x) (spacing : Int) :
    (rowAt (markInhibited w r x spacing) r).next = nextRowLine w r x ∧
    (rowAt (markInhibited w r x spacing) r).lastFire = (rowAt w r).lastFire ∧ CommitFrame w (markInhibited w r x spacing) := by
  unfold markInhibited
  extract_lets held u v y
  obtain ⟨hu, hfu, hlu⟩ := noteSet_keeps w r hr x
  have hv : LineFrame u v ∧ v.jq = u.jq := by
    simp only [v]
    split
    · exact ⟨lineFrame_defectLine u _ _ _ _, defectLine_jq u _ _ _ _⟩
    · exact ⟨.refl u, rfl⟩
  have hy : LineFrame v y ∧ y.jq = v.jq := by
    simp only [y]
    split
    · exact ⟨lineFrame_defectLine v _ _ _ _, defectLine_jq v _ _ _ _⟩
    · exact ⟨.refl v, rfl⟩
  have huy : LineFrame u y := hv.1.trans hy.1
  obtain ⟨hlen, -, hlast⟩ := hu.trans (huy.sameRow r)
  obtain ⟨hnext, hfire, hframe⟩ := advanceRow_row y r (hlen ▸ hr) x
  exact ⟨hnext.trans (nextRowLine_congr ((hlu hx).trans (huy.sameLines r (hy.2.trans hv.2) x))), hfire.trans hlast,
    hfu.trans ((LineFrame.commits huy).trans hframe)⟩

/-! ### A line handed to its ports -/

theorem noteShift_keeps (hr : r < w.lck.rows.length) (null : Bool) : SameRow r w (noteShift w r null) ∧
    CommitFrame w (noteShift w r null) := by
  unfold noteShift
  split
  · exact ⟨.refl r w, .refl w⟩
  · split
    · exact ⟨sameRow_updRow w r hr (fun _ => rfl) fun _ => rfl, commitFrame_updRow w r _⟩
    · obtain ⟨hrow, hframe, -⟩ := endShift_keeps w r hr
      exact ⟨hrow, hframe⟩

theorem fireRow_row (hr : r < w.lck.rows.length) (x : Int) (f : Fire) (fireAt : Frac) (late null : Bool) :
    (fireRow w r x f fireAt late null).lck.rows.length = w.lck.rows.length ∧
    (rowAt (fireRow w r x f fireAt late null) r).lastFire = some fireAt ∧ CommitFrame w (fireRow w r x f fireAt late null) := by
  unfold fireRow
  extract_lets a b c d e _ g
  obtain ⟨hset, hfset, -⟩ := noteSet_keeps w r hr x
  have ha : SameRow r w a := hset.trans (sameRow_updRow _ r (hset.1 ▸ hr) (fun _ => rfl) fun _ => rfl)
  have hfa : CommitFrame w a := hfset.trans (commitFrame_updRow _ r _)
  have hb : LineFrame a b := lineFrame_sendRow a _
  clear_value b
  obtain ⟨hsent, -, -⟩ := hb.sameRow r
  have hlenb : b.lck.rows.length = w.lck.rows.length := hsent.trans ha.1
  obtain ⟨hc, hfc⟩ := noteShift_keeps b r (hlenb ▸ hr) null
  have hlenc : c.lck.rows.length = w.lck.rows.length := hc.1.trans hlenb
  have hd : rowAt d r = { rowAt c r with lastFire := some fireAt } :=
    rowAt_updRow_same c (fun y => { y with lastFire := some fireAt }) (hlenc ▸ hr)
  have hlend : d.lck.rows.length = w.lck.rows.length := (length_updRow c r _).trans hlenc
  have hfe : CommitFrame d e := worldFrame_setO d (commitObjs_of_lt (Nat.lt_add_right _ (by decide))) _
  have hfg : CommitFrame e g := worldFrame_thm e (by decide) _
  have hfd : CommitFrame w d := hfa.trans (hb.commits.trans (hfc.trans (commitFrame_updRow c r _)))
  have hlckg : g.lck = d.lck := rfl
  clear_value a c d e g
  obtain ⟨hlen, -, hlast⟩ : SameRow r d (updRow g r fun y => { y with recent := keepFired (timerFrac g) y.recent ++ [(x, fireAt)] }) :=
    (sameRow_of_lck hlckg).trans (sameRow_updRow g r (hlckg ▸ hlend ▸ hr) (fun _ => rfl) fun _ => rfl)
  exact ⟨hlen.trans hlend, hlast.trans (congrArg RowClk.lastFire hd), hfd.trans (hfe.trans (hfg.trans (commitFrame_updRow g r _)))⟩

/-- Noting a late null line leaves the rows as many, the count and the state. -/
theorem lateNull_keeps (x late64 spacing : Int) : (lateNull w r x late64 spacing).lck.rows.length = w.lck.rows.length ∧
    CommitFrame w (lateNull w r x late64 spacing) := by
  unfold lateNull
  extract_lets no u
  have hu : LineFrame w u := lineFrame_defectLine w _ _ _ _
  clear_value u
  obtain ⟨hlen, -, -⟩ := hu.sameRow r
  split
  · exact ⟨hlen, hu.commits⟩
  · exact ⟨(length_updRow u r fun y => { y with lateFrame := some no }).trans hlen, hu.commits.trans ((commitFrame_updRow u r _).trans (commitFrame_raise _ _ _ _))⟩

/-- A line committed late is counted, and fires at the earliest time of its port (R67). -/
theorem commitLate_row (hr : r < w.lck.rows.length) (x : Int) (f : Fire) (late : Frac) :
    (commitLate w r x f late).lck.rows.length = w.lck.rows.length ∧
    (rowAt (commitLate w r x f late) r).lastFire = some (fracAdd (timerFrac w) (fracI f.lead)) ∧
    getN (commitLate w r x f late) Obj.LCK_LATE = (getN w Obj.LCK_LATE + 1) % 4294967296 ∧
    (commitLate w r x f late).sys.pausePending = w.sys.pausePending := by
  unfold commitLate
  extract_lets at_ late64 null u v
  obtain ⟨hlenv, hfv⟩ : v.lck.rows.length = u.lck.rows.length ∧ CommitFrame u v := by
    simp only [v]
    split
    · exact lateNull_keeps u r x late64 f.spacing
    · split
      · have hmark : LineFrame (bump u Obj.LCK_SAT_LINES) (markLag u r x f) := lineFrame_defectLine _ _ _ _ _
        obtain ⟨hlen, -, -⟩ := hmark.sameRow r
        exact ⟨hlen, (worldFrame_bump u (commitObjs_of_lt (by decide))).trans hmark.commits⟩
      · exact ⟨rfl, .refl u⟩
  have hru : r < u.lck.rows.length := hr
  have hcount : getN u Obj.LCK_LATE = (getN w Obj.LCK_LATE + 1) % 4294967296 := getN_bump_same ..
  have hpause : u.sys.pausePending = w.sys.pausePending := rfl
  clear_value v
  obtain ⟨hlen, hlast, hframe⟩ := fireRow_row v r (hlenv ▸ hru) x f at_ true null
  have hkept : CommitFrame u (fireRow v r x f at_ true null) := hfv.trans hframe
  exact ⟨hlen.trans hlenv, hlast, (getN_congr (hkept.2 Obj.LCK_LATE (by decide))).trans hcount,
    hkept.pausePending.trans hpause⟩

/-! ### LINE_COMMIT -/

theorem noteTimers_row (hr : r < w.lck.rows.length) (h16 : r < 16) : r < (noteTimers w).lck.rows.length ∧
    (rowAt (noteTimers w) r).next = (rowAt w r).next ∧ (rowAt (noteTimers w) r).lastFire = (rowAt w r).lastFire ∧
    (rowAt (noteTimers w) r).inhibited = (rowAt w r).inhibited := by
  have hlen : r < ((w.lck.rows.zip (List.range 16)).map fun e =>
      if e.1.stopRun ≠ 0 ∧ aboveStop w e.2 = false then { e.1 with stopRun := 0 } else e.1).length := by
    simp [hr, h16]
  refine ⟨hlen, ?_⟩
  have hrow : rowAt (noteTimers w) r = if (rowAt w r).stopRun ≠ 0 ∧ aboveStop w r = false then
      { rowAt w r with stopRun := 0 } else rowAt w r := by
    refine (List.getD_eq_getElem _ _ hlen).trans ?_
    rw [List.getElem_map, List.getElem_zip, List.getElem_range, rowAt, List.getD_eq_getElem _ _ hr]
  rw [hrow]
  split
  · exact ⟨rfl, rfl, rfl⟩
  · exact ⟨rfl, rfl, rfl⟩

theorem chainOfHeads_lck (k : Lck) (o : List OutMsg) (d h base : Nat) (l : List Head) :
    chainOfHeads { w with lck := k, out := o } d h base l = chainOfHeads w d h base l := by
  induction l generalizing h base with
  | nil => rfl
  | cons x l ih => exact congrArg₂ List.cons rfl (ih _ _)

theorem chainOfDrivers_lck (k : Lck) (o : List OutMsg) (d base : Nat) (l : List Driver) :
    chainOfDrivers { w with lck := k, out := o } d base l = chainOfDrivers w d base l := by
  induction l generalizing d base with
  | nil => rfl
  | cons x l ih =>
    rw [chainOfDrivers, chainOfDrivers, chainOfHeads_lck]
    exact congrArg _ (ih _ _)

/-- The lead of a bar depends on its links, not on the line clock. -/
theorem leadNs_lck (k : Lck) (o : List OutMsg) (b : Nat) : leadNs { w with lck := k, out := o } b = leadNs w b := by
  have hchain (p : Nat) : chain { w with lck := k, out := o } p = chain w p := if_congr Iff.rfl (chainOfDrivers_lck w k o 0 0 _) rfl
  have hports (p : Nat) : portNozzles { w with lck := k, out := o } p = portNozzles w p := by rw [portNozzles, hchain, portNozzles]
  simp only [leadNs, hports]
  rfl

theorem noteTimers_waits (hwant : w.lck.hlWant = none) (hwI : w.web.wI = none) (x : Int) :
    inhibitWave (placeSwitch (noteTimers w)) r x = noteTimers w := by
  have hplace : placeSwitch (noteTimers w) = noteTimers w := by
    have hnone : (noteTimers w).lck.hlWant = none := hwant
    unfold placeSwitch
    rw [hnone]
  have hweb : (noteTimers w).web.wI = none := hwI
  rw [hplace, inhibitWave, hweb]

/-- A line due under an inhibit: it is marked, and none is committed. -/
theorem lineCommit_inhibited (hwant : w.lck.hlWant = none) (hwI : w.web.wI = none) (htrk : w.web.trk = .forward)
    (hreached : targetReached w (target64 w r (rowAt w r).next) = true)
    (hheld : (rowAt (noteTimers w) r).inhibited ≠ 0) :
    lineCommit r w = (markInhibited (noteTimers w) r (rowAt w r).next (setSpacing (setFor w (r / 2) (rowAt w r).next)), none) := by
  unfold lineCommit
  extract_lets x s sp u p
  have hu : u = noteTimers w := noteTimers_waits w r hwant hwI x
  have hdue : targetReached u p = true := by
    simp only [p]
    rw [hu]
    exact hreached
  have hforward : u.web.trk = .forward := by
    rw [hu]
    exact htrk
  rw [if_neg (not_not.mpr hforward), if_pos (by rw [hu]; exact hheld), if_pos hdue, hu]

/-- A line due without a valid speed: it is committed late. -/
theorem lineCommit_late (hwant : w.lck.hlWant = none) (hwI : w.web.wI = none) (htrk : w.web.trk = .forward)
    (hreached : targetReached w (target64 w r (rowAt w r).next) = true)
    (hfree : (rowAt (noteTimers w) r).inhibited = 0) (hspeed : w.web.valid = false) :
    ∃ f late, f.lead = leadNs w (r / 2) ∧ lineCommit r w =
      (advanceRow (commitLate (endSkips (noteTimers w) r) r (rowAt w r).next f late) r (rowAt w r).next, some (rowAt w r).next) := by
  unfold lineCommit
  extract_lets x s sp u p at_ f v
  have hu : u = noteTimers w := noteTimers_waits w r hwant hwI x
  have hdue : targetReached u p = true := by
    simp only [p]
    rw [hu]
    exact hreached
  have hforward : u.web.trk = .forward := by
    rw [hu]
    exact htrk
  have hinvalid : ¬ u.web.valid = true ∨ speedZero u = true := by
    rw [hu]
    exact .inl (by rw [show (noteTimers w).web.valid = false from hspeed]; decide)
  refine ⟨f, frac (v.web.pos - p * 67108864) 4294967296, ?_, ?_⟩
  · simp only [f]
    rw [hu]
    exact leadNs_lck w _ w.out (r / 2)
  · rw [if_neg (not_not.mpr hforward), if_neg (by rw [hu]; exact not_not.mpr hfree), if_pos hinvalid, if_pos hdue]
    rw [show v = endSkips (noteTimers w) r from congrArg (endSkips · r) hu]

theorem endSkips_keeps (hr : r < w.lck.rows.length) : SameRow r w (endSkips w r) ∧ CommitFrame w (endSkips w r) ∧
    timerFrac (endSkips w r) = timerFrac w := by
  unfold endSkips
  extract_lets n
  split
  · exact ⟨.refl r w, .refl w, rfl⟩
  · have hrow : SameRow r w (updRow w r fun y => { y with skipRun := 0 }) := sameRow_updRow w r hr (fun _ => rfl) fun _ => rfl
    exact ⟨hrow, (commitFrame_updRow w r _).trans (commitFrame_raise _ _ _ _), rfl⟩

theorem lineFrame_fillCheck (printing : Bool) : LineFrame w (fillCheck w printing r) := by
  unfold fillCheck
  extract_lets row no
  refine .foldl (fun u p _ => ?_) w
  extract_lets n k v x
  have hv : LineFrame u v := by
    refine lineFrame_setO u ?_ _
    simp only [k]
    split
    · exact lineObjs_add (by decide) _
    · exact lineObjs_add (by decide) _
  exact .ite (hv.trans ((lineFrame_updPort v p _).trans (lineFrame_raise x _ _ _))) hv

end

/-! ### The device state after a commit -/

theorem worldFrame_noteChl (m : DevState) (w : World) : WorldFrame [] (objsOf [Obj.CHL_STATE]) w (noteChl m w) := by
  unfold noteChl
  extract_lets v
  exact .unless (.refl w) ((worldFrame_setO w (by decide) _).trans (worldFrame_raise _ _ _ _))

theorem changeFx_armedToPrinting (w : World) : changeFx .armed .printing w = w := rfl

theorem goTo_armedToPrinting {cause : Nat} {s : State} (h : s.ctl.mode = .armed) :
    (goTo cause .printing s).w.lck = s.w.lck ∧ getO (goTo cause .printing s).w Obj.LCK_LATE = getO s.w Obj.LCK_LATE ∧
      (goTo cause .printing s).w.sys.pausePending = s.w.sys.pausePending := by
  unfold goTo
  dsimp only
  rw [h, changeFx_armedToPrinting]
  obtain ⟨hpart, hobj⟩ := worldFrame_noteChl .printing (setMode cause .printing s).w
  exact ⟨hpart .lck (by decide), hobj Obj.LCK_LATE (by decide), (congrArg Sys.pausePending (show _ = (setMode cause .printing s).w.sys from hpart .sys (by decide))).trans rfl⟩

/-- With no pause pending a commit leaves the rows and the count as the line left them. -/
theorem afterCommit_keeps (x : Option Int) {s : State} (hpause : s.w.sys.pausePending = false) :
    (afterCommit x s).w.lck = s.w.lck ∧ getO (afterCommit x s).w Obj.LCK_LATE = getO s.w Obj.LCK_LATE := by
  have hsame : (pauseCheck s).w.lck = s.w.lck ∧ getO (pauseCheck s).w Obj.LCK_LATE = getO s.w Obj.LCK_LATE := by
    rw [pauseCheck_none hpause]
    exact ⟨rfl, rfl⟩
  unfold afterCommit
  cases x with
  | none => exact hsame
  | some x =>
    dsimp only
    split
    · next hgo =>
      obtain ⟨hlck, hlate, hsys⟩ := goTo_armedToPrinting (cause := 6) hgo.1
      rw [pauseCheck_none (hsys.trans hpause)]
      exact ⟨hlck, hlate⟩
    · exact hsame

/-- LINE_COMMIT of a row in the print states. -/
def commitRow (r : Nat) (s : State) : State :=
  afterCommit (lineCommit r s.w).2 { s with w := fillCheck (lineCommit r s.w).1 (s.ctl.mode == .printing) r }

theorem exec_lineCommit {r : Nat} {s : State} (hr : r < 16) (hprint : inPrint s.ctl.mode = true) :
    exec (.lineCommit r) s = .next (runState (commitRow r) s) :=
  onState_if (p := fun s => r < 16 ∧ inPrint s.ctl.mode = true) (commitRow r) ⟨hr, hprint⟩

/-- What stands after the command, from what the line left. -/
theorem runState_commitRow {r : Nat} {s : State} (hpause : (lineCommit r (fresh s).w).1.sys.pausePending = false) :
    rowAt (runState (commitRow r) s).w r = rowAt (lineCommit r (fresh s).w).1 r ∧
      getN (runState (commitRow r) s).w Obj.LCK_LATE = getN (lineCommit r (fresh s).w).1 Obj.LCK_LATE := by
  have hfill := lineFrame_fillCheck (lineCommit r (fresh s).w).1 r ((fresh s).ctl.mode == .printing)
  obtain ⟨hlck, hlate⟩ := afterCommit_keeps (lineCommit r (fresh s).w).2
    (s := { fresh s with w := fillCheck (lineCommit r (fresh s).w).1 ((fresh s).ctl.mode == .printing) r })
    (hfill.commits.pausePending.trans hpause)
  refine ⟨?_, ?_⟩
  · rw [runState, rowAt, settle_lck, commitRow, hlck, hfill.lck (by decide), rowAt]
  · rw [runState, getN_settle _ (by decide) (by decide)]
    exact getN_congr (hlate.trans (hfill.2 Obj.LCK_LATE (by decide)))

end Sys2Proof.Machine
end

section
/-! Obligation O14: LINE_COMMIT of an inhibited line and of a late one. -/

open Sys2Proof Sys2Proof.Machine

/-- Settles O14 (R43, R56, R67): a line under an inhibit does not fire, and one without a speed fires late. -/
theorem lineCommits : Obligations.LineCommits := by
  unfold Obligations.LineCommits
  intro s r hprint hr16 hr htrk hpause hwant hwI hreached
  obtain ⟨hrows, hnext, hlast, hheld⟩ := noteTimers_row (fresh s).w r hr hr16
  refine ⟨fun htwo => ?_, fun hfree hspeed => ?_⟩
  · have hmarked := lineCommit_inhibited (fresh s).w r hwant hwI htrk hreached (by rw [hheld]; exact htwo ▸ by decide)
    obtain ⟨hgoes, hfire, hframe⟩ := markInhibited_row (noteTimers (fresh s).w) r hrows hnext
      (setSpacing (setFor (fresh s).w (r / 2) (rowAt (fresh s).w r).next))
    have hdone : (lineCommit r (fresh s).w).1.sys.pausePending = false := by
      rw [hmarked]
      exact hframe.pausePending.trans hpause
    obtain ⟨hkept, -⟩ := runState_commitRow hdone
    rw [hmarked] at hkept
    exact ⟨_, exec_lineCommit hr16 hprint, (congrArg RowClk.next hkept).trans (hgoes.trans rfl),
      (congrArg RowClk.lastFire hkept).trans (hfire.trans hlast)⟩
  · obtain ⟨f, late, hlead, hlate⟩ := lineCommit_late (fresh s).w r hwant hwI htrk hreached (hheld.trans hfree) hspeed
    obtain ⟨⟨hlens, -, -⟩, hfskips, htimer⟩ := endSkips_keeps (noteTimers (fresh s).w) r hrows
    obtain ⟨hlen, hfire, hcount, hpending⟩ := commitLate_row (endSkips (noteTimers (fresh s).w) r) r (hlens ▸ hrows)
      (rowAt (fresh s).w r).next f late
    have hrowc : r < (commitLate (endSkips (noteTimers (fresh s).w) r) r (rowAt (fresh s).w r).next f late).lck.rows.length := by
      rw [hlen, hlens]
      exact hrows
    obtain ⟨-, hkeeps, hframe⟩ := advanceRow_row _ r hrowc (rowAt (fresh s).w r).next
    have hdone : (lineCommit r (fresh s).w).1.sys.pausePending = false := by
      rw [hlate]
      exact hframe.pausePending.trans (hpending.trans (hfskips.pausePending.trans hpause))
    obtain ⟨hkept, hkeptN⟩ := runState_commitRow hdone
    rw [hlate] at hkept hkeptN
    refine ⟨_, exec_lineCommit hr16 hprint, (congrArg RowClk.lastFire hkept).trans (hkeeps.trans (hfire.trans ?_)), ?_⟩
    · rw [htimer, hlead, show leadNs (fresh s).w (r / 2) = leadNs s.w (r / 2) from leadNs_lck s.w s.w.lck [] _]
      rfl
    · refine hkeptN.trans ((getN_congr (hframe.2 Obj.LCK_LATE (by decide))).trans (hcount.trans ?_))
      rw [getN_congr (hfskips.2 Obj.LCK_LATE (by decide))]
      rfl

end

section
/-! SUPPORT. Camera lines and the dark and white tables (R263, R283, R284, R294, R446). -/

namespace Sys2Proof.Machine

/-! ### What taking settled scans leaves unchanged -/

/-- Such a change is one of the inspection, of the DRAM's struck words and of no object but the inspection's. -/
abbrev InsFrame (a b : World) : Prop := WorldFrame [.free, .mem, .ins] (objIn [0x27]) a b

section
variable (w : World)

theorem insFrame_updIns (f : Ins → Ins) : InsFrame w (updIns w f) := worldFrame_ins w (by decide) _

theorem insFrame_stageWhite (win : WinAcc) (before own after : Option (List Nat)) :
    InsFrame w (stageWhite w win before own after) := by
  unfold stageWhite
  split
  · extract_lets m drops clear cands step
    exact .foldl (fun u e _ => .trans (insFrame_updIns u _) (.foldl (fun v k _ => insFrame_updIns v _) _)) w
  · exact .refl w

theorem insFrame_closeWindow (stop : Int) : InsFrame w (closeWindow w stop) := by
  unfold closeWindow
  split
  · exact .refl w
  · extract_lets own after u short hit flags r v
    have hu : InsFrame w u := .ite (insFrame_stageWhite w _ _ _ _) (.refl w)
    exact hu.trans ((insFrame_updIns u _).trans (worldFrame_setO v (by decide) _))

theorem insFrame_closePast (x : Int) : InsFrame w (closePast w x) := by
  unfold closePast
  split
  · extract_lets cut
    clear_value cut
    split
    · exact insFrame_closeWindow w _
    · exact .ite (insFrame_closeWindow w _) (.refl w)
  · exact .refl w

theorem insFrame_openWindow (x : Int) : InsFrame w (openWindow w x) := by
  unfold openWindow
  split
  · exact .refl w
  · exact insFrame_updIns w _

theorem insFrame_moveWindow (x : Int) : InsFrame w (moveWindow w x) := by
  unfold moveWindow
  extract_lets u
  have hu : InsFrame w u := insFrame_closePast w x
  split
  · exact hu
  · exact hu.trans (insFrame_openWindow u x)

theorem insFrame_countExcl (reasons : List Nat) : InsFrame w (countExcl w reasons) := by
  unfold countExcl
  extract_lets per u l v sums best
  have hv : InsFrame w v := (worldFrame_addO w (by decide) _ _).trans (insFrame_updIns u _)
  exact .ite (.refl w) (.ite (hv.trans ((insFrame_updIns v _).trans (worldFrame_raise _ _ _ _))) hv)

theorem insFrame_addWindow (l : SpecLine) (px : KMap (Nat × List Int)) : InsFrame w (addWindow w l px) := by
  unfold addWindow
  split
  · exact .refl w
  · exact insFrame_updIns w _

theorem insFrame_addCapture (l : SpecLine) (outs : List (Nat × PixelOut)) : InsFrame w (addCapture w l outs) := by
  unfold addCapture
  split
  · exact .refl w
  · exact .ite (.refl w) (insFrame_updIns w _)

theorem insFrame_spectralLine (mode : DevState) (l : SpecLine) : InsFrame w (spectralLine mode w l) := by
  unfold spectralLine
  extract_lets bits spill bands outs u v x y
  have hv : InsFrame w v := (worldFrame_bump64 w (by decide)).trans (insFrame_addCapture u l outs)
  have hx : InsFrame v x := insFrame_moveWindow v _
  exact .ite (.ite (hv.trans hx) (hv.trans (hx.trans ((insFrame_countExcl x _).trans (insFrame_addWindow y l _))))) hv

theorem insFrame_takeSettled (mode : DevState) (n : Nat) : InsFrame w (takeSettled mode n w) := by
  induction n generalizing w with
  | zero => exact .refl w
  | succ n ih =>
    unfold takeSettled
    split
    · exact .refl w
    · exact .ite (.trans (insFrame_updIns w _) (.trans (insFrame_spectralLine _ mode _) (ih _))) (.refl w)

end

theorem objIn_camera {k c : Nat} (hk : 0x26A000 ≤ k) (hk' : k < 0x26A100) (hc : c < 8) : objIn [0x27] (k + 0x100 * c) = false := by
  simp only [objIn, List.contains_cons, List.contains_nil, Bool.or_false, beq_eq_false_iff_ne]
  omega

/-- The counts of a camera and its link. -/
def cameraState (w : World) (c : Nat) : Link × Nat × Nat × Nat :=
  (linkAt w (16 + c), getN w (Obj.YQL_CAM_LINES c), getN w (Obj.YQL_CAM_CRC_ERR c), getN w (Obj.YQL_CAM_MISSING c))

theorem InsFrame.camera {a b : World} (h : InsFrame a b) {c : Nat} (hc : c < 8) : cameraState b c = cameraState a c := by
  have hlink : b.links = a.links := h.1 .links (by decide)
  have hobj {k : Nat} (hk : 0x26A000 ≤ k) (hk' : k < 0x26A100) : getN b (k + 0x100 * c) = getN a (k + 0x100 * c) :=
    getN_congr (h.2 _ (objIn_camera hk hk' hc))
  rw [cameraState, linkAt, hlink, hobj (by decide) (by decide), hobj (by decide) (by decide), hobj (by decide) (by decide)]
  rfl

theorem cameraState_runMeaning (f : World → World) (s : State) {c : Nat} (hc : c < 8) :
    cameraState (runMeaning f s).w c = cameraState (f (fresh s).w) c := by
  have hobj {k : Nat} (hk' : k < 0x26A100) : getN (runMeaning f s).w (k + 0x100 * c) = getN (f (fresh s).w) (k + 0x100 * c) :=
    getN_runMeaning f s (lt_trans (b := 0x26A900) (by omega) (by decide))
  rw [cameraState, hobj (by decide), hobj (by decide), hobj (by decide), linkAt, runMeaning, settle_links]
  rfl

theorem getN_bump64_same (w : World) (k : Nat) : getN (bump64 w k) k = (getN w k + 1) % 18446744073709551616 := by
  simp only [bump64, addO, wrapBits, getN_setO_same]
  omega

/-! ### Camera lines -/

section
variable {w : World} {c : Nat}

theorem insFrame_feedUpload (w : World) (c scan slot : Nat) (samples : List Nat) : InsFrame w (feedUpload w c scan slot samples) :=
  insFrame_updIns w _

theorem insFrame_settleSlot (w : World) (c scan slot : Nat) (samples : Option (List Nat)) :
    InsFrame w (settleSlot w c scan slot samples) := by
  unfold settleSlot
  extract_lets key
  exact insFrame_updIns w _

theorem insFrame_takeDark (w : World) (c m : Nat) (samples : List Nat) : InsFrame w (takeDark w c m samples) := by
  unfold takeDark
  extract_lets bits new kept
  exact insFrame_updIns w _

/-- A line that answers the oldest open TRIG skips none. -/
theorem skipTrigs_none {line : Nat} {trig : Trig} {rest : List Trig} (h : trig.count = line) :
    (trig :: rest).takeWhile (fun t => t.count != line) = [] ∧ (trig :: rest).dropWhile (fun t => t.count != line) = trig :: rest := by
  have hno : (trig.count != line) = false := by simp [h]
  exact ⟨List.takeWhile_cons_of_neg (by simp [h]), List.dropWhile_cons_of_neg (by simp [h])⟩

/-- A good line closes the oldest open TRIG and is counted. -/
theorem cameraLine_good (hc : c < 8) (hlen : 16 + c < w.links.length) {line : Nat} {words : List Nat} {trig : Trig}
    {rest : List Trig} (hup : (linkAt w (16 + c)).st = .up) (htrigs : (linkAt w (16 + c)).trigs = trig :: rest)
    (hline : trig.count = line) (hbad : (linkAt w (16 + c)).badFrame = false)
    (hpixels : field (words.headD 0) 48 16 = getN w Obj.YQL_CPF_PIXELS)
    (hbits : field (words.headD 0) 40 8 = getN w Obj.YQL_CPF_BITS) (mode : DevState) :
    (linkAt (cameraLine mode c line words (frameCrc words) w) (16 + c)).trigs = rest ∧
    getN (cameraLine mode c line words (frameCrc words) w) (Obj.YQL_CAM_LINES c) =
      (getN w (Obj.YQL_CAM_LINES c) + 1) % 18446744073709551616 ∧
    getN (cameraLine mode c line words (frameCrc words) w) (Obj.YQL_CAM_CRC_ERR c) = getN w (Obj.YQL_CAM_CRC_ERR c) := by
  unfold cameraLine
  extract_lets i pixels bits h u open_ good v s x y z
  obtain ⟨htake, hdrop⟩ := skipTrigs_none (rest := rest) hline
  have hu : u = updLink w i fun l => { l with trigs := l.trigs.dropWhile fun t => t.count != line } := by
    have hany : (linkAt w i).trigs.any (fun t => t.count == line) = true := by
      rw [htrigs]
      exact List.any_eq_true.mpr ⟨trig, List.mem_cons_self, beq_iff_eq.mpr hline⟩
    refine (if_pos ⟨rfl, hany⟩).trans ?_
    rw [htrigs, htake]
    rfl
  have hlink : linkAt u i = { linkAt w i with trigs := trig :: rest } := by
    rw [hu, linkAt_updLink_same w _ hlen, htrigs, hdrop]
  have hobj (k : Nat) : getN u k = getN w k := by
    rw [hu]
    rfl
  have hlenu : i < u.links.length := by
    rw [hu]
    exact lt_of_lt_of_eq hlen (List.length_set ..).symm
  have hopen : open_ = some trig := congrArg (fun l : Link => l.trigs.head?) hlink
  have hfree : (linkAt u i).badFrame = false := (congrArg Link.badFrame hlink).trans hbad
  have htrigsu : (linkAt u i).trigs = trig :: rest := congrArg Link.trigs hlink
  have hpx : field h 48 16 = pixels := hpixels
  have hbt : field h 40 8 = bits := hbits
  clear_value u
  have hgood : good = true := by
    simp only [good]
    rw [hopen, hfree, hpx, hbt]
    simp [hline]
  clear_value good open_
  rw [if_neg (not_not.mpr hup), hgood, hopen]
  dsimp -zeta only
  have hlenv : i < v.links.length := lt_of_lt_of_eq hlenu (List.length_set ..).symm
  have hv : (linkAt v i).trigs = trig :: rest :=
    (congrArg Link.trigs (linkAt_updLink_same u (fun l => { l with badFrame := false }) hlenu)).trans htrigsu
  have hobjv (k : Nat) : getN v k = getN w k := (show getN v k = getN u k from rfl).trans (hobj k)
  clear_value v
  have hx : (linkAt x i).trigs = rest := by
    refine (congrArg Link.trigs (linkAt_updLink_same v (fun l => { l with trigs := l.trigs.tail }) hlenv)).trans ?_
    rw [hv]
    rfl
  have hlines : getN x (Obj.YQL_CAM_LINES c) = (getN w (Obj.YQL_CAM_LINES c) + 1) % 18446744073709551616 :=
    (getN_bump64_same _ _).trans (by rw [← hobjv]; rfl)
  have hcrc : getN x (Obj.YQL_CAM_CRC_ERR c) = getN w (Obj.YQL_CAM_CRC_ERR c) :=
    (getN_setO_ne _ _ (by simp only [Obj.YQL_CAM_LINES, Obj.YQL_CAM_CRC_ERR]; omega)).trans (hobjv _)
  clear_value x
  extract_lets a b
  have hframe : InsFrame x (takeSettled mode 4 b) := .trans (worldFrame_noteWrite x (by decide) (by decide) 4 393216 _)
    (.trans (insFrame_feedUpload _ _ _ _ _) (.trans (.ite (insFrame_takeDark a _ _ _) (insFrame_settleSlot a _ _ _ _))
      (insFrame_takeSettled b mode 4)))
  have hstate := hframe.camera hc
  obtain ⟨hl, hn⟩ := Prod.mk.inj hstate
  obtain ⟨hn1, hn2⟩ := Prod.mk.inj hn
  exact ⟨(congrArg Link.trigs hl).trans hx, hn1.trans hlines, (Prod.mk.inj hn2).1.trans hcrc⟩

theorem objsOf_self (k : Nat) : objsOf [k] k = true := by simp [objsOf]

/-- A line with a wrong CRC closes no TRIG and is counted. -/
theorem cameraLine_badCrc (hlen : 16 + c < w.links.length) {line crc : Nat} {words : List Nat}
    (hup : (linkAt w (16 + c)).st = .up) (hcrc : crc ≠ frameCrc words) (mode : DevState) :
    (linkAt (cameraLine mode c line words crc w) (16 + c)).trigs = (linkAt w (16 + c)).trigs ∧
    getN (cameraLine mode c line words crc w) (Obj.YQL_CAM_CRC_ERR c) = (getN w (Obj.YQL_CAM_CRC_ERR c) + 1) % 4294967296 ∧
    WorldFrame [.links] (objsOf [Obj.YQL_CAM_CRC_ERR c]) w (cameraLine mode c line words crc w) := by
  unfold cameraLine
  extract_lets i pixels bits h u open_ good v s x y z
  have hu : u = w := if_neg fun hgo => hcrc hgo.1
  have hgood : good = false := by
    simp only [good]
    rw [beq_eq_false_iff_ne.mpr hcrc]
    rfl
  clear_value good open_
  rw [if_neg (not_not.mpr hup), hgood]
  dsimp -zeta only
  have hlenv : i < v.links.length := by
    refine lt_of_lt_of_eq ?_ (List.length_set ..).symm
    rw [hu]
    exact hlen
  have hv : (linkAt v i).trigs = (linkAt w i).trigs := by
    refine (congrArg Link.trigs (linkAt_updLink_same u (fun l => { l with badFrame := false }) (hu ▸ hlen))).trans ?_
    rw [hu]
  have hfv : WorldFrame [.links] (objsOf [Obj.YQL_CAM_CRC_ERR c]) w v := hu ▸ worldFrame_updLink u (by decide) i _
  have hobjv : getN v (Obj.YQL_CAM_CRC_ERR c) = getN w (Obj.YQL_CAM_CRC_ERR c) :=
    (show getN v (Obj.YQL_CAM_CRC_ERR c) = getN u (Obj.YQL_CAM_CRC_ERR c) from rfl).trans (by rw [hu])
  clear_value v
  have hlenz : i < z.links.length := lt_of_lt_of_eq hlenv (List.length_set ..).symm
  have hz : (linkAt z i).trigs = (linkAt w i).trigs :=
    (congrArg Link.trigs (linkAt_updLink_same y _ hlenv)).trans hv
  have hcount : getN z (Obj.YQL_CAM_CRC_ERR c) = (getN w (Obj.YQL_CAM_CRC_ERR c) + 1) % 4294967296 :=
    (getN_bump_same v (Obj.YQL_CAM_CRC_ERR c)).trans (by rw [hobjv])
  have hfz : WorldFrame [.links] (objsOf [Obj.YQL_CAM_CRC_ERR c]) w z :=
    hfv.trans ((worldFrame_bump v (objsOf_self _)).trans (worldFrame_updLink y (by decide) i _))
  clear_value z
  split
  · refine ⟨(congrArg Link.trigs (linkAt_updLink_same z (fun l => { l with crcStamp := some z.clk }) hlenz)).trans hz, hcount,
      hfz.trans ((worldFrame_updLink z (by decide) i _).trans (worldFrame_raise _ _ _ _))⟩
  · exact ⟨hz, hcount, hfz⟩

/-- A missing line is counted, and no TRIG is closed with it. -/
theorem missTrig_counts (hc : c < 8) (hlen : 16 + c < w.links.length) (mode : DevState) (t : Trig) :
    (linkAt (missTrig mode c t w) (16 + c)).trigs = (linkAt w (16 + c)).trigs ∧
    getN (missTrig mode c t w) (Obj.YQL_CAM_MISSING c) = (getN w (Obj.YQL_CAM_MISSING c) + 1) % 4294967296 := by
  unfold missTrig
  extract_lets u v x
  have hv : InsFrame u v := insFrame_settleSlot u c _ _ _
  have hlenv : 16 + c < v.links.length := by
    rw [show v.links = u.links from hv.1 .links (by decide)]
    exact hlen
  have hcamv : (linkAt v (16 + c)).trigs = (linkAt w (16 + c)).trigs ∧
      getN v (Obj.YQL_CAM_MISSING c) = (getN w (Obj.YQL_CAM_MISSING c) + 1) % 4294967296 := by
    obtain ⟨hl, hn⟩ := Prod.mk.inj (hv.camera hc)
    exact ⟨congrArg Link.trigs hl, ((Prod.mk.inj (Prod.mk.inj hn).2).2).trans (getN_bump_same w _)⟩
  obtain ⟨htrigs, hcount⟩ := hcamv
  clear_value v
  have hcamx : (linkAt x (16 + c)).trigs = (linkAt w (16 + c)).trigs ∧
      getN x (Obj.YQL_CAM_MISSING c) = (getN w (Obj.YQL_CAM_MISSING c) + 1) % 4294967296 := by
    simp only [x]
    split
    · exact ⟨(congrArg Link.trigs (linkAt_updLink_same v (fun l => { l with missStamp := some v.clk }) hlenv)).trans htrigs, hcount⟩
    · exact ⟨htrigs, hcount⟩
  obtain ⟨htrigsx, hcountx⟩ := hcamx
  obtain ⟨hl, hn⟩ := Prod.mk.inj ((insFrame_takeSettled x mode 4).camera hc)
  exact ⟨(congrArg Link.trigs hl).trans htrigsx, ((Prod.mk.inj (Prod.mk.inj hn).2).2).trans hcountx⟩

theorem camLineMissing_due (hc : c < 8) (hlen : 16 + c < w.links.length) {trig : Trig} {rest : List Trig}
    (htrigs : (linkAt w (16 + c)).trigs = trig :: rest) (hdue : trig.due ≤ w.clk) (mode : DevState) :
    (linkAt (camLineMissing mode c w) (16 + c)).trigs = rest ∧
    getN (camLineMissing mode c w) (Obj.YQL_CAM_MISSING c) = (getN w (Obj.YQL_CAM_MISSING c) + 1) % 4294967296 := by
  have hdone : camLineMissing mode c w = missTrig mode c trig (updLink w (16 + c) fun l => { l with trigs := rest }) := by
    unfold camLineMissing
    rw [htrigs]
    exact if_pos hdue
  obtain ⟨hleft, hcount⟩ := missTrig_counts (w := updLink w (16 + c) fun l => { l with trigs := rest }) hc
    (lt_of_lt_of_eq hlen (List.length_set ..).symm) mode trig
  rw [hdone]
  exact ⟨hleft.trans (congrArg Link.trigs (linkAt_updLink_same w (fun l => { l with trigs := rest }) hlen)), hcount⟩

end

/-! ### Dark tables -/

section
variable {w : World}

theorem notePixels_kept (w : World) : (notePixels w).ins.darkLines = w.ins.darkLines ∧ (notePixels w).sys = w.sys ∧
    getN (notePixels w) Obj.INS_DARK_VER = getN w Obj.INS_DARK_VER := by
  unfold notePixels
  extract_lets bad u
  have hu {α : Type} (p : World → α) (hp : ∀ w e, p { w with evt := e } = p w) : p u = p w :=
    foldl_keeps p (fun v e => by
      split
      · rfl
      · exact hp v _) bad w
  have hins := hu (fun w => w.ins.darkLines) fun _ _ => rfl
  have hsys := hu (fun w => w.sys) fun _ _ => rfl
  have hver := hu (fun w => getN w Obj.INS_DARK_VER) fun _ _ => rfl
  clear_value u bad
  exact ⟨hins, hsys, (getN_setO_ne _ _ (by decide)).trans hver⟩

theorem darkTable_fresh (s : State) (cams n : Nat) : darkTable (fresh s).w cams n = darkTable s.w cams n := by
  have howner : pixelOwner (fresh s).w = pixelOwner s.w := rfl
  unfold darkTable
  rw [howner]
  rfl

theorem insDark_stages (hdone : w.sys.darkDone = true) (hlines : getN w Obj.INS_DARK_N ≤ w.ins.darkLines) :
    insDark w = tellDark (darkTable w w.ins.cams (getN w Obj.INS_DARK_N)) (getN w Obj.INS_DARK_VER + 1)
      (updIns w fun i => { i with stagedDark := some (darkTable w w.ins.cams (getN w Obj.INS_DARK_N)), darkLines := 0 }) := by
  unfold insDark
  rw [hdone, if_neg (by decide), if_neg (Nat.not_lt.mpr hlines)]

theorem putTable_kept (w : World) (ix : Nat) (t : KMap Int) : (putTable w ix t).ins = w.ins ∧
    (putTable w ix t).dict.obj = w.dict.obj :=
  ⟨foldl_keeps World.ins (g := fun w (e : Nat × Int) => setT w ix e.1 e.2 0) (fun _ _ => rfl) t w,
    foldl_keeps (fun w => w.dict.obj) (g := fun w (e : Nat × Int) => setT w ix e.1 e.2 0) (fun _ _ => rfl) t w⟩

/-- A dark table that takes force is counted, and the first one is taken (R294). -/
theorem applyDark_kept (t : KMap Int) (w : World) : (applyDark t w).ins = w.ins ∧ (applyDark t w).sys.darkDone = true ∧
    getN (applyDark t w) Obj.INS_DARK_VER = (getN w Obj.INS_DARK_VER + 1) % 4294967296 := by
  obtain ⟨hins, hobj⟩ := putTable_kept w 0x3701 t
  refine ⟨hins, rfl, (getN_bump_same _ _).trans ?_⟩
  have hver : getN (putTable w 0x3701 t) Obj.INS_DARK_VER = getN w Obj.INS_DARK_VER := by
    rw [getN, getO, hobj, getN, getO]
  exact congrArg (fun n => (n + 1) % 4294967296) hver

/-- The first table from 64 dark lines (R294, R446). -/
def startDark (t : KMap Int) (w : World) : World :=
  notePixels (tellDark t (getN w Obj.INS_DARK_VER + 1) (applyDark t (updIns w fun i => { i with darkLines := 0, darkScan := none })))

theorem insDark_first (hdone : w.sys.darkDone = false) (hlines : 64 ≤ w.ins.darkLines) :
    insDark w = startDark (darkTable w w.ins.cams 64) w := by
  have hno : (!w.sys.darkDone) = true := by rw [hdone]; rfl
  unfold insDark
  rw [if_pos hno, if_neg (Nat.not_lt.mpr hlines)]
  exact (startDark.eq_def _ w).symm

theorem startDark_counts (t : KMap Int) (w : World) : (startDark t w).ins.darkLines = 0 ∧ (startDark t w).sys.darkDone = true ∧
    getN (startDark t w) Obj.INS_DARK_VER = (getN w Obj.INS_DARK_VER + 1) % 4294967296 := by
  obtain ⟨hins, hdone, hver⟩ := applyDark_kept t (updIns w fun i => { i with darkLines := 0, darkScan := none })
  have htold (v : Nat) (u : World) : (tellDark t v u).ins = u.ins ∧ (tellDark t v u).sys = u.sys ∧
      getN (tellDark t v u) Obj.INS_DARK_VER = getN u Obj.INS_DARK_VER := ⟨rfl, rfl, getN_raise ..⟩
  unfold startDark
  generalize applyDark t _ = u at hins hdone hver ⊢
  obtain ⟨htins, htsys, htver⟩ := htold (getN w Obj.INS_DARK_VER + 1) u
  generalize tellDark t _ u = v at htins htsys htver ⊢
  obtain ⟨hlines, hsys, hkept⟩ := notePixels_kept v
  refine ⟨hlines.trans ?_, ?_, hkept.trans (htver.trans (hver.trans rfl))⟩
  · rw [htins, hins]
    rfl
  · rw [hsys, htsys, hdone]

/-! ### White captures -/

theorem captureDone_stages {c : Capture} (hcap : w.ins.cap = some c) (hlines : 1024 ≤ c.lines) :
    ∃ tbl, captureDone w = raise (updIns w fun i => { i with cap := none, stagedWhite := some tbl, refresh := 0, limited := 0 })
      Ev.INS_WHITE 0 (2 * 1073741824 + c.px.length) := by
  unfold captureDone
  rw [hcap]
  dsimp -zeta only
  rw [if_neg (Nat.not_lt.mpr hlines)]
  extract_lets entries u
  exact ⟨entries, rfl⟩

/-- A capture's time (R284). -/
def captureTimeout (w : World) : World :=
  match w.ins.cap with
  | some c => if c.clk + secClk 60 ≤ w.clk ∧ c.lines < 1024 then dropCapture w else w
  | none => w

theorem captureTimeout_drops {c : Capture} (hcap : w.ins.cap = some c) (hlines : c.lines < 1024)
    (hclk : c.clk + secClk 60 ≤ w.clk) :
    captureTimeout w = raise (updIns w fun i => { i with cap := none }) Ev.INS_WHITE 0 (3 * 1073741824) := by
  unfold captureTimeout dropCapture
  rw [hcap]
  exact if_pos ⟨hclk, hlines⟩

end
end Sys2Proof.Machine
end

section
/-! Obligation O32: camera lines and the dark and white tables. -/

open Sys2Proof Sys2Proof.Machine

/-- Settles O32 (R263, R283, R284, R294, R446): a camera's lines are counted and close their TRIGs, and tables are staged. -/
theorem cameraLinesAndTables : Obligations.CameraLinesAndTables := by
  unfold Obligations.CameraLinesAndTables
  refine ⟨fun s c hc hlen => ⟨fun line words trig rest hup htrigs hline hbad hpixels hbits => ?good,
    fun line words crc hup hcrc => ?bad, fun trig rest htrigs hdue => ?missing⟩, fun s => ⟨fun hdone hlines => ?staged,
    fun hdone hlines => ?first, fun c hcap hlines => ?captured, fun c hcap hlines hclk => ?dropped⟩⟩
  case good =>
    have hstate := cameraState_runMeaning (cameraLine s.ctl.mode c line words (frameCrc words)) s hc
    obtain ⟨hl, hn⟩ := Prod.mk.inj hstate
    obtain ⟨hn1, hn2⟩ := Prod.mk.inj hn
    obtain ⟨hrest, hcount, hcrc⟩ := cameraLine_good (w := (fresh s).w) hc hlen hup htrigs hline hbad hpixels hbits s.ctl.mode
    exact ⟨_, onWorld_whenDo (c := fun _ => decide (c < 8)) (fun k => cameraLine k.mode c line words (frameCrc words))
      (decide_eq_true hc), rfl, (congrArg Link.trigs hl).trans hrest, hn1.trans hcount, (Prod.mk.inj hn2).1.trans hcrc⟩
  case bad =>
    have hstate := cameraState_runMeaning (cameraLine s.ctl.mode c line words crc) s hc
    obtain ⟨hl, hn⟩ := Prod.mk.inj hstate
    obtain ⟨-, hn2⟩ := Prod.mk.inj hn
    obtain ⟨htrigs, hcount, hframe⟩ := cameraLine_badCrc (w := (fresh s).w) hlen (line := line) hup hcrc s.ctl.mode
    exact ⟨_, onWorld_whenDo (c := fun _ => decide (c < 8)) (fun k => cameraLine k.mode c line words crc)
      (decide_eq_true hc), (congrArg Link.trigs hl).trans htrigs, (Prod.mk.inj hn2).1.trans hcount, WorldFrame.touches hframe⟩
  case missing =>
    have hstate := cameraState_runMeaning (camLineMissing s.ctl.mode c) s hc
    obtain ⟨hl, hn⟩ := Prod.mk.inj hstate
    obtain ⟨-, hn2⟩ := Prod.mk.inj hn
    obtain ⟨hrest, hcount⟩ := camLineMissing_due (w := (fresh s).w) hc hlen htrigs hdue s.ctl.mode
    exact ⟨_, onWorld_whenDo (c := fun _ => decide (c < 8)) (fun k => camLineMissing k.mode c) (decide_eq_true hc), rfl,
      (congrArg Link.trigs hl).trans hrest, (Prod.mk.inj hn2).2.trans hcount⟩
  case staged =>
    have hrun := insDark_stages (w := (fresh s).w) hdone hlines
    have htable := darkTable_fresh s (fresh s).w.ins.cams (getN (fresh s).w Obj.INS_DARK_N)
    have hins : (insDark (fresh s).w).ins.darkLines = 0 ∧ (insDark (fresh s).w).ins.stagedDark =
        some (darkTable (fresh s).w (fresh s).w.ins.cams (getN (fresh s).w Obj.INS_DARK_N)) := by
      rw [hrun]
      exact ⟨rfl, rfl⟩
    refine ⟨_, onWorld_always insDark s, (congrArg Ins.darkLines (settle_ins _)).trans hins.1,
      ((congrArg Ins.stagedDark (settle_ins _)).trans hins.2).trans (congrArg some htable), WorldFrame.touches ?_⟩
    rw [hrun]
    exact (worldFrame_ins _ (by decide) _).trans (worldFrame_raise _ _ _ _)
  case first =>
    have hrun := insDark_first (w := (fresh s).w) hdone hlines
    obtain ⟨hzero, hdark, hver⟩ := startDark_counts (darkTable (fresh s).w (fresh s).w.ins.cams 64) (fresh s).w
    rw [← hrun] at hzero hdark hver
    exact ⟨_, onWorld_always insDark s, (congrArg Ins.darkLines (settle_ins _)).trans hzero,
      (congrArg Sys.darkDone (settle_sys _)).trans hdark, (getN_runMeaning _ s (by decide)).trans hver⟩
  case captured =>
    obtain ⟨tbl, hrun⟩ := captureDone_stages (w := (fresh s).w) hcap hlines
    refine ⟨_, tbl, onWorld_always captureDone s, ?_, ?_, WorldFrame.touches ?_, fun hquiet => reports_runMeaning hquiet hrun rfl⟩
    · rw [runMeaning, settle_ins, hrun]
      rfl
    · rw [runMeaning, settle_ins, hrun]
      rfl
    · rw [hrun]
      exact (worldFrame_ins _ (by decide) _).trans (worldFrame_raise _ _ _ _)
  case dropped =>
    have hrun := captureTimeout_drops (w := (fresh s).w) hcap hlines hclk
    refine ⟨_, onWorld_always captureTimeout s, ?_, WorldFrame.touches ?_, fun hquiet => reports_runMeaning hquiet hrun rfl⟩
    · rw [runMeaning, settle_ins, hrun]
      rfl
    · rw [hrun]
      exact (worldFrame_ins _ (by decide) _).trans (worldFrame_raise _ _ _ _)

end

section
/-! SUPPORT. What the commands of supervision, power, the network and CAN FD may write. -/

namespace Sys2Proof.Machine

section
variable (w : World)

theorem worldFrame_noteChl_in {parts : List Part} {objs : Nat → Bool} (h : objs Obj.CHL_STATE = true) (m : DevState) :
    WorldFrame parts objs w (noteChl m w) := by
  unfold noteChl
  extract_lets v
  exact .unless (.refl w) ((worldFrame_setO w h _).trans (worldFrame_raise _ _ _ _))

/-! ### Supervision -/

theorem supFrame_updSup (f : Sup → Sup) : WorldFrame [.sup] (objIn [0x2A]) w (updSup w f) := worldFrame_updSup w (by decide) f

theorem supFrame_coreReload (c : Nat) : WorldFrame [.sup] (objIn [0x2A]) w (coreReload c w) :=
  .ite (supFrame_updSup w _) (.refl w)

theorem supFrame_probationEnd (c : Nat) : WorldFrame [.sup] (objIn [0x2A]) w (probationEnd c w) :=
  .ite (.trans (supFrame_updSup w _) (worldFrame_raise _ _ _ _)) (.refl w)

theorem supFrame_sergeRestart : WorldFrame [.sup] (objIn [0x2A]) w (sergeRestart w) := .ite (.refl w) (supFrame_updSup w _)

theorem supFrame_hostFail : WorldFrame [.sup] (objIn [0x2A]) w (hostFail w) := by
  unfold hostFail
  extract_lets l n u v
  have hu : WorldFrame [.sup] (objIn [0x2A]) w u := supFrame_updSup w _
  have hv : WorldFrame [.sup] (objIn [0x2A]) u v := .trans (worldFrame_setO u (by decide) _) (worldFrame_stopSrc _ (by decide) _ _)
  have hrestart : WorldFrame [.sup] (objIn [0x2A]) u (hostRestart u n) :=
    .trans (worldFrame_bump u (by decide)) (.trans (worldFrame_setO _ (by decide) _)
      (.trans (supFrame_updSup _ _) (worldFrame_raise _ _ _ _)))
  exact .ite (.refl w) (.ite (hu.trans (hv.trans (worldFrame_raise _ _ _ _))) (hu.trans hrestart))

theorem supFrame_hostSignal : WorldFrame [.sup] (objIn [0x2A]) w (hostSignal w) :=
  .ite (.refl w) (.ite (supFrame_hostFail w) (supFrame_updSup w _))

theorem supFrame_dlMiss {n : Nat} (hn : n < 9) (us : Nat) : WorldFrame [.sup] (objIn [0x2A]) w (dlMiss w n us) := by
  have hmiss : objIn [0x2A] (Obj.SUP_DL_MISS (n - 1)) = true := by
    rw [objIn, show Obj.SUP_DL_MISS (n - 1) / 65536 = 0x2A by simp only [Obj.SUP_DL_MISS]; omega]
    decide
  unfold dlMiss
  extract_lets u
  have hu : WorldFrame [.sup] (objIn [0x2A]) w u := worldFrame_bump w hmiss
  exact .ite (hu.trans (.trans (worldFrame_sup u (by decide) _) (worldFrame_raise _ _ _ _))) hu

theorem supFrame_hostTimeout : WorldFrame [.sup] (objIn [0x2A]) w (hostTimeout w) := by
  unfold hostTimeout
  extract_lets stop
  exact .ite (.trans (supFrame_dlMiss w (by decide) _) (supFrame_hostFail _)) (.refl w)

theorem supFrame_deadline (n us : Nat) : WorldFrame [.sup] (objIn [0x2A]) w (deadline n us w) := by
  unfold deadline
  split
  · exact .trans (worldFrame_bump w (by decide)) (supFrame_dlMiss _ (by decide) us)
  · exact supFrame_dlMiss w (by decide) us
  · exact supFrame_hostTimeout w
  · split
    · exact .ite (supFrame_dlMiss w (by decide) us) (.refl w)
    · exact .refl w
  · exact .refl w

theorem supFrame_spareTestStart : WorldFrame [.sup] (objIn [0x2A]) w (spareTestStart w) :=
  .ite (.refl w) (worldFrame_sup w (by decide) _)

theorem engineFrame_timeout (e : Nat) (m : DevState) : WorldFrame [.sup] (objIn [0x28, 0x2A]) w (engineTimeout e m w) := by
  unfold engineTimeout
  extract_lets x l n held u v
  have hu : WorldFrame [.sup] (objIn [0x28, 0x2A]) w u :=
    .trans (worldFrame_bump w (by decide)) (worldFrame_updSup _ (by decide) _)
  have hv : WorldFrame [.sup] (objIn [0x28, 0x2A]) w v := .unless hu (worldFrame_bump u (by decide))
  exact .ite (.refl w) (hv.trans (.trans (worldFrame_raise v _ _ _) (worldFrame_noteChl_in _ (by decide) m)))

theorem engineFrame_restarted (e : Nat) (m : DevState) : WorldFrame [.sup] (objIn [0x28, 0x2A]) w (engineRestarted e m w) := by
  unfold engineRestarted
  extract_lets x u
  exact .ite (.refl w) (.trans (worldFrame_updSup w (by decide) _)
    (.trans (worldFrame_raise u _ _ _) (worldFrame_noteChl_in _ (by decide) m)))

theorem sliceFrame_sliceRetest (slice : Nat) (pass : Bool) :
    WorldFrame [.sup] (objsOf [Obj.JQ_SPARE, Obj.JQ_SLICE_OK]) w (sliceRetest slice pass w) := by
  unfold sliceRetest
  extract_lets _ u v _ _ x
  have hu : WorldFrame [.sup] (objsOf [Obj.JQ_SPARE, Obj.JQ_SLICE_OK]) w u := worldFrame_sup w (by decide) _
  have hx : WorldFrame [.sup] (objsOf [Obj.JQ_SPARE, Obj.JQ_SLICE_OK]) u x :=
    .trans (worldFrame_setO u (by decide) _) (.trans (worldFrame_setO v (by decide) _) (worldFrame_sup _ (by decide) _))
  exact .ite (.refl w) (.ite (hu.trans (hx.trans (worldFrame_raise _ _ _ _))) (hu.trans (worldFrame_raise _ _ _ _)))

theorem sliceFrame_spareTestDone (pass : Bool) :
    WorldFrame [.sup] (objsOf [Obj.JQ_SPARE, Obj.JQ_SLICE_OK]) w (spareTestDone pass w) := by
  unfold spareTestDone
  extract_lets _ u s
  have hu : WorldFrame [.sup] (objsOf [Obj.JQ_SPARE, Obj.JQ_SLICE_OK]) w u := worldFrame_sup w (by decide) _
  exact .ite (.refl w) (.ite hu (hu.trans (.trans (worldFrame_setO u (by decide) _) (worldFrame_raise _ _ _ _))))

/-! ### Power -/

theorem powerFrame_govRecover : WorldFrame [.thm] (objIn [0x2B]) w (govRecover w) := by
  unfold govRecover
  extract_lets eff top
  split
  · refine .ite (.trans (worldFrame_updThm w _) ((worldFrame_setLimit _ _).mono (List.Subset.refl _) ?_)) (.refl w)
    intro k hk
    obtain rfl : k = Obj.THM_PLIM_EFF := by simpa [objsOf] using hk
    decide
  · exact .refl w

theorem powerFrame_setLevel (l : Nat) : WorldFrame [.thm] (objIn [0x22, 0x24, 0x2B]) w (setLevel w l) :=
  worldFrame_setLevel w l (by decide) (by decide)

theorem powerFrame_setCeiling (v : Nat) : WorldFrame [.thm] (objIn [0x22, 0x24, 0x2B]) w (setCeiling w v) :=
  .unless (.refl w) (.trans (worldFrame_setO w (by decide) _) (worldFrame_raise _ _ _ _))

theorem powerFrame_govUnshed : WorldFrame [.thm] (objIn [0x22, 0x24, 0x2B]) w (govUnshed w) := by
  unfold govUnshed
  extract_lets l c v u
  have hu : WorldFrame [.thm] (objIn [0x22, 0x24, 0x2B]) w u := .trans (worldFrame_updThm w _) (powerFrame_setCeiling _ v)
  have hundo : WorldFrame [.thm] (objIn [0x22, 0x24, 0x2B]) u (setLevel (updThm u fun t => { t with undoClk := u.clk }) 3) :=
    .trans (worldFrame_updThm u _) (powerFrame_setLevel _ 3)
  exact .ite (.refl w) (.ite (.ite (.ite (hu.trans hundo) hu) (.refl w))
    (.ite (.trans (worldFrame_updThm w _) (powerFrame_setLevel _ _)) (.refl w)))

theorem worldFrame_setNv {parts : List Part} {objs : Nat → Bool} (hp : .stores ∈ parts) {k : Nat} (hk : objs k = true) (v : Int) :
    WorldFrame parts objs w (setNv w k v) :=
  (worldFrame_setO w hk v).trans (worldFrame_stores _ hp _ _ _ _ _ _)

theorem powerFrame_lifeRenew : WorldFrame [.thm, .stores] (objIn [0x2B]) w (lifeRenew w) :=
  (worldFrame_setNv w (by decide) (by decide) _).trans
    (.trans (worldFrame_setNv _ (by decide) (by decide) _) (worldFrame_thm _ (by decide) _))

theorem powerFrame_avsStep (slack : List Int) : WorldFrame [.thm] (objIn [0x2B]) w (avsStep slack w) := by
  refine (worldFrame_avsStep slack w).mono (List.Subset.refl _) fun k hk => ?_
  have hpages : ∀ x ∈ Obj.THM_VCORE_MV :: Obj.THM_AVS_STEPS :: (List.range 16).map Obj.THM_RO_SLACK, objIn [0x2B] x = true := by
    decide
  exact hpages k (List.contains_iff_mem.mp hk)

theorem powerFrame_bgRenew : WorldFrame [.thm] (objIn [0x2B]) w (bgRenew w) := by
  refine (worldFrame_bgRenew w).mono (List.nil_subset _) fun k hk => ?_
  obtain rfl : k = Obj.THM_BG_CORR := by simpa [objsOf] using hk
  decide

end
end Sys2Proof.Machine
end

section
/-! SUPPORT. What the commands of the network and of CAN FD may write. -/

namespace Sys2Proof.Machine

/-! ### HELLO, NOTIFY and the streams that the device sends -/

/-- What an answer to a partner or on a stream may write. -/
abbrev NetFrame : World → World → Prop := WorldFrame [.net] noObj

/-- What the streams that come in may write. -/
abbrev BulkFrame : World → World → Prop := WorldFrame [.net, .mem, .free] (objIn [0x24, 0x2E])

/-- What the CAN FD port may write. -/
abbrev CanFrame : World → World → Prop := WorldFrame [.can] (objIn [0x10, 0x2E])

section
variable (w : World)

theorem netFrame_updNet (f : Net → Net) : NetFrame w (updNet w f) := worldFrame_updNet w (by decide) f

theorem netFrame_helloSend (i : Nat) : NetFrame w (helloSend i w) :=
  .ite ((netFrame_updNet w _).trans (worldFrame_send _ _)) (.refl w)

theorem netFrame_notifySend (n : Nat) : NetFrame w (notifySend n w) := by
  unfold notifySend
  split
  · exact .refl w
  · exact .ite ((worldFrame_setPartner_own w n _).trans (worldFrame_send _ _)) (.refl w)

theorem netFrame_bulkResend (a : Addr) (stream : Nat) : NetFrame w (bulkResend a stream w) := by
  unfold bulkResend
  split
  · exact .refl w
  · exact (worldFrame_sendBlocks _ _ w).trans (worldFrame_putOut _)

theorem netFrame_windowReopen : NetFrame w (windowReopen w) :=
  (netFrame_updNet w _).trans (.foldl (fun _ _ _ => worldFrame_send _ _) _)

/-! ### Streams that come in -/

theorem bulkFrame_updNet (f : Net → Net) : BulkFrame w (updNet w f) := worldFrame_updNet w (by decide) f

theorem bulkFrame_sendAck (b : BulkIn) (status detail value : Nat) : BulkFrame w (sendAck b status detail value w) :=
  worldFrame_send w _

theorem bulkFrame_refuseOpen (a : Addr) (stream status detail : Nat) : BulkFrame w (refuseOpen a stream status detail w) :=
  worldFrame_send w _

theorem bulkFrame_setItem (k : Nat) (i : Item) : BulkFrame w (setItem w k i) := worldFrame_mem w (by decide) _

theorem bulkFrame_acceptIn (a : Addr) (stream target offset length item : Nat) (pre : List Nat) :
    BulkFrame w (acceptIn a stream target offset length item pre w) :=
  (bulkFrame_updNet w _).trans (worldFrame_send _ _)

theorem bulkFrame_openRead (a : Addr) (stream target off len window : Nat) :
    BulkFrame w (openRead_ a stream target off len window w) := by
  unfold openRead_
  split
  · exact bulkFrame_refuseOpen w _ _ _ _
  · extract_lets n b
    have hpump (u : World) : BulkFrame u (pumpOut b u) :=
      (worldFrame_pumpOut b).mono (List.cons_subset_cons _ (List.nil_subset _)) fun k hk => nomatch hk
    exact .ite (bulkFrame_refuseOpen w _ _ _ _) (.ite (bulkFrame_refuseOpen w _ _ _ _)
      (.ite (bulkFrame_refuseOpen w _ _ _ _)
        (.trans (bulkFrame_updNet w _) (.trans (bulkFrame_refuseOpen _ _ _ _ _) (hpump _)))))

theorem bulkFrame_openItem (a : Addr) (stream length : Nat) (pre : List Nat) :
    BulkFrame w (openItem a stream length pre w) := by
  unfold openItem
  extract_lets i why u v k x
  have hbump : BulkFrame w (bump w Obj.MEM_ING_REFUSED) := worldFrame_bump w (by decide)
  have hv : BulkFrame w v := .whenSo (.trans hbump (worldFrame_raise _ _ _ _)) (worldFrame_raise _ _ _ _)
  have hx : BulkFrame w x := bulkFrame_setItem w _ _
  exact .ite (hv.trans (worldFrame_send _ _)) (.ite (hbump.trans (worldFrame_send _ _))
    (hx.trans (.trans (worldFrame_mem _ (by decide) _) (bulkFrame_acceptIn _ _ _ _ _ _ _ _))))

theorem bulkFrame_openIn (a : Addr) (stream target off len : Nat) (pre : List Nat) :
    BulkFrame w (openIn a stream target off len pre w) := by
  have hrefuse (status detail : Nat) : BulkFrame w (refuseOpen a stream status detail w) :=
    bulkFrame_refuseOpen w a stream status detail
  unfold openIn
  refine .ite (hrefuse _ _) (.ite (.ite (hrefuse _ _) (.ite (hrefuse _ _) (bulkFrame_openItem w _ _ _ _))) ?_)
  split
  · exact hrefuse _ _
  · exact .ite (hrefuse _ _) (.ite (hrefuse _ _) (.ite (hrefuse _ _) (.ite (hrefuse _ _)
      (.ite (hrefuse _ _) (bulkFrame_acceptIn w _ _ _ _ _ _ _)))))

theorem bulkFrame_bulkOpen (a : Addr) (target : Nat) (read : Bool) (stream off len window : Nat) (pre : List Nat) :
    BulkFrame w (bulkOpen a target read stream off len window pre w) := by
  unfold bulkOpen
  refine .ite (worldFrame_bump w (by decide)) (.ite (bulkFrame_refuseOpen w _ _ _ _) ?_)
  split
  · exact bulkFrame_sendAck w _ _ _ _
  · exact .ite (bulkFrame_refuseOpen w _ _ _ _) (.ite (bulkFrame_openRead w _ _ _ _ _ _) (bulkFrame_openIn w _ _ _ _ _ _))

theorem bulkFrame_packMore (it : Item) (data : List Nat) : BulkFrame w (packMore it data w).2 := by
  unfold packMore
  dsimp only
  split_ifs
  · exact .refl w
  · exact .refl w
  · exact worldFrame_addO w (by decide) _ _

theorem bulkFrame_itemBlock (b : BulkIn) (len : Nat) : BulkFrame w (itemBlock b len w) := by
  unfold itemBlock
  extract_lets u
  have hu : BulkFrame w u := (worldFrame_addO w (by decide) _ _).trans (worldFrame_noteWrite _ (by decide) (by decide) _ _ _)
  split
  · exact hu.trans ((bulkFrame_packMore u _ _).trans (bulkFrame_setItem _ _ _))
  · exact hu

theorem bulkFrame_bulkData (a : Addr) (stream k : Nat) (data : List Nat) (crc : Nat) (share : Bool) :
    BulkFrame w (bulkData a stream k data crc share w) := by
  unfold bulkData
  extract_lets u
  have hu : BulkFrame w u := bulkFrame_updNet w _
  split
  · exact hu
  · extract_lets b v
    have hv : BulkFrame u v := .ite (bulkFrame_itemBlock u _ _) (.refl u)
    exact .ite (hu.trans (worldFrame_bump u (by decide))) (.ite (hu.trans (worldFrame_bump u (by decide)))
      (.ite hu (hu.trans (hv.trans ((bulkFrame_updNet v _).trans (worldFrame_send _ _))))))

theorem bulkFrame_itemShort (b : BulkIn) (i : Item) : BulkFrame w (itemShort b i w) :=
  .trans (.ite (worldFrame_mem w (by decide) _) (bulkFrame_setItem w _ _)) (worldFrame_raise _ _ _ _)

theorem bulkFrame_bulkIdle (a : Addr) (stream : Nat) : BulkFrame w (bulkIdle a stream w) := by
  unfold bulkIdle
  split
  · exact .refl w
  · extract_lets u
    have hu : BulkFrame w u := bulkFrame_updNet w _
    refine .ite (.refl w) (.ite ?_ hu)
    split
    · exact hu.trans (bulkFrame_itemShort u _ _)
    · exact hu

/-! ### CAN FD -/

theorem canFrame_updCan (f : Can → Can) : CanFrame w (updCan w f) := worldFrame_updCan w f

theorem canFrame_heartbeat : CanFrame w (heartbeat w) :=
  .ite (.refl w) ((canFrame_updCan w _).trans (worldFrame_send _ _))

theorem canFrame_emcyFrame (code reg inst data : Nat) : CanFrame w (emcyFrame code reg inst data w) :=
  (canFrame_updCan w _).trans (worldFrame_send _ _)

theorem objIn_errHist {i : Nat} (hi : i < 9) : objIn [0x10, 0x2E] (Obj.NET_CAN_ERR_HIST i) = true := by
  decide +revert

theorem canFrame_pushHist (code : Nat) : CanFrame w (pushHist code w) := by
  refine .trans (.foldl (fun u e he => worldFrame_setO u (objIn_errHist ?_) _) w) (worldFrame_setO _ (objIn_errHist (by decide)) _)
  have := List.mem_range.mp (List.of_mem_zip he).2
  omega

theorem canFrame_emcySend (m : DevState) : CanFrame w (emcySend m w) := by
  unfold emcySend
  extract_lets inh free reg
  refine .ite (.refl w) ?_
  split
  · exact (canFrame_updCan w _).trans ((canFrame_emcyFrame _ _ _ _ _).trans (canFrame_pushHist _ _))
  · exact .ite (canFrame_emcyFrame w _ _ _ _) (canFrame_updCan w _)

theorem canFrame_canBus (st rec_ tec : Nat) : CanFrame w (canBus st rec_ tec w) := by
  refine (worldFrame_canBus st rec_ tec w).mono (List.Subset.refl _) fun k hk => ?_
  obtain rfl : k = Obj.NET_CAN_ERRCNT := by simpa [objsOf] using hk
  decide

theorem canFrame_busRecover : CanFrame w (busRecover w) :=
  (canFrame_updCan w _).trans ((worldFrame_setO _ (by decide) _).trans (worldFrame_raise _ _ _ _))

theorem canFrame_uploadSegment (toggle : Bool) : CanFrame w (uploadSegment toggle w) := by
  unfold uploadSegment
  split
  · exact worldFrame_sdoAbort w _ _ _
  · exact .ite ((canFrame_updCan w _).trans (worldFrame_sdoAbort _ _ _ _)) ((canFrame_updCan w _).trans (worldFrame_sdoSend _ _))

theorem canFrame_sdoTimeout : CanFrame w (sdoTimeout w) := by
  unfold sdoTimeout
  split
  · exact .refl w
  · exact .ite ((canFrame_updCan w _).trans (worldFrame_sdoAbort _ _ _ _)) (.refl w)

theorem worldFrame_hbLost (i : Nat) : WorldFrame [.can] (objsOf [Obj.SUP_STOP_SRC]) w (hbLost i w) := by
  unfold hbLost
  split
  · exact .ite (.refl w) (.whenSo ((worldFrame_updCan w _).trans (worldFrame_raise _ _ _ _))
      (worldFrame_stopSrc _ (by decide) _ _))
  · exact .refl w

end
end Sys2Proof.Machine
end

section
/-! Obligation O10. -/
open Sys2Proof Sys2Proof.Machine

/-- Settles O10: each command writes within the frame of its unit. -/
theorem supervisionAndNetFrames : Obligations.SupervisionAndNetFrames := by
  refine fun s t c h => ⟨?sup, ?engine, ?slice, ?power, ?unshed, ?life, ?net, ?bulk, ?can, ?watch⟩
  case sup =>
    rintro (⟨n, rfl⟩ | ⟨n, rfl⟩ | rfl | rfl | rfl | rfl | rfl | ⟨n, x, rfl⟩ | rfl)
    · exact touches_onWorld (show execCoreReloadDone n s = _ from h) (.whenDo (supFrame_coreReload _ n))
    · exact touches_onWorld (show execCoreProbationEnd n s = _ from h) (.whenDo (supFrame_probationEnd _ n))
    · exact touches_onWorld (show execSergeRestartDone s = _ from h) (supFrame_sergeRestart _)
    · exact touches_onWorld (show execStopInHigh s = _ from h) (supFrame_updSup _ _)
    · exact touches_onWorld (show execHostWdSignal s = _ from h) (supFrame_hostSignal _)
    · exact touches_onWorld (show execHostWdTimeout s = _ from h) (supFrame_hostTimeout _)
    · exact touches_onWorld (show execHostTrap s = _ from h) (supFrame_hostFail _)
    · exact touches_onWorld (show execSupDeadline n x s = _ from h) (.whenDo (supFrame_deadline _ n x))
    · exact touches_onWorld (show execSpareTestStart s = _ from h) (supFrame_spareTestStart _)
  case engine =>
    rintro (⟨e, rfl⟩ | ⟨e, rfl⟩)
    · exact touches_onWorld (show execEngineWdTimeout e s = _ from h) (.whenDo (engineFrame_timeout _ e _))
    · exact touches_onWorld (show execEngineRestartDone e s = _ from h) (.whenDo (engineFrame_restarted _ e _))
  case slice =>
    rintro (⟨x, y, rfl⟩ | ⟨x, rfl⟩)
    · exact touches_onWorld (show execSliceRetestDone x y s = _ from h) (.whenDo (sliceFrame_sliceRetest _ x y))
    · exact touches_onWorld (show execSpareTestDone x s = _ from h) (sliceFrame_spareTestDone _ x)
  case power =>
    rintro (rfl | ⟨l, rfl⟩ | rfl)
    · exact touches_onWorld (show execGovLimitRecover s = _ from h) (.whenDo (powerFrame_govRecover _))
    · exact touches_onWorld (show execAvsStep l s = _ from h) (.whenDo (powerFrame_avsStep _ l))
    · exact touches_onWorld (show execBgRenew s = _ from h) (.whenDo (powerFrame_bgRenew _))
  case unshed =>
    rintro rfl
    exact touches_onWorld (show execGovUnshed s = _ from h) (.whenDo (powerFrame_govUnshed _))
  case life =>
    rintro rfl
    exact touches_onWorld (show execLifeCounterRenew s = _ from h) (.whenDo (powerFrame_lifeRenew _))
  case net =>
    rintro (⟨i, rfl⟩ | ⟨n, rfl⟩ | ⟨a, x, rfl⟩ | rfl)
    · exact touches_onWorld (show execHelloSend i s = _ from h) (.whenDo (netFrame_helloSend _ i))
    · exact touches_onWorld (show execNotifySend n s = _ from h) (.whenDo (netFrame_notifySend _ n))
    · exact touches_onWorld (show execBulkResendTimeout a x s = _ from h) (.whenDo (netFrame_bulkResend _ a x))
    · exact touches_onWorld (show execBulkWindowReopen s = _ from h) (.whenDo (netFrame_windowReopen _))
  case bulk =>
    rintro (⟨a, k, l, d, x, y, z, v, rfl⟩ | ⟨a, x, y, z, v, u, rfl⟩ | ⟨a, x, rfl⟩)
    · exact touches_onWorld (show execBulkOpenRx a k l d x y z v s = _ from h) (.whenDo (bulkFrame_bulkOpen _ a k l d x y z v))
    · exact touches_onWorld (show execBulkDataRx a x y z v u s = _ from h) (.whenDo (bulkFrame_bulkData _ a x y z v u))
    · exact touches_onWorld (show execBulkIdleTimeout a x s = _ from h) (bulkFrame_bulkIdle _ a x)
  case can =>
    rintro (⟨n, rfl⟩ | ⟨n, rfl⟩ | ⟨n, rfl⟩ | rfl | rfl | ⟨x, y, z, rfl⟩ | rfl | ⟨x, rfl⟩ | rfl | rfl)
    · exact touches_onWorld (show execNmtStart n s = _ from h) (.whenDo (canFrame_updCan _ _))
    · exact touches_onWorld (show execNmtStop n s = _ from h) (.whenDo (canFrame_updCan _ _))
    · exact touches_onWorld (show execNmtEnterPreOperational n s = _ from h) (.whenDo (canFrame_updCan _ _))
    · exact touches_onWorld (show execHeartbeatProduce s = _ from h) (.whenDo (canFrame_heartbeat _))
    · exact touches_onWorld (show execEmcySend s = _ from h) (.whenDo (canFrame_emcySend _ _))
    · exact touches_onWorld (show execCanBus x y z s = _ from h) (.whenDo (canFrame_canBus _ x y z))
    · exact touches_onWorld (show execCanBusOffRecovery s = _ from h) (.whenDo (canFrame_busRecover _))
    · exact touches_onWorld (show execSdoUploadSegment x s = _ from h) (.whenDo (canFrame_uploadSegment _ x))
    · exact touches_onWorld (show execSdoAbortRx s = _ from h) (.whenDo (canFrame_updCan _ _))
    · exact touches_onWorld (show execSdoSegmentTimeout s = _ from h) (.whenDo (canFrame_sdoTimeout _))
  case watch =>
    rintro (⟨n, rfl⟩ | ⟨i, rfl⟩)
    · exact touches_onWorld (show execHeartbeatRx n s = _ from h) (.whenDo (worldFrame_heartbeatRx n _))
    · exact touches_onWorld (show execCanHbLost i s = _ from h) (.whenDo (worldFrame_hbLost _ i))

end
